-- ==== Sys2Proof/Word.lean ====
section
/-! DEFINITION. The word types of the K26 and the numbered things of its spec: Fronds, slots, pipelines, channels, controllers. -/

namespace Sys2Proof

/-- One byte; memory is byte addressed and little-endian (R7). -/
abbrev Byte := BitVec 8
/-- A 32-bit register (R9). -/
abbrev Word32 := BitVec 32
/-- A 64-bit quantity in two consecutive registers (R9). -/
abbrev Word64 := BitVec 64
/-- A 40-bit device physical address (R25), kept as a number while it is compared with ranges. -/
abbrev Addr := Nat

/-- Physical Frond FP 0 to 143 (R6, R30). -/
abbrev Frond := Fin 144
/-- Stream slot of a Frond (R155). -/
abbrev Slot := Fin 2
/-- Bank of a Frond store (R149). -/
abbrev Bank := Fin 32
/-- Handle number of a Frond (R141). -/
abbrev HandleNo := Fin 256
/-- Pipeline PIPE0 to PIPE7 (R16). -/
abbrev Pipe := Fin 8
/-- Frame clock FCLK0 to FCLK3 (R14). -/
abbrev Fclk := Fin 4
/-- Ingest stream 0 to 63 (R51). -/
abbrev Stream := Fin 64
/-- CSI-2 receive port (R56). -/
abbrev CsiPort := Fin 12
/-- CSI-2 virtual channel (R59). -/
abbrev VirtChan := Fin 16
/-- PREP unit (R63). -/
abbrev PrepUnit := Fin 8
/-- Fabric quadrant Q0 to Q3 (R30). -/
abbrev Quad := Fin 4
/-- Physical memory channel 0 to 143 (R462). -/
abbrev PhysChan := Fin 144
/-- Logical memory channel 0 to 127 (R463). -/
abbrev LogChan := Fin 128
/-- Memory controller group MCG0 to MCG3 (R462). -/
abbrev Group := Fin 4
/-- Context 0 to 16,383 (R225). -/
abbrev Ctx := Fin 16384
/-- KV pool 0 to 3 (R253). -/
abbrev PoolNo := Fin 4
/-- Submission queue 0 to 63 (R401). -/
abbrev SqNo := Fin 64
/-- Completion queue 0 to 63 (R401). -/
abbrev CqNo := Fin 64
/-- A completion queue, or 64 for the event queue (R401). -/
abbrev CqOrEvq := Fin 65
/-- CAN FD controller CAN0 to CAN7 (R370). -/
abbrev CanNo := Fin 8
/-- Message object of a CAN controller (R374). -/
abbrev ObjNo := Fin 128
/-- Ethernet port 0 to 3 (R516). -/
abbrev EthPort := Fin 4
/-- Transmit stream of an Ethernet port (R520). -/
abbrev TxStream := Fin 16
/-- Queue pair 0 to 1,023 (R524). -/
abbrev Qpn := Fin 1024
/-- DMA channel 0 to 31 (R434). -/
abbrev DmaChan := Fin 32
/-- NOC initiator identifier (R28). -/
abbrev Initiator := BitVec 8

/-- A sparse table in canonical form: keys strictly rising, no entry equal to what an unlisted key reads as. -/
abbrev Tab (α : Type) := List (Nat × α)

end Sys2Proof
end

