-- ==== Sys2Proof/Syntax.lean ====
section
/-! DEFINITION. The commands of the K26: one constructor of Instr per row of opcode_table.json, with the row's operands. -/

namespace Sys2Proof

/-- The six stages of a pipeline, in order (R16). -/
inductive Stage where
  | ingest | prep | perceive | plan | check | egress
deriving DecidableEq, Repr

/-- What a CSI-2 receiver finds in a packet header's ECC (R60). -/
inductive Ecc where
  | good | corrected | uncorrectable
deriving DecidableEq, Repr

/-- A register access's width as it arrives (R9): 1, 2, 4 or 8 bytes. -/
inductive AccessWidth where
  | w8 | w16 | w32 | w64
deriving DecidableEq, Repr

/-- A symbol error: position in its code word and the bits flipped (log 10). -/
structure SymErr where
  pos : Fin 68
  flip : Byte
deriving DecidableEq, Repr

/-- What one attempt of a memory channel's transfer suffers: places among its 69 bytes, the code word and its link CRC-8, and the bits
flipped there (R467; log 10). -/
abbrev LinkErr := List (Fin 69 × Byte)

/-- What strikes one memory access: the symbol errors of its line as it is read (R470), and what each attempt of its transfer before the
good one suffers on the link (R467). -/
structure LineErrs where
  syms : List SymErr := []
  link : List LinkErr := []
deriving DecidableEq, Repr

/-- A row whose lines are copied to a spare, and the symbol errors its 16 lines then show (R479). -/
structure RowCopy where
  row : Nat
  errs : List (Fin 16 × List SymErr) := []
deriving DecidableEq, Repr

/-- A group whose migration copies a block, and the symbol errors its four lines then show (R480). -/
structure GroupCopy where
  group : Group
  errs : List (Fin 4 × List SymErr) := []
deriving DecidableEq, Repr

/-- What the fabric's start-up finds: Fronds that fail their self-test, Fronds that fail their golden sequence, and the store banks whose
spare rows its remaps use (R36, R140, R294). -/
structure SelfTest where
  failed : List Frond := []
  goldenBad : List Frond := []
  spared : List (Frond × Fin 32 × Fin 17) := []
deriving DecidableEq, Repr

/-- A write of CTRL.INIT = 1 to a controller, and whether another node's frame is on its bus (R372). -/
structure InitWrite where
  can : CanNo
  busy : Bool := false
deriving DecidableEq, Repr

/-- A physical upset while a descriptor runs (log 10): of one accumulator cell, whose value it changes by an amount (row 32 and
column 64 are the checksum row and column, R102), or of one 35-symbol word of the Frond's store (R138). -/
inductive Upset where
  | cell (row : Fin 33) (col : Fin 65) (delta : BitVec 32)
  | word (w : Fin 262144) (errs : List SymErr)
deriving DecidableEq, Repr

/-- What a NOC transaction asks for (R26). -/
inductive BusAcc where
  | read (len : Nat)
  | write (data : List Byte)
deriving DecidableEq, Repr

/-- A NOC transaction: initiator (R28), virtual channel (R31), first byte, access, and the symbols in
error in each flit it carries (R33) and in the store words it reads (R139). -/
structure NocAccess where
  init : Initiator
  vc : Fin 4
  addr : Addr
  acc : BusAcc
  flitErrs : List (List SymErr)
  storeErrs : List (Fin 262144 × List SymErr)
  /-- the host's access of BAR4, at the offset addr (R415, R433) -/
  bar4 : Bool := false
deriving DecidableEq, Repr

/-- A CAN or CAN FD frame on the bus (R374). -/
structure CanFrame where
  id : BitVec 29
  ide : Bool
  rtr : Bool
  fdf : Bool
  brs : Bool
  esi : Bool
  dlc : BitVec 4
  data : List Byte
deriving DecidableEq, Repr

/-- A bus error as the controller sees it (R372, ISO 11898-1; log 16). -/
inductive CanError where
  | txError          -- an error while transmitting
  | txAckPassive     -- an acknowledgement error while error passive, no dominant bit seen
  | txArbStuff       -- a stuff error during arbitration: TEC unchanged
  | rxError          -- an error detected while receiving
  | rxPrimary        -- a receiver that saw a dominant bit first after its error flag
  | txDominant8      -- a further eight dominant bits after an error or overload flag, transmitting
  | rxDominant8      -- the same, receiving
deriving DecidableEq, Repr

/-- A clock domain outside the fabric quadrants whose clock can be lost (R558). -/
inductive ClockDomain where
  | noc | mcg (g : Group) | loop | saf | pcie | eth (n : EthPort) | csig (g : Fin 4) | can | twin | prep | aon | time
deriving DecidableEq, Repr

/-- Why a received frame is discarded by the port itself (R519). -/
inductive RxDiscard where
  | fcs | checksum | oversize | fragment | noClass
deriving DecidableEq, Repr

/-- The source addresses of a peer command frame, to which its completions go (R420). -/
structure PeerAddr where
  mac : BitVec 48
  ipv6 : Bool
  ip : BitVec 128
  udp : BitVec 16
deriving DecidableEq, Repr

/-- A gPTP message as the time service uses it (R523). -/
inductive GptpMsg where
  | announce (priority1 : BitVec 8) (identity : BitVec 64) (steps : BitVec 16) (domain : BitVec 8)
  | sync (domain : BitVec 8) (masterTime : Word64)
  | pdelay
deriving DecidableEq, Repr

/-- A host completion to an outbound request (R535). -/
inductive CplKind where
  | data (bytes : List Byte)
  | poisoned (bytes : List Byte)
  | ur
  | ca
deriving DecidableEq, Repr

/-- A HEARTBEAT frame as received from the peer (R496, R498). -/
structure PeerHeartbeat where
  seq : BitVec 32
  time : Word64
  mode : BitVec 2
  runMask : BitVec 8
  frames : List Word32
  crcOk : Bool
deriving DecidableEq, Repr

/-- An inbound RoCE v2 packet (R526 to R529). -/
structure RocePkt where
  opcode : BitVec 8
  qpn : BitVec 24
  psn : BitVec 24
  ackReq : Bool
  va : Word64
  rkey : Word32
  dmaLen : Word32
  imm : Word32
  syndrome : Byte
  payload : List Byte
  ecnMarked : Bool
deriving DecidableEq, Repr

/-- The commands of the device: one constructor per row of spec/opcode_table.json. -/
inductive Instr where
  /-- PORST_N_RELEASE (R36). -/
  | porstNRelease (bootSrc : Bool) (twinRole : Bool) (xtal : Bool)
  /-- SYSRST_N_RELEASE (R620). -/
  | sysrstNRelease (bootSrc : Bool) (twinRole : Bool) (xtal : Bool)
  /-- MEMORY_TRAINING_DONE (R484). -/
  | memoryTrainingDone (failed : List PhysChan)
  /-- FABRIC_SELF_TEST_DONE (R36). -/
  | fabricSelfTestDone (found : SelfTest)
  /-- DROOP_CALIBRATION_DONE (R562). -/
  | droopCalibrationDone (q : Quad) (ok : Bool)
  /-- PUSH_LEN_DOORBELL (R586). -/
  | pushLenDoorbell (len : Word32)
  /-- FCLK_ENABLE (R14). -/
  | fclkEnable (n : Fclk)
  /-- FCLK_DISABLE (R15). -/
  | fclkDisable (n : Fclk)
  /-- FCLK_PERIOD_WRITE (R15). -/
  | fclkPeriodWrite (n : Fclk) (period : Word32)
  /-- FCLK_EDGE (R14). -/
  | fclkEdge (n : Fclk)
  /-- GOLDEN_CLOCK_EDGE (R325). -/
  | goldenClockEdge
  /-- GOLDEN_DEADLINE (R327). -/
  | goldenDeadline
  /-- GOLDEN (R326). -/
  | golden (fp : Frond)
  /-- GOLDEN_RESULT (R328). -/
  | goldenResult (fp : Frond) (pass : Bool)
  /-- CSI_FRAME_START (R52). -/
  | csiFrameStart (port : CsiPort) (vc : VirtChan) (ecc : Ecc)
  /-- CSI_LONG_PACKET (R53). -/
  | csiLongPacket (port : CsiPort) (vc : VirtChan) (dt : BitVec 6) (payload : List Byte) (crcOk : Bool) (ecc : Ecc)
  /-- CSI_FRAME_END (R55). -/
  | csiFrameEnd (port : CsiPort) (vc : VirtChan) (ecc : Ecc)
  /-- INGEST_DEADLINE (R54). -/
  | ingestDeadline (p : Pipe)
  /-- UDP_INGEST_PAYLOAD (R61). -/
  | udpIngestPayload (port : EthPort) (dport : BitVec 16) (payload : List Byte)
  /-- UDP_WINDOW_CLOSE (R61). -/
  | udpWindowClose (st : Stream)
  /-- HOST_SUBMIT (R62). -/
  | hostSubmit (hi : Word32)
  /-- ROI_WINDOW_WRITE (R77). -/
  | roiWindowWrite (st : Stream) (word : Fin 128) (value : Word32)
  /-- ROI_COMMIT (R95). -/
  | roiCommit (st : Stream) (target : Word32)
  /-- PREP_JOB_DISPATCH (R64). -/
  | prepJobDispatch (p : Pipe)
  /-- PREP_JOB_DONE (R73). -/
  | prepJobDone (u : PrepUnit)
  /-- SLOT_GO (R156). -/
  | slotGo (fp : Frond) (k : Slot)
  /-- SLOT_ABORT (R156). -/
  | slotAbort (fp : Frond) (k : Slot)
  /-- DESCRIPTOR_FETCH (R158). -/
  | descriptorFetch (fp : Frond) (k : Slot)
  /-- DESCRIPTOR_COMPLETE (R156). -/
  | descriptorComplete (fp : Frond) (k : Slot) (seq : Word32)
  /-- SPAN_TIMER_EXPIRY (R157). -/
  | spanTimerExpiry (fp : Frond) (k : Slot)
  /-- MATMUL (R122). -/
  | matmul (fp : Frond) (k : Slot) (upset : List Upset)
  /-- CONVTAP (R188). -/
  | convtap (fp : Frond) (k : Slot) (upset : List Upset)
  /-- ATTN (R215). -/
  | attn (fp : Frond) (k : Slot) (upset : List Upset)
  /-- VEC (R130). -/
  | vec (fp : Frond) (k : Slot)
  /-- VEC_PLOAD (R129). -/
  | vecPload (fp : Frond) (k : Slot)
  /-- POOL (R192). -/
  | pool (fp : Frond) (k : Slot)
  /-- ARGMAX (R195). -/
  | argmax (fp : Frond) (k : Slot)
  /-- LOADM (R164). -/
  | loadm (fp : Frond) (k : Slot)
  /-- STOREM (R165). -/
  | storem (fp : Frond) (k : Slot)
  /-- MOVE (R167). -/
  | move (fp : Frond) (k : Slot)
  /-- CBLOAD (R168). -/
  | cbload (fp : Frond) (k : Slot)
  /-- WAIT (R162). -/
  | wait (fp : Frond) (k : Slot)
  /-- SIGNAL (R162). -/
  | signal (fp : Frond) (k : Slot)
  /-- OPTSTEP (R269). -/
  | optstep (fp : Frond) (k : Slot)
  /-- KVAPPEND (R241). -/
  | kvappend (fp : Frond) (k : Slot)
  /-- SORUS (R246). -/
  | sorus (fp : Frond) (k : Slot)
  /-- BANKPWR (R169). -/
  | bankpwr (fp : Frond) (k : Slot)
  /-- BANK_FENCE_RESOLVE (R150). -/
  | bankFenceResolve (fp : Frond) (b : Bank)
  /-- BANK_FENCE_ABANDON (R150). -/
  | bankFenceAbandon (fp : Frond) (b : Bank)
  /-- BANK_TRANSITION_DONE (R152). -/
  | bankTransitionDone (fp : Frond) (b : Bank)
  /-- STORE_CORRECTION_WRITEBACK (R139). -/
  | storeCorrectionWriteback (fp : Frond)
  /-- FRND_EPOCH_WRITE (R143). -/
  | frndEpochWrite (fp : Frond) (epoch : BitVec 12)
  /-- FRND_FILL (R173). -/
  | frndFill (fp : Frond) (value : Word32)
  /-- FILL_RAISE (R147). -/
  | fillRaise (fp : Frond) (h : HandleNo) (value : BitVec 32)
  /-- HANDLE_ENTRY_WRITE (R181). -/
  | handleEntryWrite (fp : Frond) (h : HandleNo) (word : Fin 4) (value : Word32)
  /-- NOC_TRANSACTION (R26). -/
  | nocTransaction (x : NocAccess)
  /-- REGISTER_WRITE (R10). -/
  | registerWrite (init : Initiator) (off : Nat) (width : AccessWidth) (value : Word64)
  /-- MODEL_REGISTER (R288). -/
  | modelRegister (tag : Nat)
  /-- MODEL_WARM (R288). -/
  | modelWarm (tag : Nat)
  /-- MODEL_EVICT (R288). -/
  | modelEvict (tag : Nat)
  /-- MODEL_RETIRE (R288). -/
  | modelRetire (tag : Nat)
  /-- SHARD_LOAD_DONE (R289). -/
  | shardLoadDone (fp : Frond) (slot : Fin 2)
  /-- CTX_CREATE (R228). -/
  | ctxCreate (tag : Nat)
  /-- CTX_DESTROY (R227). -/
  | ctxDestroy (tag : Nat)
  /-- CTX_FORK (R236). -/
  | ctxFork (tag : Nat)
  /-- CTX_TRIM (R238). -/
  | ctxTrim (tag : Nat)
  /-- CONTEXT_DRAINED (R227). -/
  | contextDrained (ctx : Ctx)
  /-- RUN (R410). -/
  | run (tag : Nat)
  /-- RUN_CHAIN (R410). -/
  | runChain (tag : Nat)
  /-- RUN_DISPATCH (R291). -/
  | runDispatch
  /-- RUN_COMPLETE (R410). -/
  | runComplete (run : Nat)
  /-- CANCEL (R411). -/
  | cancel (tag : Nat)
  /-- KV_PAGE_RESOLVE (R241). -/
  | kvPageResolve (fp : Frond) (k : Slot)
  /-- SORUS_WALK (R245). -/
  | sorusWalk (fp : Frond) (k : Slot)
  /-- KV_UNPIN (R239). -/
  | kvUnpin (fp : Frond) (k : Slot)
  /-- KV_APPEND_COMMIT (R241). -/
  | kvAppendCommit (fp : Frond) (k : Slot)
  /-- KVPOOL_ENABLE (R254). -/
  | kvpoolEnable (p : PoolNo)
  /-- KVPOOL_DISABLE (R254). -/
  | kvpoolDisable (p : PoolNo)
  /-- KVPOOL_BUILD_DONE (R254). -/
  | kvpoolBuildDone (p : PoolNo)
  /-- PIPE_CONFIG (R88). -/
  | pipeConfig (tag : Nat)
  /-- PIPE_START (R412). -/
  | pipeStart (tag : Nat)
  /-- PIPE_STOP (R412). -/
  | pipeStop (tag : Nat)
  /-- ROI_SEED (R80). -/
  | roiSeed (tag : Nat)
  /-- NOP (R408). -/
  | nop (tag : Nat)
  /-- IDENTIFY (R409). -/
  | identify (tag : Nat)
  /-- GET_STATUS (R409). -/
  | getStatus (tag : Nat)
  /-- SET_SLEEP (R564). -/
  | setSleep (tag : Nat) (motion : Bool)
  /-- SET_PLEVEL (R556). -/
  | setPlevel (tag : Nat)
  /-- ATTEST (R602). -/
  | attest (tag : Nat)
  /-- FW_WRITE (R594). -/
  | fwWrite (tag : Nat)
  /-- FW_FLASH_WRITE_DONE (R594). -/
  | fwFlashWriteDone (ok : Bool)
  /-- FUSE_PROGRAM (R599). -/
  | fuseProgram (tag : Nat) (bad : BitVec 128)
  /-- EVENT_ARM (R417). -/
  | eventArm (tag : Nat)
  /-- SQ_TAIL_DOORBELL (R406). -/
  | sqTailDoorbell (n : SqNo) (value : Word32)
  /-- CQ_HEAD_DOORBELL (R406). -/
  | cqHeadDoorbell (n : CqNo) (value : Word32)
  /-- EVQ_HEAD_DOORBELL (R417). -/
  | evqHeadDoorbell (value : Word32)
  /-- SQ_ENABLE (R401). -/
  | sqEnable (n : SqNo) (cfg : Word32)
  /-- SQ_DISABLE (R401). -/
  | sqDisable (n : SqNo) (cfg : Word32)
  /-- CQ_ENABLE (R401). -/
  | cqEnable (q : CqOrEvq) (cfg : Word32)
  /-- CQ_DISABLE (R401). -/
  | cqDisable (q : CqOrEvq) (cfg : Word32)
  /-- COMMAND_FETCH (R402). -/
  | commandFetch
  /-- COMPLETION_POST (R405). -/
  | completionPost (q : CqNo)
  /-- PEER_COMMAND_FRAME (R420). -/
  | peerCommandFrame (port : EthPort) (frame : List Byte) (src : PeerAddr)
  /-- WDOG_CLOSE (R331). -/
  | wdogClose (p : Pipe) (stage : Stage)
  /-- WDOG_EXPIRY (R331). -/
  | wdogExpiry (p : Pipe) (stage : Stage)
  /-- CHECK_COMPLETE (R16). -/
  | checkComplete (p : Pipe) (plan : List (Fin 16 × List Byte))
  /-- SAFE_RESTART (R339). -/
  | safeRestart (failed : List Frond)
  /-- MOSS_RUN_START (R335). -/
  | mossRunStart (p : Pipe)
  /-- MOSS_RUN_END (R336). -/
  | mossRunEnd (p : Pipe) (payloads : List (Fin 16 × List Byte)) (envelope : Option (List (Fin 16 × Fin 4 × Int × Int))) (us : Nat)
  /-- MOSS_OVERRUN (R337). -/
  | mossOverrun (p : Pipe)
  /-- LOCKSTEP (R341). -/
  | lockstep
  /-- CLKLOSS (R341). -/
  | clkloss
  /-- HEARTBEAT (R341). -/
  | heartbeat
  /-- HEARTBEAT_SERVICE (R341). -/
  | heartbeatService
  /-- VDD_SAF_UNDERVOLTAGE (R341). -/
  | vddSafUndervoltage
  /-- FAULT_RECORD (R344). -/
  | faultRecord (queueFull : Bool)
  /-- CAN_LEAVE_INIT (R372). -/
  | canLeaveInit (m : CanNo)
  /-- CAN_ENTER_INIT (R372). -/
  | canEnterInit (m : InitWrite)
  /-- BOREC (R389). -/
  | borec (m : CanNo)
  /-- CAN_INTEGRATION_DONE (R372). -/
  | canIntegrationDone (m : CanNo)
  /-- CAN_RECOVERY_DONE (R372). -/
  | canRecoveryDone (m : CanNo)
  /-- CAN_BUS_ERROR (R372). -/
  | canBusError (m : CanNo) (kind : CanError)
  /-- CAN_FRAME_RECEIVE (R375). -/
  | canFrameReceive (m : CanNo) (frame : CanFrame) (age : Word32)
  /-- TXREQ (R377). -/
  | txreq (m : CanNo) (word : Fin 4) (bits : Word32)
  /-- TXABORT (R377). -/
  | txabort (m : CanNo) (word : Fin 4) (bits : Word32)
  /-- CAN_RX_GET (R375). -/
  | canRxGet (m : CanNo) (value : Word32)
  /-- CAN_RXCFG_WRITE (R375). -/
  | canRxcfgWrite (m : CanNo) (value : Word32)
  /-- CAN_SUBMIT (R378). -/
  | canSubmit (m : CanNo) (o : ObjNo)
  /-- CAN_ARBITRATION (R379). -/
  | canArbitration (m : CanNo)
  /-- CAN_TX_DONE (R377). -/
  | canTxDone (m : CanNo) (ok : Bool)
  /-- CAN_REFERENCE_SEND (R382). -/
  | canReferenceSend (m : CanNo)
  /-- CAN_SYNC_TIMEOUT (R384). -/
  | canSyncTimeout (m : CanNo)
  /-- CAN_TT_MISSED (R385). -/
  | canTtMissed (m : CanNo) (o : ObjNo)
  /-- ETH_PORT_ENABLE (R539). -/
  | ethPortEnable (n : EthPort) (cfg : Word32)
  /-- ETH_LINK_UP (R516). -/
  | ethLinkUp (n : EthPort) (rate : BitVec 2) (fec : BitVec 2)
  /-- ETH_LINK_DOWN (R516). -/
  | ethLinkDown (n : EthPort)
  /-- ETH_TX_SEND (R520). -/
  | ethTxSend (n : EthPort) (ts : TxStream) (len : Word32)
  /-- ETH_TX_DONE (R520). -/
  | ethTxDone (n : EthPort) (ts : TxStream)
  /-- ETH_GATE_COMMIT (R522). -/
  | ethGateCommit (n : EthPort)
  /-- ETH_GATE_SWITCH (R522). -/
  | ethGateSwitch (n : EthPort)
  /-- ETH_GATE_INTERVAL (R522). -/
  | ethGateInterval (n : EthPort)
  /-- GPTP_MESSAGE (R523). -/
  | gptpMessage (n : EthPort) (msg : GptpMsg)
  /-- GPTP_SYNC_TIMEOUT (R523). -/
  | gptpSyncTimeout
  /-- QP_SQ_DOORBELL (R550). -/
  | qpSqDoorbell (qpn : Qpn) (idx : BitVec 16)
  /-- QP_RQ_DOORBELL (R550). -/
  | qpRqDoorbell (qpn : Qpn) (idx : BitVec 16)
  /-- QP_CQ_DOORBELL (R550). -/
  | qpCqDoorbell (qpn : Qpn) (idx : BitVec 16)
  /-- QP_LOAD_CONTEXT (R525). -/
  | qpLoadContext (qpn : Qpn)
  /-- ROCE_WORK_REQUEST (R526). -/
  | roceWorkRequest (qpn : Qpn)
  /-- ROCE_PACKET (R528). -/
  | rocePacket (n : EthPort) (pkt : RocePkt)
  /-- ROCE_ACK_TIMEOUT (R524). -/
  | roceAckTimeout (qpn : Qpn)
  /-- ROCE_RATE_RECOVERY (R524). -/
  | roceRateRecovery (qpn : Qpn)
  /-- BAR2_ACCESS (R534). -/
  | bar2Access (off : Nat) (acc : BusAcc)
  /-- PCIE_COMPLETION (R535). -/
  | pcieCompletion (tag : Nat) (kind : CplKind)
  /-- PCIE_COMPLETION_TIMEOUT (R535). -/
  | pcieCompletionTimeout (tag : Nat)
  /-- PCIE_LINK_RESET (R537). -/
  | pcieLinkReset
  /-- DMA_GO (R442). -/
  | dmaGo (n : DmaChan)
  /-- DMA_ABORT (R442). -/
  | dmaAbort (n : DmaChan)
  /-- DMA_RESUME (R450). -/
  | dmaResume (n : DmaChan)
  /-- DMA_DESCRIPTOR_FETCH (R441). -/
  | dmaDescriptorFetch (n : DmaChan)
  /-- DMA_DESCRIPTOR_COMPLETE (R443). -/
  | dmaDescriptorComplete (n : DmaChan)
  /-- DMA_BUS_ERROR (R447). -/
  | dmaBusError (n : DmaChan) (write : Bool) (addr : Addr)
  /-- DMA_RETRY (R450). -/
  | dmaRetry (n : DmaChan) (ok : Bool)
  /-- MEM_READ (R474). -/
  | memRead (init : Initiator) (cls : Fin 4) (addr : Addr) (errs : LineErrs)
  /-- MEM_WRITE (R475). -/
  | memWrite (init : Initiator) (cls : Fin 4) (addr : Addr) (data : List Byte) (poison : Bool) (errs : LineErrs)
  /-- MEM_CHANNEL_RETRAIN (R468). -/
  | memChannelRetrain (pch : PhysChan) (ok : Bool)
  /-- SPARE_POISON_FILL_DONE (R481). -/
  | sparePoisonFillDone (lch : LogChan)
  /-- SCRUB_STEP (R478). -/
  | scrubStep (errs : List (LogChan × List SymErr))
  /-- ROW_SPARE_DONE (R479). -/
  | rowSpareDone (pch : PhysChan) (row : RowCopy)
  /-- MIGRATE_REQUEST (R488). -/
  | migrateRequest (value : Word32)
  /-- MIGRATION_BLOCK_COPY (R480). -/
  | migrationBlockCopy (g : GroupCopy)
  /-- TOKEN_PERIOD (R483). -/
  | tokenPeriod (g : Group)
  /-- TWIN_LINK_UP (R494). -/
  | twinLinkUp (spared : BitVec 3)
  /-- TWIN_LANE_LOSS (R495). -/
  | twinLaneLoss (lanes : BitVec 5)
  /-- TWIN_TRAIN_RETRY (R495). -/
  | twinTrainRetry (ok : Bool) (spared : BitVec 3)
  /-- HEARTBEAT_SEND (R498). -/
  | heartbeatSend
  /-- HEARTBEAT_RECEIVE (R499). -/
  | heartbeatReceive (hb : PeerHeartbeat)
  /-- HEARTBEAT_LOSS (R499). -/
  | heartbeatLoss
  /-- DIGEST_COMPUTE_DONE (R505). -/
  | digestComputeDone (p : Pipe)
  /-- DIGEST_RESEND (R505). -/
  | digestResend (p : Pipe)
  /-- DIGEST_RECEIVE (R506). -/
  | digestReceive (p : Pipe) (frame : Word32) (roiAge : BitVec 8) (corrupt : BitVec 8) (digest : BitVec 256) (good : Bool)
  /-- DIGWAIT_EXPIRY (R506). -/
  | digwaitExpiry (p : Pipe)
  /-- PEER_FAULT_N_HIGH (R503). -/
  | peerFaultNHigh
  /-- PEER_FAULT_N_LOW (R503). -/
  | peerFaultNLow
  /-- TAKEOVER_WAIT_EXPIRY (R503). -/
  | takeoverWaitExpiry
  /-- PEER_KILL (R504). -/
  | peerKill
  /-- PMIC_WRITE_DONE (R555). -/
  | pmicWriteDone (ack : Bool)
  /-- PMIC_RETRY (R555). -/
  | pmicRetry (ack : Bool)
  /-- PMIC_SETTLE_EXPIRY (R555). -/
  | pmicSettleExpiry
  /-- PLL_LOCK (R557). -/
  | pllLock (q : Quad) (b : Bool)
  /-- PLL_LOCK_LOST (R557). -/
  | pllLockLost (q : Quad)
  /-- PLL_RELOCK_RETRY (R557). -/
  | pllRelockRetry (q : Quad) (b : Bool) (ok : Bool)
  /-- DOMAIN_CLOCK_LOSS (R558). -/
  | domainClockLoss (d : ClockDomain)
  /-- MCG_CLOCK_WAIT_EXPIRY (R558). -/
  | mcgClockWaitExpiry (g : Group)
  /-- THERMAL_FORCE_STEP (R559). -/
  | thermalForceStep (q : Quad) (temp : BitVec 16)
  /-- THERMAL_LIFT_STEP (R559). -/
  | thermalLiftStep (q : Quad) (temp : BitVec 16)
  /-- DROOP_DETECT (R560). -/
  | droopDetect (q : Quad) (fcycles : Nat)
  /-- DROOP_RECOVER (R560). -/
  | droopRecover (q : Quad)
  /-- SLEEP_ENTRY_COMPLETE (R565). -/
  | sleepEntryComplete
  /-- VEH_MOTION_RISE (R566). -/
  | vehMotionRise
  /-- WAKE_N_LOW (R566). -/
  | wakeNLow
  /-- WAKE_TIMER_EXPIRY (R566). -/
  | wakeTimerExpiry
  /-- SLEEP_EXIT_COMPLETE (R568). -/
  | sleepExitComplete
  /-- PAD_HOLD_RELEASE (R581). -/
  | padHoldRelease (init : Initiator) (value : Word32)
  /-- UNLOCK (R603). -/
  | unlock
  /-- RHIZOME_LOCKSTEP_MISMATCH (R338). -/
  | rhizomeLockstepMismatch
  /-- DOMAIN_CLOCK_RETURN (R558). -/
  | domainClockReturn (d : ClockDomain)
  /-- PCIE_LINK_UP (R552). -/
  | pcieLinkUp (width : BitVec 4) (speed : BitVec 3)
  /-- TWIN_IMAGE_REQUEST (R584). -/
  | twinImageRequest
  /-- TWIN_IMAGE_RECEIVED (R586). -/
  | twinImageReceived (image : List Byte)
  /-- ARP_REQUEST (R518). -/
  | arpRequest (n : EthPort) (ipv6 : Bool) (target : BitVec 128) (sender : BitVec 128) (senderMac : BitVec 48)
  /-- ETH_RX_DISCARD (R519). -/
  | ethRxDiscard (n : EthPort) (reason : RxDiscard)
  /-- GPTP_SYNC_INTERVAL (R523). -/
  | gptpSyncInterval (n : EthPort)
  /-- IMU_TRANSFER (R335). -/
  | imuTransfer (ok : Bool) (sample : List Byte)
  /-- EPOCH_INVALIDATION_DONE (R143). -/
  | epochInvalidationDone (fp : Frond)
  /-- POSTING_REPEAT (R436). -/
  | postingRepeat
  /-- PORST_N_ASSERT (R619). -/
  | porstNAssert
  /-- SYSRST_N_ASSERT (R620). -/
  | sysrstNAssert
  /-- VDD_SAF_RESTORED (R341). -/
  | vddSafRestored
deriving DecidableEq, Repr

end Sys2Proof
end

