-- ==== Sys2Proof/Decode.lean ====
section
/-! DEFINITION. Commands spelt by words. The device takes commands from its pins, registers and links; no row of
opcode_table.json gives bits, so no word spells one. -/

namespace Sys2Proof

/-- The command a word spells by the table's bits: the table gives no row any bits. -/
def decodeTableWord (_nbits _w : Nat) : Option Instr := none

end Sys2Proof
end

