-- ==== Sys2Proof/Config.lean ====
section
/-! DEFINITION. What an implementation fixes and the spec leaves open: the free values. None has a body Lean can see,
so a claim about the model holds whatever they are (log 8, 9, 17). -/

namespace Sys2Proof.Config

/-- A free value of w bits; the argument is the state's counter freeCtr when it is drawn (log 8). -/
opaque freeValue : (w : Nat) → Nat → BitVec w

/-- The bits a special function of the vector unit returns, used where they lie within the error bound the spec gives
(R128, R214; log 9). The first argument is the opcode of
R126, or for the rotary unit 0x10000 (cosine) or 0x20000 (sine) plus the phase's high 16 bits; the second is the operand, or the phase's
low word. -/
opaque special : Nat → BitVec 32 → BitVec 32

/-- The rounding error of sample (x, y) of a JPEG block's inverse transform, plus 1: the spec does not fix the transform to the bit
(R74; log 17). The block is its dequantised coefficients by zig-zag index. -/
opaque jpegError : List (Nat × Int) → Nat → Nat → Fin 3

/-- Where the feed lies in Moss's store: the spec states no address (R335; log 106). -/
opaque mossFeed : Nat

end Sys2Proof.Config
end

