-- ==== Sys2Proof/Machine/Table.lean ====
section
/-! DEFINITION. Sparse tables in canonical form, bytes and bit fields: the plain data operations every block uses. -/

namespace Sys2Proof.Machine

/-- What a table holds at key i; an unlisted key reads as the default d. -/
def tget {α : Type} (d : α) : Tab α → Nat → α
  | [], _ => d
  | (k, v) :: t, i => if k = i then v else tget d t i

/-- Put an entry before the first larger key. -/
def tins {α : Type} (i : Nat) (v : α) : Tab α → Tab α
  | [] => [(i, v)]
  | (k, w) :: t => if i < k then (i, v) :: (k, w) :: t else (k, w) :: tins i v t

/-- Take the entries of key i out. -/
def tdel {α : Type} (i : Nat) : Tab α → Tab α
  | [] => []
  | (k, w) :: t => if k = i then tdel i t else (k, w) :: tdel i t

/-- Write v at key i; writing the default leaves no entry, so equal tables are equal lists. -/
def tset {α : Type} [DecidableEq α] (d : α) (t : Tab α) (i : Nat) (v : α) : Tab α :=
  if v = d then tdel i t else tins i v (tdel i t)

/-- Every key of the list is above b and the keys rise strictly. -/
def risingFrom {α : Type} : Nat → Tab α → Bool
  | _, [] => true
  | b, (k, _) :: t => decide (b ≤ k) && risingFrom (k + 1) t

/-- The canonical form: keys strictly rising, no entry equal to the default. -/
def Tab.canonical {α : Type} [DecidableEq α] (d : α) (t : Tab α) : Bool :=
  risingFrom 0 t && t.all (fun e => decide (e.2 ≠ d))

/-- n consecutive entries from key a, lowest first. -/
def treadN {α : Type} (d : α) (t : Tab α) (a : Nat) : Nat → List α
  | 0 => []
  | n + 1 => tget d t a :: treadN d t (a + 1) n

/-- Write a list of values at consecutive keys from a. -/
def twriteN {α : Type} [DecidableEq α] (d : α) (t : Tab α) (a : Nat) : List α → Tab α
  | [] => t
  | v :: vs => twriteN d (tset d t a v) (a + 1) vs

/-- A little-endian number from bytes (R7). -/
def leNat : List Byte → Nat
  | [] => 0
  | b :: bs => b.toNat + 256 * leNat bs

/-- The n low bytes of a number, low byte first (R7). -/
def toLe : Nat → Nat → List Byte
  | 0, _ => []
  | n + 1, x => BitVec.ofNat 8 x :: toLe n (x / 256)

/-- Bits hi..lo of a number. -/
def bits (x hi lo : Nat) : Nat := (x / 2 ^ lo) % 2 ^ (hi + 1 - lo)

/-- Bit i of a number. -/
def bit (x i : Nat) : Bool := (x / 2 ^ i) % 2 = 1

/-- A number at a bit position. -/
def place (x lo : Nat) : Nat := x * 2 ^ lo

/-- One for true. -/
def b2n (b : Bool) : Nat := if b then 1 else 0

/-- Counters that saturate: one more, held at all ones. -/
def satInc {w : Nat} (x : BitVec w) : BitVec w := if x = BitVec.allOnes w then x else x + 1

/-- Saturating addition of n. -/
def satAdd {w : Nat} (x : BitVec w) (n : Nat) : BitVec w :=
  if x.toNat + n ≥ 2 ^ w then BitVec.allOnes w else BitVec.ofNat w (x.toNat + n)

/-- The n bytes at offset o of a byte list; bytes past its end read 0. -/
def slice (l : List Byte) (o n : Nat) : List Byte :=
  let x := (l.drop o).take n
  x ++ List.replicate (n - x.length) 0

/-- The little-endian field of n bytes at offset o. -/
def field (l : List Byte) (o n : Nat) : Nat := leNat (slice l o n)

/-- A signed reading of the w low bits of a number. -/
def signed (w x : Nat) : Int :=
  let y := x % 2 ^ w
  if y < 2 ^ (w - 1) then (y : Int) else (y : Int) - (2 ^ w : Nat)

/-- An integer as a w-bit two's complement number. -/
def unsigned (w : Nat) (x : Int) : Nat := (x % (2 ^ w : Nat)).toNat

/-- Ceiling division. -/
def cdiv (a b : Nat) : Nat := (a + b - 1) / b

/-- Replace element i of a list. -/
def setNth {α : Type} (l : List α) (i : Nat) (v : α) : List α := l.set i v

/-- A list with no repeats that holds x: x goes to the end unless it is there. -/
def addNew {α : Type} [DecidableEq α] (l : List α) (x : α) : List α := if x ∈ l then l else l ++ [x]

/-- Fold a state function over the numbers 0 to n - 1, in ascending order. -/
def forUpTo {σ : Type} (n : Nat) (f : Nat → σ → σ) (s : σ) : σ :=
  (List.range n).foldl (fun a i => f i a) s

/-- CRC-32 of IEEE 802.3, one bit (reflected polynomial 0xEDB88320). -/
def crc32Bit (c : Nat) : Nat := if c % 2 = 1 then (c / 2) ^^^ 0xEDB88320 else c / 2

/-- CRC-32 of IEEE 802.3, one byte. -/
def crc32Byte (c : Nat) (b : Byte) : Nat :=
  crc32Bit (crc32Bit (crc32Bit (crc32Bit (crc32Bit (crc32Bit (crc32Bit (crc32Bit (c ^^^ b.toNat))))))))

/-- CRC-32 of IEEE 802.3 over bytes in ascending order (R86, R334). -/
def crc32 (l : List Byte) : Nat := (l.foldl crc32Byte 0xFFFFFFFF) ^^^ 0xFFFFFFFF

end Sys2Proof.Machine
end

