-- ==== Sys2Proof/Machine/Float.lean ====
section
/-! DEFINITION. Number formats, exact values, rounding and conversion of the Fronds and PREP (R106 to R116, R127, R128, 03). -/

namespace Sys2Proof.Machine

/-- An FP32 word (format code 4 of R106). -/
abbrev F32 := BitVec 32

/-- An exact value: not a number, an infinity, or (-1)^neg · m · 2^e. Zero keeps its sign (R109). -/
inductive Fl where
  | nan
  | inf (neg : Bool)
  | fin (neg : Bool) (m : Nat) (e : Int)
deriving DecidableEq, Repr

/-- The exact value of an integer; zero is +0. -/
def Fl.ofInt (x : Int) : Fl := .fin (decide (x < 0)) x.natAbs 0

/-- The value with its sign flipped. -/
def Fl.neg : Fl → Fl
  | .nan => .nan
  | .inf s => .inf (!s)
  | .fin s m e => .fin (!s) m e

/-- The magnitude. -/
def Fl.abs : Fl → Fl
  | .nan => .nan
  | .inf _ => .inf false
  | .fin _ m e => .fin false m e

/-- Whether the value is neither infinite nor NaN. -/
def Fl.isFinite : Fl → Bool
  | .fin _ _ _ => true
  | _ => false

/-- Whether the value is a zero of either sign. -/
def Fl.isZero : Fl → Bool
  | .fin _ m _ => m = 0
  | _ => false

/-- The exact product; infinity times zero is NaN (R119). -/
def Fl.mul : Fl → Fl → Fl
  | .nan, _ => .nan
  | _, .nan => .nan
  | .inf a, .inf b => .inf (a != b)
  | .inf a, .fin b m _ => if m = 0 then .nan else .inf (a != b)
  | .fin a m _, .inf b => if m = 0 then .nan else .inf (a != b)
  | .fin a m e, .fin b n f => .fin (a != b) (m * n) (e + f)

/-- The signed integer of a finite value counted in units of 2^q, for q at most its exponent. -/
def Fl.units (q : Int) (s : Bool) (m : Nat) (e : Int) : Int :=
  let x : Int := (m * 2 ^ (e - q).toNat : Nat)
  if s then -x else x

/-- The exact sum; a zero sum of unlike signs is +0 and of two -0 is -0, as round-to-nearest gives. -/
def Fl.add : Fl → Fl → Fl
  | .nan, _ => .nan
  | _, .nan => .nan
  | .inf a, .inf b => if a = b then .inf a else .nan
  | .inf a, _ => .inf a
  | _, .inf b => .inf b
  | .fin a m e, .fin b n f =>
    let q := min e f
    let x := Fl.units q a m e + Fl.units q b n f
    if x = 0 then .fin (a && b) 0 q else .fin (decide (x < 0)) x.natAbs q

/-- The exact difference. -/
def Fl.sub (a b : Fl) : Fl := a.add b.neg

/-- Whether a < b; false when either is NaN. -/
def Fl.lt : Fl → Fl → Bool
  | .nan, _ => false
  | _, .nan => false
  | .inf a, .inf b => a && !b
  | .inf a, .fin _ _ _ => a
  | .fin _ _ _, .inf b => !b
  | .fin a m e, .fin b n f => let q := min e f; decide (Fl.units q a m e < Fl.units q b n f)

/-- Whether a ≤ b; false when either is NaN. -/
def Fl.le (a b : Fl) : Bool := a ≠ .nan && b ≠ .nan && !(b.lt a)

/-- m / 2^sh rounded to nearest, ties to even. -/
def rneShift (m sh : Nat) : Nat :=
  let q := m / 2 ^ sh
  let r := m % 2 ^ sh
  if 2 * r > 2 ^ sh ∨ (2 * r = 2 ^ sh ∧ q % 2 = 1 ∧ sh ≠ 0) then q + 1 else q

/-- m / 2^sh with hashed rounding: up when h16 is below the first 16 discarded bits (R111). -/
def hashShift (h16 m sh : Nat) : Nat :=
  let q := m / 2 ^ sh
  let f16 := (m % 2 ^ sh) * 65536 / 2 ^ sh
  if h16 < f16 then q + 1 else q

/-- How a conversion rounds: to nearest even, or hashed with the low half of the hash (R110, R111). -/
inductive Rounding where
  | nearest
  | hashed (h16 : Nat)
deriving DecidableEq, Repr

/-- m / 2^sh under a rounding. -/
def Rounding.shift (r : Rounding) (m sh : Nat) : Nat :=
  match r with
  | .nearest => rneShift m sh
  | .hashed h => hashShift h m sh

/-- A binary float format: exponent bits, mantissa bits, bias, and whether it has infinities (R106). -/
structure FpFmt where
  eb : Nat
  mb : Nat
  bias : Nat
  hasInf : Bool
deriving DecidableEq, Repr

def fmtE4M3 : FpFmt := ⟨4, 3, 7, false⟩
def fmtE5M2 : FpFmt := ⟨5, 2, 15, true⟩
def fmtBF16 : FpFmt := ⟨8, 7, 127, true⟩
def fmtFP16 : FpFmt := ⟨5, 10, 15, true⟩
def fmtFP32 : FpFmt := ⟨8, 23, 127, true⟩

/-- The exponent of the smallest subnormal. -/
def FpFmt.qmin (f : FpFmt) : Int := 1 - (f.bias : Int) - f.mb

/-- The value of a format's bits (R106, R109). -/
def FpFmt.decode (f : FpFmt) (x : Nat) : Fl :=
  let s := bit x (f.eb + f.mb)
  let ex := bits x (f.eb + f.mb - 1) f.mb
  let man := x % 2 ^ f.mb
  if f.hasInf then
    if ex = 2 ^ f.eb - 1 then (if man = 0 then .inf s else .nan)
    else if ex = 0 then .fin s man f.qmin
    else .fin s (man + 2 ^ f.mb) (f.qmin + (ex - 1 : Nat))
  else
    if ex = 2 ^ f.eb - 1 ∧ man = 2 ^ f.mb - 1 then .nan
    else if ex = 0 then .fin s man f.qmin
    else .fin s (man + 2 ^ f.mb) (f.qmin + (ex - 1 : Nat))

/-- The canonical NaN of the format (R110). -/
def FpFmt.nanBits (f : FpFmt) : Nat :=
  if f.hasInf ∧ f.mb > 2 then (2 ^ f.eb - 1) * 2 ^ f.mb + 2 ^ (f.mb - 1) else 2 ^ (f.eb + f.mb) - 1

/-- What an out-of-range magnitude becomes: infinity, or the largest finite value where there is none (R110). -/
def FpFmt.overflowBits (f : FpFmt) : Nat :=
  if f.hasInf then (2 ^ f.eb - 1) * 2 ^ f.mb else 2 ^ (f.eb + f.mb) - 2

/-- The magnitude bits of m·2^e in the format, rounded (R110, R111). -/
def FpFmt.magBits (f : FpFmt) (r : Rounding) (m : Nat) (e : Int) : Nat :=
  if m = 0 then 0 else
  let q : Int := max f.qmin (e + (Nat.log2 m : Nat) - f.mb)
  let n := if e ≥ q then m * 2 ^ (e - q).toNat else r.shift m (q - e).toNat
  -- n counts units of 2^q; a carry to 2^(mb+1) is the next binade's first value, which the sum below encodes
  let y := (q - f.qmin).toNat * 2 ^ f.mb + n
  if y > f.overflowBits ∨ (f.hasInf ∧ y ≥ f.overflowBits) then f.overflowBits else y

/-- The bits of a value in the format (R110, R111). -/
def FpFmt.encode (f : FpFmt) (r : Rounding) : Fl → Nat
  | .nan => f.nanBits
  | .inf s => place (b2n s) (f.eb + f.mb) + f.overflowBits
  | .fin s m e => place (b2n s) (f.eb + f.mb) + f.magBits r m e

/-- The value of an FP32 word. -/
def dec32 (x : F32) : Fl := fmtFP32.decode x.toNat

/-- A value rounded to nearest even in FP32 (R102, R113). -/
def rne32 (x : Fl) : F32 := BitVec.ofNat 32 (fmtFP32.encode .nearest x)

/-- The canonical FP32 NaN. -/
def nan32 : F32 := 0x7FC00000
def negInf32 : F32 := 0xFF800000
def posInf32 : F32 := 0x7F800000
def one32 : F32 := 0x3F800000

def fadd (a b : F32) : F32 := rne32 ((dec32 a).add (dec32 b))
def fsub (a b : F32) : F32 := rne32 ((dec32 a).sub (dec32 b))
def fmul (a b : F32) : F32 := rne32 ((dec32 a).mul (dec32 b))
/-- One rounding of a·b + c (R127). -/
def ffma (a b c : F32) : F32 := rne32 (((dec32 a).mul (dec32 b)).add (dec32 c))

/-- Whether the word is a NaN. -/
def isNan32 (a : F32) : Bool := dec32 a = .nan

/-- Maximum; NaN if either is NaN, and max(-0, +0) = +0 (R127). -/
def fmax (a b : F32) : F32 :=
  if isNan32 a || isNan32 b then nan32
  else if (dec32 a).lt (dec32 b) then b
  else if (dec32 b).lt (dec32 a) then a
  else if a.getLsbD 31 then b else a

/-- Minimum; NaN if either is NaN, and min(-0, +0) = -0 (R127). -/
def fmin (a b : F32) : F32 :=
  if isNan32 a || isNan32 b then nan32
  else if (dec32 a).lt (dec32 b) then a
  else if (dec32 b).lt (dec32 a) then b
  else if a.getLsbD 31 then a else b

/-- ABS: the sign bit cleared, of a NaN too. DESIGN CHOICE (log 114): the canonical NaN is stated of ADD, SUB, MUL and FMA only (R127). -/
def fabs32 (a : F32) : F32 := a &&& 0x7FFFFFFF
/-- NEG: the sign bit flipped, of a NaN too. DESIGN CHOICE (log 114). -/
def fneg32 (a : F32) : F32 := a ^^^ 0x80000000

/-- An FP32 word as BF16 and back, rounded to nearest even. -/
def toBf16 (a : F32) : BitVec 16 := BitVec.ofNat 16 (fmtBF16.encode .nearest (dec32 a))
def ofBf16 (a : BitVec 16) : F32 := rne32 (fmtBF16.decode a.toNat)

/-- A value rounded to an integer magnitude count under a rounding, with spacing 1. -/
def roundInt (r : Rounding) (s : Bool) (m : Nat) (e : Int) : Int :=
  let n := if e ≥ 0 then m * 2 ^ e.toNat else r.shift m (-e).toNat
  if s then -(n : Int) else n

/-- The integral value nearest to an FP32 value, ties to even, keeping the sign of zero (RINT of R126). -/
def frint (a : F32) : F32 :=
  match dec32 a with
  | .nan => nan32
  | .inf _ => a
  | .fin s m e => rne32 (.fin s (roundInt .nearest false m e).natAbs 0)

/-- Conversion to INT8 (R110). -/
def toInt8 (r : Rounding) : Fl → Nat
  | .nan => 0
  | .inf s => if s then 0x80 else 0x7F
  | .fin s m e => unsigned 8 (max (-128) (min 127 (roundInt r s m e)))

/-- Conversion of an FP32 value to E8M0 (R110). -/
def toE8M0 : Fl → Nat
  | .nan => 0xFF
  | .inf _ => 0xFF
  | .fin _ m e =>
    if m = 0 then 0 else
    let x : Int := e + (Nat.log2 m : Nat)
    if x < -126 then 0 else (min 127 x + 127).toNat

/-- The value of an E8M0 byte (R107). -/
def ofE8M0 (x : Nat) : Fl := if x % 256 = 255 then .nan else .fin false 1 ((x % 256 : Nat) - 127)

/-- The number of bytes of an element of a format code, 0 for the codebook and reserved codes (R106). -/
def fmtBytes : Nat → Nat
  | 0 => 1 | 1 => 1 | 2 => 2 | 3 => 2 | 4 => 4 | 5 => 1 | 7 => 1 | 8 => 4 | 9 => 1 | _ => 0

/-- The exact value of an element's bits under a format code (R106); codebook indices are decoded elsewhere. -/
def decodeFmt (code x : Nat) : Fl :=
  match code with
  | 0 => .ofInt (signed 8 x)
  | 1 => fmtE4M3.decode x
  | 2 => fmtBF16.decode x
  | 3 => fmtFP16.decode x
  | 4 => fmtFP32.decode x
  | 5 => fmtE5M2.decode x
  | 8 => .ofInt (signed 32 x)
  | 9 => ofE8M0 x
  | _ => .nan

/-- A value converted to a format code's bits (R110, R111). -/
def encodeFmt (code : Nat) (r : Rounding) (x : Fl) : Nat :=
  match code with
  | 0 => toInt8 r x
  | 1 => fmtE4M3.encode r x
  | 2 => fmtBF16.encode r x
  | 3 => fmtFP16.encode r x
  | 4 => fmtFP32.encode r x
  | 5 => fmtE5M2.encode r x
  | 9 => toE8M0 x
  | _ => 0

/-- The rounding hash (R111). -/
def hrnd (seed : Word32) (tid : BitVec 16) (idx : Word32) : Word32 :=
  let h := seed ^^^ (tid.setWidth 32 * 0x85EBCA6B#32) ^^^ (idx * 0x9E3779B9#32)
  let h := (h ^^^ (h >>> 16)) * 0x7FEB352D#32
  let h := (h ^^^ (h >>> 15)) * 0x846CA68B#32
  h ^^^ (h >>> 16)

/-- The rounding a descriptor selects for the element of index idx (R112). -/
def pickRounding (hashed : Bool) (seed : Word32) (tid : BitVec 16) (idx : Nat) : Rounding :=
  if hashed then .hashed ((hrnd seed tid (BitVec.ofNat 32 idx)).toNat % 65536) else .nearest

/-- One stage of the halving tree: element l with element l + n (R127). -/
def treeStage {α : Type} (f : α → α → α) (n : Nat) (l : List α) : List α := (l.take n).zipWith f (l.drop n)

/-- The halving tree over 2^k elements (R127). -/
def treeReduce {α : Type} (f : α → α → α) (d : α) : Nat → List α → α
  | 0, l => l.headD d
  | k + 1, l => treeReduce f d k (treeStage f (2 ^ k) l)

/-- Sum of 64 lanes in the halving tree (REDSUM, R127). -/
def redSum (l : List F32) : F32 := treeReduce fadd 0 6 l
/-- Maximum of 64 lanes in the halving tree (REDMAX, R127). -/
def redMax (l : List F32) : F32 := treeReduce fmax 0 6 l

/-! Special functions: a free value within the bound of R128 around a close approximation (log 9). -/

/-- The FP32 spacing at a magnitude, at least 2^-149 (R128). -/
def ulpOf : Fl → Fl
  | .fin _ m e => .fin false 1 (if m = 0 then -149 else max (-149) (e + (Nat.log2 m : Nat) - 23))
  | _ => .fin false 1 (-149)

/-- The free value where it lies within err of the approximation, else the approximation rounded. -/
def withinBound (free : F32) (approx err : Fl) : F32 :=
  if ((dec32 free).sub approx).abs.le err then free else rne32 approx

/-- 2 times a value. -/
def Fl.twice (x : Fl) : Fl := x.mul (.fin false 2 0)

/-- n steps of the exponential series in units of 2^-128: the sum of z^k / k!. -/
def expSeries (z : Nat) : Nat → Nat → Nat → Nat → Nat
  | 0, _, _, acc => acc
  | n + 1, k, term, acc =>
    let t := term * z / 2 ^ 128 / k
    expSeries z n (k + 1) t (acc + t)

/-- 2^f in units of 2^-128 for a fraction f in the same units. -/
def exp2Frac (f : Nat) : Nat :=
  expSeries (f * 235865763225513294137944142764154484399 / 2 ^ 128) 40 1 (2 ^ 128) (2 ^ 128)

/-- The fraction and floor of a finite value in units of 2^-128. -/
def fixed128 (s : Bool) (m : Nat) (e : Int) : Int :=
  let x : Int := if e ≥ -128 then (m * 2 ^ (e + 128).toNat : Nat) else ((m / 2 ^ (-128 - e).toNat : Nat) : Int)
  if s then -x else x

/-- A close approximation of 2^x. -/
def exp2Approx (s : Bool) (m : Nat) (e : Int) : Fl :=
  let x := fixed128 s m e
  .fin false (exp2Frac (x % (2 ^ 128 : Nat)).toNat) (x / (2 ^ 128 : Nat) - 128)

/-- The exponent of a finite value that is a power of two. -/
def powerOfTwo (m : Nat) (e : Int) : Option Int :=
  if m ≠ 0 ∧ m = 2 ^ Nat.log2 m then some (e + (Nat.log2 m : Nat)) else none

/-- The integer a finite value is, if it is one. -/
def integral (s : Bool) (m : Nat) (e : Int) : Option Int :=
  if e ≥ 0 then some (Fl.units 0 s m e)
  else if m % 2 ^ (-e).toNat = 0 then some (Fl.units 0 s (m / 2 ^ (-e).toNat) 0) else none

/-- EXP2 (R128); exact where the operand is integral (R202). -/
def fexp2 (a : F32) : F32 :=
  match dec32 a with
  | .nan => nan32
  | .inf s => if s then 0 else posInf32
  | .fin s m e =>
    if m = 0 then one32
    else if !((Fl.fin s m e).lt (.ofInt 128)) then posInf32
    else if (Fl.fin s m e).lt (.ofInt (-150)) then 0
    else
      let y := exp2Approx s m e
      match integral s m e with
      | some x => if -149 ≤ x then rne32 (.fin false 1 x) else withinBound (Config.special 0x14 a) y (ulpOf y).twice
      | none => withinBound (Config.special 0x14 a) y (ulpOf y).twice

/-- n bits of log2 of y in [1, 2), y in units of 2^-140, by repeated squaring. -/
def log2Frac : Nat → Nat → Nat → Nat
  | 0, _, acc => acc
  | n + 1, y, acc =>
    let z := y * y / 2 ^ 140
    if z ≥ 2 ^ 141 then log2Frac n (z / 2) (2 * acc + 1) else log2Frac n z (2 * acc)

/-- A close approximation of log2 of m·2^e. -/
def log2Approx (m : Nat) (e : Int) : Fl :=
  let k := Nat.log2 m
  let x : Int := ((e + (k : Nat)) * (2 ^ 100 : Nat)) + (log2Frac 100 (m * 2 ^ 140 / 2 ^ k) 0 : Nat)
  .fin (decide (x < 0)) x.natAbs (-100)

/-- LOG2 (R128). -/
def flog2 (a : F32) : F32 :=
  match dec32 a with
  | .nan => nan32
  | .inf s => if s then nan32 else posInf32
  | .fin s m e =>
    if m = 0 then negInf32
    else if s then nan32
    else
      let y := log2Approx m e
      let near := !((Fl.fin s m e).lt (.fin false 1 (-1))) && !((Fl.ofInt 2).lt (.fin s m e))
      withinBound (Config.special 0x15 a) y (if near then .fin false 1 (-22) else (ulpOf y).twice)

/-- The bits of the integer square root of x, from bit k - 1 down. -/
def isqrtBits (x : Nat) : Nat → Nat → Nat
  | 0, r => r
  | k + 1, r => let t := r + 2 ^ k; if t * t ≤ x then isqrtBits x k t else isqrtBits x k r

/-- The integer square root. -/
def isqrt (x : Nat) : Nat := isqrtBits x (Nat.log2 x / 2 + 1) 0

/-- A close approximation of 1/√(m·2^e). -/
def rsqrtApprox (m : Nat) (e : Int) : Fl :=
  let odd := e % 2 ≠ 0
  let m := if odd then 2 * m else m
  let e := if odd then e - 1 else e
  .fin false (isqrt (2 ^ 300 / m)) (-150 - e / 2)

/-- RSQRT (R128); exact on even powers of two (R269). -/
def frsqrt (a : F32) : F32 :=
  match dec32 a with
  | .nan => nan32
  | .inf s => if s then nan32 else 0
  | .fin s m e =>
    if m = 0 then (if s then negInf32 else posInf32)
    else if s then nan32
    else
      let y := rsqrtApprox m e
      match powerOfTwo m e with
      | some x => if x % 2 = 0 then rne32 (.fin false 1 (-x / 2)) else withinBound (Config.special 0x16 a) y (ulpOf y)
      | none => withinBound (Config.special 0x16 a) y (ulpOf y)

/-- A close approximation of 1/(m·2^e). -/
def rcpApprox (s : Bool) (m : Nat) (e : Int) : Fl := .fin s (2 ^ 200 / m) (-200 - e)

/-- RCP (R128); exact where the operand is a power of two and its reciprocal an FP32 normal (R202). -/
def frcp (a : F32) : F32 :=
  match dec32 a with
  | .nan => nan32
  | .inf s => if s then 0x80000000 else 0
  | .fin s m e =>
    if m = 0 then (if s then negInf32 else posInf32)
    else
      let y := rcpApprox s m e
      match powerOfTwo m e with
      | some x => if -127 ≤ x ∧ x ≤ 126 then rne32 (.fin s 1 (-x)) else withinBound (Config.special 0x17 a) y (ulpOf y)
      | none => withinBound (Config.special 0x17 a) y (ulpOf y)

/-- n terms of the sine series, and of the cosine series when k starts at 1: the running term times -z²/(k(k+1)). -/
def trigSeries (z2 : Int) : Nat → Nat → Int → Int → Int
  | 0, _, _, acc => acc
  | n + 1, k, term, acc =>
    let t := -(term * z2 / (2 ^ 160 : Nat)) / ((k * (k + 1) : Nat) : Int)
    trigSeries z2 n (k + 2) t (acc + t)

/-- 2π in units of 2^-160. -/
def tau160 : Int := 9182885614096437842769610399486622256908310048836

/-- A close approximation of the sine or cosine of x · 2^-160 radians. -/
def trigFixed (cosine : Bool) (x : Int) : Fl :=
  let r := x % tau160
  let r := if 2 * r > tau160 then r - tau160 else r
  let z2 := r * r / (2 ^ 160 : Nat)
  let y := if cosine then trigSeries z2 40 1 (2 ^ 160 : Nat) (2 ^ 160 : Nat) else trigSeries z2 40 2 r r
  .fin (decide (y < 0)) y.natAbs (-160)

/-- A close approximation of the sine or cosine of ±m·2^e, |x| ≤ 2^20. -/
def trigApprox (cosine s : Bool) (m : Nat) (e : Int) : Fl :=
  let x : Int := if e ≥ -160 then (m * 2 ^ (e + 160).toNat : Nat) else ((m / 2 ^ (-160 - e).toNat : Nat) : Int)
  let y := trigFixed cosine x
  if s && !cosine then y.neg else y

/-- The rotary unit's cosine or sine of a phase in units of 2^-48 of a turn: within 2^-21, exact at 0 (R214; log 9). -/
def rotTrig (cosine : Bool) (phase : Nat) : F32 :=
  if phase = 0 then (if cosine then one32 else 0)
  else withinBound (Config.special ((if cosine then 0x10000 else 0x20000) + phase / 2 ^ 32) (BitVec.ofNat 32 phase))
    (trigFixed cosine (tau160 * phase / (2 ^ 48 : Nat))) (.fin false 1 (-21))

/-- SIN and COS (R128). -/
def ftrig (cosine : Bool) (a : F32) : F32 :=
  match dec32 a with
  | .nan => nan32
  | .inf _ => nan32
  | .fin s m e =>
    if (Fl.fin false 1 20).lt (.fin false m e) then nan32
    else withinBound (Config.special (if cosine then 0x19 else 0x18) a) (trigApprox cosine s m e) (.fin false 1 (-21))

end Sys2Proof.Machine
end

