-- ==== Sys2Proof/Machine/State.lean ====
section
/-! DEFINITION. The state of the K26 as plain data, block by block, the state after reset, and the reasons a step can stop. -/

namespace Sys2Proof.Machine

/-- Main memory or any byte store: address and byte, canonical, unlisted bytes read 0 (R484; log 5). -/
abbrev Memory := List Host.Cell

/-! ### Faults of the device and things it emits -/

/-- A fault record (R343). -/
structure FaultRec where
  valid : Bool := true
  code : BitVec 16 := 0
  init : Byte := 0xFF
  fp : Byte := 0xFF
  fl : Byte := 0xFF
  pipe : BitVec 4 := 0xF
  fclk : BitVec 2 := 0
  cls : BitVec 2 := 0
  doubt : Bool := false
  safe : Bool := false
  lost : Bool := false
  noframe : Bool := true
  addr : BitVec 40 := 0
  frame : Word32 := 0xFFFFFFFF
  time : Word64 := 0
  detail : Word64 := 0
deriving DecidableEq, Repr

/-- Where and how the packets of a queue pair go: priority, addresses as its context holds them (R525). -/
structure RoceDest where
  prio : Nat
  ipv6 : Bool
  ip : List Byte
  mac : List Byte
deriving DecidableEq, Repr

/-- What the device puts on its pins and links (log 6). -/
inductive Emit where
  | msix (vector : Nat)
  | canFrame (m : Nat) (o : Option Nat) (f : CanFrame)
  /-- hdr is the stream's template, offsets 0x00 to 0x1D of R545 -/
  | ethFrame (port : Nat) (prio : Nat) (hdr payload : List Byte)
  | roce (port : Nat) (dst : RoceDest) (pkt : RocePkt)
  | twinHeartbeat (seq : Word32) (payload : List Byte)
  | twinDigest (seq : Word32) (payload : List Byte)
  | twinImage (image : List Byte)
  | pmbus (addr exp millivolts : Nat)
  | peerReply (dst : PeerAddr) (frame : List Byte)
  | arpReply (port : Nat) (ipv6 : Bool) (target sender : BitVec 128) (senderMac : BitVec 48)
  | gptp (port : Nat) (sync : Bool) (time : Word64)
  | cnp (port : Nat) (dst : RoceDest) (qpn : Nat)
  | readReply (init : Initiator) (data : Option (List Byte)) (poison : Bool)
  | unsupportedRequest
deriving DecidableEq, Repr

/-! ### GCTL, pins, clocks -/

/-- The discipline source of the timebase (R44). -/
inductive TimeSource where
  | freeRunning | gptp | can
deriving DecidableEq, Repr

/-- The pins the device samples or drives (R36, R497, R566, R614, R619 to R621). -/
structure Pins where
  porstN : Bool := false
  sysrstN : Bool := true
  bootSrc : Bool := false
  twinRole : Bool := false
  xtal : Bool := true
  faultN : Bool := false
  peerFaultN : Bool := true
  vehMotion : Bool := false
  slpS3N : Bool := true
  slpS4N : Bool := true
deriving DecidableEq, Repr

/-- An outbound window (R553). -/
structure ObWin where
  base : Word64 := 0
  en : Bool := false
deriving DecidableEq, Repr

/-- An outbound request that has no completion yet (R532, R535): the initiator that made it, its address, length and class, and what
happens to the flits of its answer (R33). -/
structure ObReq where
  init : Initiator
  addr : Nat
  len : Nat
  cls : Nat := 3
  flitErrs : List (List SymErr) := []
deriving DecidableEq, Repr

/-- GCTL and the timebase (R40 to R45, R13, R552, R553). -/
structure Gctl where
  grade : Byte := 0x80
  stream : Bool := true
  aq : Bool := false
  bootFault : BitVec 16 := 0
  flCount : Byte := 0
  bootStage : BitVec 3 := 0
  bootFailed : Bool := false
  short : Bool := false
  ready : Bool := false
  time : Word64 := 0
  timeSource : TimeSource := .freeRunning
  slewLeft : Int := 0
  slewWait : Nat := 0
  locked : Bool := false
  everLocked : Bool := false
  nocCorr : Word32 := 0
  pcieWidth : BitVec 4 := 8
  pcieSpeed : BitVec 3 := 5
  pcieUp : Bool := false
  obw : Tab ObWin := []
  obReqs : List (Nat × ObReq) := []
  obNextTag : Nat := 0
  /-- what the host answers to requests the engines make, by tag, where it is not its memory's data (log 7) -/
  hostCpl : List (Nat × CplKind) := []
deriving DecidableEq, Repr

/-! ### LOOP -/

/-- A frame clock (R46 to R50); inForce is the period edges follow until the next edge, next the number k of that edge (R14, R15). -/
structure FclkRec where
  en : Bool := false
  run : Bool := false
  period : Word32 := 0x01FCA055
  inForce : Word32 := 0x01FCA055
  start : Word64 := 0
  frame : Word32 := 0xFFFFFFFF
  edge : Word64 := 0
  next : Nat := 0
deriving DecidableEq, Repr

/-- A ledger entry (R17, R18). -/
structure Ledger where
  frame : Word32 := 0
  pipe : Byte := 0
  fclk : Byte := 0
  valid : Bool := false
  complete : Bool := false
  abandoned : Bool := false
  sync : Bool := false
  twinPresent : Bool := false
  tEdge : Word64 := 0
  tStage : List Word32 := [0, 0, 0, 0, 0, 0]
  used : BitVec 144 := 0
  goldenFail : BitVec 144 := 0
  unverified : BitVec 144 := 0
  abftCount : BitVec 16 := 0
  verdict : BitVec 16 := 0
  authority : Byte := 0
  clean : Byte := 0
  firstFault : BitVec 16 := 0
  roiAge : Byte := 0
  corrupt : Byte := 0
deriving DecidableEq, Repr

/-- A stream record of a pipeline configuration blob (R87). -/
structure StreamCfg where
  stream : Nat
  source : Nat
  port : Nat
  vc : Nat
  dt : Nat
  comp : Nat
  pred : Nat
  kind : Nat
  bayer : Nat
  bgMode : Nat
  bgDecim : Nat
  maxAge : Nat
  width : Nat
  height : Nat
  lead : Nat
  inSlotSize : Nat
  inBase : Nat
  inSlots : Nat
  outFmt : Nat
  outDest : Nat
  cpad : Nat
  dmaCh : Nat
  outCount : Nat
  bandSync : Nat
  slotW : Nat
  slotH : Nat
  outFrameStride : Nat
  outBase : Nat
  bgOff : Nat
  roiOff : Nat
  slotStride : Nat
  winStart : Nat
  winLen : Nat
  outH : Nat
  coef : List Word32
deriving DecidableEq, Repr

/-- An accepted pipeline configuration blob (R86); streaming is BATCH_MODE with the grade default applied (R81). -/
structure PipeBlob where
  fclk : Nat
  prepMask : Nat
  streaming : Bool
  batch : Nat
  cls : Nat
  ingestDl : Nat
  ringCount : Nat
  ringSync : Nat
  ringBase : Nat
  streams : List StreamCfg
deriving DecidableEq, Repr

/-- The start block of a pipeline (R412). -/
structure StartBlock where
  windows : List (Nat × Nat)
  feed : Nat
  ctxs : List Nat
deriving DecidableEq, Repr

/-- A pipeline (R89, R90, R412): accepted blob, run state, and the frames of its run. -/
structure PipeRec where
  blob : Option PipeBlob := none
  running : Bool := false
  ringWritten : Word32 := 0
  start : StartBlock := ⟨[], 0, []⟩
  firstFrame : Word32 := 0
  cur : Option Word32 := none
  last : Option Word32 := none
  stopping : Bool := false
  stopTags : List Nat := []
  dmaTaken : List Nat := []
  dmaWanted : List Nat := []
deriving DecidableEq, Repr

/-- A sample of one stream for one frame (R52 to R55, R72, R73). -/
structure Sample where
  pipe : Nat
  stream : Nat
  frame : Word32
  receiving : Bool := false
  anyData : Bool := false
  settled : Bool := false
  reason : Byte := 0
  lines : Nat := 0
  bytes : Nat := 0
  /-- bytes of UDP payload in the slot's records (R61) -/
  payload : Nat := 0
  edged : Bool := false
  fullFrame : Bool := false
  age : Byte := 0xFF
  rois : Tab Word32 := []
  jobsOut : List (Nat × Nat) := []
  bandsDone : List Nat := []
  signalled : Nat := 0
  roiValid : Word32 := 0
  /-- a write of the background's pad was refused, so the region is not written (R73) -/
  bgLost : Bool := false
  finished : Bool := false
  recorded : Bool := false
deriving DecidableEq, Repr

/-- An ingest stream's registers and ROI tables (R76 to R78, R91 to R94); lastFrame is the frame LAST_REASON is of, ignoring marks data
discarded until the next Frame Start. -/
structure StreamRec where
  lastReason : Byte := 0
  lastFrame : Option Word32 := none
  samples : Word32 := 0
  corrupt : Word32 := 0
  extra : Word32 := 0
  roiAge : Byte := 0xFF
  roiPending : Bool := false
  roiValid : Bool := false
  roiBank : Bool := false
  roiTgt : Word32 := 0
  pendTarget : Word32 := 0
  bank0 : Tab Word32 := []
  bank1 : Tab Word32 := []
  ignoring : Bool := false
deriving DecidableEq, Repr

/-- A CSI-2 port's counters (R96, R97). -/
structure CsiRec where
  eccCorr : BitVec 16 := 0
  eccUncorr : BitVec 16 := 0
  unbound : Word32 := 0
deriving DecidableEq, Repr

/-- A PREP unit (R98) and its job: stream, frame and band. -/
structure PrepRec where
  pipe : BitVec 4 := 0xF
  stream : BitVec 6 := 0
  jpeg : Bool := false
  busy : Bool := false
  frame : Word32 := 0
  band : Nat := 0
deriving DecidableEq, Repr

/-- The LOOP block (01, 02). -/
structure Loop where
  fclks : Tab FclkRec := []
  ledger : Tab Ledger := []
  pipes : Tab PipeRec := []
  streams : Tab StreamRec := []
  samples : List Sample := []
  csi : Tab CsiRec := []
  preps : Tab PrepRec := []
  submitLo : Word32 := 0
deriving DecidableEq, Repr

/-! ### SCHED, contexts, KV pools -/

/-- State of a physical Frond in the spare map (R292, R309). -/
inductive FpState where
  | mapped | spare | spareUnverified | retired | failed
deriving DecidableEq, Repr

/-- A shard resident on a Frond (R280, R289): its model, index, rows, codebook slots and
the class of the run or context it serves. -/
structure Resident where
  model : Nat
  shard : Nat
  row0 : Nat
  rows : Nat
  cbSlots : Nat
  cls : Nat
  loaded : Bool
  pinned : Bool
  lastUse : Nat
deriving DecidableEq, Repr

/-- A physical Frond as the Rhizome sees it (R292, R309). -/
structure FpRec where
  fl : Byte := 0xFF
  st : FpState := .failed
  res : List Resident := []
  retireMark : Bool := false
  replaceFl : Option Nat := none
  replaceRes : List Resident := []
deriving DecidableEq, Repr

/-- Model states (R288). -/
inductive ModelState where
  | free | cold | warm | hot
deriving DecidableEq, Repr

/-- A shard table entry (R284). -/
structure ShardEnt where
  caps : Nat
  cbSlots : Nat
  nHandle : Nat
  row0 : Nat
  rows : Nat
  loadBytes : Nat
  loadStream : Nat
  handleOff : Nat
  maxRun : Nat
deriving DecidableEq, Repr

/-- A stream table entry (R285). -/
structure StreamEnt where
  shard : Nat
  kind : Nat
  bucket : Nat
  ndesc : Nat
  off : Nat
  stage : Nat
deriving DecidableEq, Repr

/-- A relocation entry (R286). -/
structure RelocEnt where
  off : Nat
  kind : Nat
  width : Nat
  shard : Nat
deriving DecidableEq, Repr

/-- A registered model (R288, R310 to R312). -/
structure ModelRec where
  st : ModelState := .free
  src : Nat := 0
  length : Nat := 0
  flags : Nat := 0
  tag : Word64 := 0
  nsync : Nat := 0
  scratch : Nat := 0
  digest : List Byte := []
  base : Nat := 0
  syncBase : Nat := 0
  shards : List ShardEnt := []
  streams : List StreamEnt := []
  relocs : List RelocEnt := []
  /-- shard, Frond its relocations of kinds 1 and 3 name (R286) -/
  placed : List (Nat × Nat) := []
deriving DecidableEq, Repr

/-- The conditions of the latency promise a frame has broken, bit by bit (R300). -/
structure Voids where
  move : Bool := false
  safe : Bool := false
  droop : Bool := false
  floor : Bool := false
  fit : Bool := false
deriving DecidableEq, Repr

/-- Latency record of a class-0 pipeline (R313 to R315), and the void bits of its newest frame and of the one before it, which an
actuator frame may still belong to (R300, R303). -/
structure C0Rec where
  liso : Word32 := 0
  h : Word32 := 0
  frame : Word32 := 0
  l : Word32 := 0
  bound : Word32 := 0
  voidMove : Bool := false
  voidSafe : Bool := false
  voidDroop : Bool := false
  voidFloor : Bool := false
  voidFit : Bool := false
  exceeded : Bool := false
  valid : Bool := false
  openVoid : Voids := {}
  openFrame : Option Word32 := none
  prevVoid : Voids := {}
  recorded : Option Word32 := none
deriving DecidableEq, Repr

/-- Context states (R225, R227). -/
inductive CtxState where
  | free | idle | runnable | blocked | resident | draining
deriving DecidableEq, Repr

/-- A context table entry (R225); destroyed and reserved are the internal marks of R227 and R233. -/
structure CtxRec where
  st : CtxState := .free
  cls : BitVec 2 := 0
  model : BitVec 10 := 0
  tokens : Word32 := 0
  root : BitVec 24 := 0
  pool : BitVec 2 := 0
  nhg : Byte := 0
  kvf : BitVec 4 := 0
  dh : BitVec 4 := 0
  bucket : BitVec 4 := 0
  topk : Byte := 0
  wrec : Byte := 0
  pfx : Byte := 0
  normw : Word32 := 0
  appended : Word32 := 0
  pendNt : BitVec 6 := 0
  parent : BitVec 14 := 0
  forked : Bool := false
  pages : Word32 := 0
  maxtok : Word32 := 0
  tState : Word64 := 0
  tag : Word64 := 0
  gen : Word32 := 0
  destroyed : Bool := false
  reserved : Nat := 0
  destroyTags : List Nat := []
  /-- the CTX_CREATE that waits for the loads of R281 -/
  createTag : Option Nat := none
deriving DecidableEq, Repr

/-- A KV pool (R253 to R258). -/
structure PoolRec where
  busy : Bool := false
  bfr : BitVec 5 := 1
  err : Bool := false
  en : Bool := false
  base : BitVec 24 := 0
  blocks : BitVec 24 := 0
  metaPfn : BitVec 24 := 0
  free : BitVec 24 := 0
  resv : BitVec 24 := 0
deriving DecidableEq, Repr

/-- Stages of a run in the Rhizome (R227, R291, R410). -/
inductive RunState where
  | queued | dispatched | ended
deriving DecidableEq, Repr

/-- A run (R227, R291, R410, R412): its command (none for a pipeline's frame), contexts, model, the stream chosen for each shard,
the shards not yet dispatched and those on a Frond, and the first fault. -/
structure RunRec where
  num : Nat
  cmd : Option Nat := none
  pipe : Option (Nat × Word32) := none
  cls : Nat := 3
  model : Nat := 0
  ctxs : List Nat := []
  rsrc : Nat := 0
  st : RunState := .queued
  /-- shard, stream-table index -/
  streams : List (Nat × Nat) := []
  todo : List Nat := []
  /-- shard, Frond -/
  onFp : List (Nat × Nat) := []
  /-- shards whose stream halted -/
  halted : List Nat := []
  /-- fault code, Frond -/
  fault : Option (Nat × Nat) := none
  /-- index within a chain (R410) -/
  chain : Nat := 0
  dispatchedAt : Nat := 0
deriving DecidableEq, Repr

/-- The SCHED block, the context table and the page engine (07, 09). -/
structure Sched where
  lock : Bool := false
  c0Limit : Byte := 0
  c0Floor : BitVec 2 := 0
  epoch : BitVec 12 := 0
  w3 : BitVec 4 := 1
  w2 : BitVec 4 := 2
  w1 : BitVec 4 := 4
  c0Pct : BitVec 6 := 0
  starved : Word32 := 0
  starvedAt : Option Word64 := none
  flMap : Tab Byte := []
  fps : Tab FpRec := []
  models : Tab ModelRec := []
  c0 : Tab C0Rec := []
  sync : Tab Word32 := []
  ctxs : Tab CtxRec := []
  pools : Tab PoolRec := []
  kvCow : Word32 := 0
  runs : List RunRec := []
  nextRun : Nat := 0
  useCount : Nat := 0
deriving DecidableEq, Repr

/-! ### FRND -/

/-- Slot states (R156, R177). -/
inductive SlotState where
  | idle | running | halted
deriving DecidableEq, Repr

/-- Bank power states (R149, R179). -/
inductive BankState where
  | on | fencing | off | ret
deriving DecidableEq, Repr

/-- Blocks a KVAPPEND or SORUS has pinned, and what its page request found (R241, R245). -/
structure KvHold where
  ctx : Nat
  pool : Nat
  hg : Nat
  tokens : Nat
  pages : List (Nat × Nat)
  resolved : Bool
  written : Bool
deriving DecidableEq, Repr

/-- A handle entry's two words (R141) and what their low registers hold (R181). -/
structure HandleRec where
  w0 : Word64 := 0
  w1 : Word64 := 0
  lo0 : Word32 := 0
  lo1 : Word32 := 0
deriving DecidableEq, Repr

/-- A descriptor in its slot (R153, R158 to R160): its 64 bytes, whether it has started, the handle entries it keeps from its start
(R142), and whether poisoned data it read has been recorded (R139). -/
structure QDesc where
  seq : Word32
  body : List Byte
  started : Bool := false
  done : Bool := false
  hold : Option KvHold := none
  kept : Tab HandleRec := []
  poisonNoted : Bool := false
deriving DecidableEq, Repr

/-- Who put a stream on a slot: a run, or a shard's load stream (R289, R291). -/
inductive SlotOwner where
  | none | run (num : Nat) (shard : Nat) | load (model : Nat) (shard : Nat)
deriving DecidableEq, Repr

/-- A stream slot (R155 to R158, R174 to R178). -/
structure SlotRec where
  st : SlotState := .idle
  base : BitVec 40 := 0
  seqReg : Word32 := 0
  faultCode : BitVec 16 := 0
  cls : BitVec 2 := 0
  doneSeq : Word32 := 0
  fetchAddr : Nat := 0
  nextSeq : Word32 := 0
  queue : List QDesc := []
  endFetched : Bool := false
  aborting : Bool := false
  spanNoted : Bool := false
  owner : SlotOwner := .none
deriving DecidableEq, Repr

/-- A bank of a Frond store (R149, R150, R179). -/
structure BankRec where
  abandoned : Bool := false
  spares : BitVec 5 := 0
  st : BankState := .on
  claims : BitVec 12 := 0
  inbound : BitVec 12 := 0
  target : BankState := .on
  moving : Bool := false
  powering : Bool := false
  /-- when FENCING was entered (R150) -/
  since : Word64 := 0
deriving DecidableEq, Repr

/-- A codebook slot (R117, R182). -/
structure CbRec where
  epoch : BitVec 12 := 0
  valid : Bool := false
  efmt : BitVec 4 := 0
  size : BitVec 4 := 0
  entries : Tab (BitVec 16) := []
  poisoned : Tab Bool := []
deriving DecidableEq, Repr

/-- An accumulator cell's contents (R100, R103). -/
structure Cell where
  v : Word32
  poison : Bool
deriving DecidableEq, Repr

/-- An accumulator bank with its checksum accumulators (R103, R131). Cells are keyed 64 i + j; an absent cell holds nothing yet. -/
structure AccBank where
  occupied : Bool := false
  int : Bool := false
  steps : Nat := 0
  cells : Tab (Option Cell) := []
  pCol : Tab Word32 := []
  tCol : Tab Word32 := []
  pRow : Tab Word32 := []
  tRow : Tab Word32 := []
  rows : Nat := 0
  cols : Nat := 0
deriving DecidableEq, Repr

/-- Vector unit state (R124): registers keyed 64 v + lane, constants, scalars and microprogram memory, and which lanes, constants and
instructions came from a poisoned word (R139). -/
structure VecUnit where
  regs : Tab Word32 := []
  poison : Tab Bool := []
  consts : Tab Word32 := []
  constPoison : Tab Bool := []
  scalars : Tab Word32 := []
  prog : Tab Word32 := []
  progPoison : Tab Bool := []
deriving DecidableEq, Repr

/-- Golden requests and the running sequence of a Frond (R325 to R328). -/
structure GoldenRec where
  clockReq : Bool := false
  checkReqs : List (Nat × Word32) := []
  forced : Bool := false
  running : Bool := false
  startedAt : Word64 := 0
  answersClock : Bool := false
  answers : List (Nat × Word32) := []
  lastDone : Option Word64 := none
  unverified : Bool := false
  /-- the Frond's epoch when the running sequence started (R295) -/
  epochAt : BitVec 12 := 0
deriving DecidableEq, Repr

/-- A Frond (03, 04). -/
structure FrondRec where
  store : Memory := []
  poison : Tab Bool := []
  errs : Tab (List SymErr) := []
  pendingCorr : List Nat := []
  badRows : List Nat := []
  lastFault : BitVec 16 := 0
  /-- an engine read has met a fill mark since a stream last left a slot -/
  fillWait : Bool := false
  epochBusy : Bool := false
  epoch : BitVec 12 := 0
  corr : Word32 := 0
  uncorr : Word32 := 0
  slot0 : SlotRec := {}
  slot1 : SlotRec := {}
  banks : Tab BankRec := []
  sync : Tab Word32 := []
  handles : Tab HandleRec := []
  cbs : Tab CbRec := []
  acc0 : AccBank := {}
  acc1 : AccBank := {}
  /-- the slot whose stream last accumulated into a bank -/
  bankSlot : Nat := 0
  vec : VecUnit := {}
  golden : GoldenRec := {}
deriving DecidableEq, Repr

/-! ### THAL -/

/-- Governor modes (R350, R354). -/
inductive GovMode where
  | active | standby | silent
deriving DecidableEq, Repr

/-- The part of Thallus that decides what may reach the vehicle bus: mode, latch and the restart (R338 to R342, R350, R354, R356). -/
structure Island where
  mode : GovMode := .standby
  safeCount : Byte := 0
  restarting : Bool := false
  mossReady : Bool := false
  fatalMoss : Bool := false
  fatalHeartbeat : Bool := false
  fatalClkloss : Bool := false
  fatalLockstep : Bool := false
  silent : Bool := false
  inReset : Bool := false
  lastService : Nat := 0
  running : List Nat := []
  /-- the class-0 ones among them, which Moss goes on serving (R339) -/
  c0Running : List Nat := []
deriving DecidableEq, Repr

/-- Authority of a class-0 pipeline (R360, R361): primary, or Moss. -/
structure AuthRec where
  primary : Bool := false
  clean : Byte := 0
  armed : Bool := false
  frame : Word32 := 0
  decided : Option Word32 := none
  window : Byte := 0
  winFrame : Option Word32 := none
  /-- channels with a frame passed under the authority decided last -/
  passed : List Nat := []
  /-- PLAN's frames the Rhizome still has to write to an output that is not free (R636): channel, payload, frame -/
  planDue : List (Nat × List Byte × Word32) := []
deriving DecidableEq, Repr

/-- A stage watchdog (R362, R363); lateFor and expiredFor are the frames already judged. -/
structure WdogRec where
  openNs : Word32 := 0
  closeNs : Word32 := 0
  expired : Bool := false
  armed : Bool := false
  last : BitVec 2 := 0
  lateFor : List Word32 := []
  expiredFor : List Word32 := []
deriving DecidableEq, Repr

/-- Moss for one pipeline (R333 to R337). -/
structure MossRec where
  feed : Option (List Byte) := none
  feedAge : Byte := 0
  /-- FEED_AGE of the last run (R359) -/
  runAge : Byte := 0
  runningFrame : Option Word32 := none
  runStart : Word64 := 0
  /-- frame clock of the pipeline, kept for the runs of a safe-state restart (R339) -/
  fclk : Nat := 0
  doneFrame : Option Word32 := none
  payloads : List (Nat × List Byte) := []
  payloadFrame : Option Word32 := none
  /-- frame, and LO and HI by channel and field -/
  envelope : Option (Word32 × List (Nat × Nat × Int × Int)) := none
  stopped : Nat := 0
  /-- Moss submits at the end of its run (R336) -/
  submitDue : Bool := false
  /-- channels whose frame on the bus must end before the new payload is written (R636) -/
  dueChans : List Nat := []
deriving DecidableEq, Repr

/-- A governor channel's counters and history (R352, R364, R365). -/
structure GovRec where
  passed : Word32 := 0
  rejected : Word32 := 0
  lastSource : Bool := false
  lastField : Byte := 0
  lastCheck : Byte := 0
  times : List Word64 := []
  lastVals : Option (List Int) := none
deriving DecidableEq, Repr

/-- The THAL block besides the island (10). -/
structure Thal where
  goldenInternal : Bool := true
  goldenFclk : BitVec 2 := 0
  goldenFails : Word32 := 0
  goldenEdge : Word64 := 0
  mossRunUs : BitVec 16 := 0
  /-- Moss's own 2 MiB store (R333) -/
  mossStore : Memory := []
  mossStopped : BitVec 2 := 0
  imuValid : Bool := false
  imuSamples : List (List Byte) := []
  auth : Tab AuthRec := []
  wdogs : Tab WdogRec := []
  moss : Tab MossRec := []
  gov : Tab GovRec := []
  flogWr : Word32 := 0
  flogLost : Word32 := 0
  flog : Tab FaultRec := []
  inFlight : List FaultRec := []
  lostMark : Bool := false
deriving DecidableEq, Repr

/-! ### CAN -/

/-- Controller states (R372, R390). -/
inductive CanState where
  | init | integrating | active | passive | busoff | recovering
deriving DecidableEq, Repr

/-- Object states (R376). -/
inductive ObjState where
  | idle | held | pending | sent | aborted | withdrawn | rejected | missed
deriving DecidableEq, Repr

/-- A message object (R374). -/
structure ObjRec where
  st : ObjState := .idle
  id : Word32 := 0
  dlc : BitVec 4 := 0
  flags : BitVec 6 := 0
  mark : Word32 := 0
  time : Word64 := 0
  data : Tab Byte := []
  markDue : Option Word64 := none
  heldAt : Word64 := 0
deriving DecidableEq, Repr

/-- A CAN FD controller (R389 to R398). -/
structure CanRec where
  boauto : Bool := false
  rom : Bool := false
  lom : Bool := false
  initBit : Bool := true
  st : CanState := .init
  tec : BitVec 9 := 0
  rec_ : Byte := 0
  cfgerr : Bool := false
  nbt : Word32 := 0x0F0F3E01
  dbt : Word32 := 0x09091C00
  tdc : Word32 := 0x00001E01
  rxCount : Byte := 0x40
  rxFirst : BitVec 7 := 0x40
  rxPut : Word32 := 0
  rxGet : Word32 := 0
  rxLost : Word32 := 0
  rxDropped : Bool := false
  refIde : Bool := false
  disc : Bool := false
  role : BitVec 2 := 0
  ttRef : Word32 := 0
  ttCycle : Word32 := 0
  ttTimeout : Word32 := 0
  ttWin : Word32 := 0
  cycles : BitVec 16 := 0
  master : Bool := false
  sync : Bool := false
  tRef : Option Word64 := none
  prevReceived : Option Word64 := none
  prevSent : Option Word64 := none
  integratedAt : Word64 := 0
  objs : Tab ObjRec := []
  /-- the object on the bus; 128 stands for the controller's own reference message (R383) -/
  onBus : Option Nat := none
  onBusAt : Word64 := 0
  abortOnBus : Bool := false
  /-- another node's frame is on the bus (R372) -/
  busBusy : Bool := false
  initPending : Bool := false
  /-- the controller's own reference message waits for the bus (R382) -/
  refPending : Bool := false
  mossFrames : List CanFrame := []
deriving DecidableEq, Repr

/-! ### CMDQ and MBOX -/

/-- A submission queue (R423 to R425, R429). -/
structure SqRec where
  base : BitVec 40 := 0
  size : BitVec 4 := 1
  cq : BitVec 6 := 0
  port : BitVec 2 := 0
  cls : BitVec 2 := 3
  source : Bool := false
  en : Bool := false
  head : BitVec 12 := 0
  dberr : Bool := false
  fetcherr : Bool := false
  tail : BitVec 12 := 0
  peerIn : List (PeerAddr × Word32) := []
deriving DecidableEq, Repr

/-- A completion queue or the event queue (R426 to R430). -/
structure CqRec where
  base : BitVec 40 := 0
  size : BitVec 4 := 1
  vector : BitVec 7 := 0
  ien : Bool := false
  en : Bool := false
  tail : BitVec 12 := 0
  dberr : Bool := false
  phase : Bool := true
  head : BitVec 12 := 0
deriving DecidableEq, Repr

/-- Where a command stands: fetched and waiting, under way, or done with its status and results (R403, R404). -/
inductive CmdStage where
  | waiting
  | started
  | done (status : Byte) (r0 r1 : Word64)
deriving DecidableEq, Repr

/-- A command in flight (R399, R403). -/
structure Cmd where
  tag : Nat
  sq : Nat
  pkt : List Byte
  stage : CmdStage
  reply : Option (PeerAddr × Word32)
  /-- its mailbox has been written (R404, R415) -/
  boxed : Bool := false
  /-- a CANCEL's target, whose completion is posted first (R411) -/
  after : Option Nat := none
deriving DecidableEq, Repr

/-- A mailbox (R415). -/
structure MboxRec where
  seq : Word32 := 0
  cid : BitVec 16 := 0
  status : Byte := 0
  sq : Byte := 0
  length : Word32 := 0
  time : Word64 := 0
  r0 : Word64 := 0
  r1 : Word64 := 0
  data : Tab Byte := []
deriving DecidableEq, Repr

/-- A post that the halted DMA31 could not write (R436): the queue, the entry and its vector. -/
structure StuckPost where
  q : Nat
  entry : List Byte
  noirq : Bool
  cmd : Option Nat
deriving DecidableEq, Repr

/-- The CMDQ and MBOX blocks (12). -/
structure Cmdq where
  sqs : Tab SqRec := []
  cqs : Tab CqRec := []
  evqMask : Word32 := 2
  evqLost : Word32 := 0
  evLostMark : Bool := false
  peerDrop : Word32 := 0
  sram : Memory := []
  msixTable : Memory := []
  msixPending : Tab Bool := []
  mboxes : Tab MboxRec := []
  cmds : List Cmd := []
  nextTag : Nat := 0
  rr : Tab Nat := []
  /-- the queue number from which each class's starts go on in turn (R402) -/
  startRr : Tab Nat := []
  stuck : List StuckPost := []
deriving DecidableEq, Repr

/-! ### DMA -/

/-- Channel states (R442, R457). -/
inductive DmaState where
  | idle | running | halted
deriving DecidableEq, Repr

/-- What reading one chunk of a descriptor's source gave: its address and its bytes with their poison, an error response, or poison in the
index table (R447, R451). -/
inductive DmaGot where
  | data (addr : Nat) (d : List (Byte × Bool))
  | refused (addr : Nat)
  | badTable (addr : Nat)
deriving DecidableEq, Repr

/-- A descriptor in flight: its address, bytes, the banks it claims, how far its transfer has come, the block of its index table read last,
and the chunk read before its turn to write (R440, R443, R445, R450, R451). -/
structure DmaFlight where
  addr : Nat
  desc : List Byte
  claimFp : Nat
  claims : List Nat
  line : Nat := 0
  off : Nat := 0
  poisonNoted : Bool := false
  table : Option (Nat × List (Byte × Bool)) := none
  ahead : Option DmaGot := none
deriving DecidableEq, Repr

/-- A DMA channel (R454 to R460). -/
structure DmaRec where
  base : BitVec 40 := 0
  retry : BitVec 3 := 3
  vector : BitVec 7 := 0
  cls : BitVec 2 := 3
  fault : BitVec 16 := 0
  supFp : Byte := 0xFF
  owner : BitVec 2 := 0
  suppress : Bool := false
  st : DmaState := .idle
  cur : BitVec 40 := 0
  doneCount : Word32 := 0
  bad : Word32 := 0
  retried : Word32 := 0
  flight : List DmaFlight := []
  /-- the descriptor to fetch next -/
  nextFetch : Option Nat := none
  /-- failed attempts of the access being retried, its address and whether it is a write (R450) -/
  attempts : Nat := 0
  retryAddr : Option (Nat × Bool) := none
deriving DecidableEq, Repr

/-! ### MEMC and main memory -/

/-- The metadata of a line (R473); held marks a line of a wiped channel that has been written since (R481). -/
structure LineMeta where
  poison : Bool := false
  wss : Bool := false
  held : Bool := false
deriving DecidableEq, Repr

/-- Physical channel states (R492). -/
inductive ChanState where
  | active | spare | migrating | retired | failed
deriving DecidableEq, Repr

/-- A physical channel: registers of R492 and R493, the row table of R479, corrections of the pass, spared rows. -/
structure PchRec where
  st : ChanState := .active
  sprows : BitVec 7 := 0
  corr : Word32 := 0
  uncorr : Word32 := 0
  replay : Word32 := 0
  rowTable : List (Nat × Nat) := []
  passCorr : Nat := 0
  sparedRows : List Nat := []
  sparing : List Nat := []
  retrained : Bool := false
deriving DecidableEq, Repr

/-- A MEM_READ, or a MEM_WRITE with its data and poison, that waits: for its group's clock, a spare being written or a row being copied
(R479, R481, R558). -/
structure MemWait where
  init : Nat
  cls : Nat
  addr : Nat
  write : Option (List Byte × Bool)
  errs : List SymErr
  link : List LinkErr := []
deriving DecidableEq, Repr

/-- A controller group (R480, R483, R489, R490). -/
structure GroupRec where
  migFrom : Byte := 0xFF
  migTo : Byte := 0xFF
  migBlocks : Nat := 0
  migLch : Nat := 0
  waiting : List (Nat × Nat) := []
  spares : BitVec 3 := 4
  c0Used : BitVec 16 := 0
  c0Resv : BitVec 16 := 0
  c0Now : Nat := 0
  clockLost : Bool := false
  held : List MemWait := []
deriving DecidableEq, Repr

/-- A logical channel's map entry (R491). -/
structure ChMap where
  lost : Bool := false
  /-- none: the power-up map of R464 -/
  pch : Option Byte := none
  filling : Bool := false
  /-- first line from which a spare was written poisoned in place of a failed channel (R481) -/
  wiped : Option Nat := none
deriving DecidableEq, Repr

/-- Main memory and its controllers (14). -/
structure Mem where
  bytes : Memory := []
  lines : Tab LineMeta := []
  chThresh : BitVec 16 := 0x1000
  rowThresh : Byte := 4
  scrubPeriod : Byte := 0x18
  passes : BitVec 9 := 0
  line : BitVec 23 := 0
  groups : Tab GroupRec := []
  chmap : Tab ChMap := []
  pchs : Tab PchRec := []
  selfRefresh : Bool := false
deriving DecidableEq, Repr

/-! ### TWIN -/

/-- Twin state of a pipeline (R505, R506, R512 to R514). -/
structure TwinPipe where
  digBase : BitVec 40 := 0
  digLen : BitVec 17 := 0
  last : BitVec 3 := 0
  frame : Word32 := 0
  mismatch : Word32 := 0
  skipped : Word32 := 0
  /-- this device's digests, the newest first, and the frames it cannot make one for -/
  local_ : List (Word32 × List Byte) := []
  localFailed : List Word32 := []
  /-- peer digests that arrived: frame, ROI_AGE, CORRUPT, digest -/
  held : List (Word32 × Byte × Byte × List Byte) := []
  resendDue : Bool := false
  judged : List Word32 := []
  /-- the frames whose wait is over -/
  waitOver : List Word32 := []
deriving DecidableEq, Repr

/-- Twin link states (R509). -/
inductive LinkState where
  | down | training | up
deriving DecidableEq, Repr

/-- The TWIN block (15). -/
structure Twin where
  armed : Bool := false
  spared : BitVec 3 := 7
  killed : Bool := false
  killOut : Bool := false
  peerAlive : Bool := false
  peerMode : BitVec 2 := 3
  link : LinkState := .down
  /-- lanes that have lost lock since the link was trained -/
  lostLanes : BitVec 5 := 0
  lock : Bool := false
  digwait : BitVec 16 := 0x01F4
  hbRx : Word32 := 0
  crcErr : Word32 := 0
  shadow : Word32 := 0
  pipes : Tab TwinPipe := []
  /-- when the last heartbeat arrived, and the times below, on the island's clock -/
  hbTime : Nat := 0
  hbRunMask : Byte := 0
  hbFrames : List Word32 := []
  sendSeq : Word32 := 0
  lowSamples : Nat := 0
  lowSince : Nat := 0
  readyAt : Nat := 0
  refusedNoted : Bool := false
  roleSet : Bool := false
deriving DecidableEq, Repr

/-! ### ETH, RoCE -/

/-- Transmit stream states (R545). -/
inductive TxState where
  | idle | pending | sent | withdrawn | rejected
deriving DecidableEq, Repr

/-- A transmit stream (R520, R545): template bytes 0x00 to 0x1D and payload, by offset. -/
structure TxRec where
  tmpl : Tab Byte := []
  payload : Tab Byte := []
  st : TxState := .idle
  len : BitVec 9 := 0
deriving DecidableEq, Repr

/-- An Ethernet port (R539 to R545). gateOper is OPER, gcl the admin bank; an entry unlisted is at its reset 0xFF000000. -/
structure EthRec where
  en : Bool := false
  maxFrame : BitVec 14 := 0x0600
  pfc : Byte := 0
  fec : BitVec 2 := 0
  rate : BitVec 2 := 3
  stFec : BitVec 2 := 0
  stRate : BitVec 2 := 0
  link : LinkState := .down
  mac : BitVec 48 := 0
  ip4 : Word32 := 0
  ip6 : BitVec 128 := 0
  rxOk : Word32 := 0
  rxBad : Word32 := 0
  rxOther : Word32 := 0
  rxUnbound : Word32 := 0
  txOk : Word32 := 0
  fecCorr : Word32 := 0
  fecUncorr : Word32 := 0
  gatePending : Bool := false
  gateOper : Bool := false
  gateLen : BitVec 9 := 0
  gateBase : Word64 := 0
  gcl : Tab Word32 := []
  /-- the bank in operation and its length (R522) -/
  operTab : Tab Word32 := []
  operLen : BitVec 9 := 0
  operAt : Word64 := 0
  operEntry : Nat := 0
  commitBase : Word64 := 0
  tx : Tab TxRec := []
deriving DecidableEq, Repr

/-- A memory key (R551). -/
structure MkeyRec where
  base : BitVec 40 := 0
  len : Word32 := 0
  tag : BitVec 24 := 0
  wr : Bool := false
  rd : Bool := false
  en : Bool := false
deriving DecidableEq, Repr

/-- Queue pair states (R525). -/
inductive QpState where
  | reset | ready | error
deriving DecidableEq, Repr

/-- A work request sent and not yet completed: its 64 bytes, first packet number, packets, and bytes a READ has returned (R524, R526). -/
structure RoceReq where
  wr : List Byte
  psn : BitVec 24
  pkts : Nat
  got : Nat := 0
deriving DecidableEq, Repr

/-- A queue pair as loaded (R525 to R529): its context, ring indices, packet numbers, requests under way, the inbound message under
way, and completion entries that wait for room. -/
structure QpRec where
  loaded : Bool := false
  st : QpState := .reset
  ctx : List Byte := []
  sqHead : Nat := 0
  sqTail : Nat := 0
  rqHead : Nat := 0
  rqTail : Nat := 0
  cqHead : Nat := 0
  cqTail : Nat := 0
  cqPhase : Bool := true
  cqWait : List (List Byte) := []
  sendPsn : BitVec 24 := 0
  expPsn : BitVec 24 := 0
  unacked : List RoceReq := []
  retries : Nat := 0
  /-- an RNR NAK waits for its repeat, and the repeats made for RNR NAKs (R524) -/
  rnr : Bool := false
  rnrRetries : Nat := 0
  /-- rate in millionths of the line rate -/
  rate : Nat := 1000000
  nakSent : Bool := false
  writeVa : Nat := 0
  writeLeft : Nat := 0
  writeLen : Nat := 0
  recvOffset : Nat := 0
deriving DecidableEq, Repr

/-- The ETH block (16). -/
structure Eth where
  ports : Tab EthRec := []
  flows : Tab Word32 := []
  cmdPort : BitVec 16 := 0
  ptpEn : Bool := false
  ptpDisc : Bool := false
  ptpGmcap : Bool := false
  ptpPorts : BitVec 4 := 0
  ptpPriority : Byte := 0xF8
  ptpDomain : Byte := 0
  ptpSlave : BitVec 4 := 0xF
  ptpGm : Bool := false
  ptpBest : Option (Byte × Word64 × Nat) := none
  ptpRate : BitVec 4 := 0
  ptpLastSync : Option Word64 := none
  qpcBase : BitVec 40 := 0
  roceEn : Bool := false
  roceMtu : BitVec 2 := 2
  mkeys : Tab MkeyRec := []
  qps : Tab QpRec := []
deriving DecidableEq, Repr

/-! ### PWR -/

/-- A quadrant (R556 to R562, R574 to R576). -/
structure QuadRec where
  stbyLock : Bool := false
  pll : Bool := false
  forcedCal : Bool := true
  target : BitVec 2 := 0
  level : BitVec 2 := 3
  /-- the level thermal forcing allows at best; 0 for none (R559) -/
  thermCap : Nat := 0
  stretch : Word32 := 0
  temp : BitVec 16 := 0
  stretching : Bool := false
  clockStopped : Bool := false
  powered : Bool := true
  coolSince : Option Word64 := none
deriving DecidableEq, Repr

/-- Droop state of a pipeline (R561, R577): latched counts and budgets by quadrant. -/
structure DroopRec where
  count : BitVec 16 := 0
  qlast : BitVec 4 := 0
  latched : List Nat := []
  budget : List Nat := []
deriving DecidableEq, Repr

/-- What a level change waits for (R555 to R557). -/
inductive LevelStep where
  | rail (q : Nat) (level : Nat)
  /-- since is the island's time at which the write was acknowledged -/
  | settle (q : Nat) (level : Nat) (since : Nat)
  | lock (q : Nat) (level : Nat)
  | lowerRail (q : Nat)
deriving DecidableEq, Repr

/-- Sleep phases (R573). -/
inductive SleepPhase where
  | steady | entering | waking
deriving DecidableEq, Repr

/-- The PWR block (17). -/
structure Pwr where
  lock : Bool := false
  wakeCause : BitVec 5 := 0
  calDone : Bool := false
  phase : SleepPhase := .steady
  sleep : BitVec 3 := 0
  /-- the state being entered -/
  sleepTo : BitVec 3 := 0
  quads : Tab QuadRec := []
  droop : Tab DroopRec := []
  wakeCan : Bool := false
  wakeTimerEn : Bool := false
  wakeNEn : Bool := true
  wakeTimer : Word32 := 0
  holdSoc : Bool := false
  holdSaf : Bool := false
  settle : Byte := 0x0A
  exp : BitVec 5 := 0x13
  addr : BitVec 7 := 0x40
  hyst : Byte := 5
  throttle : Byte := 0x73
  /-- the level whose voltage VDD_FAB has; 4 before the first write (R555, R613) -/
  rail : Nat := 4
  railWanted : Nat := 3
  step : Option LevelStep := none
  /-- the SET_PLEVEL commands under way -/
  levelCmds : List Nat := []
  pmicFailed : Bool := false
  lostDomains : List ClockDomain := []
  sleepCmd : Option Nat := none
  wakeSeen : Bool := false
  /-- nanoseconds in the sleep state, from which the AON ticks are counted (R566, R568) -/
  aonNs : Nat := 0
deriving DecidableEq, Repr

/-! ### SEC -/

/-- Boot phases (R605). -/
inductive BootPhase where
  | loading | hostWait | verified | failed
deriving DecidableEq, Repr

/-- Outcome of the latest flash write (R608). -/
inductive FlashWrite where
  | none | inProgress | written | failed
deriving DecidableEq, Repr

/-- The SEC block (18). -/
structure Sec where
  rollback : Byte := 0
  cslot : BitVec 2 := 0
  phase : BootPhase := .loading
  source : BitVec 2 := 0
  bootNext : BitVec 2 := 0
  flashWrite : FlashWrite := .none
  flashRb : Byte := 0xFF
  chal : BitVec 256 := 0
  token : Tab Word32 := []
  fuses : Tab (BitVec 128) := []
  sensed : Tab (BitVec 128) := []
  serial : BitVec 128 := 0
  seed : BitVec 256 := 0
  endorsement : List Byte := []
  defects : List Nat := []
  trimsFused : Bool := true
  returned : Bool := false
  malsureKey : List Byte := []
  flash : List Byte := []
  staging : Memory := []
  image : List Byte := []
  flashImage : List Byte := []
  flashCmd : Option Nat := none
  /-- the flash write was cut off or did not read back: what the flash holds is no image (R596) -/
  flashSpoiled : Bool := false
deriving DecidableEq, Repr

/-! ### The machine -/

/-- The whole state. -/
structure State where
  pins : Pins := {}
  gctl : Gctl := {}
  loop : Loop := {}
  sched : Sched := {}
  fronds : Tab FrondRec := []
  island : Island := {}
  thal : Thal := {}
  can : Tab CanRec := []
  cmdq : Cmdq := {}
  dma : Tab DmaRec := []
  mem : Mem := {}
  twin : Twin := {}
  eth : Eth := {}
  pwr : Pwr := {}
  sec : Sec := {}
  hostMem : Memory := []
  out : List Emit := []
  freeCtr : Nat := 0
  pending : List Instr := []
deriving DecidableEq, Repr

/-- The machine right after reset: PORST_N held low, every register at its reset value, nothing listed in memory
(R36, R39, R484; log 1, 2, 5, 13, 20). -/
def State.reset : State := {}

/-- Why a step faults. The block reports the device's own faults in fault records; no command's meaning ends in one of
these on ordinary data. -/
inductive Fault where
  /-- Raised by no meaning: the device has no condition that stops it without an effect of its own. Safe. -/
  | noEffectGiven
deriving DecidableEq, Repr

/-- Why a step is refused. -/
inductive Refusal where
  /-- Raised in Dispatch for a command whose meaning is not written yet. Safe. -/
  | notModelled (mnemonic : String)
  /-- Raised by exec for a term WellFormed refuses: an operand that no command of the device can carry. Safe. -/
  | illFormed
deriving DecidableEq, Repr

end Sys2Proof.Machine
end

