-- ==== Sys2Proof/Machine/Access.lean ====
section
/-! DEFINITION. Named reads and updates of the tables of State, and what is derived from them: fuses, regions, governor records,
quadrants, the memory map. -/

namespace Sys2Proof.Machine

/-! ### Table entries -/

def State.fclk (s : State) (n : Nat) : FclkRec := tget {} s.loop.fclks n
def State.modFclk (n : Nat) (g : FclkRec → FclkRec) (s : State) : State :=
  { s with loop := { s.loop with fclks := tset {} s.loop.fclks n (g (s.fclk n)) } }

/-- Index of the ledger entry of a frame in its pipeline's ring (R19). -/
def ledgerKey (p : Nat) (frame : Word32) : Nat := p * 64 + frame.toNat % 64
def State.ledgerAt (s : State) (p : Nat) (frame : Word32) : Ledger := tget {} s.loop.ledger (ledgerKey p frame)
def State.modLedger (p : Nat) (frame : Word32) (g : Ledger → Ledger) (s : State) : State :=
  { s with loop := { s.loop with ledger := tset {} s.loop.ledger (ledgerKey p frame) (g (s.ledgerAt p frame)) } }

def State.pipe (s : State) (p : Nat) : PipeRec := tget {} s.loop.pipes p
def State.modPipe (p : Nat) (g : PipeRec → PipeRec) (s : State) : State :=
  { s with loop := { s.loop with pipes := tset {} s.loop.pipes p (g (s.pipe p)) } }

def State.stream (s : State) (i : Nat) : StreamRec := tget {} s.loop.streams i
def State.modStream (i : Nat) (g : StreamRec → StreamRec) (s : State) : State :=
  { s with loop := { s.loop with streams := tset {} s.loop.streams i (g (s.stream i)) } }

def State.csi (s : State) (n : Nat) : CsiRec := tget {} s.loop.csi n
def State.modCsi (n : Nat) (g : CsiRec → CsiRec) (s : State) : State :=
  { s with loop := { s.loop with csi := tset {} s.loop.csi n (g (s.csi n)) } }

def State.prep (s : State) (u : Nat) : PrepRec := tget {} s.loop.preps u
def State.modPrep (u : Nat) (g : PrepRec → PrepRec) (s : State) : State :=
  { s with loop := { s.loop with preps := tset {} s.loop.preps u (g (s.prep u)) } }

def State.frond (s : State) (f : Nat) : FrondRec := tget {} s.fronds f
def State.modFrond (f : Nat) (g : FrondRec → FrondRec) (s : State) : State :=
  { s with fronds := tset {} s.fronds f (g (s.frond f)) }

def FrondRec.slot (r : FrondRec) (k : Nat) : SlotRec := if k = 0 then r.slot0 else r.slot1
def FrondRec.modSlot (k : Nat) (g : SlotRec → SlotRec) (r : FrondRec) : FrondRec :=
  if k = 0 then { r with slot0 := g r.slot0 } else { r with slot1 := g r.slot1 }
def FrondRec.bank (r : FrondRec) (b : Nat) : BankRec := tget {} r.banks b
def FrondRec.modBank (b : Nat) (g : BankRec → BankRec) (r : FrondRec) : FrondRec :=
  { r with banks := tset {} r.banks b (g (r.bank b)) }
def FrondRec.handle (r : FrondRec) (h : Nat) : HandleRec := tget {} r.handles h
def FrondRec.modHandle (h : Nat) (g : HandleRec → HandleRec) (r : FrondRec) : FrondRec :=
  { r with handles := tset {} r.handles h (g (r.handle h)) }
def FrondRec.cb (r : FrondRec) (i : Nat) : CbRec := tget {} r.cbs i
def FrondRec.modCb (i : Nat) (g : CbRec → CbRec) (r : FrondRec) : FrondRec := { r with cbs := tset {} r.cbs i (g (r.cb i)) }
def FrondRec.acc (r : FrondRec) (b : Nat) : AccBank := if b = 0 then r.acc0 else r.acc1
def FrondRec.setAcc (b : Nat) (a : AccBank) (r : FrondRec) : FrondRec :=
  if b = 0 then { r with acc0 := a } else { r with acc1 := a }

def State.modSlot (f k : Nat) (g : SlotRec → SlotRec) : State → State := State.modFrond f (FrondRec.modSlot k g)
def State.modGolden (f : Nat) (g : GoldenRec → GoldenRec) : State → State :=
  State.modFrond f (fun r => { r with golden := g r.golden })

def State.fp (s : State) (f : Nat) : FpRec := tget {} s.sched.fps f
def State.modFp (f : Nat) (g : FpRec → FpRec) (s : State) : State :=
  { s with sched := { s.sched with fps := tset {} s.sched.fps f (g (s.fp f)) } }
def State.model (s : State) (m : Nat) : ModelRec := tget {} s.sched.models m
def State.modModel (m : Nat) (g : ModelRec → ModelRec) (s : State) : State :=
  { s with sched := { s.sched with models := tset {} s.sched.models m (g (s.model m)) } }
def State.c0 (s : State) (p : Nat) : C0Rec := tget {} s.sched.c0 p
def State.modC0 (p : Nat) (g : C0Rec → C0Rec) (s : State) : State :=
  { s with sched := { s.sched with c0 := tset {} s.sched.c0 p (g (s.c0 p)) } }
def State.ctx (s : State) (c : Nat) : CtxRec := tget {} s.sched.ctxs c
/-- Whether two entries read the same, GEN and the model's own marks apart (R225). -/
def CtxRec.sameEntry (a b : CtxRec) : Bool :=
  { a with gen := b.gen, destroyed := b.destroyed, reserved := b.reserved, destroyTags := b.destroyTags, createTag := b.createTag } = b
/-- Change a context's entry; GEN counts a change of what it reads (R225). -/
def State.modCtx (c : Nat) (g : CtxRec → CtxRec) (s : State) : State :=
  let x := s.ctx c
  let y := g x
  let y := if y.sameEntry x then y else { y with gen := x.gen + 1 }
  { s with sched := { s.sched with ctxs := tset {} s.sched.ctxs c y } }
def State.pool (s : State) (p : Nat) : PoolRec := tget {} s.sched.pools p
def State.modPool (p : Nat) (g : PoolRec → PoolRec) (s : State) : State :=
  { s with sched := { s.sched with pools := tset {} s.sched.pools p (g (s.pool p)) } }
def State.gsync (s : State) (n : Nat) : Word32 := tget 0 s.sched.sync n
def State.setGsync (n : Nat) (v : Word32) (s : State) : State :=
  { s with sched := { s.sched with sync := tset 0 s.sched.sync n v } }
def State.run (s : State) (n : Nat) : Option RunRec := s.sched.runs.find? (fun r => r.num = n)
def State.modRun (n : Nat) (g : RunRec → RunRec) (s : State) : State :=
  { s with sched := { s.sched with runs := s.sched.runs.map (fun r => if r.num = n then g r else r) } }

def State.auth (s : State) (p : Nat) : AuthRec := tget {} s.thal.auth p
def State.modAuth (p : Nat) (g : AuthRec → AuthRec) (s : State) : State :=
  { s with thal := { s.thal with auth := tset {} s.thal.auth p (g (s.auth p)) } }
def State.wdog (s : State) (w : Nat) : WdogRec := tget {} s.thal.wdogs w
def State.modWdog (w : Nat) (g : WdogRec → WdogRec) (s : State) : State :=
  { s with thal := { s.thal with wdogs := tset {} s.thal.wdogs w (g (s.wdog w)) } }
def State.moss (s : State) (p : Nat) : MossRec := tget {} s.thal.moss p
def State.modMoss (p : Nat) (g : MossRec → MossRec) (s : State) : State :=
  { s with thal := { s.thal with moss := tset {} s.thal.moss p (g (s.moss p)) } }
def State.gov (s : State) (c : Nat) : GovRec := tget {} s.thal.gov c
def State.modGov (c : Nat) (g : GovRec → GovRec) (s : State) : State :=
  { s with thal := { s.thal with gov := tset {} s.thal.gov c (g (s.gov c)) } }

def State.canc (s : State) (m : Nat) : CanRec := tget {} s.can m
def State.modCan (m : Nat) (g : CanRec → CanRec) (s : State) : State := { s with can := tset {} s.can m (g (s.canc m)) }
def CanRec.obj (r : CanRec) (o : Nat) : ObjRec := tget {} r.objs o
def CanRec.modObj (o : Nat) (g : ObjRec → ObjRec) (r : CanRec) : CanRec := { r with objs := tset {} r.objs o (g (r.obj o)) }
def State.modObj (m o : Nat) (g : ObjRec → ObjRec) : State → State := State.modCan m (CanRec.modObj o g)

def State.sq (s : State) (n : Nat) : SqRec := tget {} s.cmdq.sqs n
def State.modSq (n : Nat) (g : SqRec → SqRec) (s : State) : State :=
  { s with cmdq := { s.cmdq with sqs := tset {} s.cmdq.sqs n (g (s.sq n)) } }
/-- Completion queue q, or the event queue for q = 64. -/
def State.cq (s : State) (q : Nat) : CqRec := tget {} s.cmdq.cqs q
def State.modCq (q : Nat) (g : CqRec → CqRec) (s : State) : State :=
  { s with cmdq := { s.cmdq with cqs := tset {} s.cmdq.cqs q (g (s.cq q)) } }
def State.mbox (s : State) (m : Nat) : MboxRec := tget {} s.cmdq.mboxes m
def State.modMbox (m : Nat) (g : MboxRec → MboxRec) (s : State) : State :=
  { s with cmdq := { s.cmdq with mboxes := tset {} s.cmdq.mboxes m (g (s.mbox m)) } }
def State.cmd (s : State) (tag : Nat) : Option Cmd := s.cmdq.cmds.find? (fun c => c.tag = tag)
def State.modCmd (tag : Nat) (g : Cmd → Cmd) (s : State) : State :=
  { s with cmdq := { s.cmdq with cmds := s.cmdq.cmds.map (fun c => if c.tag = tag then g c else c) } }

def State.dmac (s : State) (n : Nat) : DmaRec := tget {} s.dma n
def State.modDma (n : Nat) (g : DmaRec → DmaRec) (s : State) : State := { s with dma := tset {} s.dma n (g (s.dmac n)) }

def State.group (s : State) (g : Nat) : GroupRec := tget {} s.mem.groups g
def State.modGroup (i : Nat) (g : GroupRec → GroupRec) (s : State) : State :=
  { s with mem := { s.mem with groups := tset {} s.mem.groups i (g (s.group i)) } }
/-- Spare channels at power-up (R462). -/
def isSpareChan (p : Nat) : Bool := p % 9 = 8
/-- A physical channel as power-up leaves it (R462, R492). -/
def pchDefault (p : Nat) : PchRec := if isSpareChan p then { st := .spare } else {}
def State.pch (s : State) (p : Nat) : PchRec := tget (pchDefault p) s.mem.pchs p
def State.modPch (p : Nat) (g : PchRec → PchRec) (s : State) : State :=
  { s with mem := { s.mem with pchs := tset (pchDefault p) s.mem.pchs p (g (s.pch p)) } }
def State.chmap (s : State) (l : Nat) : ChMap := tget {} s.mem.chmap l
def State.modChmap (l : Nat) (g : ChMap → ChMap) (s : State) : State :=
  { s with mem := { s.mem with chmap := tset {} s.mem.chmap l (g (s.chmap l)) } }

def State.twinPipe (s : State) (p : Nat) : TwinPipe := tget {} s.twin.pipes p
def State.modTwinPipe (p : Nat) (g : TwinPipe → TwinPipe) (s : State) : State :=
  { s with twin := { s.twin with pipes := tset {} s.twin.pipes p (g (s.twinPipe p)) } }

def State.port (s : State) (n : Nat) : EthRec := tget {} s.eth.ports n
def State.modPort (n : Nat) (g : EthRec → EthRec) (s : State) : State :=
  { s with eth := { s.eth with ports := tset {} s.eth.ports n (g (s.port n)) } }
def EthRec.txs (r : EthRec) (i : Nat) : TxRec := tget {} r.tx i
def State.modTx (n i : Nat) (g : TxRec → TxRec) : State → State :=
  State.modPort n (fun r => { r with tx := tset {} r.tx i (g (r.txs i)) })
def State.qp (s : State) (n : Nat) : QpRec := tget {} s.eth.qps n
def State.modQp (n : Nat) (g : QpRec → QpRec) (s : State) : State :=
  { s with eth := { s.eth with qps := tset {} s.eth.qps n (g (s.qp n)) } }
def State.mkey (s : State) (k : Nat) : MkeyRec := tget {} s.eth.mkeys k

def State.quad (s : State) (q : Nat) : QuadRec := tget {} s.pwr.quads q
def State.modQuad (q : Nat) (g : QuadRec → QuadRec) (s : State) : State :=
  { s with pwr := { s.pwr with quads := tset {} s.pwr.quads q (g (s.quad q)) } }
def State.droop (s : State) (p : Nat) : DroopRec := tget {} s.pwr.droop p
def State.modDroop (p : Nat) (g : DroopRec → DroopRec) (s : State) : State :=
  { s with pwr := { s.pwr with droop := tset {} s.pwr.droop p (g (s.droop p)) } }

def State.obw (s : State) (w : Nat) : ObWin := tget {} s.gctl.obw w

/-! ### Emissions and free values -/

def emit (e : Emit) (s : State) : State := { s with out := s.out ++ [e] }

/-- Draw a free value of w bits (log 8). -/
def draw (w : Nat) (s : State) : BitVec w × State :=
  (Config.freeValue w s.freeCtr, { s with freeCtr := s.freeCtr + 1 })

/-! ### Fuses as sensed at the last reset (R597, R599) -/

/-- The 128 bits of a sensed fuse word. -/
def State.fuse (s : State) (w : Nat) : Nat := (tget 0 s.sec.sensed w).toNat

/-- N_CLEAN in force; 3 when unfused (R321). -/
def State.nClean (s : State) : Nat := if bits (s.fuse 0x100) 3 0 = 0 then 3 else bits (s.fuse 0x100) 3 0

/-- Firewalls in force (R346). -/
def State.fwEn (s : State) : Bool := bit (s.fuse 0x100) 8

/-- The fused rollback count: contiguous bits from bit 0 (R597). -/
def State.rollbackCount (s : State) : Nat := ((List.range 128).takeWhile (fun i => bit (s.fuse 0x101) i)).length

/-- The 80 fused bytes of governor channel c (R351). -/
def State.govBytes (s : State) (c : Nat) : List Byte :=
  (List.range 5).flatMap (fun i => toLe 16 (s.fuse (0x170 + 5 * c + i)))

/-- A field limit of a governor channel (R351). -/
structure GovField where
  off : Nat
  width : Nat
  sgn : Bool
  big : Bool
  min : Nat
  max : Nat
  delta : Nat
deriving DecidableEq, Repr

/-- A governor channel record (R351). -/
structure GovChan where
  valid : Bool
  eth : Bool
  pipe : Nat
  pOut : Nat
  pObj : Nat
  mCan : Nat
  mObj : Nat
  minIvl : Nat
  win : Nat
  maxCnt : Nat
  id : Nat
  fields : List GovField
deriving DecidableEq, Repr

/-- Field f of a channel record. -/
def govField (b : List Byte) (f : Nat) : GovField :=
  let o := 0x10 + 16 * f
  { off := field b o 1, width := bits (field b (o + 1) 1) 1 0, sgn := bit (field b (o + 1) 1) 2,
    big := bit (field b (o + 1) 1) 3, min := field b (o + 4) 4, max := field b (o + 8) 4, delta := field b (o + 12) 4 }

/-- Channel c as fused. -/
def State.govChan (s : State) (c : Nat) : GovChan :=
  let b := s.govBytes c
  { valid := bit (field b 0 1) 0, eth := bit (field b 0 1) 1, pipe := field b 1 1, pOut := field b 2 1, pObj := field b 3 1,
    mCan := 6 + field b 4 1 % 2, mObj := field b 5 1, minIvl := field b 6 2, win := field b 8 2, maxCnt := field b 10 2,
    id := field b 12 4, fields := (List.range 4).map (govField b) }

/-- The VALID channels serving pipeline p, in order. -/
def State.channelsOf (s : State) (p : Nat) : List Nat :=
  (List.range 16).filter (fun c => (s.govChan c).valid && (s.govChan c).pipe = p)

/-- The initiator group of R347, none for an identifier never issued (R28). -/
def initGroup (i : Nat) : Option Nat :=
  if i < 0x90 then some 0 else if i < 0x94 then some 1 else if i < 0x98 then some 2 else if i < 0x9C then some 3
  else if i < 0xA0 then some 4 else if i = 0xA0 then some 5 else if i ≤ 0xA8 then some 6
  else if i = 0xB0 then some 7 else if 0xB1 ≤ i ∧ i ≤ 0xB4 then some 8 else if i = 0xC0 then some 9
  else if i = 0xC1 then some 10 else if i = 0xD0 then some 11 else if i = 0xFF then some 12 else none

/-- Whether the identifier is one of R28; 0xFF only on a returned part (R603). -/
def State.initIssued (s : State) (i : Nat) : Bool := (initGroup i).isSome && (i ≠ 0xFF || s.sec.returned)

/-- A region record allows an access of its 4 KiB units u0 to u1 (R347, R348). -/
def regionAllows (w : Nat) (write : Bool) (g u0 u1 : Nat) : Bool :=
  bit w 95 && decide (bits w 27 0 ≤ u0) && decide (u1 ≤ bits w 59 32) && bit w ((if write then 80 else 64) + g)

/-- Memory firewall: one region contains every byte and grants the group (R346, R348). -/
def State.fwMem (s : State) (init : Nat) (write : Bool) (a n : Nat) : Bool :=
  !s.fwEn || match initGroup init with
    | none => false
    | some g => (List.range 64).any (fun r => regionAllows (s.fuse (0x110 + r)) write g (a / 4096) ((a + n - 1) / 4096))

/-- MMIO firewall, by BAR0 offset (R347, R348). -/
def State.fwMmio (s : State) (init : Nat) (write : Bool) (off n : Nat) : Bool :=
  !s.fwEn || match initGroup init with
    | none => false
    | some g => (List.range 32).any (fun r => regionAllows (s.fuse (0x150 + r)) write g (off / 4096) ((off + n - 1) / 4096))

/-! ### Geometry -/

/-- Quadrant of a Frond (R30). -/
def quadOf (fp : Nat) : Nat := (if fp / 12 < 6 then 0 else 2) + (if fp % 12 < 6 then 0 else 1)

/-- Logical channel of a main-memory address (R463). -/
def lchOf (a : Nat) : Nat := bits a 14 8
/-- Offset within the channel (R463). -/
def chanOff (a : Nat) : Nat := a / 32768 * 256 + a % 256
/-- The main-memory address of a channel offset. -/
def addrOf (lch off : Nat) : Nat := off / 256 * 32768 + lch * 256 + off % 256

/-- The i-th non-spare channel of group g (R464). -/
def powerUpPch (lch : Nat) : Nat := 36 * (lch / 32) + (lch % 32) / 8 * 9 + lch % 8

/-- The physical channel the map gives a logical channel (R464, R491). -/
def State.mappedPch (s : State) (lch : Nat) : Nat :=
  match (s.chmap lch).pch with
  | some p => p.toNat
  | none => powerUpPch lch

/-- The physical channel that serves an access: the spare below the copy position of a migration (R480). -/
def State.servingPch (s : State) (a : Nat) : Nat :=
  let l := lchOf a
  let g := s.group (l / 32)
  if g.migFrom ≠ 0xFF ∧ g.migLch = l ∧ chanOff a / 256 < g.migBlocks then g.migTo.toNat else s.mappedPch l

/-- Classes of address (R25). -/
inductive Target where
  | main | frond (fp off : Nat) | mmio (off : Nat) | outbound (win : Nat) | unmapped
deriving DecidableEq, Repr

/-- The range of R25 that holds an address. -/
def targetOf (a : Nat) : Target :=
  if a < 0x1000000000 then .main
  else if 0x4000000000 ≤ a ∧ a < 0x4090000000 ∧ a % 0x1000000 < 0x800000 then
    .frond ((a - 0x4000000000) / 0x1000000) (a % 0x1000000)
  else if 0x8000000000 ≤ a ∧ a < 0x8004000000 then .mmio (a - 0x8000000000)
  else if 0xC000000000 ≤ a ∧ a < 0x10000000000 then .outbound ((a - 0xC000000000) / 0x1000000000)
  else .unmapped

/-- The decoding of a whole transaction: unmapped unless every byte lies in the range of the first (R26). -/
def targetRange (a n : Nat) : Target :=
  match targetOf a, targetOf (a + n - 1) with
  | .main, .main => .main
  | .frond f o, .frond g _ => if f = g then .frond f o else .unmapped
  | .mmio o, .mmio _ => .mmio o
  | .outbound w, .outbound _ => .outbound w
  | _, _ => .unmapped

/-! ### Pipelines -/

/-- Class of a pipeline's accepted blob; 3 without one. -/
def PipeRec.cls (r : PipeRec) : Nat := match r.blob with | some b => b.cls | none => 3
/-- Clock of a pipeline's accepted blob. -/
def PipeRec.fclk (r : PipeRec) : Nat := match r.blob with | some b => b.fclk | none => 0

/-- The running pipelines (R89). -/
def State.runningPipes (s : State) : List Nat := (List.range 8).filter (fun p => (s.pipe p).running)
/-- The running class-0 pipelines. -/
def State.class0Pipes (s : State) : List Nat := s.runningPipes.filter (fun p => (s.pipe p).cls = 0)

/-- The pipeline a stream is bound to by an accepted blob, and its record (R88). -/
def State.boundTo (s : State) (st : Nat) : Option (Nat × PipeBlob × StreamCfg) :=
  (List.range 8).findSome? (fun p =>
    match (s.pipe p).blob with
    | some b => (b.streams.find? (fun c => c.stream = st)).map (fun c => (p, b, c))
    | none => none)

/-- MODE (R354). -/
def GovMode.code : GovMode → Nat
  | .active => 0 | .standby => 1 | .silent => 2

/-- Whether the device is held by PORST_N or SYSRST_N (R619, R620). -/
def State.held (s : State) : Bool := !s.pins.porstN || !s.pins.sysrstN

end Sys2Proof.Machine
end

