-- ==== Sys2Proof/Machine/Rs.lean ====
section
/-! DEFINITION. The Reed-Solomon symbol code over GF(2^8) (R469 to R473, 14). -/

namespace Sys2Proof.Machine

/-- Multiplication by alpha = 0x02 in GF(2^8) with x^8 + x^4 + x^3 + x^2 + 1 (R469). -/
def gfDouble (a : Byte) : Byte := if a.getLsbD 7 then (a <<< 1) ^^^ 0x1D else a <<< 1

/-- Multiplication in GF(2^8): the sum of a·2^i over the bits i of b. -/
def gfMul (a b : Byte) : Byte :=
  ((List.range 8).foldl (fun (acc, p) i => (if b.getLsbD i then acc ^^^ p else acc, gfDouble p)) ((0 : Byte), a)).1

/-- alpha to the power n. -/
def gfPow : Nat → Byte
  | 0 => 1
  | n + 1 => gfDouble (gfPow n)

/-- The value at x of the polynomial whose first listed byte is its highest coefficient (R469). -/
def gfEval (x : Byte) (l : List Byte) : Byte := l.foldl (fun acc b => gfMul acc x ^^^ b) 0

/-- One message byte through the division by g(x) = x^3 + 0x07 x^2 + 0x0E x + 0x08; the register holds p_2, p_1, p_0 (R470). -/
def rsStep (p : Byte × Byte × Byte) (u : Byte) : Byte × Byte × Byte :=
  let f := p.1 ^^^ u
  (p.2.1 ^^^ gfMul f 0x07, p.2.2 ^^^ gfMul f 0x0E, gfMul f 0x08)

/-- The three check bytes of a message, p_2 first (R470). -/
def rsCheck (u : List Byte) : List Byte :=
  let p := u.foldl rsStep (0, 0, 0)
  [p.1, p.2.1, p.2.2]

/-- A message with its check bytes (R470). -/
def rsEncode (u : List Byte) : List Byte := u ++ rsCheck u

/-- What the decoder finds (R471). -/
inductive RsOutcome where
  | good | corrected (pos : Nat) (value : Byte) | uncorrectable
deriving DecidableEq, Repr

/-- The power l with alpha^l = s1 / s0, looked for below n: s0·alpha^l = s1. -/
def rsLocate (s0 s1 : Byte) : Nat → Option Nat
  | 0 => none
  | n + 1 => match rsLocate s0 s1 n with
    | some l => some l
    | none => if gfMul s0 (gfPow n) = s1 then some n else none

/-- The outcome the three syndromes give for a word of n bytes (R471). -/
def rsOutcome (n : Nat) (s0 s1 s2 : Byte) : RsOutcome :=
  if s0 = 0 ∧ s1 = 0 ∧ s2 = 0 then .good
  else if s0 ≠ 0 ∧ s1 ≠ 0 ∧ s2 ≠ 0 ∧ gfMul s1 s1 = gfMul s0 s2 then
    match rsLocate s0 s1 n with
    | some l => .corrected (n - 1 - l) s0
    | none => .uncorrectable
  else .uncorrectable

/-- Decode a received word (R471). -/
def rsDecode (w : List Byte) : RsOutcome :=
  rsOutcome w.length (gfEval 1 w) (gfEval 2 w) (gfEval 4 w)

/-- The word after correction; an uncorrectable word as received. -/
def rsCorrected (w : List Byte) : List Byte :=
  match rsDecode w with
  | .corrected pos v => w.set pos (w.getD pos 0 ^^^ v)
  | _ => w

/-- Flip the bits a list of symbol errors names. -/
def applyErrs (w : List Byte) (errs : List (Nat × Byte)) : List Byte :=
  errs.foldl (fun l e => l.set e.1 (l.getD e.1 0 ^^^ e.2)) w

/-! ### The link code of a memory channel (R467) -/

/-- One byte through the CRC-8 with x^8 + x^2 + x + 1, most significant bit first. -/
def crc8Byte (c b : Byte) : Byte :=
  (List.range 8).foldl (fun x _ => if x.getLsbD 7 then (x <<< 1) ^^^ 0x07 else x <<< 1) (c ^^^ b)

/-- The link CRC-8 of a code word in transfer order, from 0x00 (R467). -/
def crc8 (w : List Byte) : Byte := w.foldl crc8Byte 0

/-- Whether a transfer of a code word and its CRC-8 that arrives with bits flipped still matches (R467). -/
def linkOk (w : List Byte) (e : LinkErr) : Bool :=
  let t := applyErrs (w ++ [crc8 w]) (e.map (fun x => (x.1.val, x.2)))
  crc8 (t.take w.length) = t.getD w.length 0

end Sys2Proof.Machine
end

