-- ==== Sys2Proof/Machine/Ops.lean ====
section
/-! DEFINITION. The named operations every block shares: fault records, memory lines, Frond stores, the bus, posting, authority,
doubt, the safe state and the fail-silent latch. -/

namespace Sys2Proof.Machine

/-! ### Fault records (R343, R344) -/

/-- A record leaves its block for the collector, stamped with the time of detection (R343, R344; log 11). -/
def report (r : FaultRec) (s : State) : State :=
  { s with thal := { s.thal with inFlight := s.thal.inFlight ++ [{ r with time := s.gctl.time }] } }

/-- The record of a code with an initiator, an address and a detail. -/
def faultAt (code : BitVec 16) (init : Nat) (addr detail : Nat) : FaultRec :=
  { code := code, init := BitVec.ofNat 8 init, addr := BitVec.ofNat 40 addr, detail := BitVec.ofNat 64 detail }

/-- Report a code alone, with a detail. -/
def reportCode (code : BitVec 16) (detail : Nat) : State → State := report { code := code, detail := BitVec.ofNat 64 detail }

/-- The pipeline, clock, class and frame fields of a record (R343). -/
def withPipe (s : State) (p : Nat) (frame : Word32) (r : FaultRec) : FaultRec :=
  { r with pipe := BitVec.ofNat 4 p, fclk := BitVec.ofNat 2 (s.pipe p).fclk, cls := BitVec.ofNat 2 (s.pipe p).cls,
           frame := frame, noframe := false }

/-- Report a code for a frame of a pipeline. -/
def reportFrame (code : BitVec 16) (p : Nat) (frame : Word32) (doubt : Bool) (detail : Nat) (s : State) : State :=
  report (withPipe s p frame { code := code, doubt := doubt, detail := BitVec.ofNat 64 detail }) s

/-- A record about Frond f: FP, FL and LAST_FAULT (R170, R343). -/
def reportFrond (f : Nat) (r : FaultRec) (s : State) : State :=
  State.modFrond f (fun x => { x with lastFault := r.code })
    (report { r with fp := BitVec.ofNat 8 f, fl := (s.fp f).fl } s)

/-- Free bytes (log 8). -/
def freeBytes (n : Nat) (s : State) : List Byte × State :=
  let r := draw (8 * n) s
  (toLe n r.1.toNat, r.2)

/-! ### Main memory (R463, R474 to R482) -/

/-- The canonical form of a byte store: addresses strictly rising, no byte listed that an unlisted address reads as (log 5). -/
def Memory.wf (m : Memory) : Bool := Tab.canonical (0 : Byte) m

/-- A byte with its poison mark. -/
abbrev PByte := Byte × Bool

/-- Bytes with no poison. -/
def clean (l : List Byte) : List PByte := l.map (fun b => (b, false))
/-- The bytes alone. -/
def plain (l : List PByte) : List Byte := l.map (fun b => b.1)
/-- Whether any byte is poisoned. -/
def poisoned (l : List PByte) : Bool := l.any (fun b => b.2)

/-- The metadata of line i: lines of a channel lost and replaced read poisoned until written again (R473, R481). -/
def State.lineMeta (s : State) (i : Nat) : LineMeta :=
  let m := tget {} s.mem.lines i
  match (s.chmap (lchOf (i * 64))).wiped with
  | some w => if !m.held && decide (w ≤ chanOff (i * 64) / 64) then { m with poison := true } else m
  | none => m

/-- Write the metadata of line i; in a channel that was wiped the line is then its own. -/
def setLineMeta (i : Nat) (poison wss : Bool) (s : State) : State :=
  let held := (s.chmap (lchOf (i * 64))).wiped.isSome
  { s with mem := { s.mem with lines := tset {} s.mem.lines i { poison := poison, wss := wss, held := held } } }

/-- n bytes of main memory from a. -/
def State.memBytes (s : State) (a n : Nat) : List Byte := treadN 0 s.mem.bytes a n

/-- Put bytes into main memory. -/
def putMem (a : Nat) (d : List Byte) (s : State) : State :=
  { s with mem := { s.mem with bytes := twriteN 0 s.mem.bytes a d } }

/-- Whether the clock of a line's controller group is lost: an access waits, and gets an error response if it waits 100 µs (R558; log 52). -/
def State.lineStopped (s : State) (i : Nat) : Bool := (s.group (lchOf (i * 64) / 32)).clockLost

/-- Whether no channel serves a line (R482). -/
def State.lineLost (s : State) (i : Nat) : Bool := (s.chmap (lchOf (i * 64))).lost

/-- The bytes of main memory with their lines' poison; a LOST channel's data is poisoned (R474, R482). -/
def State.memMarked (s : State) : Nat → Nat → List PByte
  | _, 0 => []
  | a, n + 1 => (tget 0 s.mem.bytes a, (s.lineMeta (a / 64)).poison || s.lineLost (a / 64)) :: s.memMarked (a + 1) n

/-- The lines an access touches. -/
def linesOf (a n : Nat) : List Nat := (List.range ((a + n - 1) / 64 + 1 - a / 64)).map (fun i => a / 64 + i)

/-- The part of an access that lies in line i. -/
def inLine {α : Type} (a i : Nat) (d : List α) : List α :=
  ((d.drop (i * 64 - a)).take (if i * 64 ≤ a then 64 - a % 64 else 64))

/-- A transfer has succeeded on the channel of an address: a retraining has not been in vain (R468). -/
def transferOk (a : Nat) (s : State) : State :=
  if (s.pch (s.servingPch a)).retrained then State.modPch (s.servingPch a) (fun r => { r with retrained := false }) s else s

/-- One line of a write: a whole line takes the poison of the data, a part keeps the old line's poison too (R475). -/
def writeLine (a : Nat) (d : List PByte) (i : Nat) (s : State) : State :=
  let part := inLine a i d
  let s := transferOk (i * 64) s
  let old := (s.lineMeta i).poison
  setLineMeta i (poisoned part || (decide (part.length < 64) && old)) true (putMem (max a (i * 64)) (plain part) s)

/-- Write bytes to main memory, line by line (R475). -/
def memWrite (a : Nat) (d : List PByte) (s : State) : State :=
  (linesOf a d.length).foldl (fun t i => writeLine a d i t) s

/-! ### Frond store (R135 to R140) -/

/-- The 35 symbols of store word w as they stand in the array: message, check bytes, and the errors that sit there (R138). -/
def FrondRec.rawWord (r : FrondRec) (w : Nat) : List Byte :=
  applyErrs (rsEncode (treadN 0 r.store (w * 32) 32)) ((tget [] r.errs w).map (fun e => (e.pos.val, e.flip)))

/-- What reading word w finds (R139). -/
def FrondRec.wordOutcome (r : FrondRec) (w : Nat) : RsOutcome :=
  if tget [] r.errs w = [] then .good else rsDecode (r.rawWord w)

/-- Whether word w reads poisoned: its poison bit, or two symbols in error (R139). -/
def FrondRec.wordPoison (r : FrondRec) (w : Nat) : Bool :=
  tget false r.poison w || r.wordOutcome w = .uncorrectable

/-- The 32 data bytes reading word w returns (R139). -/
def FrondRec.wordData (r : FrondRec) (w : Nat) : List Byte :=
  if tget [] r.errs w = [] then treadN 0 r.store (w * 32) 32 else (rsCorrected (r.rawWord w)).take 32

/-- The counters and marks of one word read: CORR and a write-back due, or UNCORR and the row to remap (R139, R140, R172). -/
def noteWord (w : Nat) (r : FrondRec) : FrondRec :=
  match r.wordOutcome w with
  | .corrected _ _ => { r with corr := satInc r.corr, pendingCorr := addNew r.pendingCorr w }
  | .uncorrectable => { r with uncorr := satInc r.uncorr, badRows := addNew r.badRows (w / 16) }
  | .good => if tget false r.poison w then { r with uncorr := satInc r.uncorr } else r

/-- The words an access touches. -/
def wordsOf (a n : Nat) : List Nat := if n = 0 then [] else (List.range ((a + n - 1) / 32 + 1 - a / 32)).map (fun i => a / 32 + i)

/-- The bytes of a store access, with the poison of their words. -/
def FrondRec.storeMarked (r : FrondRec) (a n : Nat) : List PByte :=
  (((wordsOf a n).flatMap (fun w => let p := r.wordPoison w; (r.wordData w).map (fun b => (b, p)))).drop (a % 32)).take n

/-- The words of a store access, counted (R139, R172). -/
def noteWords (a n : Nat) (r : FrondRec) : FrondRec := (wordsOf a n).foldl (fun x w => noteWord w x) r

/-- Write one whole word: fresh check bytes, poison as given. -/
def setWord (w : Nat) (d : List Byte) (p : Bool) (r : FrondRec) : FrondRec :=
  { r with store := twriteN 0 r.store (w * 32) d, poison := tset false r.poison w p, errs := tset [] r.errs w [],
           pendingCorr := r.pendingCorr.filter (fun x => x ≠ w) }

/-- The part of a write that lies in word w, merged into the old word where it is not whole (R138). DESIGN CHOICE (log 115): of an old word
that is uncorrectable the spec says only that the merged word is poisoned; it is counted in UNCORR and its row is to be remapped,
with no 0x0132. -/
def writeWord (a : Nat) (d : List PByte) (w : Nat) (r : FrondRec) : FrondRec :=
  let part := (d.drop (w * 32 - a)).take (if w * 32 ≤ a then 32 - a % 32 else 32)
  if part.length = 32 then setWord w (plain part) (poisoned part) r
  else
    let o := max a (w * 32) % 32
    let old := r.wordData w
    setWord w (old.take o ++ plain part ++ old.drop (o + part.length)) (poisoned part || r.wordPoison w) (noteWord w r)

/-- Write bytes into a Frond store, word by word (R138). -/
def storeWrite (a : Nat) (d : List PByte) (r : FrondRec) : FrondRec :=
  (wordsOf a d.length).foldl (fun x w => writeWord a d w x) r

/-- The banks an access touches (R135). -/
def banksOf (a n : Nat) : List Nat :=
  if n = 0 then [] else (List.range ((a + n - 1) / 262144 + 1 - a / 262144)).map (fun i => a / 262144 + i)

/-- A bank serves accesses while ON or FENCING (R149). -/
def BankRec.serves (b : BankRec) : Bool := b.st = .on || b.st = .fencing

/-- Every bank the access touches serves it. -/
def FrondRec.banksServe (r : FrondRec) (a n : Nat) : Bool := (banksOf a n).all (fun b => (r.bank b).serves)

/-! ### Handle entries and DMA's claims (R141, R445) -/

/-- A handle entry decoded (R141). -/
structure Handle where
  base : Nat
  rows : Nat
  fill : Nat
  fmt : Nat
  layout : Nat
  valid : Bool
  epoch : Nat
  dim0 : Nat
  dim1 : Nat
  dim2 : Nat
  stride : Nat
deriving DecidableEq, Repr

/-- The fields of an entry's two words (R141). -/
def decodeHandle (w0 w1 : Nat) : Handle :=
  { base := bits w0 13 0, rows := bits w0 28 14, fill := bits w0 43 29, fmt := bits w0 47 44, layout := bits w0 49 48,
    valid := bit w0 50, epoch := bits w0 63 52, dim0 := bits w1 15 0, dim1 := bits w1 31 16, dim2 := bits w1 47 32,
    stride := bits w1 63 48 }

/-- Handle h of a Frond. -/
def FrondRec.hnd (r : FrondRec) (h : Nat) : Handle := decodeHandle (r.handle h).w0.toNat (r.handle h).w1.toNat

/-- The banks a DMA descriptor concerns at its destination Frond: of its handle's rows, where the entry is valid, and of its footprint
of byte offsets and lengths (R445). -/
def FrondRec.dmaBanks (r : FrondRec) (h : Nat) (feet : List (Nat × Nat)) : List Nat :=
  let rows := if (r.hnd h).valid then banksOf ((r.hnd h).base * 512) ((r.hnd h).rows * 512) else []
  (feet.flatMap (fun x => banksOf x.1 x.2)).foldl addNew rows

/-- Claims on banks of Frond f, counted whatever the banks' state (R445). -/
def addClaims (f : Nat) (bs : List Nat) : State → State :=
  State.modFrond f (fun r => bs.foldl (fun r b => r.modBank b (fun k => { k with claims := k.claims + 1 })) r)

/-- Claims released (R443, R445). -/
def dropClaims (f : Nat) (bs : List Nat) : State → State :=
  State.modFrond f (fun r => bs.foldl (fun r b => r.modBank b (fun k => { k with claims := k.claims - 1 })) r)

/-! ### The outbound window (R535 to R537) -/

/-- Host address of an access to window w (R535, R553). -/
def State.hostAddr (s : State) (w a : Nat) : Nat := ((s.obw w).base.toNat + (a - (0xC000000000 + w * 0x1000000000))) % 2 ^ 64

/-- Put bytes into host memory, modulo 2^64. -/
def putHost (a : Nat) (d : List Byte) (s : State) : State := { s with hostMem := twriteN 0 s.hostMem a d }

/-- Reads that count as class 0: by class, by Thallus and Moss, and by the twin block (R31, R477). -/
def class0Read (init cls : Nat) : Bool := cls = 0 || init = 0xC0 || init = 0xC1 || init = 0xD0

/-- The class-0 lines an access takes in this token period (R483, R490). -/
def useTokens (init cls a n : Nat) (s : State) : State :=
  if class0Read init cls then
    (linesOf a n).foldl (fun t i => State.modGroup (lchOf (i * 64) / 32) (fun g => { g with c0Now := g.c0Now + 1 }) t) s
  else s

/-! ### The bus: writes (R26, R32, R348, R349) -/

/-- Record a transaction no range of R25 holds (R26). -/
def reportUnmapped (init a : Nat) : State → State := report (faultAt 0x0302 init a 0)
/-- Record a memory firewall denial (R349). -/
def reportFwMem (init a : Nat) : State → State := report (faultAt 0x0920 init a 0)
/-- Record an MMIO firewall denial (R349). -/
def reportFwMmio (init a : Nat) : State → State := report (faultAt 0x0921 init a 0)

/-- The queue SRAM's BAR0 offsets (R401). -/
def inSram (off n : Nat) : Bool := decide (0x140000 ≤ off) && decide (off + n ≤ 0x180000)

/-- Put bytes into the queue SRAM. -/
def putSram (off : Nat) (d : List Byte) (s : State) : State :=
  { s with cmdq := { s.cmdq with sram := twriteN 0 s.cmdq.sram off d } }

/-- A write reaches a Frond store: dropped with 0x0131 and an error response where a bank is OFF or RET (R149, R151). -/
def frondInWrite (init fp off a : Nat) (d : List PByte) (s : State) : Bool × State :=
  if (s.frond fp).banksServe off d.length then (true, State.modFrond fp (storeWrite off d) s)
  else (false, reportFrond fp (faultAt 0x0131 init a 0) s)

/-- A write reaches an outbound window (R535, R537). -/
def outboundWrite (init w a : Nat) (d : List PByte) (s : State) : Bool × State :=
  if !(s.obw w).en then (false, report (faultAt 0x0702 init a w) s)
  else if !s.gctl.pcieUp then (false, report (faultAt 0x0701 init a w) s)
  else (true, putHost (s.hostAddr w a) (plain d) s)

/-- One write transaction: decoded as a whole, judged by the firewall, performed; false is an error response (R26, R348, R349).
An MMIO target is the queue SRAM here; the rest of MMIO is Mmio.lean's. -/
def busWrite (init cls a : Nat) (d : List PByte) (s : State) : Bool × State :=
  if d = [] then (true, s) else
  match targetRange a d.length with
  | .unmapped => (false, reportUnmapped init a s)
  | .main =>
    if !s.fwMem init true a d.length then (false, reportFwMem init a s)
    else if (linesOf a d.length).any (fun i => s.lineLost i || s.lineStopped i) then (false, s)
    else (true, memWrite a d (useTokens init cls a d.length s))
  | .frond fp off =>
    if !s.fwMem init true a d.length then (false, reportFwMem init a s) else frondInWrite init fp off a d s
  | .outbound w =>
    if !s.fwMem init true a d.length then (false, reportFwMem init a s) else outboundWrite init w a d s
  | .mmio off =>
    if !s.fwMmio init true off d.length then (false, reportFwMmio init a s)
    else if inSram off d.length then (true, putSram off (plain d) s)
    else (true, s)

/-! ### Posting by DMA31 and MSI-X (R406, R417, R436) -/

/-- The MSI-X table entry of a vector: address, data and mask (PCI Express 5.0; log 21). -/
def State.msixEntry (s : State) (v : Nat) : Nat × Nat × Bool :=
  let e := treadN 0 s.cmdq.msixTable (16 * v) 16
  (field e 0 8, field e 8 4, !(tget 0 s.cmdq.msixTable (16 * v + 12)).getLsbD 0)

/-- Send the message of a vector: a posted write to the table's address, or its pending bit while it is masked (R406, R536). -/
def sendMsix (v : Nat) (s : State) : State :=
  let e := s.msixEntry v
  if e.2.2 then { s with cmdq := { s.cmdq with msixPending := tset false s.cmdq.msixPending v true } }
  else if s.gctl.pcieUp then emit (.msix v) (putHost e.1 (toLe 4 e.2.1) s)
  else s

/-- Attempts of a control-class access: the first and RETRY repeats, each failed one counted (R450); what the first good one answers. -/
def dmaAttempts {α : Type} (n : Nat) (act : State → Option α × State) : Nat → State → Option α × State
  | 0, s => (none, s)
  | k + 1, s =>
    let r := act s
    if r.1.isSome then r else dmaAttempts n act k (State.modDma n (fun c => { c with retried := satInc c.retried }) r.2)

/-- RETRY in force: 0 is treated as 1 (R455). -/
def DmaRec.retries (r : DmaRec) : Nat := if r.retry = 0 then 1 else r.retry.toNat

/-- Initiator of a channel pair (R434). -/
def dmaInit (n : Nat) : Nat := 0x90 + n / 2

/-- DETAIL of a DMA fault (R452). -/
def dmaDetail (n mode attempts : Nat) : Nat := n + place mode 8 + place attempts 10

/-- The failed attempts DETAIL holds; eight do not fit its three bits, which are then free (R452; log 50). -/
def attemptField (k : Nat) (s : State) : Nat × State :=
  if k < 8 then (k, s) else let r := draw 3 s; (r.1.toNat, r.2)

/-- Descriptors the device makes for itself have ended on a channel: how many and where they lay is not stated, so DONE and CUR are free
(R70, R436, R458, R459; log 54). -/
def ownDescriptors (n : Nat) (s : State) : State :=
  let d := draw 32 s
  let c := draw 40 d.2
  State.modDma n (fun x => { x with doneCount := d.1, cur := c.1 }) c.2

/-- A fault of such a descriptor at an address; the MODE it has is not stated (R452; log 54). -/
def ownFault (code : BitVec 16) (n a attempts : Nat) (s : State) : State :=
  let f := attemptField attempts s
  let m := draw 2 f.2
  report (faultAt code (dmaInit n) a (dmaDetail n m.1.toNat f.1)) m.2

/-- A firmware channel's transfer has succeeded: it is IDLE again (R436, R442). -/
def firmwareDone (n : Nat) (s : State) : State :=
  State.modDma n (fun x => { x with st := .idle, fault := 0 }) (ownDescriptors n s)

/-- Every retry of an access failed: 0x0C06, BAD, and the channel stays HALTED until its next transfer resumes it (R436, R450). -/
def firmwareHalt (n a attempts : Nat) (s : State) : State :=
  State.modDma n (fun x => { x with st := .halted, fault := 0x0C06, bad := satInc x.bad }) (ownDescriptors n (ownFault 0x0C06 n a attempts s))

/-- One access of a firmware channel under R450; none when every retry failed, and the channel has halted (R436). -/
def firmwareAccess {α : Type} (n a : Nat) (act : State → Option α × State) (s : State) : Option α × State :=
  let k := (s.dmac n).retries + 1
  let r := dmaAttempts n act k s
  if r.1.isSome then r else (none, firmwareHalt n a k r.2)

/-- Entries of a ring (R401, R417). -/
def CqRec.entries (q : CqRec) : Nat := 2 ^ q.size.toNat
def SqRec.entries (q : SqRec) : Nat := 2 ^ q.size.toNat

/-- FULL: TAIL + 1 = HEAD modulo the size (R405). -/
def CqRec.full (q : CqRec) : Bool := (q.tail.toNat + 1) % q.entries = q.head.toNat

/-- TAIL moves on, PHASE inverting at the wrap (R405). -/
def CqRec.advance (q : CqRec) : CqRec :=
  if q.tail.toNat + 1 = q.entries then { q with tail := 0, phase := !q.phase } else { q with tail := q.tail + 1 }

/-- Write an entry at a queue's TAIL through DMA31, move TAIL and send its vector (R405, R406, R436). -/
def postEntry (q : Nat) (entry : List Byte) (noirq : Bool) (s : State) : Bool × State :=
  let c := s.cq q
  let a := c.base.toNat + 32 * c.tail.toNat
  let r := firmwareAccess 31 a (fun t => let w := busWrite (dmaInit 31) (t.dmac 31).cls.toNat a (clean entry) t; (if w.1 then some () else none, w.2)) s
  if r.1.isSome then
    let t := State.modCq q CqRec.advance (firmwareDone 31 r.2)
    (true, if c.ien && !noirq then sendMsix c.vector.toNat t else t)
  else (false, r.2)

/-- The bytes of an event queue entry; FLAGS take PHASE and LOST at posting (R417). -/
def eventBytes (code flags : Nat) (pipe : Nat) (frame : Word32) (time : Word64) (detail : List Byte) : List Byte :=
  toLe 1 code ++ toLe 1 flags ++ toLe 1 pipe ++ [0] ++ toLe 4 frame.toNat ++ toLe 8 time.toNat ++ slice detail 0 16

/-- PHASE set in the flags byte of an entry. -/
def withPhase (o : Nat) (phase : Bool) (e : List Byte) : List Byte :=
  e.set o ((e.getD o 0 &&& 0xFE) ||| (if phase then 1 else 0))

/-- An event that finds no place is dropped and counted; the next entry carries LOST (R417, R432). -/
def dropEvent (s : State) : State :=
  { s with cmdq := { s.cmdq with evqLost := satInc s.cmdq.evqLost, evLostMark := true } }

/-- Post an event (R417): only where its mask bit is set; into the queue in order, behind any post still repeated (R436). -/
def postEvent (code : Nat) (pipe : Option Nat) (frame : Option Word32) (detail : List Byte) (s : State) : State :=
  if !bit s.cmdq.evqMask.toNat code then s
  else if s.island.restarting || !(s.cq 64).en || (s.cq 64).full then dropEvent s
  else
    let flags := (if s.cmdq.evLostMark then 2 else 0) + (if frame = none then 4 else 0)
    let e := eventBytes code flags (pipe.getD 0xFF) (frame.getD 0xFFFFFFFF) s.gctl.time detail
    let s := { s with cmdq := { s.cmdq with evLostMark := false } }
    if s.cmdq.stuck.any (fun x => x.q = 64) then
      { s with cmdq := { s.cmdq with stuck := s.cmdq.stuck ++ [{ q := 64, entry := e, noirq := false, cmd := none }] } }
    else
      let r := postEntry 64 (withPhase 1 (s.cq 64).phase e) false s
      if r.1 then r.2
      else { r.2 with cmdq := { r.2.cmdq with stuck := r.2.cmdq.stuck ++ [{ q := 64, entry := e, noirq := false, cmd := none }] } }

/-! ### Actuator outputs: withdrawal and Moss's submissions (R336, R339, R381, R521, R636) -/

/-- A passed frame of an object that has not started becomes WITHDRAWN (R381). -/
def withdrawObj (m o : Nat) (s : State) : State :=
  if (s.canc m).onBus = some o then s
  else State.modObj m o (fun x => if x.st = .pending then { x with st := .withdrawn } else x) s

/-- A passed frame of a transmit stream that has not started becomes WITHDRAWN (R521). -/
def withdrawTx (n i : Nat) : State → State :=
  State.modTx n i (fun x => if x.st = .pending then { x with st := .withdrawn } else x)

/-- Withdraw the passed frames of channel c's output from one source. -/
def withdrawChannel (primary : Bool) (c : Nat) (s : State) : State :=
  let g := s.govChan c
  if !primary then (if g.eth then s else withdrawObj g.mCan g.mObj s)
  else if g.eth then withdrawTx g.pOut g.pObj s else withdrawObj g.pOut g.pObj s

/-- Withdraw the passed frames of a source of pipeline p (R381, R521). -/
def withdrawPipe (p : Nat) (primary : Bool) (s : State) : State :=
  (s.channelsOf p).foldl (fun t c => withdrawChannel primary c t) s

/-- The mode leaves ACTIVE: every passed frame not started is withdrawn (R381, R521). -/
def withdrawAll (s : State) : State :=
  forUpTo 16 (fun c t => if (t.govChan c).valid then withdrawChannel true c (withdrawChannel false c t) else t) s

/-- End a request the way TXABORT does: at once off the bus, at the frame's end on it (R377). -/
def abortObj (m o : Nat) (s : State) : State :=
  if (s.canc m).onBus = some o then State.modCan m (fun r => { r with abortOnBus := true }) s
  else State.modObj m o (fun x => if x.st = .held || x.st = .pending then { x with st := .aborted } else x) s

/-- Request an object that is neither HELD nor PENDING (R377). -/
def requestObj (m o : Nat) (s : State) : State :=
  State.modObj m o (fun x => if x.st = .held || x.st = .pending then x
    else { x with st := .held, heldAt := s.gctl.time, markDue := none }) s

/-- Bytes by offset. -/
def bytesTab (d : List Byte) : Tab Byte := twriteN 0 [] 0 d

/-- Moss writes one payload to its output: the old request ends first; a frame on the bus is waited for (R636). -/
def mossWrite (c : Nat) (payload : List Byte) (p : Nat) (s : State) : State :=
  let g := s.govChan c
  let s := abortObj g.mCan g.mObj s
  if (s.canc g.mCan).onBus = some g.mObj then State.modMoss p (fun r => { r with dueChans := addNew r.dueChans c }) s
  else requestObj g.mCan g.mObj
    (State.modObj g.mCan g.mObj (fun x => { x with data := bytesTab (payload.take 64) }) s)

/-- Moss submits the latest payloads it holds for pipeline p; with none, the next run's are due (R336, R337, R339). -/
def mossSubmit (p : Nat) (s : State) : State :=
  match (s.moss p).payloadFrame with
  | none => State.modMoss p (fun r => { r with submitDue := true }) s
  | some _ => (s.moss p).payloads.foldl (fun t e => mossWrite e.1 e.2 p t) (State.modMoss p (fun r => { r with submitDue := false, dueChans := [] }) s)

/-- Moss submits its payloads for frame k: now if its run for the frame has ended, else at the run's end (R320, R336). -/
def mossSubmitFor (p : Nat) (frame : Word32) (s : State) : State :=
  if (s.moss p).doneFrame = some frame then mossSubmit p s
  else State.modMoss p (fun r => { r with submitDue := true }) s

/-! ### Authority and doubt (R317 to R323) -/

/-- Give pipeline p its authority: records 0x0908 or 0x0909, posts event 5 and withdraws the old source's frames on a change (R319, R381, R418). -/
def setAuthority (p : Nat) (primary : Bool) (frame : Word32) (s : State) : State :=
  if (s.auth p).primary = primary then s
  else
    let s := State.modAuth p (fun a => { a with primary := primary, planDue := [] }) s
    let s := reportFrame (if primary then 0x0909 else 0x0908) p frame false 0 s
    let s := postEvent 5 (some p) (some frame) (toLe 1 (if primary then 0 else 1)) s
    withdrawPipe p (!primary) s

/-- Bit i of the doubt window stands for frame winFrame − i (R361). -/
def AuthRec.offset (a : AuthRec) (frame : Word32) : Nat :=
  match a.winFrame with
  | some w => (w - frame).toNat
  | none => 8

/-- Whether frame k is flagged in the window. -/
def AuthRec.inDoubt (a : AuthRec) (frame : Word32) : Bool := decide (a.offset frame < 8) && a.window.getLsbD (a.offset frame)

/-- Whether one of frames k − 7 to k − 1 is flagged (R322). -/
def AuthRec.earlierDoubt (a : AuthRec) (frame : Word32) : Bool :=
  (List.range 7).any (fun i => decide (a.offset frame + i + 1 < 8) && a.window.getLsbD (a.offset frame + i + 1))

/-- The window moves on to a new frame: it holds the pipeline's last 8 frames, whatever their numbers (R322, R323, R361). -/
def AuthRec.shiftTo (a : AuthRec) (frame : Word32) : AuthRec := { a with winFrame := some frame, window := a.window <<< 1 }

/-- The open, not yet complete ledger entry of a frame takes a VERDICT bit, DOUBT, and FIRST_FAULT if it has none (R17, R18, R317). -/
def ledgerDoubt (p : Nat) (frame : Word32) (vbit : Nat) (code : BitVec 16) : State → State :=
  State.modLedger p frame (fun l =>
    if l.valid && !l.complete && l.frame = frame then
      { l with verdict := l.verdict ||| BitVec.ofNat 16 (2 ^ vbit) ||| 0x8000,
               firstFault := if l.firstFault = 0 then code else l.firstFault }
    else l)

/-- The stores, units and slots of a Frond after the fabric's reset; the array keeps its bits (R339; log 20). -/
def resetFrond (r : FrondRec) : FrondRec :=
  { store := r.store, poison := r.poison, errs := r.errs, badRows := r.badRows, corr := r.corr, uncorr := r.uncorr,
    banks := r.banks.filterMap (fun b => if b.2.spares = 0 then none else some (b.1, { spares := b.2.spares })) }

/-- The timebase's source is lost: LOCKED clears and the timebase runs free (R386, R387, R523). -/
def timeFree (s : State) : State :=
  { s with gctl := { s.gctl with locked := false, timeSource := .freeRunning, slewLeft := 0 } }

/-- The source that corrects the timebase is among CAN0 to CAN5 (R387). -/
def State.canSource (s : State) : Bool := s.gctl.timeSource = .can && (List.range 6).any (fun m => (s.canc m).disc)

/-- The DMA engine's reset: every channel idle with its registers at their reset values (R453). -/
def resetDma : Tab DmaRec := []

/-- The safe state's resets: LOOP but the frame clocks, PREP, the fabric, CAN0 to CAN5, the DMA engine (R20, R339, R340, R387, R453).
Made at the decision (log 22). -/
def safeReset (s : State) : State :=
  let s := if s.canSource then timeFree s else s
  { s with
    loop := { fclks := s.loop.fclks },
    fronds := (s.fronds.map (fun e => (e.1, resetFrond e.2))).filter (fun e => decide (e.2 ≠ {})),
    can := s.can.filter (fun e => decide (6 ≤ e.1)),
    dma := resetDma,
    gctl := { s.gctl with ready := false },
    twin := { s.twin with armed := false } }

/-- Thallus decides on the safe state: 0x0906 with SAFE, SAFE_COUNT; a first decision also makes every authority MOSS, submits
what Moss holds and starts the restart (R338, R339). -/
def safeDecide (s : State) : State :=
  let s := report { code := 0x0906, init := 0xC0, safe := true } s
  let s := { s with island := { s.island with safeCount := satInc s.island.safeCount } }
  if s.island.restarting then s
  else
    let ps := s.runningPipes
    let c0 := s.class0Pipes
    let s := forUpTo 8 (fun p t => setAuthority p false (t.auth p).frame t) s
    let s := c0.foldl (fun t p => mossSubmit p t) s
    let s := c0.foldl (fun t p => State.modC0 p (fun c => { c with openVoid := { c.openVoid with safe := true } }) t) s
    let s := { s with island := { s.island with restarting := true, running := ps, c0Running := c0 } }
    safeReset s

/-- A doubt after D_k: a PRIMARY frame switches to MOSS and Moss submits; CLEAN becomes 0 (R320). -/
def lateDoubt (p : Nat) (frame : Word32) (s : State) : State :=
  let a := s.auth p
  let s := State.modAuth p (fun a => { a with clean := 0 }) s
  if a.decided = some frame && a.primary then mossSubmitFor p frame (setAuthority p false frame s) else s

/-- A doubt source fires for frame k of class-0 pipeline p (R317, R320, R322): the ledger bit; the doubt window, whose second
doubted frame among eight enters the safe state; and R320 where k is decided or past. -/
def doubt (p : Nat) (frame : Word32) (vbit : Nat) (code : BitVec 16) (s : State) : State :=
  if !((s.pipe p).running && (s.pipe p).cls = 0) then s
  else
    let a := s.auth p
    let s := ledgerDoubt p frame vbit code s
    let second := !a.inDoubt frame && a.earlierDoubt frame
    let s := State.modAuth p (fun a =>
      if a.offset frame < 8 then { a with window := a.window ||| BitVec.ofNat 8 (2 ^ a.offset frame) } else a) s
    let s := if a.decided = some frame || decide ((s.pipe p).cur ≠ some frame) then lateDoubt p frame s else s
    if second then safeDecide s else s

/-- A class-0 read of poisoned data: UNCORR in the open frame of every running class-0 pipeline (R477). -/
def class0Poison (code : BitVec 16) (s : State) : State :=
  s.class0Pipes.foldl (fun t p => match (t.pipe p).cur with
    | some k => doubt p k 5 code t
    | none => t) s

/-! ### The bus: reads (R26, R348, R349, R474, R139, R535) -/

/-- A read transaction of main memory: poisoned lines under class 0 record 0x020B once and put frames in doubt (R474, R477). -/
def memTxRead (init cls a n : Nat) (s : State) : List PByte × State :=
  let d := s.memMarked a n
  let s := (linesOf a n).foldl (fun t i => transferOk (i * 64) t) (useTokens init cls a n s)
  if poisoned d && class0Read init cls then
    (d, class0Poison 0x020B (report { faultAt 0x020B init a (s.servingPch a) with doubt := true, cls := 0 } s))
  else (d, s)

/-- A NOC read of a Frond store: error response and 0x0131 where a bank is not ON; poisoned words record 0x0132 once (R139, R149). -/
def frondTxRead (init cls fp off a n : Nat) (s : State) : Option (List PByte) × State :=
  let r := s.frond fp
  if !r.banksServe off n then (none, reportFrond fp (faultAt 0x0131 init a 0) s)
  else
    let d := r.storeMarked off n
    let s := State.modFrond fp (noteWords off n) s
    if poisoned d then
      let s := reportFrond fp { faultAt 0x0132 init a 0 with doubt := class0Read init cls } s
      (some d, if class0Read init cls then class0Poison 0x0132 s else s)
    else (some d, s)

/-- What the host's completion of a request gives: data, poisoned data with 0x0705, or an error response with 0x0704 (R535). -/
def hostAnswer (k : CplKind) (init w a n : Nat) (s : State) : Option (List PByte) × State :=
  match k with
  | .data d => (some (clean (slice d 0 n)), s)
  | .poisoned d => (some ((slice d 0 n).map (fun b => (b, true))), report (faultAt 0x0705 init a w) s)
  | .ur => (none, report (faultAt 0x0704 init a w) s)
  | .ca => (none, report (faultAt 0x0704 init a w) s)

/-- An engine's read of an outbound window: the host answers with its memory, unless it has said otherwise of the request's tag
(R535, R537; log 7). -/
def outboundRead (init w a n : Nat) (s : State) : Option (List PByte) × State :=
  if !(s.obw w).en then (none, report (faultAt 0x0702 init a w) s)
  else if !s.gctl.pcieUp then (none, report (faultAt 0x0701 init a w) s)
  else
    let t := s.gctl.obNextTag
    let k := match s.gctl.hostCpl.find? (fun e => e.1 = t) with
      | some e => e.2
      | none => .data (treadN 0 s.hostMem (s.hostAddr w a) n)
    hostAnswer k init w a n { s with gctl := { s.gctl with obNextTag := t + 1, hostCpl := s.gctl.hostCpl.filter (fun e => e.1 ≠ t) } }

/-- One read transaction; none is an error response. An MMIO target is the queue SRAM here. -/
def busRead (init cls a n : Nat) (s : State) : Option (List PByte) × State :=
  if n = 0 then (some [], s) else
  match targetRange a n with
  | .unmapped => (none, reportUnmapped init a s)
  | .main =>
    if !s.fwMem init false a n then (none, reportFwMem init a s)
    else if (linesOf a n).any s.lineStopped then (none, s)
    else let r := memTxRead init cls a n s; (some r.1, r.2)
  | .frond fp off =>
    if !s.fwMem init false a n then (none, reportFwMem init a s) else frondTxRead init cls fp off a n s
  | .outbound w =>
    if !s.fwMem init false a n then (none, reportFwMem init a s) else outboundRead init w a n s
  | .mmio off =>
    if !s.fwMmio init false off n then (none, reportFwMmio init a s)
    else if inSram off n then (some (clean (treadN 0 s.cmdq.sram off n)), s)
    else (some (clean (List.replicate n 0)), s)

/-- Bytes to the next multiple of 64. -/
def toLineEnd (a : Nat) : Nat := 64 - a % 64

/-- A read split into transactions of one 64-byte block each (R26, R29): the parts in order, none for an error response. -/
def readBlocks (init cls : Nat) : Nat → Nat → Nat → State → List (Nat × Nat × Option (List PByte)) × State
  | 0, _, _, s => ([], s)
  | fuel + 1, a, n, s =>
    if n = 0 then ([], s)
    else
      let k := min n (toLineEnd a)
      let r := busRead init cls a k s
      let rest := readBlocks init cls fuel (a + k) (n - k) r.2
      ((a, k, r.1) :: rest.1, rest.2)

/-- A read of n bytes under an engine that stops at the first error response. -/
def readAll (init cls a n : Nat) (s : State) : Option (List PByte) × State :=
  let r := readBlocks init cls (n / 64 + 2) a n s
  if r.1.all (fun b => b.2.2.isSome) then (some (r.1.flatMap (fun b => b.2.2.getD [])), r.2) else (none, r.2)

/-- A write split into transactions of one 64-byte block each; true when every one was acknowledged. -/
def writeBlocks (init cls : Nat) : Nat → Nat → List PByte → State → Bool × State
  | 0, _, _, s => (true, s)
  | fuel + 1, a, d, s =>
    if d = [] then (true, s)
    else
      let k := toLineEnd a
      let r := busWrite init cls a (d.take k) s
      let rest := writeBlocks init cls fuel (a + k) (d.drop k) r.2
      (r.1 && rest.1, rest.2)

/-- The same by an engine that stops at the first error response: the address it came from, none when every block was acknowledged (R55, R448). -/
def writeUntil (init cls : Nat) : Nat → Nat → List PByte → State → Option Nat × State
  | 0, _, _, s => (none, s)
  | fuel + 1, a, d, s =>
    if d = [] then (none, s)
    else
      let k := toLineEnd a
      let r := busWrite init cls a (d.take k) s
      if r.1 then writeUntil init cls fuel (a + k) (d.drop k) r.2 else (some a, r.2)

/-- A write of any length that stops at the first error response. -/
def writeStop (init cls a : Nat) (d : List PByte) (s : State) : Option Nat × State := writeUntil init cls (d.length / 64 + 2) a d s

/-- A write of any length. -/
def writeAll (init cls a : Nat) (d : List PByte) (s : State) : Bool × State := writeBlocks init cls (d.length / 64 + 2) a d s

/-- Time on the island's clock, which goes on in S3 while the timebase stands still (R563; log 3). -/
def State.safNow (s : State) : Nat := s.gctl.time.toNat + (if 3 ≤ s.pwr.sleep.toNat then s.pwr.aonNs else 0)

/-! ### Received frames (R517 to R519) -/

/-- A good frame for the port arrives, is counted and handled; nothing arrives on a link that is not UP (R517, R542). -/
def receive (n : Nat) (f : State → State) (s : State) : State :=
  if (s.port n).link = .up then f (State.modPort n (fun r => { r with rxOk := satInc r.rxOk }) s) else s

/-- A frame of at least len bytes: one longer than MAXFRAME is bad (R517, R518). -/
def receiveLen (n len : Nat) (f : State → State) (s : State) : State :=
  if (s.port n).link = .up && decide ((s.port n).maxFrame.toNat < len) then
    State.modPort n (fun r => { r with rxBad := satInc r.rxBad }) s
  else receive n f s

/-- The least length of a UDP frame, FCS included: untagged, over IPv4 or IPv6 (R517, R518). -/
def udpFrame (v6 : Bool) (payload : Nat) : Nat := max 64 (payload + if v6 then 66 else 46)

/-! ### The fail-silent latch (R342) -/

/-- The hardware actions of R342: FAULT_N low, the governor SILENT, CAN6 and CAN7 off the bus. -/
def silence (s : State) : State :=
  let s := { s with pins := { s.pins with faultN := false },
                    island := { s.island with silent := true, mode := .silent },
                    twin := { s.twin with armed := false } }
  let cut : CanRec → CanRec := fun r => { r with onBus := none, abortOnBus := false }
  withdrawAll (State.modCan 6 cut (State.modCan 7 cut s))

/-- A detector of R341 fires: the latch, with its cause in THAL_FATAL. -/
def fatal (g : Island → Island) (s : State) : State :=
  let s := silence s
  { s with island := g s.island }

/-! ### Commands in flight: results and completion (R399, R403, R404, R414, R415) -/

/-- A field of a command packet (R399). -/
def Cmd.fld (c : Cmd) (o n : Nat) : Nat := field c.pkt o n
def Cmd.op (c : Cmd) : Nat := c.fld 0 1
def Cmd.fence (c : Cmd) : Bool := bit (c.fld 1 1) 0
def Cmd.mbox (c : Cmd) : Bool := bit (c.fld 1 1) 1
def Cmd.noirq (c : Cmd) : Bool := bit (c.fld 1 1) 2
def Cmd.mbx (c : Cmd) : Nat := c.fld 4 1 % 16
def Cmd.rbuf (c : Cmd) : Nat := c.fld 8 8
def Cmd.rlen (c : Cmd) : Nat := c.fld 0x10 4

/-- A command has ended. -/
def Cmd.ended (c : Cmd) : Bool := match c.stage with | .done _ _ _ => true | _ => false

/-- A mailbox written: SEQ odd, then fields and data, then SEQ even, all before a later read (R415). -/
def writeMbox (c : Cmd) (status : Byte) (data : List Byte) (r0 r1 : Word64) (s : State) : State :=
  State.modMbox c.mbx (fun m => { m with
    seq := m.seq + 2, cid := BitVec.ofNat 16 (c.fld 2 2), status := status, sq := BitVec.ofNat 8 c.sq,
    length := BitVec.ofNat 32 data.length, time := s.gctl.time, r0 := r0, r1 := r1,
    data := twriteN 0 m.data 0 (data.take 4032) }) s

/-- Result data written to RBUF under 0xA0 in the queue's class; false for an error response (R400, R414). -/
def writeResult (c : Cmd) (data : List PByte) (s : State) : Bool × State :=
  if c.rbuf = 0 || data = [] then (true, s) else writeAll 0xA0 (s.sq c.sq).cls.toNat c.rbuf data s

/-- A command ends: a successful one's result data goes to its buffer or mailbox first, 0x28 where that fails; its completion
entry may then be posted. RESULT0 is 0 unless the status is 0x00 (R403, R404, R414). A command that has ended stays as it ended. -/
def finishData (tag : Nat) (status : Nat) (data : List PByte) (r0 r1 : Nat) (s : State) : State :=
  match s.cmd tag with
  | none => s
  | some c =>
    if c.ended then s else
    let w0 := BitVec.ofNat 64 r0
    let w1 := BitVec.ofNat 64 r1
    let r : Nat × State :=
      if status ≠ 0 then (status, s)
      else if c.mbox then (0, writeMbox c 0 (plain data) w0 w1 s)
      else
        let w := writeResult c data s
        (if w.1 then 0 else 0x28, w.2)
    State.modCmd tag (fun x => { x with stage := .done (BitVec.ofNat 8 r.1) (if r.1 = 0 then w0 else 0) w1, boxed := c.mbox && r.1 = 0 }) r.2

/-- A command ends with no result data. -/
def finishCmd (tag : Nat) (status : Nat) (r0 r1 : Nat) : State → State := finishData tag status [] r0 r1

/-- A RUN or RUN_CHAIN under way ends without success: its mailbox, where it has one, takes the status and RESULT1 with no data (R404, R415;
DEDUCED, log 38). One whose end is not posted yet ends anew where it is cancelled (R411). -/
def failCmd (tag status r1 : Nat) (s : State) : State :=
  match s.cmd tag with
  | none => s
  | some c =>
    let w1 := BitVec.ofNat 64 r1
    let s := if c.mbox then writeMbox c (BitVec.ofNat 8 status) [] 0 w1 s else s
    State.modCmd tag (fun x => { x with stage := .done (BitVec.ofNat 8 status) 0 w1, boxed := c.mbox }) s

/-! ### Wake events (R566, R567) -/

/-- Whether wake event b, in PWR_WAKE_EN bit order, is enabled in state S_k (R566, R578). -/
def Pwr.wakeEnabled (p : Pwr) (b k : Nat) : Bool :=
  match b with
  | 0 => decide (1 ≤ k)
  | 1 => k = 1 || k = 2
  | 2 => decide (1 ≤ k) && p.wakeNEn
  | 3 => decide (1 ≤ k) && p.wakeTimerEn
  | _ => k = 3 && p.wakeCan

/-- The sleep state that is being entered, slept in or left; 0 in S0. -/
def Pwr.depth (p : Pwr) : Nat := if p.phase = .entering then p.sleepTo.toNat else p.sleep.toNat

/-- A wake event arrives: recorded, and it starts the exit, at once when the device sleeps and after the entry when it is
still being entered; SLP_S3_N and SLP_S4_N rise at its start (R566, R567, R614). -/
def wakeEvent (b : Nat) (s : State) : State :=
  let p := s.pwr
  if !p.wakeEnabled b p.depth then s
  else
    { s with pwr := { p with wakeCause := p.wakeCause ||| BitVec.ofNat 5 (2 ^ b), wakeSeen := decide (p.phase = .entering),
                             phase := if p.phase = .steady then .waking else p.phase },
             pins := if p.phase = .steady && decide (3 ≤ p.sleep.toNat) then { s.pins with slpS3N := true, slpS4N := true } else s.pins }

/-! ### One command of the block -/

/-- The latch is hardware with no firmware in its path, and only PORST_N clears it: once set it stays, and while it is set the
governor's mode is SILENT and FAULT_N is low, whatever a command did (R342). -/
def keepLatch (s t : State) : State :=
  if s.island.silent || t.island.silent then
    { t with island := { t.island with silent := true, mode := .silent }, pins := { t.pins with faultN := false } }
  else t

/-- Asleep in S3 or S4 to at least depth k: every domain but SAF and AON is down in S3, every domain but AON in S4 (R563). -/
def State.asleep (s : State) (k : Nat) : Bool := s.pwr.phase = .steady && decide (k ≤ s.pwr.sleep.toNat)

/-- A command's meaning: nothing happens where it acts while that is off; else the operation's next state, under the latch. -/
def performUnless (off : Bool) (f : State → State) (s : State) : Host.Outcome State Fault Refusal :=
  if off then .next s else .next (keepLatch s (f s))

/-- The meaning of a command of the domains that are off in S3 and S4; nothing happens while a reset pin holds the device
either (R563, R619, R620). -/
def perform (f : State → State) (s : State) : Host.Outcome State Fault Refusal := performUnless (s.held || s.asleep 3) f s

/-- The same in SAF, which runs in S3. -/
def performSaf (f : State → State) (s : State) : Host.Outcome State Fault Refusal := performUnless (s.held || s.asleep 4) f s

/-- A write of a register of BAR0: in S1 and S2 it also wakes the device (R566). -/
def performReg (f : State → State) : State → Host.Outcome State Fault Refusal := perform (fun s => wakeEvent 1 (f s))

/-- The blocks of BAR0 answer: the Rhizome runs (R585). -/
def State.barUp (s : State) : Bool := decide (2 ≤ s.gctl.bootStage.toNat)

/-- The blocks the safe state resets answer: the Rhizome runs and no restart is in progress (R340, R585). -/
def State.blocksUp (s : State) : Bool := s.barUp && !s.island.restarting

/-- A write of a register outside GCTL and SEC, which does nothing before the Rhizome runs (R585). -/
def performBar (f : State → State) : State → Host.Outcome State Fault Refusal := performReg (fun s => if s.barUp then f s else s)

/-- A write of a register of LOOP, SCHED, CMDQ, DMA, FRND or CTXT, which does nothing during a safe-state restart either (R340). -/
def performBlk (f : State → State) : State → Host.Outcome State Fault Refusal := performReg (fun s => if s.blocksUp then f s else s)

/-- The fabric of Frond f does nothing: its quadrant's clock is gated in a sleep state or has stopped (R557, R563). -/
def State.fabOff (s : State) (f : Nat) : Bool :=
  (s.pwr.phase ≠ .entering && decide (1 ≤ s.pwr.sleep.toNat)) || (s.quad (quadOf f)).clockStopped

/-- The meaning of a command of Frond f's own. -/
def performFab (f : Nat) (g : State → State) (s : State) : Host.Outcome State Fault Refusal := performUnless (s.held || s.fabOff f) g s

/-- The same in AON, which runs in every sleep state. -/
def performAon (f : State → State) (s : State) : Host.Outcome State Fault Refusal := performUnless s.held f s

/-- CAN6 and CAN7 run in SAF, CAN0 to CAN5 in the CAN domain (R22, R558). -/
def performCan (m : Nat) (f : State → State) (s : State) : Host.Outcome State Fault Refusal :=
  if m < 6 then performUnless (s.held || s.asleep 3 || s.pwr.lostDomains.contains .can) f s else performSaf f s

/-- A write of a register of a CAN controller; of CAN0 to CAN5 it is a BAR0 write to a block the safe state resets (R340, R566, R585). -/
def performCanReg (m : Nat) (f : State → State) : State → Host.Outcome State Fault Refusal :=
  performCan m (fun s => if m < 6 then wakeEvent 1 (if s.blocksUp then f s else s) else f s)

/-- The same for a command some of whose terms no device can carry (WellFormed). -/
def performWf (ok : Bool) (f : State → State) (s : State) : Host.Outcome State Fault Refusal :=
  if ok then perform f s else .refused .illFormed

/-- The same for a command of Frond f's own. -/
def performWfFab (ok : Bool) (f : Nat) (g : State → State) (s : State) : Host.Outcome State Fault Refusal :=
  if ok then performFab f g s else .refused .illFormed

/-- The same in SAF. -/
def performWfSaf (ok : Bool) (f : State → State) (s : State) : Host.Outcome State Fault Refusal :=
  if ok then performSaf f s else .refused .illFormed

end Sys2Proof.Machine
end

