-- ==== Sys2Proof/Machine/Stage.lean ====
section
/-! DEFINITION. Stages of a frame, their watchdogs, the authority decision and the end of a frame (R16, R17, R319, R325, R331, R412). -/

namespace Sys2Proof.Machine

/-- Number of a stage (R16). -/
def stageNo : Stage → Nat
  | .ingest => 0 | .prep => 1 | .perceive => 2 | .plan => 3 | .check => 4 | .egress => 5

/-- Whether stage i of an entry has completed (R17). -/
def Ledger.stageDone (l : Ledger) (i : Nat) : Bool := l.tStage.getD i 0xFFFFFFFF ≠ 0xFFFFFFFF

/-- Whether an entry is of an open frame: VALID and not COMPLETE. -/
def Ledger.isOpen (l : Ledger) : Bool := l.valid && !l.complete

/-- The open frames of a pipeline, oldest first. -/
def State.openFrames (s : State) (p : Nat) : List Ledger :=
  match (s.pipe p).cur with
  | none => []
  | some k => ((List.range 64).map (fun i => s.ledgerAt p (k - BitVec.ofNat 32 (63 - i)))).filter
      (fun l => l.isOpen && l.pipe.toNat = p)

/-- The KIND 1 stream of a shard with the smallest BUCKET at or above b (R285). -/
def ModelRec.streamFor (m : ModelRec) (sh b : Nat) : Option Nat :=
  let xs := (List.range m.streams.length).filter (fun i =>
    let e := m.streams.getD i ⟨0, 0, 0, 0, 0, 0⟩
    e.shard = sh && e.kind = 1 && decide (b ≤ e.bucket))
  xs.foldl (fun a i => match a with
    | none => some i
    | some j => if (m.streams.getD i ⟨0, 0, 0, 0, 0, 0⟩).bucket < (m.streams.getD j ⟨0, 0, 0, 0, 0, 0⟩).bucket then some i else some j) none

/-- Streams for every shard of a model, none where a shard has none for the bucket. -/
def ModelRec.streamsFor (m : ModelRec) (b : Nat) : Option (List (Nat × Nat)) :=
  (List.range m.shards.length).mapM (fun sh => (m.streamFor sh b).map (fun i => (sh, i)))

/-- The streams of a run: those it was dispatched with, while it is queued those its context's bucket calls for now (R251, R285). -/
def State.runStreams (s : State) (r : RunRec) : List (Nat × Nat) :=
  if r.st = .queued then ((s.model r.model).streamsFor (s.ctx (r.ctxs.headD 0)).bucket.toNat).getD [] else r.streams

/-- The streams of stage st of a frame's runs, dispatched or still to be; a run no stream serves holds up every stage (R16). -/
def State.stageStreams (s : State) (p : Nat) (frame : Word32) (st : Nat) : List (RunRec × Nat) :=
  (s.sched.runs.filter (fun r => r.pipe = some (p, frame))).flatMap (fun r =>
    let xs := s.runStreams r
    if xs.isEmpty then [({ r with st := .queued }, 0)]
    else (xs.filter (fun x => ((s.model r.model).streams.getD x.2 ⟨0, 0, 0, 0, 0, 0⟩).stage = st)).map (fun x => (r, x.1)))

/-- A shard of a run that has not ended. -/
def RunRec.pendingShard (r : RunRec) (sh : Nat) : Bool :=
  r.st = .queued || r.todo.contains sh || r.onFp.any (fun x => x.1 = sh) || r.halted.contains sh

/-- Every stream of the stage has completed. -/
def State.stageClear (s : State) (p : Nat) (frame : Word32) (st : Nat) : Bool :=
  (s.stageStreams p frame st).all (fun x => !x.1.pendingShard x.2)

/-- The pipeline's clock serves the golden requests: the lowest-numbered running class-0 pipeline's, else the internal period (R325, R357). -/
def refreshGolden (s : State) : State :=
  match s.class0Pipes with
  | [] => { s with thal := { s.thal with goldenInternal := true } }
  | p :: _ => { s with thal := { s.thal with goldenInternal := false, goldenFclk := BitVec.ofNat 2 (s.pipe p).fclk } }

/-- A class-0 shard of model m is hot no longer: no open frame of a pipeline that runs the model keeps the promise (R300). -/
def voidFit (m : Nat) (s : State) : State :=
  (s.class0Pipes.filter (fun p => (s.pipe p).start.ctxs.any (fun c => (s.ctx c).model.toNat = m))).foldl (fun t p =>
    State.modC0 p (fun c => { c with openVoid := { c.openVoid with fit := true } }) t) s

/-! ### Watchdogs (R330 to R332) -/

/-- Watchdog of a stage (R16). -/
def wdogNo (p stage : Nat) : Nat := p * 6 + stage

/-- WDOG_LATE of a stage of a frame fires once: 0x0902 and the doubt (R331). -/
def wdogLate (p stage : Nat) (l : Ledger) (s : State) : State :=
  let w := s.wdog (wdogNo p stage)
  if !w.armed || w.lateFor.contains l.frame then s
  else
    let s := State.modWdog (wdogNo p stage) (fun w => { w with last := 3, lateFor := l.frame :: w.lateFor.take 63 }) s
    doubt p l.frame 7 0x0902 (reportFrame 0x0902 p l.frame true 0 s)

/-! ### Authority (R319) -/

/-- The decision instant of a frame, once, and no more when a later frame has had its own: PRIMARY when the frame is not in doubt and CLEAN, counting it, is at least N_CLEAN;
MOSS otherwise, with Moss's submission (R319, R336). -/
def decide_ (p : Nat) (frame : Word32) (s : State) : State :=
  if (s.auth p).decided.any (fun d => decide ((frame - d).toInt ≤ 0)) then s
  else
    let inDoubt := (s.ledgerAt p frame).verdict.getLsbD 15 || (s.auth p).inDoubt frame
    let cleanN : Byte := if inDoubt then 0 else satInc (s.auth p).clean
    let primary := !inDoubt && decide (s.nClean ≤ cleanN.toNat)
    let s := State.modAuth p (fun a => { a with decided := some frame, frame := frame, clean := cleanN, passed := [] }) s
    let s := setAuthority p primary frame s
    if primary then s else mossSubmitFor p frame s

/-- A completion is judged against its window; a WDOG_LATE that fires here is D_k where the frame has none yet (R319, R331). -/
def wdogJudge (p stage t : Nat) (l : Ledger) (s : State) : State :=
  let w := s.wdog (wdogNo p stage)
  if !w.armed then s
  else if t < w.openNs.toNat then
    let s := State.modWdog (wdogNo p stage) (fun w => { w with last := 2 }) s
    doubt p l.frame 6 0x0901 (reportFrame 0x0901 p l.frame true 0 s)
  else if t ≤ w.closeNs.toNat then State.modWdog (wdogNo p stage) (fun w => { w with last := 1 }) s
  else
    let s := wdogLate p stage l s
    if (s.pipe p).running then decide_ p l.frame s else s

/-- AUTHORITY of the ledger (R17, R350). -/
def State.ledgerAuthority (s : State) (p : Nat) : Byte :=
  if (s.pipe p).cls ≠ 0 then 3
  else match s.island.mode with
    | .active => if (s.auth p).primary then 0 else 1
    | .standby => 2
    | .silent => 3

/-! ### End of a frame and of a pipeline (R17, R332, R412, R418, R437) -/

/-- A pipeline leaves RUNNING: watchdogs disarmed, DMA channels released, the golden clock chosen again, the commands that
asked for the stop done, PIPE_STOPPED posted (R332, R357, R412, R418, R437). -/
def endPipeline (p : Nat) (last : Option Word32) (s : State) : State :=
  let r := s.pipe p
  let s := State.modPipe p (fun r => { r with running := false, cur := none, last := last, stopping := false, stopTags := [], dmaTaken := [], dmaWanted := [] }) s
  let s := r.dmaTaken.foldl (fun t n =>
    if t.runningPipes.any (fun q => (t.pipe q).dmaTaken.contains n) then t
    else State.modDma n (fun c => { c with owner := 0 }) t) s
  let s := forUpTo 6 (fun i t => State.modWdog (wdogNo p i) (fun w => { w with armed := false }) t) s
  let s := State.modAuth p (fun a => { a with armed := false, planDue := [] }) s
  let s := { s with sched := { s.sched with runs := s.sched.runs.filter (fun x => x.pipe.map Prod.fst ≠ some p) } }
  let s := refreshGolden s
  let s := r.stopTags.foldl (fun t tag => finishCmd tag 0 (match last with | some k => k.toNat | none => 2 ^ 64 - 1) 0 t) s
  postEvent 7 (some p) last [] s

/-- The ledger entry of a frame is finished: AUTHORITY and CLEAN as they stand, COMPLETE last (R17, R320); a stopping pipeline
ends with it (R412). -/
def completeFrame (p : Nat) (frame : Word32) (abandoned : Bool) (s : State) : State :=
  let s := State.modLedger p frame (fun l =>
    { l with authority := s.ledgerAuthority p, clean := if (s.pipe p).cls = 0 then (s.auth p).clean else 0,
             abandoned := abandoned, complete := true }) s
  let s := { s with sched := { s.sched with runs := s.sched.runs.filter (fun r => !(r.pipe = some (p, frame) && r.st = .ended)) } }
  if (s.pipe p).stopping && (s.openFrames p).isEmpty then endPipeline p (some frame) s else s

/-! ### Stage completion (R16, R325, R331) -/

/-- T_STAGE of a stage takes the time after the edge, and the watchdog judges it (R17, R331). -/
def markStage (p : Nat) (frame : Word32) (stage : Nat) (s : State) : State :=
  let l := s.ledgerAt p frame
  let t := min (s.gctl.time.toNat - l.tEdge.toNat) 0xFFFFFFFE
  let s := State.modLedger p frame (fun l => { l with tStage := l.tStage.set stage (BitVec.ofNat 32 t) }) s
  wdogJudge p stage t l s

/-- CHECK requests: every USED Frond with no golden sequence completed since the edge gets a forced request of its own, unless a
sequence started since then is running, whose result answers it (R325 to R327). -/
def checkRequests (p : Nat) (frame : Word32) (s : State) : State :=
  let l := s.ledgerAt p frame
  forUpTo 144 (fun f t =>
    let g := (t.frond f).golden
    let since : Option Word64 → Bool := fun x => match x with | some y => decide (l.tEdge.toNat ≤ y.toNat) | none => false
    if !l.used.getLsbD f || since g.lastDone then t
    else if g.running && since (some g.startedAt) then State.modGolden f (fun g => { g with answers := g.answers ++ [(p, frame)] }) t
    else State.modGolden f (fun g => { g with checkReqs := g.checkReqs ++ [(p, frame)], forced := true }) t) s

/-- EGRESS has its last frame: every channel of the pipeline has passed one for the frame (R16). -/
def State.egressDone (s : State) (p : Nat) : Bool := (s.channelsOf p).all (fun c => (s.auth p).passed.contains c)

/-- EGRESS of the frame completes, and with CHECK done the entry is finished. -/
def advanceEgress (p : Nat) (frame : Word32) (s : State) : State :=
  let s := if (s.ledgerAt p frame).isOpen && !(s.ledgerAt p frame).stageDone 5 && (s.auth p).decided = some frame &&
      s.egressDone p && ((s.ledgerAt p frame).stageDone 4 || !(s.channelsOf p).isEmpty)
    then markStage p frame 5 s else s
  if (s.ledgerAt p frame).isOpen && (s.ledgerAt p frame).stageDone 4 && (s.ledgerAt p frame).stageDone 5 then
    completeFrame p frame false s else s

/-- The peer is lost: PEER_FAULT_N low or PEER_ALIVE clear (R506). -/
def State.peerLost (s : State) : Bool := !s.pins.peerFaultN || !s.twin.peerAlive

/-- PERCEIVE and PLAN complete when every stream of theirs has, or with no stream of their own when the stage before does; a
pipeline of classes 1 to 3 has no work in CHECK and EGRESS (R16, R318, R330). -/
def advanceStages (p : Nat) (frame : Word32) (s : State) : State :=
  if !((s.ledgerAt p frame).isOpen && (s.ledgerAt p frame).frame = frame) then s else
  let step : Nat → State → State := fun st t =>
    let l := t.ledgerAt p frame
    if !l.stageDone st && t.stageClear p frame st && (!(t.stageStreams p frame st).isEmpty || l.stageDone (st - 1))
    then markStage p frame st t else t
  let s := step 2 s
  let before := (s.ledgerAt p frame).stageDone 3
  let s := step 3 s
  if (s.ledgerAt p frame).stageDone 3 && !before then
    if (s.pipe p).cls = 0 then checkRequests p frame (if s.peerLost then State.modTwinPipe p (fun t => { t with waitOver := frame :: t.waitOver }) s else s)
    else completeFrame p frame false (markStage p frame 5 (markStage p frame 4 s))
  else s

/-- INGEST or PREP of an open frame completes (R16). -/
def stageComplete (p : Nat) (frame : Word32) (stage : Nat) (s : State) : State :=
  let l := s.ledgerAt p frame
  if l.isOpen && l.frame = frame && !l.stageDone stage then advanceStages p frame (markStage p frame stage s) else s

/-- The twin wait of a frame is over and judged, or the frame has none (R506). -/
def State.twinSettled (s : State) (p : Nat) (l : Ledger) : Bool := !l.twinPresent || (s.twinPipe p).judged.contains l.frame

/-- No CHECK request of the frame is unanswered (R327). -/
def State.goldenAnswered (s : State) (p : Nat) (frame : Word32) : Bool :=
  s.fronds.all (fun e => !e.2.golden.checkReqs.contains (p, frame) && !e.2.golden.answers.contains (p, frame))

/-- A pipeline of classes 1 to 3 gives a frame up when a stream of it has halted (R17; log 23). -/
def abandonFrame (p : Nat) (frame : Word32) (s : State) : State :=
  if (s.pipe p).cls ≠ 0 && (s.ledgerAt p frame).isOpen && (s.ledgerAt p frame).frame = frame then completeFrame p frame true s else s

end Sys2Proof.Machine
end

