-- ==== Sys2Proof/Machine/Slot.lean ====
section
/-! DEFINITION. Stream slots of a Frond: GO, ABORT, halting, drain boundaries, and the runs behind them (R104, R155 to R161). -/

namespace Sys2Proof.Machine

/-! ### Descriptors (R153, R154) -/

def QDesc.fld (d : QDesc) (o n : Nat) : Nat := field d.body o n
def QDesc.op (d : QDesc) : Nat := d.fld 0 1
def QDesc.cls (d : QDesc) : Nat := bits (d.fld 1 1) 1 0
def QDesc.nofence (d : QDesc) : Bool := bit (d.fld 2 2) 0
def QDesc.barrier (d : QDesc) : Bool := bit (d.fld 2 2) 1
def QDesc.last (d : QDesc) : Bool := bit (d.fld 2 2) 2

/-- The four units of a Frond's front end (R154). -/
inductive DescUnit where
  | grid | vector | mem | ctl
deriving DecidableEq, Repr

/-- Unit of an opcode; none for a malformed one (R154). -/
def unitOf (op : Nat) : Option DescUnit :=
  if op = 1 ∨ op = 2 ∨ op = 3 then some .grid
  else if op = 4 ∨ op = 5 ∨ op = 6 ∨ op = 0x0D ∨ op = 0x0F then some .vector
  else if op = 7 ∨ op = 8 ∨ op = 9 ∨ op = 0x0E then some .mem
  else if op = 0x0A ∨ op = 0x0B ∨ op = 0x0C ∨ op = 0x10 then some .ctl
  else none

/-! ### Drain boundaries (R104) -/

/-- A descriptor of the slot is executing. -/
def SlotRec.executing (x : SlotRec) : Bool := x.queue.any (fun d => d.started)

/-- Neither accumulator bank is occupied. -/
def FrondRec.banksEmpty (r : FrondRec) : Bool := !r.acc0.occupied && !r.acc1.occupied

/-- A drain boundary of slot k (R104). -/
def FrondRec.drainBoundary (r : FrondRec) (k : Nat) : Bool := r.banksEmpty && !(r.slot k).executing

/-- Slot k has not reached a drain boundary of its own: a descriptor of it executes, or its stream occupies a bank. A bank the other
slot's stream occupies was taken after that boundary (R104, R157). -/
def FrondRec.spanOpen (r : FrondRec) (k : Nat) : Bool := (r.slot k).executing || (!r.banksEmpty && r.bankSlot = k)

/-- A golden request is pending on the Frond (R325). -/
def GoldenRec.pending (g : GoldenRec) : Bool := g.clockReq || !g.checkReqs.isEmpty

/-- Empty both accumulator banks (R156). -/
def FrondRec.emptyBanks (r : FrondRec) : FrondRec := { r with acc0 := {}, acc1 := {} }

/-- A slot returns to IDLE; a load stream's owner stays until its end is seen (R156, R289). -/
def SlotRec.toIdle (x : SlotRec) : SlotRec :=
  { x with st := .idle, faultCode := 0, queue := [], endFetched := false, aborting := false,
           spanNoted := false }

/-- Slot 1 is asked to yield: slot 0 runs, a golden request is forced, or ABORT was written (R157). -/
def FrondRec.yieldAsked (r : FrondRec) : Bool := r.slot0.st = .running || r.golden.forced || r.slot1.aborting

/-! ### GO and ABORT (R156, R176) -/

/-- GO: BASE and SEQ are taken and fetching starts; ignored unless IDLE (R156). -/
def slotGo (f k : Nat) : State → State :=
  State.modSlot f k (fun x => if x.st = .idle then
    { x.toIdle with st := .running, fetchAddr := x.base.toNat / 64 * 64, nextSeq := x.seqReg, owner := .none } else x)

/-- Leave the slot IDLE with both banks empty. -/
def idleSlot (f k : Nat) : State → State :=
  State.modFrond f (fun r => { (r.modSlot k (fun x => { x.toIdle with owner := .none })).emptyBanks with fillWait := false })

/-- ABORT: at once where nothing of the slot executes, else when the issued descriptors have completed, those of a HALTED slot too
(R156; DEDUCED, log 104). -/
def abortSlot (f k : Nat) (s : State) : State :=
  let x := (s.frond f).slot k
  if x.st = .idle then s
  else if x.executing then State.modSlot f k (fun x => { x with aborting := true }) s
  else idleSlot f k s

/-! ### Runs behind a slot (R227, R296, R410) -/

/-- The frame a slot's stream belongs to. -/
def State.frameOf (s : State) (f k : Nat) : Option (Nat × Word32) :=
  match ((s.frond f).slot k).owner with
  | .run n _ => (s.run n).bind (fun r => r.pipe)
  | _ => none

/-- A shard's stream has ended; with the last one the run has (R410). -/
def shardEnded (num sh : Nat) (s : State) : State :=
  State.modRun num (fun r =>
    let on := r.onFp.filter (fun x => x.1 ≠ sh)
    { r with onFp := on, st := if on.isEmpty && r.todo.isEmpty then .ended else r.st }) s

/-- A shard's stream has halted: the run's first fault, and its streams not yet dispatched are not (R410). -/
def shardHalted (num sh code f : Nat) (s : State) : State :=
  State.modRun num (fun r =>
    let on := r.onFp.filter (fun x => x.1 ≠ sh)
    { r with onFp := on, halted := sh :: r.halted, todo := [], fault := some (r.fault.getD (code, f)),
             st := if on.isEmpty then .ended else r.st }) s

/-- A context leaves its state for another, stamped with the time; entering DRAINING discards a pending step (R227). -/
def setCtxState (c : Nat) (st : CtxState) (s : State) : State :=
  State.modCtx c (fun x =>
    let y := { x with st := st, tState := s.gctl.time }
    if st = .draining then { y with appended := 0, pendNt := 0 } else y) s

/-- A dispatched run of classes 1 to 3 is taken off its Fronds: streams ABORTed, contexts DRAINING, the run queued again at the
head of its class, to restart from its first descriptor (R227, R296). -/
def preemptRun (num : Nat) (s : State) : State :=
  match s.run num with
  | none => s
  | some r =>
    if r.st ≠ .dispatched then s else
    let s := r.onFp.foldl (fun t x =>
      let k := if r.cls = 0 then 0 else 1
      if ((t.frond x.2).slot k).owner = .run num x.1 then abortSlot x.2 k t else t) s
    let s := r.ctxs.foldl (fun t c =>
      if (t.ctx c).st = .resident || (t.ctx c).st = .blocked then setCtxState c .draining t else t) s
    let r' := { r with st := .queued, todo := r.streams.map Prod.fst, onFp := [], halted := [], fault := none }
    { s with sched := { s.sched with runs := r' :: s.sched.runs.filter (fun x => x.num ≠ num) } }

/-! ### Faults of a stream (R161, R343) -/

/-- The record of a fault at a descriptor: Frond, class, frame, address concerned and SEQ (R161). -/
def descRecord (s : State) (f k : Nat) (code : BitVec 16) (addr : Nat) (seq : Word32) : FaultRec :=
  let r : FaultRec := { faultAt code f addr seq.toNat with cls := ((s.frond f).slot k).cls }
  match s.frameOf f k with
  | some (p, n) => { withPipe s p n r with cls := ((s.frond f).slot k).cls }
  | none => r

/-- A fault that halts: the slot issues no more, issued descriptors still complete, and the run's stream is over. A slot HALTED
already keeps the fault that halted it (R156, R161, R177). -/
def haltSlot (f k : Nat) (code : BitVec 16) (addr : Nat) (seq : Word32) (s : State) : State :=
  let owner := ((s.frond f).slot k).owner
  let old := ((s.frond f).slot k).st
  let s := reportFrond f (descRecord s f k code addr seq) s
  if old = .halted then s else
  let s := State.modFrond f (fun r => { r.modSlot k (fun x =>
    { x with st := .halted, faultCode := code, queue := x.queue.filter (fun d => d.started) }) with fillWait := false }) s
  match owner with
  | .run n sh =>
    let pf := (s.run n).bind (fun r => r.pipe)
    let s := shardHalted n sh code.toNat f s
    match pf with
    | some (p, fr) => abandonFrame p fr s
    | none => s
  | _ => s

/-- Class-0 work of a slot meets a doubt source: its own frame, or with no frame behind it every running class-0 pipeline's (R139, R317). -/
def streamDoubt (f k vbit : Nat) (code : BitVec 16) (s : State) : State :=
  if ((s.frond f).slot k).cls ≠ 0 then s
  else match s.frameOf f k with
    | some (p, n) => doubt p n vbit code s
    | none => if vbit = 5 then class0Poison code s else s

/-! ### The slot's commands -/

/-- SLOT_GO by the Rhizome or Thallus (R155, R156). -/
def execSlotGo (fp : Frond) (k : Slot) (s : State) := performBlk (slotGo fp.val k.val) s
/-- SLOT_ABORT (R156). -/
def execSlotAbort (fp : Frond) (k : Slot) (s : State) := performBlk (abortSlot fp.val k.val) s

end Sys2Proof.Machine
end

