-- ==== Sys2Proof/Machine/Handles.lean ====
section
/-! DEFINITION. Handle entries, fill marks and epochs of a Frond (R141 to R147, R171, R173, R181). -/

namespace Sys2Proof.Machine

/-- An entry R142 stores with VALID = 0. -/
def Handle.bad (h : Handle) : Bool :=
  h.rows = 0 || decide (16384 < h.base + h.rows) || decide (h.rows < h.fill) || h.stride = 0 || decide (10 ≤ h.fmt) || decide (2 ≤ h.layout)

/-- VALID set or cleared in word 0. -/
def setValid (w0 : Word64) (v : Bool) : Word64 :=
  if v then w0 ||| 0x4000000000000 else w0 &&& ~~~0x4000000000000#64

/-- The low half of a word. -/
def lowHalf (w : Word64) : Word32 := BitVec.ofNat 32 w.toNat

/-- An entry committed: stored with VALID = 0 where R142 says so; the reserved bit 51 stays 0 (R8, R141, R142, R181). -/
def HandleRec.commit (x : HandleRec) (w0 w1 : Word64) : HandleRec :=
  let ok := !(decodeHandle w0.toNat w1.toNat).bad
  let w0 := (if ok then w0 else setValid w0 false) &&& ~~~0x8000000000000#64
  { x with w0 := w0, w1 := w1 }

/-- An entry written whole, its low registers with it. -/
def HandleRec.preset (w0 w1 : Word64) (x : HandleRec) : HandleRec := { x.commit w0 w1 with lo0 := lowHalf w0, lo1 := lowHalf w1 }

/-- One register of an entry: the low ones wait for their high one, which commits the word (R181). -/
def HandleRec.write (word : Nat) (v : Word32) (x : HandleRec) : HandleRec :=
  match word with
  | 0 => { x with lo0 := v }
  | 1 => x.commit (BitVec.ofNat 64 (x.lo0.toNat + place v.toNat 32)) x.w1
  | 2 => { x with lo1 := v }
  | _ => x.commit x.w0 (BitVec.ofNat 64 (x.lo1.toNat + place v.toNat 32))

/-- FILL of word 0 replaced. -/
def setFill (w0 : Word64) (n : Nat) : Word64 :=
  (w0 &&& ~~~0xFFFE0000000#64) ||| BitVec.ofNat 64 (place n 29)

/-- A fill update: RAISE never lowers, SET writes, both clamped to ROWS; the low register follows unless a write to it waits for its
commit (R147, R181). -/
def applyFill (set : Bool) (n : Nat) (x : HandleRec) : HandleRec :=
  let h := decodeHandle x.w0.toNat x.w1.toNat
  let v := min n h.rows
  let w0 := setFill x.w0 (if set then v else max h.fill v)
  { x with w0 := w0, lo0 := if x.lo0 = lowHalf x.w0 then lowHalf w0 else x.lo0 }

/-- A fill update of handle h of Frond f. -/
def fillUpdate (f h : Nat) (set : Bool) (n : Nat) : State → State := State.modFrond f (fun r => r.modHandle h (applyFill set n))

/-- FRND_FILL (R173). -/
def opFrndFill (f v : Nat) : State → State := fillUpdate f (bits v 7 0) (bit v 31) (bits v 22 8)

/-- A model with a hot shard is HOT, without one WARM (R288). -/
def refreshModel (m : Nat) (s : State) : State :=
  let hot := s.sched.fps.any (fun e => e.2.res.any (fun r => r.model = m && r.loaded))
  State.modModel m (fun x => if x.st = .warm || x.st = .hot then { x with st := if hot then .hot else .warm } else x) s

/-- Shards are hot no longer: their models' states follow, and class 0 of them voids the promise of open frames (R288, R300). -/
def shardsLost (l : List Resident) (s : State) : State :=
  l.foldl (fun t r => refreshModel r.model (if r.cls = 0 then voidFit r.model t else t)) s

/-- A change of FRND_EPOCH starts invalidation and releases the Frond's shards (R143, R171, R289). -/
def writeEpoch (f : Nat) (e : BitVec 12) (s : State) : State :=
  if (s.frond f).epoch = e then s
  else shardsLost (s.fp f).res
    (State.modFp f (fun x => { x with res := [] }) (State.modFrond f (fun r => { r with epoch := e, epochBusy := true }) s))

/-- Invalidation ends: VALID is clear in every handle and codebook slot of another epoch (R143). -/
def epochDone (r : FrondRec) : FrondRec :=
  if !r.epochBusy then r else
  { r with
    epochBusy := false,
    handles := (r.handles.map (fun e => (e.1, if bits e.2.w0.toNat 63 52 = r.epoch.toNat then e.2
      else { e.2 with w0 := setValid e.2.w0 false }))).filter (fun e => decide (e.2 ≠ {})),
    cbs := (r.cbs.map (fun e => (e.1, if e.2.epoch = r.epoch then e.2 else { e.2 with valid := false }))).filter
      (fun e => decide (e.2 ≠ {})) }

/-- FRND_EPOCH_WRITE (R143). -/
def execFrndEpochWrite (fp : Frond) (epoch : BitVec 12) (s : State) := performBlk (writeEpoch fp.val epoch) s
/-- EPOCH_INVALIDATION_DONE (R143). -/
def execEpochInvalidationDone (fp : Frond) (s : State) := performFab fp.val (State.modFrond fp.val epochDone) s
/-- FRND_FILL (R173). -/
def execFrndFill (fp : Frond) (value : Word32) (s : State) := performBlk (opFrndFill fp.val value.toNat) s
/-- FILL_RAISE (R147). -/
def execFillRaise (fp : Frond) (h : HandleNo) (value : BitVec 32) (s : State) := performFab fp.val (fillUpdate fp.val h.val false value.toNat) s
/-- HANDLE_ENTRY_WRITE (R142, R181). -/
def execHandleEntryWrite (fp : Frond) (h : HandleNo) (word : Fin 4) (value : Word32) (s : State) :=
  performBlk (State.modFrond fp.val (fun r => r.modHandle h.val (HandleRec.write word.val value))) s

end Sys2Proof.Machine
end

