-- ==== Sys2Proof/Machine/Operands.lean ====
section
/-! DEFINITION. Operands of descriptors: elements of handles, the bytes an operand touches, and element values (R106, R108, R117, R144, R145). -/

namespace Sys2Proof.Machine

/-! ### What an operand touches -/

/-- Rows of elements: rows of cols elements step apart, rows stride elements apart, from element off (R144, R145). -/
structure Span where
  off : Int
  stride : Nat
  rows : Nat
  cols : Nat
  step : Nat := 1
deriving DecidableEq, Repr

/-- Elements of one operand in a handle: those it may touch, which make its footprint (R144, R160), and those it touches.
An element takes half bytes, 1 for CB4 (R108). -/
structure Foot where
  h : Nat
  halves : Nat
  write : Bool
  range : List Span
  spans : List Span
deriving DecidableEq, Repr

/-- The last element of a span. -/
def Span.last (x : Span) : Int := x.off + ((x.rows - 1) * x.stride + (x.cols - 1) * x.step : Nat)
/-- Whether the span holds no element. -/
def Span.empty (x : Span) : Bool := x.rows = 0 || x.cols = 0
/-- First byte of element e. -/
def byteOf (halves : Nat) (e : Int) : Int := e * halves / 2
/-- The byte after element e. -/
def byteEnd (halves : Nat) (e : Int) : Int := (e * halves + halves + 1) / 2

/-- Byte range of a footprint within its handle; none where nothing is touched. -/
def Foot.bytes (x : Foot) : Option (Int × Int) :=
  (x.range.filter (fun y => !y.empty)).foldl (fun a y =>
    let lo := byteOf x.halves y.off
    let hi := byteEnd x.halves y.last
    match a with
    | none => some (lo, hi)
    | some (l, h) => some (min l lo, max h hi)) none

/-- The footprint lies in the handle's rows (R144). -/
def Foot.inside (x : Foot) (h : Handle) : Bool :=
  match x.bytes with
  | none => true
  | some (lo, hi) => decide (0 ≤ lo) && decide (hi ≤ (h.rows * 512 : Nat))

/-- First and last store row of a footprint. -/
def Foot.rowRange (x : Foot) (h : Handle) : Option (Int × Int) :=
  x.bytes.map (fun b => ((h.base : Int) + b.1 / 512, (h.base : Int) + (b.2 - 1) / 512))

/-- Contiguous byte runs of a span within its handle. -/
def Span.runs (halves : Nat) (x : Span) : List (Nat × Nat) :=
  if x.empty then [] else
  (List.range x.rows).flatMap (fun i =>
    let e : Int := x.off + (i * x.stride : Nat)
    if x.step = 1 then
      let lo := byteOf halves e
      [(lo.toNat, (byteEnd halves (e + (x.cols - 1 : Nat)) - lo).toNat)]
    else (List.range x.cols).map (fun j =>
      let lo := byteOf halves (e + (j * x.step : Nat))
      (lo.toNat, (byteEnd halves (e + (j * x.step : Nat)) - lo).toNat)))

/-- The store runs an operand touches: byte address in the store and length. -/
def Foot.runs (x : Foot) (h : Handle) : List (Nat × Nat) :=
  (x.spans.flatMap (Span.runs x.halves)).map (fun r => (h.base * 512 + r.1, r.2))

/-- How many handle rows FILL has to count for an operand to be read without a stall (R146). -/
def Foot.needFill (x : Foot) : Nat :=
  (x.spans.filter (fun y => !y.empty)).foldl (fun a y => max a ((byteEnd x.halves y.last).toNat + 511) ) 0 / 512

/-- Every row of a CB4 operand starts on an even element (R144). -/
def Foot.evenRows (x : Foot) : Bool :=
  x.halves ≠ 1 || x.range.all (fun y => y.empty || (y.off % 2 = 0 && (y.rows = 1 || y.stride % 2 = 0)))

/-- An operand that touches all of its range. -/
def foot (h halves : Nat) (write : Bool) (l : List Span) : Foot := ⟨h, halves, write, l, l⟩

/-- Two operands meet, each through the handle entries its descriptor has: one writes a row the other reads or writes (R160). -/
def feetClash (ra rb : FrondRec) (a b : Foot) : Bool :=
  (a.write || b.write) && match a.rowRange (ra.hnd a.h), b.rowRange (rb.hnd b.h) with
    | some (l, h), some (l', h') => decide (l ≤ h') && decide (l' ≤ h)
    | _, _ => false

/-- The words an operand reads. -/
def Foot.words (x : Foot) (h : Handle) : List Nat := ((x.runs h).flatMap (fun y => wordsOf y.1 y.2)).eraseDups

/-- The first poisoned word an operand reads (R139). -/
def FrondRec.firstPoison (r : FrondRec) (xs : List Foot) : Option Nat :=
  (xs.filter (fun x => !x.write)).findSome? (fun x => (x.words (r.hnd x.h)).find? r.wordPoison)

/-- The counters of every word the operands read (R139, R172). -/
def noteFeet (xs : List Foot) (r : FrondRec) : FrondRec :=
  (xs.filter (fun x => !x.write)).foldl (fun a x => (x.words (r.hnd x.h)).foldl (fun b w => noteWord w b) a) r

/-! ### The entries of a started descriptor (R142) -/

/-- The Frond as a descriptor sees it: a started one keeps the handle entries it started with (R142). -/
def FrondRec.seenBy (r : FrondRec) (d : QDesc) : FrondRec :=
  { r with handles := d.kept.foldl (fun t e => tset {} t e.1 e.2) r.handles }

/-- A change of the Frond made through a descriptor's own entries; the table stays. -/
def asSeen (d : QDesc) (g : FrondRec → FrondRec) (r : FrondRec) : FrondRec := { g (r.seenBy d) with handles := r.handles }

/-! ### Elements -/

/-- Half bytes of an element of a format code (R106, R108). -/
def fmtHalves (code : Nat) : Nat := if code = 6 then 1 else 2 * fmtBytes code

/-- An element's bits and poison in handle h under a format code. -/
def FrondRec.elem (r : FrondRec) (h code : Nat) (e : Int) : Nat × Bool :=
  let a := (((r.hnd h).base * 512 : Nat) + byteOf (fmtHalves code) e).toNat
  let d := r.storeMarked a (max 1 (fmtBytes code))
  let x := leNat (plain d)
  (if code = 6 then (if e % 2 = 0 then x % 16 else x / 16) else x, poisoned d)

/-- The format code after codebook decode (R101, R117). -/
def FrondRec.effCode (r : FrondRec) (code slot : Nat) : Nat :=
  if code = 6 ∨ code = 7 then (r.cb slot).efmt.toNat else code

/-- Element bits after codebook decode, with poison (R117). -/
def FrondRec.decoded (r : FrondRec) (h code slot : Nat) (e : Int) : Nat × Bool :=
  let x := r.elem h code e
  if code = 6 ∨ code = 7 then
    ((tget 0 (r.cb slot).entries x.1).toNat, x.2 || tget false (r.cb slot).poisoned x.1)
  else x

/-- The exact value of an element, with poison. -/
def FrondRec.val (r : FrondRec) (h code slot : Nat) (e : Int) : Fl × Bool :=
  let x := r.decoded h code slot e
  (decodeFmt (r.effCode code slot) x.1, x.2)

/-- An element as FP32: floats exactly, INT32 rounded to nearest even (R126). -/
def FrondRec.val32 (r : FrondRec) (h code : Nat) (e : Int) : F32 × Bool :=
  let x := r.val h code 0 e
  (rne32 x.1, x.2)

/-- A codebook slot an operand may use: loaded, of the current epoch, and of the operand's size (R118). -/
def FrondRec.cbUsable (r : FrondRec) (code slot : Nat) : Bool :=
  if code = 6 ∨ code = 7 then (r.cb slot).valid && (r.cb slot).size.toNat = code else true

/-- Write consecutive elements from element e of handle h: bits with poison; a CB4 code is not written by any engine. -/
def putElems (h code : Nat) (e : Int) (l : List (Nat × Bool)) (r : FrondRec) : FrondRec :=
  let n := fmtBytes code
  storeWrite (((r.hnd h).base * 512 : Nat) + e * n).toNat (l.flatMap (fun x => (toLe n x.1).map (fun b => (b, x.2)))) r

/-- The words of a store an upset reaches before a descriptor reads them (log 10). -/
def upsetWords (l : List Upset) (r : FrondRec) : FrondRec :=
  l.foldl (fun x u => match u with
    | .word w e => { x with errs := tset [] x.errs w.val e }
    | .cell _ _ _ => x) r

/-- Padded channels of a CLAST handle (R144). -/
def Handle.cp (h : Handle) : Nat := 32 * cdiv h.dim0 32

/-- Planner-row Fronds hold the causal comparator (R208). -/
def plannerRow (f : Nat) : Bool := decide (f < 24)

end Sys2Proof.Machine
end

