-- ==== Sys2Proof/Machine/Views.lean ====
section
/-! DEFINITION. What each opcode's body says before the descriptor starts: the range of its fields, the handles it names, its further
checks in order, and its operands (R122, R130, R162 to R169, R188 to R196, 03 to 05). -/

namespace Sys2Proof.Machine

/-- A body judged (R154, R160, R161): fields in range; operands that must be read before anything else is judged, such as a parameter
record; handles used; further checks with the code a failure records; operands that must be read before the rest is judged, and the
checks of what they hold; and every operand. -/
structure View where
  fields : Bool
  first : List Foot := []
  handles : List Nat
  checks : List (Bool × BitVec 16)
  next : List Foot := []
  late : List (Bool × BitVec 16) := []
  feet : List Foot
deriving DecidableEq, Repr

/-- A malformed-descriptor check. -/
def mal (ok : Bool) : Bool × BitVec 16 := (ok, 0x0112)
/-- A codebook-slot check (R118). -/
def cbCheck (ok : Bool) : Bool × BitVec 16 := (ok, 0x0111)

/-- Half bytes of a scale of code 1 E8M0, 2 BF16, 3 FP32 (R122). -/
def scaleCode : Nat → Nat
  | 1 => 9 | 2 => 2 | 3 => 4 | _ => 0

/-- An operand format of the grid: 0 to 3, 5, 6 or 7 (R101). -/
def gridCode (c : Nat) : Bool := c = 0 || c = 1 || c = 2 || c = 3 || c = 5 || c = 6 || c = 7
/-- Output formats of a drain (R122). -/
def drainCode (c : Nat) : Bool := c ≤ 5 || c = 8
/-- 8-bit and 16-bit floats. -/
def float8 (c : Nat) : Bool := c = 1 || c = 5
def float16 (c : Nat) : Bool := c = 2 || c = 3
/-- The combinations of R101, by format after decode. -/
def gridPair (a b : Nat) : Bool := (a = 0 && b = 0) || ((float8 a || float16 a) && (float8 b || float16 b))
/-- Scales an operand may take (R120): none, E8M0 (1), BF16 (2). -/
def scaleOk (c sc : Nat) : Bool := sc = 0 || (float8 c) || (float16 c && sc = 1)

/-! ### MATMUL (R122) -/

/-- A MATMUL body. -/
structure MatBody where
  a : Nat
  b : Nat
  c : Nat
  sa : Nat
  sb : Nat
  so : Nat
  fa : Nat
  ca : Nat
  fb : Nat
  cb : Nat
  fc : Nat
  ka : Nat
  kb : Nat
  ko : Nat
  m : Nat
  n : Nat
  k : Nat
  bank : Nat
  acc : Bool
  drain : Bool
  ta : Bool
  tb : Bool
  hashed : Bool
  aOff : Nat
  bOff : Nat
  cOff : Nat
  saOff : Nat
  sbOff : Nat
  soOff : Nat
  seed : Word32
  tid : BitVec 16
  baseIdx : Nat
  ntot : Nat
deriving DecidableEq, Repr

/-- The MATMUL body of R122. -/
def matBody (d : QDesc) : MatBody :=
  let ctl := d.fld 0x16 1
  let sc := d.fld 0x11 1
  { a := d.fld 8 1, b := d.fld 9 1, c := d.fld 0xA 1, sa := d.fld 0xB 1, sb := d.fld 0xC 1, so := d.fld 0xD 1,
    fa := d.fld 0xE 1 % 16, ca := d.fld 0xE 1 / 16, fb := d.fld 0xF 1 % 16, cb := d.fld 0xF 1 / 16, fc := d.fld 0x10 1 % 16,
    ka := bits sc 1 0, kb := bits sc 3 2, ko := bits sc 5 4, m := d.fld 0x12 1, n := d.fld 0x13 1, k := d.fld 0x14 2,
    bank := bits ctl 0 0, acc := bit ctl 1, drain := bit ctl 2, ta := bit ctl 3, tb := bit ctl 4, hashed := bit ctl 5,
    aOff := d.fld 0x18 4, bOff := d.fld 0x1C 4, cOff := d.fld 0x20 4, saOff := d.fld 0x24 4, sbOff := d.fld 0x28 4,
    soOff := d.fld 0x2C 4, seed := BitVec.ofNat 32 (d.fld 0x30 4), tid := BitVec.ofNat 16 (d.fld 0x3C 2),
    baseIdx := d.fld 0x34 4, ntot := d.fld 0x38 4 }

/-- Formats a transposed read serves: 8-bit and 16-bit, CB8 among them (R145). -/
def transCode (c : Nat) : Bool := c = 0 || c = 1 || c = 2 || c = 3 || c = 5 || c = 7 || c = 9

/-- The accumulation limit of R103, for a descriptor that continues or starts a bank. -/
def accLimit (r : FrondRec) (bank : Nat) (acc : Bool) (n : Nat) : Bool :=
  decide ((if acc && (r.acc bank).occupied then (r.acc bank).steps else 0) + n ≤ 16384)

/-- The A operand and the B operand (R122, R145). -/
def MatBody.aFoot (x : MatBody) (r : FrondRec) : Foot :=
  foot x.a (fmtHalves x.fa) false [⟨x.aOff, (r.hnd x.a).stride, if x.ta then x.k else x.m, if x.ta then x.m else x.k, 1⟩]
def MatBody.bFoot (x : MatBody) (r : FrondRec) : Foot :=
  foot x.b (fmtHalves x.fb) false [⟨x.bOff, (r.hnd x.b).stride, if x.tb then x.n else x.k, if x.tb then x.k else x.n, 1⟩]

/-- MATMUL's fields and operands (R118, R120 to R122). DESIGN CHOICE (log 111): for FMT_C = 8 drained from a bank in FP32 mode the spec gives neither
a conversion nor a fault; it is malformed, 0x0112. -/
def viewMatmul (r : FrondRec) (d : QDesc) : View :=
  let x := matBody d
  let ea := r.effCode x.fa x.ca
  let eb := r.effCode x.fb x.cb
  let st : Nat → Nat := fun h => (r.hnd h).stride
  let fa := x.aFoot r
  let fb := x.bFoot r
  { fields := gridCode x.fa && gridCode x.fb && (!x.drain || drainCode x.fc) && x.ka ≠ 3 && x.kb ≠ 3 && decide (1 ≤ x.m) &&
      decide (x.m ≤ 32) && decide (1 ≤ x.n) && decide (x.n ≤ 64) && decide (1 ≤ x.k) && decide (x.k ≤ 16384) &&
      (!x.ta || transCode x.fa) && (!x.tb || transCode x.fb),
    handles := [x.a, x.b] ++ (if x.ka ≠ 0 then [x.sa] else []) ++ (if x.kb ≠ 0 then [x.sb] else []) ++
      (if x.drain then x.c :: (if x.ko ≠ 0 then [x.so] else []) else []),
    checks := [cbCheck (r.cbUsable x.fa x.ca), cbCheck (r.cbUsable x.fb x.cb),
      mal (gridPair ea eb && scaleOk ea x.ka && scaleOk eb x.kb && !(x.drain && x.fc = 8 && ea ≠ 0) && fa.evenRows && fb.evenRows),
      mal (accLimit r x.bank x.acc x.k)],
    feet := [fa, fb] ++
      (if x.ka ≠ 0 then [foot x.sa (fmtHalves (scaleCode x.ka)) false [⟨x.saOff, st x.sa, x.m, cdiv x.k 32, 1⟩]] else []) ++
      (if x.kb ≠ 0 then [foot x.sb (fmtHalves (scaleCode x.kb)) false [⟨x.sbOff, st x.sb, cdiv x.k 32, x.n, 1⟩]] else []) ++
      (if x.drain then
        foot x.c (fmtHalves x.fc) true [⟨x.cOff, st x.c, x.m, x.n, 1⟩] ::
        (if x.ko ≠ 0 && x.fc ≠ 8 then [foot x.so (fmtHalves (scaleCode x.ko)) false [⟨x.soOff, st x.so, 1, x.n, 1⟩]] else [])
       else []) }

/-! ### Convolution geometry (R183) -/

/-- The geometry fields of R183. -/
structure Geo where
  kh : Nat
  kw : Nat
  sy : Nat
  sx : Nat
  dy : Nat
  dx : Nat
  pt : Nat
  pb : Nat
  pl : Nat
  pr : Nat
deriving DecidableEq, Repr

/-- Ten geometry bytes from offset o. -/
def geoAt (d : QDesc) (o : Nat) : Geo :=
  { kh := d.fld o 1, kw := d.fld (o + 1) 1, sy := d.fld (o + 2) 1, sx := d.fld (o + 3) 1, dy := d.fld (o + 4) 1,
    dx := d.fld (o + 5) 1, pt := d.fld (o + 6) 1, pb := d.fld (o + 7) 1, pl := d.fld (o + 8) 1, pr := d.fld (o + 9) 1 }

/-- Every field of R183 in range, with at most 256 taps. -/
def Geo.ok (g : Geo) : Bool :=
  decide (1 ≤ g.kh) && decide (1 ≤ g.kw) && decide (1 ≤ g.sy) && decide (1 ≤ g.sx) && decide (1 ≤ g.dy) && decide (1 ≤ g.dx) &&
  decide (g.kh * g.kw ≤ 256)

/-- Output extents of an input H × W; none where a numerator is below 0 (R183). -/
def Geo.out (g : Geo) (h w : Nat) : Option (Nat × Nat) :=
  let a : Int := (h + g.pt + g.pb : Nat) - (g.dy * (g.kh - 1) : Nat) - 1
  let b : Int := (w + g.pl + g.pr : Nat) - (g.dx * (g.kw - 1) : Nat) - 1
  if a < 0 ∨ b < 0 then none else some ((a / g.sy).toNat + 1, (b / g.sx).toNat + 1)

/-- Input row and column of tap t at output position (oy, ox) (R183). -/
def Geo.iy (g : Geo) (oy t : Nat) : Int := (oy * g.sy + t / g.kw * g.dy : Nat) - (g.pt : Int)
def Geo.ix (g : Geo) (ox t : Nat) : Int := (ox * g.sx + t % g.kw * g.dx : Nat) - (g.pl : Int)

/-- Whether position (oy, ox) of tap t lies inside the input (R183). -/
def Geo.inside (g : Geo) (x : Handle) (oy ox t : Nat) : Bool :=
  decide (0 ≤ g.iy oy t) && decide (g.iy oy t < x.dim2) && decide (0 ≤ g.ix ox t) && decide (g.ix ox t < x.dim1)

/-- Input element (iy, ix, c) of tap t at (oy, ox) (R189). -/
def Geo.elem (g : Geo) (x : Handle) (iy0 oy ox t c : Nat) : Int :=
  (g.iy oy t - iy0) * x.stride + g.ix ox t * x.cp + c

/-- The input elements of tap t for n positions from (oy, ox), nc channels from c0. -/
def Geo.tapSpan (g : Geo) (x : Handle) (iy0 oy ox n c0 nc t : Nat) : Span :=
  match (List.range n).filter (fun i => g.inside x oy (ox + i) t) with
  | [] => ⟨0, 0, 0, 0, 1⟩
  | i :: is => ⟨g.elem x iy0 oy (ox + i) t c0, g.sx * x.cp, is.length + 1, nc, 1⟩

/-! ### CONVTAP (R188) -/

/-- A CONVTAP body. -/
structure ConvBody where
  x : Nat
  w : Nat
  y : Nat
  sb : Nat
  so : Nat
  fa : Nat
  fb : Nat
  cb : Nat
  fc : Nat
  bank : Nat
  acc : Bool
  drain : Bool
  hashed : Bool
  kb : Nat
  ko : Nat
  geo : Geo
  tap0 : Nat
  tap1 : Nat
  m : Nat
  n : Nat
  oy : Nat
  ox : Nat
  co : Nat
  iy0 : Nat
  oyb : Nat
  pad : Nat
  wOff : Nat
  seed : Word32
  baseIdx : Nat
  tid : BitVec 16
deriving DecidableEq, Repr

/-- The CONVTAP body of R188. -/
def convBody (d : QDesc) : ConvBody :=
  let ctl := d.fld 0x10 1
  { x := d.fld 8 1, w := d.fld 9 1, y := d.fld 0xA 1, sb := d.fld 0xB 1, so := d.fld 0xC 1, fa := d.fld 0xD 1 % 16,
    fb := d.fld 0xE 1 % 16, cb := d.fld 0xE 1 / 16, fc := d.fld 0xF 1 % 16, bank := bits ctl 0 0, acc := bit ctl 1,
    drain := bit ctl 2, hashed := bit ctl 3, kb := bits ctl 5 4, ko := bits ctl 7 6, geo := geoAt d 0x11,
    tap0 := d.fld 0x1B 1, tap1 := d.fld 0x1C 1, m := d.fld 0x1D 1, n := d.fld 0x1E 1, oy := d.fld 0x20 2, ox := d.fld 0x22 2,
    co := d.fld 0x24 2, iy0 := d.fld 0x26 2, oyb := d.fld 0x28 2, pad := d.fld 0x2A 2, wOff := d.fld 0x2C 4,
    seed := BitVec.ofNat 32 (d.fld 0x30 4), baseIdx := d.fld 0x34 4, tid := BitVec.ofNat 16 (d.fld 0x38 2) }

/-- The taps of the descriptor. -/
def ConvBody.taps (x : ConvBody) : List Nat := (List.range (x.tap1 + 1 - x.tap0)).map (fun i => x.tap0 + i)

/-- Tap t is skipped: PADVAL 0 and every row absent (R186). -/
def ConvBody.skipped (x : ConvBody) (xh : Handle) (t : Nat) : Bool :=
  x.pad = 0 && (List.range x.m).all (fun i => !x.geo.inside xh x.oy (x.ox + i) t)

def viewConv (r : FrondRec) (d : QDesc) : View :=
  let x := convBody d
  let xh := r.hnd x.x
  let wh := r.hnd x.w
  let yh := r.hnd x.y
  let cin := xh.dim0
  let eb := r.effCode x.fb x.cb
  let out := x.geo.out xh.dim2 xh.dim1
  let taps := x.taps.filter (fun t => !x.skipped xh t)
  let q := cdiv cin 32
  let sbh := (r.hnd x.sb).stride
  let wf := foot x.w (fmtHalves x.fb) false (taps.map (fun t => ⟨(x.wOff + t * cin * wh.stride : Nat), wh.stride, cin, x.n, 1⟩))
  { fields := gridCode x.fa && decide (x.fa ≤ 5) && gridCode x.fb,
    handles := [x.x, x.w] ++ (if x.kb ≠ 0 then [x.sb] else []) ++
      (if x.drain then x.y :: (if x.ko ≠ 0 then [x.so] else []) else []),
    checks := [
      mal (drainCode x.fc && x.geo.ok && decide (x.tap0 ≤ x.tap1) && decide (x.tap1 < x.geo.kh * x.geo.kw) &&
        decide (1 ≤ x.m) && decide (x.m ≤ 32) && decide (1 ≤ x.n) && decide (x.n ≤ 64) && x.kb ≠ 3 &&
        (float16 x.fa || decide (x.pad < 256))),
      cbCheck (r.cbUsable x.fb x.cb),
      mal (xh.layout = 1 && wh.layout = 0 && (x.kb = 0 || (r.hnd x.sb).layout = 0) && (!x.drain || yh.layout = 1)),
      mal (gridPair x.fa eb && scaleOk eb x.kb && !(x.drain && x.fc = 8 && x.fa ≠ 0) && wf.evenRows),
      mal (match out with
        | none => false
        | some (oh, ow) => decide (x.oy < oh) && decide (x.ox + x.m ≤ ow)),
      mal (!x.drain || decide (x.co + x.n ≤ yh.dim0)),
      mal (accLimit r x.bank x.acc (x.taps.length * cin))],
    feet := foot x.x (fmtHalves x.fa) false (taps.map (x.geo.tapSpan xh x.iy0 x.oy x.ox x.m 0 cin)) ::
      wf ::
      (if x.kb ≠ 0 then
        [foot x.sb (fmtHalves (scaleCode x.kb)) false (taps.map (fun t => ⟨(t * q * sbh + x.co : Nat), sbh, q, x.n, 1⟩))] else []) ++
      (if x.drain then
        foot x.y (fmtHalves x.fc) true
          [⟨((x.oy : Int) - x.oyb) * yh.stride + (x.ox * yh.cp + x.co : Nat), yh.cp, x.m, x.n, 1⟩] ::
        (if x.ko ≠ 0 && x.fc ≠ 8 then [foot x.so (fmtHalves (scaleCode x.ko)) false [⟨x.co, 0, 1, x.n, 1⟩]] else [])
       else []) }

/-! ### VEC (R125, R129, R130) -/

/-- A VEC body. -/
structure VecBody where
  x : List Nat
  fx : List Nat
  y : Nat
  fy : Nat
  hashed : Bool
  twoPass : Bool
  pload : Bool
  rowFlag : List Bool
  padNeg : Bool
  eInit : Nat
  ePass0 : Nat
  eMid : Nat
  ePass1 : Nat
  eFini : Nat
  rows : Nat
  cols : Nat
  off : Nat
  tid : BitVec 16
  seed : Word32
  baseIdx : Nat
  scal : List F32
deriving DecidableEq, Repr

/-- The VEC body of R130. -/
def vecBody (d : QDesc) : VecBody :=
  let fl := d.fld 0xE 1
  { x := [d.fld 8 1, d.fld 9 1, d.fld 0xA 1], fx := [d.fld 0xC 1 % 16, d.fld 0xC 1 / 16, d.fld 0xD 1 % 16], y := d.fld 0xB 1,
    fy := d.fld 0xD 1 / 16, hashed := bit fl 0, twoPass := bit fl 1, pload := bit fl 2, rowFlag := [false, bit fl 3, bit fl 4],
    padNeg := bit fl 5, eInit := d.fld 0x10 1, ePass0 := d.fld 0x11 1, eMid := d.fld 0x12 1, ePass1 := d.fld 0x13 1,
    eFini := d.fld 0x14 1, rows := d.fld 0x18 4, cols := d.fld 0x1C 4, off := d.fld 0x20 4,
    tid := BitVec.ofNat 16 (d.fld 0x24 2), seed := BitVec.ofNat 32 (d.fld 0x28 4), baseIdx := d.fld 0x2C 4,
    scal := (List.range 4).map (fun i => BitVec.ofNat 32 (d.fld (0x30 + 4 * i) 4)) }

/-- An instruction's OP and IMM (R126). -/
def insnOp (w : Word32) : Nat := bits w.toNat 31 26
def insnImm (w : Word32) : Nat := bits w.toNat 9 0

/-- The instructions of a section: from its entry to the first END; none where no END stands (R125; log 30). -/
def sectionFrom (u : VecUnit) : Nat → Nat → Option (List Word32)
  | 0, _ => none
  | n + 1, e =>
    if e ≥ 256 then none
    else
      let w := tget 0 u.prog e
      if insnOp w = 0x3F then some [] else (sectionFrom u n (e + 1)).map (fun l => w :: l)

/-- A section of the microprogram memory. -/
def VecUnit.sect (u : VecUnit) (e : Nat) : Option (List Word32) := sectionFrom u 257 e

/-- The instructions of PASS0 and, with TWO_PASS, PASS1. -/
def VecBody.passes (x : VecBody) (u : VecUnit) : List Word32 :=
  (u.sect x.ePass0).getD [] ++ (if x.twoPass then (u.sect x.ePass1).getD [] else [])

/-- The inputs an LD of PASS0 or PASS1 names. -/
def VecBody.inputs (x : VecBody) (u : VecUnit) : List Nat :=
  (List.range 3).filter (fun i => (x.passes u).any (fun w => insnOp w = 1 && insnImm w % 4 = i))
/-- Whether PASS0 or PASS1 stores. -/
def VecBody.stores (x : VecBody) (u : VecUnit) : Bool := (x.passes u).any (fun w => insnOp w = 2)

def viewVec (r : FrondRec) (d : QDesc) : View :=
  let x := vecBody d
  let ins := x.inputs r.vec
  let st : Nat → Nat := fun h => (r.hnd h).stride
  { fields := x.fx.all (fun c => c ≤ 5 || c = 8) && (x.fy ≤ 5 || x.fy = 9) && decide (1 ≤ x.rows) && decide (x.rows ≤ 16777216) &&
      decide (1 ≤ x.cols) && decide (x.cols ≤ 1048576),
    handles := ins.map (fun i => x.x.getD i 0) ++ (if x.stores r.vec then [x.y] else []),
    checks := [],
    feet := ins.map (fun i =>
        let h := x.x.getD i 0
        let row := x.rowFlag.getD i false
        foot h (fmtHalves (x.fx.getD i 0)) false [⟨if row then 0 else x.off, st h, if row then 1 else x.rows, x.cols, 1⟩]) ++
      (if x.stores r.vec then [foot x.y (fmtHalves x.fy) true [⟨x.off, st x.y, x.rows, x.cols, 1⟩]] else []) }

/-- Bytes from byte o of handle h: n of them. -/
def byteFoot (h o n : Nat) : Foot := foot h 2 false [⟨o, 0, 1, n, 1⟩]
/-- Byte o of handle h as a field of n bytes. -/
def FrondRec.hfield (r : FrondRec) (h o n : Nat) : Nat := leNat (plain (r.storeMarked ((r.hnd h).base * 512 + o) n))
/-- Whether n bytes from byte o lie in handle h. -/
def FrondRec.holds (r : FrondRec) (h o n : Nat) : Bool := (byteFoot h o n).inside (r.hnd h)

/-- A microprogram image that loads (R129). -/
def imageOk (r : FrondRec) (h : Nat) : Bool :=
  let count := r.hfield h 0 2
  decide (1 ≤ count) && decide (r.hfield h 2 1 + count ≤ 256) && decide (r.hfield h 3 1 ≤ 16) &&
  (List.range count).all (fun i =>
    let op := insnOp (BitVec.ofNat 32 (r.hfield h (0x50 + 4 * i) 4))
    decide (op < 0x1A) || op = 0x3F)

/-- A VEC descriptor with PLOAD = 1 (R129, R130). DESIGN CHOICE (log 112): the spec does not say whether its format codes, ROWS and COLS are judged;
they are not. -/
def viewPload (r : FrondRec) (d : QDesc) : View :=
  let h := (vecBody d).x.getD 0 0
  let whole := 0x50 + 4 * min 256 (r.hfield h 0 2)
  { fields := true, first := [byteFoot h 0 2], handles := [h], checks := [], next := [byteFoot h 0 whole], late := [mal (imageOk r h)],
    feet := [byteFoot h 0 (if r.holds h 0 2 then whole else 2)] }

/-! ### POOL and ARGMAX (R192 to R196) -/

/-- A POOL body. -/
structure PoolBody where
  x : Nat
  y : Nat
  fx : Nat
  fy : Nat
  mode : Nat
  geo : Geo
  oy : Nat
  ox : Nat
  nrow : Nat
  npos : Nat
  c0 : Nat
  nc : Nat
  iy0 : Nat
  oyb : Nat
deriving DecidableEq, Repr

/-- The POOL body of R192. -/
def poolBody (d : QDesc) : PoolBody :=
  { x := d.fld 8 1, y := d.fld 9 1, fx := d.fld 0xA 1 % 16, fy := d.fld 0xA 1 / 16, mode := d.fld 0xB 1, geo := geoAt d 0xC,
    oy := d.fld 0x18 2, ox := d.fld 0x1A 2, nrow := d.fld 0x1C 2, npos := d.fld 0x1E 2, c0 := d.fld 0x20 2, nc := d.fld 0x22 2,
    iy0 := d.fld 0x24 2, oyb := d.fld 0x26 2 }

def viewPool (r : FrondRec) (d : QDesc) : View :=
  let x := poolBody d
  let xh := r.hnd x.x
  let yh := r.hnd x.y
  { fields := gridCode x.fx && decide (x.fx ≤ 5) && decide (x.fy ≤ 5) && decide (x.mode ≤ 2) && x.geo.ok && decide (1 ≤ x.nrow) &&
      decide (1 ≤ x.npos) && decide (1 ≤ x.nc),
    handles := [x.x, x.y],
    checks := [mal (xh.layout = 1 && yh.layout = 1),
      mal (match x.geo.out xh.dim2 xh.dim1 with
        | none => false
        | some (oh, ow) => decide (x.oy + x.nrow ≤ oh) && decide (x.ox + x.npos ≤ ow)),
      mal (decide (x.c0 + x.nc ≤ xh.dim0) && decide (x.c0 + x.nc ≤ yh.dim0))],
    feet := [
      foot x.x (fmtHalves x.fx) false ((List.range x.nrow).flatMap (fun i => (List.range (x.geo.kh * x.geo.kw)).map
        (x.geo.tapSpan xh x.iy0 (x.oy + i) x.ox x.npos x.c0 x.nc))),
      foot x.y (fmtHalves x.fy) true ((List.range x.nrow).map (fun i =>
        ⟨((x.oy + i : Nat) - (x.oyb : Int)) * yh.stride + (x.ox * yh.cp + x.c0 : Nat), yh.cp, x.npos, x.nc, 1⟩))] }

/-- An ARGMAX body. -/
structure ArgBody where
  x : Nat
  y : Nat
  fx : Nat
  y0 : Nat
  x0 : Nat
  npos : Nat
  yOff : Nat
deriving DecidableEq, Repr

/-- The ARGMAX body of R195. -/
def argBody (d : QDesc) : ArgBody :=
  { x := d.fld 8 1, y := d.fld 9 1, fx := d.fld 0xA 1 % 16, y0 := d.fld 0xC 2, x0 := d.fld 0xE 2, npos := d.fld 0x10 4,
    yOff := d.fld 0x14 4 }

/-- First element of position p: its flat index gives row and column (R195). -/
def ArgBody.elem (x : ArgBody) (xh : Handle) (p : Nat) : Nat :=
  let f := x.y0 * xh.dim1 + x.x0 + p
  f / xh.dim1 * xh.stride + f % xh.dim1 * xh.cp

def viewArgmax (r : FrondRec) (d : QDesc) : View :=
  let x := argBody d
  let xh := r.hnd x.x
  let f0 := x.y0 * xh.dim1 + x.x0
  let rows := (f0 + x.npos - 1) / xh.dim1 + 1 - f0 / xh.dim1
  { fields := (gridCode x.fx && decide (x.fx ≤ 5)) || x.fx = 4 || x.fx = 8,
    handles := [x.x, x.y],
    checks := [mal (decide (1 ≤ x.npos) && decide (x.npos ≤ 16777216)),
      mal (xh.layout = 1 && (r.hnd x.y).layout = 0 && (r.hnd x.y).fmt = 8 && xh.dim0 ≠ 0 && xh.dim1 ≠ 0)],
    feet := [
      foot x.x (fmtHalves x.fx) false ((List.range rows).map (fun i =>
        let p := if i = 0 then 0 else (f0 / xh.dim1 + i) * xh.dim1 - f0
        let q := min x.npos ((f0 / xh.dim1 + i + 1) * xh.dim1 - f0)
        ⟨x.elem xh p, xh.cp, q - p, xh.dim0, 1⟩)),
      foot x.y 8 true [⟨x.yOff, 0, 1, x.npos, 1⟩]] }

/-! ### Memory transfers and control (R163 to R169) -/

/-- A LOADM or STOREM body: store handle, its byte offset and pitch, and the far address and pitch (R164, R165). -/
structure XferBody where
  h : Nat
  lines : Nat
  len : Nat
  addr : Nat
  farPitch : Nat
  nearPitch : Nat
  nearByte : Nat
  fill : Nat
deriving DecidableEq, Repr

/-- The body of R164 for LOADM, of R165 for STOREM. -/
def xferBody (load : Bool) (d : QDesc) : XferBody :=
  let p := d.fld 0x18 4
  let q := d.fld 0x1C 4
  { h := d.fld 8 1, lines := d.fld 0xA 2, len := d.fld 0xC 4, addr := d.fld 0x10 5, farPitch := if load then p else q,
    nearPitch := if load then q else p, nearByte := d.fld 0x20 4, fill := if load then d.fld 0x24 2 else 0 }

/-- A range of addresses a transfer may name: main memory, a Frond store, the outbound window, and MMIO for STOREM (R165). -/
def xferTarget (load : Bool) (a n : Nat) : Bool :=
  match targetOf a, targetOf (a + n - 1) with
  | .main, .main => true
  | .frond f _, .frond g _ => f = g
  | .outbound _, .outbound _ => true
  | .mmio _, .mmio _ => !load
  | _, _ => false

def viewXfer (load : Bool) (d : QDesc) : View :=
  let x := xferBody load d
  { fields := decide (1 ≤ x.lines) && decide (32 ≤ x.len) && decide (x.len ≤ 8388608) && x.len % 32 = 0 && x.addr % 32 = 0 &&
      x.farPitch % 32 = 0 && x.nearPitch % 32 = 0 && x.nearByte % 32 = 0 &&
      (List.range x.lines).all (fun i => xferTarget load (x.addr + i * x.farPitch) x.len),
    handles := [x.h], checks := [],
    feet := [foot x.h 2 load [⟨x.nearByte, x.nearPitch, x.lines, x.len, 1⟩]] }

/-- A MOVE body. -/
structure MoveBody where
  sh : Nat
  dh : Nat
  estride : Nat
  trans : Bool
  rows : Nat
  cols : Nat
  sOff : Nat
  dOff : Nat
deriving DecidableEq, Repr

/-- The MOVE body of R167. -/
def moveBody (d : QDesc) : MoveBody :=
  { sh := d.fld 8 1, dh := d.fld 9 1, estride := d.fld 0xA 1, trans := bit (d.fld 0xB 1) 0, rows := d.fld 0xC 4,
    cols := d.fld 0x10 4, sOff := d.fld 0x14 4, dOff := d.fld 0x18 4 }

def viewMove (r : FrondRec) (d : QDesc) : View :=
  let x := moveBody d
  let s := r.hnd x.sh
  let t := r.hnd x.dh
  let fs := foot x.sh (fmtHalves s.fmt) false [⟨x.sOff, s.stride, x.rows, x.cols, x.estride⟩]
  let fd := foot x.dh (fmtHalves s.fmt) true
    [⟨x.dOff, t.stride, if x.trans then x.cols else x.rows, if x.trans then x.rows else x.cols, 1⟩]
  { fields := decide (1 ≤ x.estride) && decide (1 ≤ x.rows) && decide (x.rows ≤ 65535) && decide (1 ≤ x.cols) &&
      decide (x.cols ≤ 65535) && (!x.trans || x.estride = 1),
    handles := [x.sh, x.dh],
    checks := [mal (s.fmt = t.fmt && !feetClash r r fs fd && (!x.trans || transCode s.fmt) &&
      (x.estride = 1 || s.fmt ≠ 6) && fs.evenRows && fd.evenRows)],
    feet := [fs, fd] }

/-- A CBLOAD body: slot, size, entry format, source handle and offset (R168). -/
structure CbBody where
  slot : Nat
  size : Nat
  efmt : Nat
  h : Nat
  off : Nat
deriving DecidableEq, Repr

/-- The CBLOAD body of R168. -/
def cbBody (d : QDesc) : CbBody :=
  { slot := d.fld 8 1 % 16, size := d.fld 9 1, efmt := d.fld 0xA 1, h := d.fld 0xB 1, off := d.fld 0xC 4 }

/-- Entries of a codebook slot (R117). -/
def CbBody.entries (x : CbBody) : Nat := if x.size = 6 then 16 else 256

def viewCbload (r : FrondRec) (d : QDesc) : View :=
  let x := cbBody d
  { fields := (x.size = 6 || x.size = 7) && (x.efmt = 0 || x.efmt = 1 || x.efmt = 2 || x.efmt = 5), handles := [x.h],
    checks := [mal ((r.hnd x.h).fmt = x.efmt)], feet := [foot x.h (fmtHalves x.efmt) false [⟨x.off, 0, 1, x.entries, 1⟩]] }

/-- The codebook slots a descriptor names (R117, R168). -/
def slotsNamed (d : QDesc) : List Nat :=
  let pick : Nat → List Nat := fun b => if b % 16 = 6 ∨ b % 16 = 7 then [b / 16] else []
  match d.op with
  | 1 => pick (d.fld 0xE 1) ++ pick (d.fld 0xF 1)
  | 2 => pick (d.fld 0xE 1)
  | 0x0A => [d.fld 8 1 % 16]
  | 0x0D => [d.fld 0x10 1 % 16, d.fld 0x10 1 / 16]
  | _ => []

/-- A WAIT or SIGNAL body (R163). -/
structure SyncBody where
  ctr : Nat
  glob : Bool
  op : Nat
  dest : Nat
  value : Word32
deriving DecidableEq, Repr

/-- The body of R163. -/
def syncBody (d : QDesc) : SyncBody :=
  { ctr := bits (d.fld 8 2) 9 0, glob := bit (d.fld 8 2) 15, op := d.fld 0xA 1, dest := d.fld 0xB 1,
    value := BitVec.ofNat 32 (d.fld 0xC 4) }

def viewWait (d : QDesc) : View :=
  let x := syncBody d
  { fields := (x.glob || decide (x.ctr ≤ 63)) && x.op = 0, handles := [], checks := [], feet := [] }

def viewSignal (d : QDesc) : View :=
  let x := syncBody d
  { fields := (x.glob || (decide (x.ctr ≤ 63) && (decide (x.dest ≤ 143) || x.dest = 255))) && decide (x.op ≤ 1),
    handles := [], checks := [], feet := [] }

def viewBankpwr (d : QDesc) : View := { fields := decide (d.fld 0xC 1 ≤ 2), handles := [], checks := [], feet := [] }

end Sys2Proof.Machine
end

