-- ==== Sys2Proof/Machine/EngineViews.lean ====
section
/-! DEFINITION. The bodies that are read with a record or a context: ATTN, OPTSTEP, KVAPPEND and SORUS (R207 to R219, R262 to R273, R240 to R246). -/

namespace Sys2Proof.Machine

/-- A handle a descriptor may use: VALID and of the Frond's epoch (R143). -/
def FrondRec.usable (r : FrondRec) (h : Nat) : Bool := (r.hnd h).valid && (r.hnd h).epoch = r.epoch.toNat

/-- LINEAR with a format. -/
def FrondRec.linear (r : FrondRec) (h fmt : Nat) : Bool := (r.hnd h).layout = 0 && (r.hnd h).fmt = fmt

/-! ### ATTN (R215, R216) -/

/-- An ATTN body with its parameter record. -/
structure AttnBody where
  q : Nat
  k : Nat
  v : Nat
  o : Nat
  st : Nat
  par : Nat
  rs : Nat
  init : Bool
  save : Bool
  fin : Bool
  rsen : Bool
  hashed : Bool
  m : Nat
  nkey : Nat
  qOff : Nat
  kOff : Nat
  vOff : Nat
  oOff : Nat
  stOff : Nat
  parOff : Nat
  qpos0 : Nat
  kpos0 : Nat
  qidx0 : Nat
  kidx0 : Nat
  fq : Nat
  fk : Nat
  fv : Nat
  fo : Nat
  pfmt : Nat
  rotfmt : Nat
  ksc : Bool
  vsc : Bool
  mmode : Nat
  kpt : Bool
  rope : Bool
  halves : Bool
  dh : Nat
  rotp : Nat
  sk : Nat
  sv : Nat
  mask : Nat
  rot : Nat
  kp : Nat
  smscale : F32
  rotoff : Nat
  window : Nat
  skOff : Nat
  svOff : Nat
  maskOff : Nat
  rotOff : Nat
  kpOff : Nat
  rsOff : Nat
  seed : Word32
  tid : BitVec 16
deriving DecidableEq, Repr

/-- The body of R215 and the record of R216 at its PAR_H and PAR_OFF. -/
def attnBody (r : FrondRec) (d : QDesc) : AttnBody :=
  let ctl := d.fld 0xF 1
  let par := d.fld 0xD 1
  let po := d.fld 0x28 4
  let p : Nat → Nat → Nat := fun o n => r.hfield par (po + o) n
  let mf := p 3 1
  { q := d.fld 8 1, k := d.fld 9 1, v := d.fld 0xA 1, o := d.fld 0xB 1, st := d.fld 0xC 1, par := par, rs := d.fld 0xE 1,
    init := bit ctl 0, save := bit ctl 1, fin := bit ctl 2, rsen := bit ctl 3, hashed := bit ctl 4, m := d.fld 0x10 1,
    nkey := d.fld 0x12 2, qOff := d.fld 0x14 4, kOff := d.fld 0x18 4, vOff := d.fld 0x1C 4, oOff := d.fld 0x20 4,
    stOff := d.fld 0x24 4, parOff := po, qpos0 := d.fld 0x2C 4, kpos0 := d.fld 0x30 4, qidx0 := d.fld 0x34 4,
    kidx0 := d.fld 0x38 4,
    fq := p 0 1 % 16, fk := p 0 1 / 16, fv := p 1 1 % 16, fo := p 1 1 / 16, pfmt := p 2 1 % 16, rotfmt := p 2 1 / 16,
    ksc := bit mf 0, vsc := bit mf 1, mmode := bits mf 3 2, kpt := bit mf 4, rope := bit mf 5, halves := bit mf 6,
    dh := p 4 1, rotp := p 5 1, sk := p 6 1, sv := p 7 1, mask := p 8 1, rot := p 9 1, kp := p 0xA 1,
    smscale := BitVec.ofNat 32 (p 0xC 4), rotoff := p 0x10 4, window := p 0x14 4, skOff := p 0x18 4, svOff := p 0x1C 4,
    maskOff := p 0x20 4, rotOff := p 0x24 4, kpOff := p 0x28 4, rsOff := p 0x2C 4, seed := BitVec.ofNat 32 (p 0x30 4),
    tid := BitVec.ofNat 16 (p 0x34 2) }

/-- Head dimension. -/
def AttnBody.d (x : AttnBody) : Nat := 32 * x.dh
/-- Key tiles of the descriptor. -/
def AttnBody.tiles (x : AttnBody) : Nat := cdiv x.nkey 32
/-- Whether the mask tensor is read on Frond f (R208). -/
def AttnBody.masked (x : AttnBody) (f : Nat) : Bool := x.mmode = 1 || x.mmode = 3 || (x.mmode = 2 && !plannerRow f)
/-- Whether the comparator decides on Frond f (R208). -/
def AttnBody.compares (x : AttnBody) (f : Nat) : Bool := plannerRow f && (x.mmode = 2 || x.mmode = 3)

/-- Position of key j of tile n (R207). -/
def AttnBody.kpos (x : AttnBody) (r : FrondRec) (n j : Nat) : Nat :=
  (if x.kpt then (r.elem x.kp 8 (x.kpOff + x.kpos0 + n : Nat)).1 + j else x.kpos0 + 32 * n + j) % 2 ^ 32
/-- Position of query row i (R207). -/
def AttnBody.qpos (x : AttnBody) (i : Nat) : Nat := (x.qpos0 + i) % 2 ^ 32

/-- The comparator's verdict (R209). -/
def AttnBody.allowed (x : AttnBody) (qpos kpos : Nat) : Bool := decide (kpos ≤ qpos) && (x.window = 0 || decide (qpos - kpos < x.window))

/-- The key tiles computed on Frond f (R209). -/
def AttnBody.computed (x : AttnBody) (r : FrondRec) (f : Nat) : List Nat :=
  (List.range x.tiles).filter (fun n => !x.compares f ||
    (List.range x.m).any (fun i => (List.range 32).any (fun j => x.allowed (x.qpos i) (x.kpos r n j))))

/-- Keys of tile n. -/
def AttnBody.keysOf (x : AttnBody) (n : Nat) : Nat := min 32 (x.nkey - 32 * n)

/-- A row of n elements, of which the computed tiles touch their keys' part. -/
def AttnBody.keyFoot (x : AttnBody) (h code : Nat) (off : Nat) (tiles : List Nat) : Foot :=
  ⟨h, fmtHalves code, false, [⟨off, 0, 1, x.nkey, 1⟩], tiles.map (fun n => ⟨(off + 32 * n : Nat), 0, 1, x.keysOf n, 1⟩)⟩

/-- The finite codes of an attention operand. -/
def attnCode (c : Nat) : Bool := float8 c || float16 c

/-- Key-position table and rotary table, which are read before the rest of the descriptor is judged (R209, R217, R219). -/
def AttnBody.tableFeet (x : AttnBody) : List Foot :=
  (if x.kpt then [foot x.kp 8 false [⟨(x.kpOff + x.kpos0 : Nat), 0, 1, x.tiles, 1⟩]] else []) ++
  (if x.rope then [foot x.rot 8 false [⟨x.rotOff, 0, 1, 2 * x.rotp, 1⟩]] else [])

/-- The operands whose poison reaches every row: record, keys, values, scales and tables; those of tiles not computed are not
touched (R209, R217, R218). -/
def AttnBody.sharedFeet (x : AttnBody) (f : Nat) (r : FrondRec) : List Foot :=
  let ts := x.computed r f
  let rows : Nat → Nat → Nat → Foot := fun h code off =>
    let st := (r.hnd h).stride
    ⟨h, fmtHalves code, false, [⟨off, st, x.nkey, x.d, 1⟩],
      ts.map (fun n => ⟨(off + 32 * n * st : Nat), st, x.keysOf n, x.d, 1⟩)⟩
  [byteFoot x.par x.parOff 64, rows x.k x.fk x.kOff, rows x.v x.fv x.vOff] ++
  (if x.ksc then [x.keyFoot x.sk 2 (x.skOff + x.kidx0) ts] else []) ++
  (if x.vsc then [x.keyFoot x.sv 2 (x.svOff + x.kidx0) ts] else []) ++
  (if x.kpt then [⟨x.kp, 8, false, [⟨(x.kpOff + x.kpos0 : Nat), 0, 1, x.tiles, 1⟩],
    ts.map (fun n => ⟨(x.kpOff + x.kpos0 + n : Nat), 0, 1, 1, 1⟩)⟩] else []) ++
  (if x.rope then [foot x.rot 8 false [⟨x.rotOff, 0, 1, 2 * x.rotp, 1⟩]] else [])

/-- The operands of which row i reads its own: queries and mask (R217, R218). -/
def AttnBody.ownFeet (x : AttnBody) (f : Nat) (r : FrondRec) : List Foot :=
  let ts := x.computed r f
  let st := (r.hnd x.mask).stride
  let o : Nat → Nat := fun key => x.maskOff + x.qidx0 * st + (x.kidx0 + key) / 8
  foot x.q (fmtHalves x.fq) false [⟨x.qOff, (r.hnd x.q).stride, x.m, x.d, 1⟩] ::
  (if x.masked f then
    [⟨x.mask, 2, false, [⟨o 0, st, x.m, if x.nkey = 0 then 0 else o (x.nkey - 1) + 1 - o 0, 1⟩],
      ts.map (fun n => ⟨o (32 * n), st, x.m, o (32 * n + x.keysOf n - 1) + 1 - o (32 * n), 1⟩)⟩] else [])

def viewAttn (f : Nat) (r : FrondRec) (d : QDesc) : View :=
  let x := attnBody r d
  let st : Nat → Nat := fun h => (r.hnd h).stride
  let fields := decide (1 ≤ x.m) && decide (x.m ≤ 32) && (x.save || x.fin) && decide (x.nkey ≤ 8192) && x.parOff % 64 = 0
  let parFoot := byteFoot x.par x.parOff 64
  if !r.usable x.par || !r.holds x.par x.parOff 64 then
    { fields := fields, first := [parFoot], handles := [x.par], checks := [], feet := [parFoot] } else
  let state := !x.init || x.save
  let row : Nat → List Span := fun off => [⟨off, st x.st, x.m, x.d + 4, 1⟩]
  { fields := fields,
    first := [parFoot],
    handles := [x.par, x.q, x.k, x.v] ++ (if x.ksc then [x.sk] else []) ++ (if x.vsc then [x.sv] else []) ++
        (if x.kpt then [x.kp] else []) ++ (if x.masked f then [x.mask] else []) ++ (if x.rope then [x.rot] else []) ++
      (if x.fin then [x.o] else []) ++ (if state then [x.st] else []) ++ (if x.rsen then [x.rs] else []),
    checks := [
      mal (r.linear x.par 0),
      mal (attnCode x.fq && attnCode x.fk && attnCode x.fv && decide (1 ≤ x.fo) && decide (x.fo ≤ 5) && (x.pfmt = 1 || x.pfmt = 2) &&
        decide (1 ≤ x.dh) && decide (x.dh ≤ 8) && decide (x.tiles * x.dh ≤ 512) && (dec32 x.smscale).isFinite &&
        !(x.ksc && float16 x.fk) && !(x.vsc && float16 x.fv) &&
        (if x.rope then attnCode x.rotfmt && decide (1 ≤ x.rotp) && decide (x.rotp ≤ 16 * x.dh) else x.rotfmt = 0 && x.rotp = 0)),
      mal (r.linear x.q x.fq && r.linear x.k x.fk && r.linear x.v x.fv && (!x.ksc || r.linear x.sk 2) &&
        (!x.vsc || r.linear x.sv 2) && (!x.kpt || r.linear x.kp 8) && (!x.masked f || r.linear x.mask 0) &&
        (!x.rope || r.linear x.rot 8) && (!x.fin || r.linear x.o x.fo) && (!state || r.linear x.st 4) && (!x.rsen || r.linear x.rs 8))],
    next := x.tableFeet,
    late := [mal (!x.rope || (List.range x.rotp).all (fun p => decide (r.hfield x.rot (4 * (x.rotOff + 2 * p + 1)) 4 < 65536)))],
    feet := x.sharedFeet f r ++ x.ownFeet f r ++
      (if x.init then [] else [foot x.st 8 false (row x.stOff)]) ++ (if x.save then [foot x.st 8 true (row x.stOff)] else []) ++
      (if x.fin then [foot x.o (fmtHalves x.fo) true [⟨x.oOff, st x.o, x.m, x.d, 1⟩]] else []) ++
      (if x.rsen then [foot x.rs 8 true [⟨(x.rsOff + x.qidx0 : Nat), 0, 1, x.m, 1⟩]] else []) }

/-! ### OPTSTEP (R267, R268) -/

/-- An OPTSTEP body with its parameter record. -/
structure OptBody where
  w : Nat
  g : Nat
  gs : Nat
  m : Nat
  ms : Nat
  v : Nat
  vs : Nat
  par : Nat
  slotM : Nat
  slotV : Nat
  hashed : Bool
  first : Bool
  rows : Nat
  cols : Nat
  off : Nat
  gsOff : Nat
  msOff : Nat
  vsOff : Nat
  parOff : Nat
  baseIdx : Nat
  ntot : Nat
  /-- LR, WD, B1, OMB1, B2, OMB2, EPS, C1, C2, GMUL -/
  hyper : List F32
  seed : Word32
  tid : BitVec 16
deriving DecidableEq, Repr

/-- The body of R267 and the record of R268. -/
def optBody (r : FrondRec) (d : QDesc) : OptBody :=
  let par := d.fld 0xF 1
  let po := d.fld 0x2C 4
  { w := d.fld 8 1, g := d.fld 9 1, gs := d.fld 0xA 1, m := d.fld 0xB 1, ms := d.fld 0xC 1, v := d.fld 0xD 1, vs := d.fld 0xE 1,
    par := par, slotM := d.fld 0x10 1 % 16, slotV := d.fld 0x10 1 / 16, hashed := bit (d.fld 0x11 1) 0, first := bit (d.fld 0x11 1) 1,
    rows := d.fld 0x14 4, cols := d.fld 0x18 4, off := d.fld 0x1C 4, gsOff := d.fld 0x20 4, msOff := d.fld 0x24 4,
    vsOff := d.fld 0x28 4, parOff := po, baseIdx := d.fld 0x30 4, ntot := d.fld 0x34 4,
    hyper := (List.range 10).map (fun i => BitVec.ofNat 32 (r.hfield par (po + 4 * i) 4)),
    seed := BitVec.ofNat 32 (r.hfield par (po + 0x28) 4), tid := BitVec.ofNat 16 (r.hfield par (po + 0x2C) 2) }

/-- Entry i of a codebook slot, exactly. -/
def FrondRec.cbEntry (r : FrondRec) (slot i : Nat) : Fl :=
  decodeFmt (r.cb slot).efmt.toNat (tget 0 (r.cb slot).entries i).toNat

/-- CMAX of a slot (R262). -/
def FrondRec.cmax (r : FrondRec) (slot : Nat) : Fl :=
  (List.range 256).foldl (fun a i => let e := (r.cbEntry slot i).abs; if a.lt e then e else a) (.fin false 0 0)

/-- Every entry of the slot is finite and CMAX is above 0 (R262). -/
def FrondRec.quantile (r : FrondRec) (slot : Nat) : Bool :=
  (List.range 256).all (fun i => (r.cbEntry slot i).isFinite) && !(r.cmax slot).isZero

def viewOpt (r : FrondRec) (d : QDesc) : View :=
  let x := optBody r d
  let st : Nat → Nat := fun h => (r.hnd h).stride
  let fields := d.cls ≠ 0 && decide (1 ≤ x.rows) && decide (x.rows ≤ 1024) && decide (1 ≤ x.cols) && decide (x.cols ≤ 65536) &&
    decide (x.rows * cdiv x.cols 64 ≤ 1024) && x.parOff % 64 = 0
  let parFoot := byteFoot x.par x.parOff 64
  let blocks := cdiv x.cols 32
  let all : Nat → Nat → Bool → Foot := fun h c wr => foot h (fmtHalves c) wr [⟨x.off, st h, x.rows, x.cols, 1⟩]
  let sc : Nat → Nat → Bool → Foot := fun h o wr => foot h 2 wr [⟨o, st h, x.rows, blocks, 1⟩]
  { fields := fields,
    first := [parFoot],
    handles := [x.w, x.g, x.gs, x.m, x.ms, x.v, x.vs, x.par],
    checks := [cbCheck (r.cbUsable 7 x.slotM), cbCheck (r.cbUsable 7 x.slotV),
      mal (r.linear x.w 2 && r.linear x.g 5 && r.linear x.gs 9 && r.linear x.m 7 && r.linear x.ms 9 && r.linear x.v 7 &&
        r.linear x.vs 9 && r.linear x.par 0),
      mal (r.quantile x.slotM && r.quantile x.slotV),
      mal (x.hyper.all (fun y => (dec32 y).isFinite) && r.hfield x.par (x.parOff + 0x2E) 18 = 0)],
    feet := [parFoot, all x.w 2 false, all x.g 5 false, foot x.gs 2 false [⟨x.gsOff, st x.gs, cdiv x.rows 32, x.cols, 1⟩]] ++
      (if x.first then [] else [all x.m 7 false, sc x.ms x.msOff false, all x.v 7 false, sc x.vs x.vsOff false]) ++
      [all x.w 2 true, all x.m 7 true, sc x.ms x.msOff true, all x.v 7 true, sc x.vs x.vsOff true] }

/-! ### KVAPPEND and SORUS (R240, R244) -/

/-- The context a descriptor names: CTXID, or an element of CTX_H (R240). -/
def FrondRec.ctxNo (r : FrondRec) (h off id : Nat) : Nat :=
  (if h = 0xFF then id else (r.elem h 8 off).1) % 16384

/-- The context word can be read. -/
def FrondRec.ctxReadable (r : FrondRec) (h off : Nat) : Bool := h = 0xFF || (r.usable h && r.holds h (4 * off) 4)

/-- A context descriptors may act on (R229). -/
def State.ctxActive (s : State) (c : Nat) : Bool := (s.ctx c).st = .resident || (s.ctx c).st = .blocked

/-- Format code of a context's keys and values (R225). -/
def CtxRec.code (x : CtxRec) : Nat := x.kvf.toNat
/-- Head dimension of a context. -/
def CtxRec.d (x : CtxRec) : Nat := 32 * x.dh.toNat
/-- E4M3 pages carry scales (R230). -/
def CtxRec.scaled (x : CtxRec) : Bool := x.kvf = 1
/-- LIMIT (R225). -/
def CtxRec.limit (x : CtxRec) : Nat := x.topk.toNat + x.wrec.toNat + x.pfx.toNat + 1

/-- A KVAPPEND body. -/
structure AppBody where
  k : Nat
  v : Nat
  sk : Nat
  sv : Nat
  ch : Nat
  nt : Nat
  hg : Nat
  digest : Bool
  kOff : Nat
  vOff : Nat
  skOff : Nat
  svOff : Nat
  cOff : Nat
  c : Nat
deriving DecidableEq, Repr

/-- The KVAPPEND body of R240. -/
def appBody (r : FrondRec) (d : QDesc) : AppBody :=
  { k := d.fld 8 1, v := d.fld 9 1, sk := d.fld 0xA 1, sv := d.fld 0xB 1, ch := d.fld 0xC 1, nt := d.fld 0xD 1, hg := d.fld 0xE 1,
    digest := bit (d.fld 0xF 1) 0, kOff := d.fld 0x14 4, vOff := d.fld 0x18 4, skOff := d.fld 0x1C 4, svOff := d.fld 0x20 4,
    cOff := d.fld 0x24 4, c := r.ctxNo (d.fld 0xC 1) (d.fld 0x24 4) (d.fld 0x10 2) }

/-- The context word as an operand. -/
def ctxFoot (h off : Nat) : List Foot := if h = 0xFF then [] else [foot h 8 false [⟨off, 0, 1, 1, 1⟩]]

def viewAppend (s : State) (r : FrondRec) (d : QDesc) : View :=
  let x := appBody r d
  let fields := decide (1 ≤ x.nt) && decide (x.nt ≤ 32)
  let hs := if x.ch = 0xFF then [] else [x.ch]
  if !r.ctxReadable x.ch x.cOff then
    { fields := fields, first := ctxFoot x.ch x.cOff, handles := hs, checks := [], feet := ctxFoot x.ch x.cOff } else
  let c := s.ctx x.c
  let st : Nat → Nat := fun h => (r.hnd h).stride
  let sc := c.scaled
  { fields := fields,
    first := ctxFoot x.ch x.cOff,
    handles := hs ++ [x.k, x.v] ++ (if sc then [x.sk, x.sv] else []),
    checks := [(s.ctxActive x.c && decide (x.hg < c.nhg.toNat) && r.linear x.k c.code && r.linear x.v c.code &&
        (!sc || ((r.hnd x.sk).fmt = 2 && (r.hnd x.sv).fmt = 2)) && (x.ch = 0xFF || (r.hnd x.ch).fmt = 8), 0x0142),
      (!c.appended.getLsbD x.hg && (c.pendNt = 0 || c.pendNt.toNat = x.nt), 0x0141),
      (decide (c.tokens.toNat + x.nt ≤ c.maxtok.toNat), 0x0143)],
    feet := ctxFoot x.ch x.cOff ++ [foot x.k (fmtHalves c.code) false [⟨x.kOff, st x.k, x.nt, c.d, 1⟩],
        foot x.v (fmtHalves c.code) false [⟨x.vOff, st x.v, x.nt, c.d, 1⟩]] ++
      (if sc then [foot x.sk 4 false [⟨x.skOff, 0, 1, x.nt, 1⟩], foot x.sv 4 false [⟨x.svOff, 0, 1, x.nt, 1⟩]] else []) }

/-- A SORUS body. -/
structure SorBody where
  q : Nat
  k : Nat
  v : Nat
  sk : Nat
  sv : Nat
  kp : Nat
  mask : Nat
  ch : Nat
  hg : Nat
  qr : Nat
  fq : Nat
  causal : Bool
  all : Bool
  npmax : Nat
  mr : Nat
  qOff : Nat
  kOff : Nat
  vOff : Nat
  skOff : Nat
  svOff : Nat
  kpOff : Nat
  maskOff : Nat
  cOff : Nat
  qpos0 : Nat
  window : Nat
  c : Nat
deriving DecidableEq, Repr

/-- The SORUS body of R244. -/
def sorBody (r : FrondRec) (d : QDesc) : SorBody :=
  { q := d.fld 8 1, k := d.fld 9 1, v := d.fld 0xA 1, sk := d.fld 0xB 1, sv := d.fld 0xC 1, kp := d.fld 0xD 1, mask := d.fld 0xE 1,
    ch := d.fld 0xF 1, hg := d.fld 0x12 1, qr := d.fld 0x13 1, fq := d.fld 0x14 1, causal := bit (d.fld 0x15 1) 0,
    all := bit (d.fld 0x15 1) 1, npmax := d.fld 0x16 1, mr := d.fld 0x17 1, qOff := d.fld 0x18 4, kOff := d.fld 0x1C 4,
    vOff := d.fld 0x20 4, skOff := d.fld 0x24 4, svOff := d.fld 0x28 4, kpOff := d.fld 0x2C 4, maskOff := d.fld 0x30 4,
    cOff := d.fld 0x34 4, qpos0 := d.fld 0x38 4, window := d.fld 0x3C 4,
    c := r.ctxNo (d.fld 0xF 1) (d.fld 0x34 4) (d.fld 0x10 2) }

def viewSorus (s : State) (r : FrondRec) (d : QDesc) : View :=
  let x := sorBody r d
  let fields := decide (1 ≤ x.qr) && decide (x.qr ≤ 32) && (x.fq = 1 || x.fq = 2 || x.fq = 3) && decide (1 ≤ x.npmax) &&
    (x.mask = 0xFF || (decide (1 ≤ x.mr) && decide (x.mr ≤ 32)))
  let hs := if x.ch = 0xFF then [] else [x.ch]
  if !r.ctxReadable x.ch x.cOff then
    { fields := fields, first := ctxFoot x.ch x.cOff, handles := hs, checks := [], feet := ctxFoot x.ch x.cOff } else
  let c := s.ctx x.c
  let st : Nat → Nat := fun h => (r.hnd h).stride
  let sc := c.scaled
  let n := 32 * x.npmax
  { fields := fields,
    first := ctxFoot x.ch x.cOff,
    handles := hs ++ [x.q, x.k, x.v, x.kp] ++ (if sc then [x.sk, x.sv] else []) ++ (if x.mask = 0xFF then [] else [x.mask]),
    checks := [(s.ctxActive x.c && decide (x.hg < c.nhg.toNat) && decide (c.limit ≤ x.npmax) && r.linear x.q x.fq &&
        r.linear x.k c.code && r.linear x.v c.code && (r.hnd x.kp).fmt = 8 && (x.mask = 0xFF || (r.hnd x.mask).fmt = 0) &&
        (!sc || ((r.hnd x.sk).fmt = 2 && (r.hnd x.sv).fmt = 2)) && (x.ch = 0xFF || (r.hnd x.ch).fmt = 8), 0x0142)],
    feet := ctxFoot x.ch x.cOff ++
      [⟨x.q, fmtHalves x.fq, false, [⟨x.qOff, st x.q, x.qr, c.d, 1⟩], if x.all then [] else [⟨x.qOff, st x.q, x.qr, c.d, 1⟩]⟩,
        foot x.k (fmtHalves c.code) true [⟨x.kOff, st x.k, n, c.d, 1⟩],
        foot x.v (fmtHalves c.code) true [⟨x.vOff, st x.v, n, c.d, 1⟩], foot x.kp 8 true [⟨x.kpOff, 0, 1, x.npmax + 2, 1⟩]] ++
      (if sc then [foot x.sk 4 true [⟨x.skOff, 0, 1, n, 1⟩], foot x.sv 4 true [⟨x.svOff, 0, 1, n, 1⟩]] else []) ++
      (if x.mask = 0xFF then [] else [foot x.mask 2 true [⟨x.maskOff, st x.mask, x.mr, 4 * x.npmax, 1⟩]]) }

/-! ### Every opcode -/

/-- The view of a descriptor of Frond f, through the handle entries it has (R142, R154). -/
def viewOf (s : State) (f : Nat) (d : QDesc) : View :=
  let r := (s.frond f).seenBy d
  match d.op with
  | 1 => viewMatmul r d
  | 2 => viewConv r d
  | 3 => viewAttn f r d
  | 4 => if (vecBody d).pload then viewPload r d else viewVec r d
  | 5 => viewPool r d
  | 6 => viewArgmax r d
  | 7 => viewXfer true d
  | 8 => viewXfer false d
  | 9 => viewMove r d
  | 0x0A => viewCbload r d
  | 0x0B => viewWait d
  | 0x0C => viewSignal d
  | 0x0D => viewOpt r d
  | 0x0E => viewAppend s r d
  | 0x0F => viewSorus s r d
  | 0x10 => viewBankpwr d
  | _ => { fields := false, handles := [], checks := [], feet := [] }

end Sys2Proof.Machine
end

