-- ==== Sys2Proof/Machine/Placement.lean ====
section
/-! DEFINITION. The spare map, epochs, residency of shards and placement (R280, R286, R288 to R294, R308, R309). -/

namespace Sys2Proof.Machine

/-! ### The spare map (R292, R308) -/

/-- Frond of a logical index; 255 is unmapped (R308). -/
def State.flFp (s : State) (x : Nat) : Nat := (tget 0xFF s.sched.flMap x).toNat

/-- The mapped logical indices, ascending. -/
def State.mappedFls (s : State) : List Nat := (List.range 128).filter (fun x => s.flFp x ≠ 255)

/-- FL_COUNT and SHORT follow the map (R38, R42). -/
def refreshFl (s : State) : State :=
  let n := s.mappedFls.length
  { s with gctl := { s.gctl with flCount := BitVec.ofNat 8 n, short := decide (n < s.gctl.grade.toNat) } }

/-- Give logical index x the Frond f. -/
def mapFl (x f : Nat) (s : State) : State :=
  let s := { s with sched := { s.sched with flMap := tset 0xFF s.sched.flMap x (BitVec.ofNat 8 f) } }
  refreshFl (State.modFp f (fun r => { r with st := .mapped, fl := BitVec.ofNat 8 x }) s)

/-- Take logical index x from its Frond. -/
def unmapFl (x : Nat) (s : State) : State :=
  let f := s.flFp x
  let s := { s with sched := { s.sched with flMap := tset 0xFF s.sched.flMap x 0xFF } }
  refreshFl (if f = 255 then s else State.modFp f (fun r => { r with fl := 0xFF }) s)

/-! ### Epochs (R294) -/

/-- The next value of E that differs from the Frond's own epoch (R294). -/
def nextEpoch (e cur : BitVec 12) : BitVec 12 := if e + 1 = cur then e + 2 else e + 1

/-- A fresh epoch for Frond f: E and FRND_EPOCH take it, and every shard on the Frond is released (R294). -/
def freshEpoch (f : Nat) (s : State) : State :=
  let e := nextEpoch s.sched.epoch (s.frond f).epoch
  writeEpoch f e { s with sched := { s.sched with epoch := e } }

/-! ### Residency (R280, R288 to R290) -/

/-- The row range and codebook slots of a resident shard and of one to be placed do not meet (R280). -/
def Resident.disjoint (r : Resident) (e : ShardEnt) : Bool :=
  (decide (r.row0 + r.rows ≤ e.row0) || decide (e.row0 + e.rows ≤ r.row0)) && (r.cbSlots &&& e.cbSlots) = 0

/-- A Frond on which shard sh of model m is resident; the lowest logical index. -/
def State.homeOf (s : State) (m sh : Nat) : Option Nat :=
  (s.mappedFls.map s.flFp).find? (fun f => (s.fp f).res.any (fun r => r.model = m && r.shard = sh))

/-- Whether the shard is hot on Frond f. -/
def State.hotOn (s : State) (m sh f : Nat) : Bool := (s.fp f).res.any (fun r => r.model = m && r.shard = sh && r.loaded)

/-- A stream of the model is issuing on the Frond: its slot is not IDLE. -/
def State.issuing (s : State) (f m : Nat) : Bool :=
  (List.range 2).any (fun k =>
    let x := (s.frond f).slot k
    x.st ≠ .idle && match x.owner with
      | .run n _ => (match s.run n with | some r => decide (r.model = m) | none => false)
      | .load m' _ => decide (m' = m)
      | .none => false)

/-- Release a shard from a Frond (R289). -/
def releaseShard (f m sh : Nat) (s : State) : State :=
  refreshModel m (State.modFp f (fun x => { x with res := x.res.filter (fun r => !(r.model = m && r.shard = sh)) }) s)

/-- A Frond free for a shard of classes 1 to 3 (R291): mapped, its residents co-resident with it under R280, none of its class's
models issuing. -/
def State.freeFor (s : State) (cls : Nat) (e : ShardEnt) (f : Nat) : Bool :=
  (s.fp f).st = .mapped && (s.fp f).res.all (fun r =>
    if cls = 0 then r.cls ≠ 0 else r.cls = 0 && r.disjoint e && !s.issuing f r.model)

/-- The Frond of R291's first two lines: planner row first for a CAUSAL shard, then ascending FL. -/
def State.pickFree (s : State) (cls : Nat) (e : ShardEnt) : Option Nat :=
  let fs := (s.mappedFls.map s.flFp).filter (s.freeFor cls e)
  match if bit e.caps 0 then fs.find? (fun f => decide (f < 24)) else none with
  | some f => some f
  | none => fs.head?

/-- The hot shards a class-k shard may displace: class at least k, not issuing, and the Frond able to take the new shard (R280, R290). -/
def State.victims (s : State) (cls : Nat) (e : ShardEnt) : List (Nat × Resident) :=
  (s.mappedFls.map s.flFp).flatMap (fun f =>
    ((s.fp f).res.filter (fun r => r.cls ≠ 0 && decide (cls ≤ r.cls) && r.loaded && !r.pinned && !s.issuing f r.model &&
      (s.fp f).res.all (fun q => q = r || (q.cls = 0 && q.disjoint e && !s.issuing f q.model)))).map (fun r => (f, r)))

/-- The better of two victims: the higher class, then the one dispatched longer ago, then the lower FL (R290). -/
def betterVictim (a b : Nat × Resident) : Nat × Resident :=
  if a.2.cls < b.2.cls then b else if b.2.cls < a.2.cls then a
  else if b.2.lastUse < a.2.lastUse then b else a

/-- The victim of R290. -/
def State.victim (s : State) (cls : Nat) (e : ShardEnt) : Option (Nat × Resident) :=
  match s.victims cls e with
  | [] => none
  | v :: vs => some (vs.foldl betterVictim v)

/-! ### Loading a shard (R284, R286, R289) -/

/-- The relocations of kinds 1 and 3 that name a shard, applied to the main-memory copy for Frond f. A field of kind 1 holds the
image's value plus the placement now made, so an earlier placement's is taken out first (R286). -/
def relocateShard (m sh f : Nat) (s : State) : State :=
  let x := s.model m
  let old := (x.placed.find? (fun p => p.1 = sh)).map Prod.snd
  let win : Nat → Nat := fun g => 0x4000000000 + g * 0x1000000
  let s := (x.relocs.filter (fun r => r.shard = sh)).foldl (fun t r =>
    let a := x.base + r.off
    let mod := 2 ^ (8 * r.width)
    if r.kind = 1 then
      let v := leNat (t.memBytes a r.width)
      let v := v + win f + (mod - (match old with | some g => win g % mod | none => 0))
      memWrite a (clean (toLe r.width (v % mod))) t
    else if r.kind = 3 then memWrite a (clean (toLe r.width f)) t
    else t) s
  State.modModel m (fun y => { y with placed := (sh, f) :: y.placed.filter (fun p => p.1 ≠ sh) }) s

/-- The handle presets of a shard, with the Frond's epoch (R284). -/
def writePresets (m : Nat) (e : ShardEnt) (f : Nat) (s : State) : State :=
  let a := (s.model m).base + e.handleOff
  forUpTo e.nHandle (fun h t =>
    let w0 := leNat (t.memBytes (a + 16 * h) 8)
    let w1 := leNat (t.memBytes (a + 16 * h + 8) 8)
    let w0 := w0 % 2 ^ 52 + place (t.frond f).epoch.toNat 52
    State.modFrond f (fun r => r.modHandle h (HandleRec.preset (BitVec.ofNat 64 w0) (BitVec.ofNat 64 w1))) t) s

/-- Start a stream of a model on slot k of Frond f, where the slot is IDLE: BASE, the SEQ of its first descriptor, GO (R156, R158). -/
def startStream (m idx f k cls : Nat) (owner : SlotOwner) (s : State) : State :=
  if ((s.frond f).slot k).st ≠ .idle then s else
  let x := s.model m
  let a := x.base + (x.streams.getD idx ⟨0, 0, 0, 0, 0, 0⟩).off
  let seq := leNat (s.memBytes (a + 4) 4)
  let s := State.modSlot f k (fun y => { y with base := BitVec.ofNat 40 a, seqReg := BitVec.ofNat 32 seq }) s
  State.modSlot f k (fun y => { y with owner := owner, cls := BitVec.ofNat 2 cls }) (slotGo f k s)

/-- Load a shard that is resident on Frond f: its handle presets, then its load stream, once the slot of its class is IDLE (R289). -/
def runLoad (m sh f k cls : Nat) (s : State) : State :=
  if ((s.frond f).slot k).st ≠ .idle then s
  else
    let e := (s.model m).shards.getD sh ⟨0, 0, 0, 0, 0, 0, 0, 0, 0⟩
    startStream m e.loadStream f k cls (.load m sh) (writePresets m e f s)

/-- Place shard sh of model m on Frond f for a class: relocate, and load it (R286, R289). -/
def loadShard (m sh f cls : Nat) (pinned : Bool) (s : State) : State :=
  let e := (s.model m).shards.getD sh ⟨0, 0, 0, 0, 0, 0, 0, 0, 0⟩
  let hit := (s.fp f).res.filter (fun r => !r.disjoint e)
  let s := hit.foldl (fun t r => releaseShard f r.model r.shard t) s
  let n := s.sched.useCount
  let r : Resident := ⟨m, sh, e.row0, e.rows, e.cbSlots, cls, false, pinned, n⟩
  let s := State.modFp f (fun x => { x with res := x.res ++ [r] }) s
  runLoad m sh f (if cls = 0 then 0 else 1) cls (relocateShard m sh f s)

/-! ### The frame boundary (R293) -/

/-- The lowest-numbered SPARE Frond not yet taken. -/
def State.nextSpare (s : State) : Option Nat :=
  (List.range 144).find? (fun f => (s.fp f).st = .spare && (s.fp f).replaceFl = none)

/-- With no spare left the FL is unmapped, recorded where the Fronds run short, and its class-0 shards go to other Fronds (R38, R291, R293). -/
def replaceNone (fl : Nat) (res : List Resident) (s : State) : State :=
  let s := unmapFl fl s
  let s := if s.gctl.short then reportCode 0x0120 0 s else s
  (res.filter (fun r => r.cls = 0)).foldl (fun t r =>
    let e := (t.model r.model).shards.getD r.shard ⟨0, 0, 0, 0, 0, 0, 0, 0, 0⟩
    match t.pickFree 0 e with
    | some f => loadShard r.model r.shard f 0 true t
    | none => t) s

/-- A spare takes a retired Frond's place: fresh epoch and a forced golden sequence first (R293). -/
def replaceWith (sp fl : Nat) (res : List Resident) (s : State) : State :=
  let s := State.modFp sp (fun r => { r with replaceFl := some fl, replaceRes := res }) (freshEpoch sp s)
  State.modGolden sp (fun g => { g with clockReq := true, forced := true }) s

/-- Find a spare for FL, or do without. -/
def replaceFrond (fl : Nat) (res : List Resident) (s : State) : State :=
  match s.nextSpare with
  | some sp => replaceWith sp fl res s
  | none => replaceNone fl res s

/-- The runs a Frond's slots serve. -/
def State.runsOn (s : State) (f : Nat) : List Nat :=
  (List.range 2).filterMap (fun k => match ((s.frond f).slot k).owner with
    | .run n _ => some n
    | _ => none)

/-- One Frond retired: RETIRED, its slots aborted, its class 1 to 3 runs pre-empted, and a spare sought (R293). -/
def retireFrond (f : Nat) (s : State) : State :=
  let r := s.fp f
  let runs := s.runsOn f
  let res := r.res
  let s := State.modFp f (fun x => { x with st := .retired, retireMark := false, res := [] }) s
  let s := abortSlot f 1 (abortSlot f 0 s)
  let s := runs.foldl (fun t n => match t.run n with
    | some x => if x.cls = 0 then t else preemptRun n t
    | none => t) s
  State.modFp f (fun x => { x with fl := 0xFF }) (replaceFrond r.fl.toNat res (shardsLost res s))

/-- The fill marks of the handles that cover a lost row fall to it, so that a read beyond stalls until it is written again (R140, R146; DEDUCED, log 105). -/
def unfillRow (row : Nat) (r : FrondRec) : FrondRec :=
  { r with handles := r.handles.map (fun e =>
      let h := decodeHandle e.2.w0.toNat e.2.w1.toNat
      (e.1, if h.valid && decide (h.base ≤ row) && decide (row < h.base + h.fill) then applyFill true (row - h.base) e.2 else e.2)) }

/-- A shard's rows hold a row. -/
def Resident.covers (r : Resident) (row : Nat) : Bool := decide (r.row0 ≤ row) && decide (row < r.row0 + r.rows)

/-- A stream that runs on a lost shard is taken off its slot: a run of classes 1 to 3 is pre-empted, another stream ABORTed (R140; DEDUCED, log 105). -/
def dropUser (f k : Nat) (hit : List Resident) (s : State) : State :=
  match ((s.frond f).slot k).owner with
  | .run n sh => match s.run n with
    | some x => if hit.any (fun r => r.model = x.model && r.shard = sh) then (if x.cls = 0 then abortSlot f k s else preemptRun n s) else s
    | none => s
  | .load m sh => if hit.any (fun r => r.model = m && r.shard = sh) then abortSlot f k s else s
  | .none => s

/-- What covers a lost row has to be loaded again before it is used (R140). -/
def reloadRow (f row : Nat) (s : State) : State :=
  let hit := (s.fp f).res.filter (fun r => r.covers row)
  let s := State.modFp f (fun x => { x with res := x.res.map (fun r => if r.covers row then { r with loaded := false } else r) }) s
  let s := State.modFrond f (unfillRow row) (dropUser f 1 hit (dropUser f 0 hit s))
  shardsLost hit s

/-- A spare row takes a failed row's place, its contents lost and so free; with all 16 in use 0x0133 and the Frond retires (R12, R140). -/
def remapRow (f row : Nat) (s : State) : State :=
  let b := row / 512
  if (((s.frond f).bank b).spares).toNat < 16 then
    let d := freeBytes 512 s
    reloadRow f row (State.modFrond f (fun r =>
      (storeWrite (row * 512) (clean d.1) r).modBank b (fun x => { x with spares := x.spares + 1 })) d.2)
  else
    let s := reportFrond f { code := 0x0133 } s
    if (s.fp f).st = .mapped then State.modFp f (fun x => { x with retireMark := true }) s
    else if (s.fp f).st = .spare || (s.fp f).st = .spareUnverified then State.modFp f (fun x => { x with st := .retired }) s
    else s

/-- Every row that returned an uncorrectable error since the last boundary (R140). -/
def remapRows (s : State) : State :=
  forUpTo 144 (fun f t =>
    let rows := (t.frond f).badRows
    rows.foldl (fun u r => remapRow f r u) (State.modFrond f (fun r => { r with badRows := [] }) t)) s

/-- A frame boundary: failed rows are remapped, and every Frond marked by then is retired, ascending (R12, R140, R293). -/
def frameBoundary (s : State) : State :=
  forUpTo 144 (fun f t => if (t.fp f).retireMark && (t.fp f).st = .mapped then retireFrond f t else t) (remapRows s)

/-- A class-0 shard is still to be loaded after a retirement: no class-0 work is dispatched yet (R293). -/
def State.class0Moving (s : State) : Bool :=
  s.sched.fps.any (fun e => e.2.replaceRes.any (fun r => r.cls = 0) || e.2.res.any (fun r => r.cls = 0 && !r.loaded))

/-- A replacement has passed its golden tile: it gets the FL and the retired Frond's shards, class 0 first (R293, R295). -/
def finishReplace (f fl : Nat) (s : State) : State :=
  let res := (s.fp f).replaceRes
  let s := mapFl fl f (State.modFp f (fun x => { x with replaceFl := none, replaceRes := [] }) s)
  let s := (res.filter (fun r => r.cls = 0)).foldl (fun t r => loadShard r.model r.shard f r.cls r.pinned t) s
  (res.filter (fun r => r.cls ≠ 0)).foldl (fun t r => loadShard r.model r.shard f r.cls r.pinned t) s

end Sys2Proof.Machine
end

