-- ==== Sys2Proof/Machine/Desc.lean ====
section
/-! DEFINITION. The descriptor front end: fetching, what a start waits for, the faults judged before it, and completion (R154 to R161). -/

namespace Sys2Proof.Machine

/-! ### Fetch (R158) -/

/-- Class under which slot k fetches and moves data (R158): 0 for slot 0, the stream's for slot 1. -/
def SlotRec.busClass (x : SlotRec) (k : Nat) : Nat := if k = 0 then 0 else if x.cls = 0 then 3 else x.cls.toNat

/-- Main-memory address of the descriptor with a sequence number. -/
def SlotRec.descAddr (x : SlotRec) (seq : Word32) : Nat := x.fetchAddr - 64 * (x.nextSeq - seq).toNat

/-- The device address of byte a of Frond f's store (R135). -/
def storeAddr (f a : Nat) : Nat := 0x4000000000 + f * 0x1000000 + a

/-- A descriptor's CLASS fits its slot (R155). -/
def classFits (k : Nat) (d : QDesc) : Bool := if k = 0 then d.cls = 0 else d.cls ≠ 0

/-- One descriptor placed: its error, sequence, opcode and class are judged in that order (R154, R155, R158). -/
def fetchOne (f k : Nat) (s : State) : State :=
  let x := (s.frond f).slot k
  let a := x.fetchAddr
  let r := readAll f (x.busClass k) a 64 s
  let s := r.2
  match r.1 with
  | none => haltSlot f k 0x0115 a x.nextSeq s
  | some b =>
    if poisoned b then haltSlot f k 0x0115 a x.nextSeq s else
    let d : QDesc := { seq := BitVec.ofNat 32 (field (plain b) 4 4), body := plain b }
    if d.seq ≠ x.nextSeq then haltSlot f k 0x0116 a d.seq s
    else if unitOf d.op = none || !classFits k d then haltSlot f k 0x0112 a d.seq s
    else State.modSlot f k (fun x => { x with
      fetchAddr := a + 64, nextSeq := x.nextSeq + 1, queue := x.queue ++ [d], endFetched := d.last,
      cls := if x.owner = .none then BitVec.ofNat 2 d.cls else x.cls }) s

/-- Descriptors to the end of the aligned 4 KiB block, at most 64 ahead of execution, none past END or a halt (R158). -/
def fetchBlock (f k : Nat) : Nat → State → State
  | 0, s => s
  | n + 1, s =>
    let x := (s.frond f).slot k
    if x.st ≠ .running || x.aborting || x.endFetched || decide (64 ≤ x.queue.length) then s
    else
      let t := fetchOne f k s
      if ((t.frond f).slot k).fetchAddr % 4096 = 0 then t else fetchBlock f k n t

/-! ### What a start waits for (R155, R157, R159, R160) -/

/-- Operands that order a descriptor by row hazards: NOFENCE exempts its reads (R148, R160). -/
def hazardFeet (s : State) (f : Nat) (d : QDesc) : List Foot :=
  let xs := (viewOf s f d).feet
  if d.nofence then xs.filter (fun x => x.write) else xs

/-- A row hazard between two descriptors (R160). -/
def hazard (s : State) (f : Nat) (a b : QDesc) : Bool :=
  let r := s.frond f
  (hazardFeet s f a).any (fun x => (hazardFeet s f b).any (feetClash (r.seenBy a) (r.seenBy b) x))

/-- Codebook slots order CBLOADs against the descriptors that name the slot (R168). -/
def cbOrder (a b : QDesc) : Bool :=
  (a.op = 0x0A || b.op = 0x0A) && (slotsNamed a).any (fun x => (slotsNamed b).contains x)

/-- A MATMUL or CONVTAP that drains, and the accumulator bank it names (R123, R191). -/
def bankOf (d : QDesc) : Nat := if d.op = 1 then bits (d.fld 0x16 1) 0 0 else bits (d.fld 0x10 1) 0 0
def drains (d : QDesc) : Bool := if d.op = 1 then bit (d.fld 0x16 1) 2 else if d.op = 2 then bit (d.fld 0x10 1) 2 else false
def accumulates (d : QDesc) : Bool := d.op = 1 || d.op = 2

/-- The unit takes the descriptor: nothing of the unit runs, or one drain overlaps it on the other bank (R159). -/
def unitFree (q : List QDesc) (d : QDesc) : Bool :=
  match q.filter (fun e => e.started && unitOf e.op = unitOf d.op) with
  | [] => true
  | [e] => drains e && accumulates d && bankOf e ≠ bankOf d
  | _ => false

/-- The descriptor is placed: before it in the stream no unit has more than the 16 descriptors its queue holds still to start (R159; log 91). -/
def placed (q : List QDesc) (d : QDesc) : Bool :=
  let before := (q.takeWhile (fun e => e.seq ≠ d.seq) ++ [d]).filter (fun e => !e.started)
  [DescUnit.grid, .vector, .mem, .ctl].all (fun u => decide ((before.filter (fun e => unitOf e.op = some u)).length ≤ 16))

/-- Slot k may issue: another stream's only at a drain boundary; slot 1 yields at its own while slot 0 runs or a golden request is
pending, and both slots do for a forced one (R104, R155, R326, R327). -/
def FrondRec.mayIssue (r : FrondRec) (k : Nat) : Bool :=
  let x := r.slot k
  x.st = .running && !x.aborting && !r.epochBusy && !r.golden.running &&
  !(k = 1 && (r.slot0.st = .running || r.golden.pending) && r.drainBoundary 1) && !(r.golden.forced && r.drainBoundary k) &&
  !r.spanOpen (1 - k)

/-- The next descriptor of the opcode's unit, when nothing it waits for is open (R160, R162, R168). -/
def State.ready (s : State) (f k op : Nat) : Option QDesc :=
  let r := s.frond f
  let q := (r.slot k).queue
  match q.find? (fun d => !d.started && unitOf d.op = unitOf op) with
  | none => none
  | some d =>
    let earlier := q.takeWhile (fun e => e.seq ≠ d.seq)
    let head := earlier.isEmpty
    if d.op = op && r.mayIssue k && placed q d && unitFree q d && (head || !(d.barrier || d.op = 0x0C)) &&
        !earlier.any (fun e => e.op = 0x0B || e.barrier || cbOrder e d || hazard s f e d)
    then some d else none

/-! ### Faults before a start (R143, R144, R146, R149, R161; log 31) -/

/-- What judging a descriptor finds. -/
inductive Verdict where
  | halt (code : BitVec 16) (addr : Nat)
  | stall
  | go
deriving DecidableEq, Repr

/-- The first of two verdicts that is not go. -/
def Verdict.andThen : Verdict → Verdict → Verdict
  | .go, v => v
  | v, _ => v

/-- Checks in order; the first that fails halts with its code. -/
def judgeChecks (a : Nat) (l : List (Bool × BitVec 16)) : Verdict :=
  match l.find? (fun c => !c.1) with
  | some c => .halt c.2 a
  | none => .go

/-- The first store address of the operands in a bank that does not serve them (R149). -/
def FrondRec.lostBank (r : FrondRec) (xs : List Foot) : Option Nat :=
  xs.findSome? (fun x => ((x.runs (r.hnd x.h)).find? (fun y => !r.banksServe y.1 y.2)).map Prod.fst)

/-- Operands judged: footprints, then banks, then the fill marks of those read (R144, R146, R148, R149). -/
def judgeFeet (f : Nat) (r : FrondRec) (nofence : Bool) (xs : List Foot) : Verdict :=
  match xs.find? (fun x => !x.inside (r.hnd x.h)) with
  | some x => .halt 0x0114 (storeAddr f ((r.hnd x.h).base * 512))
  | none => match r.lostBank xs with
    | some y => .halt 0x0131 (storeAddr f y)
    | none => if !nofence && xs.any (fun x => !x.write && decide ((r.hnd x.h).fill < x.needFill)) then .stall else .go

/-- Fields, then what has to be read first, handles, the opcode's own checks, what has to be read next with its checks, and all operands. -/
def State.judge (s : State) (f k : Nat) (d : QDesc) : Verdict :=
  let r := s.frond f
  let v := viewOf s f d
  let a := (r.slot k).descAddr d.seq
  let hs : List Nat → Verdict := fun l => judgeChecks a [(l.all r.usable, 0x0113)]
  if !v.fields then .halt 0x0112 a
  else (hs (v.first.map Foot.h)).andThen ((judgeFeet f r d.nofence v.first).andThen ((hs v.handles).andThen
    ((judgeChecks a v.checks).andThen ((judgeFeet f r d.nofence v.next).andThen ((judgeChecks a v.late).andThen
      (judgeFeet f r d.nofence v.feet))))))

/-! ### Starting (R17, R139, R159) -/

/-- USED of a frame whose class-0 work starts on a Frond; a Frond that failed its golden sequence or became unverified earlier in the frame
puts it in doubt now (R17, R317, R328). -/
def markUsed (f k : Nat) (s : State) : State :=
  if k ≠ 0 then s else
  match s.frameOf f k with
  | some (p, n) =>
    let l := s.ledgerAt p n
    if !(l.isOpen && l.frame = n) || l.used.getLsbD f then s
    else
      let s := State.modLedger p n (fun l => { l with used := l.used ||| BitVec.ofNat 144 (2 ^ f) }) s
      let s := if l.goldenFail.getLsbD f then doubt p n 0 0x0118 s else s
      if l.unverified.getLsbD f then doubt p n 1 0x0119 s else s
  | none => s

/-- Change a descriptor in its queue. -/
def modDesc (f k : Nat) (seq : Word32) (g : QDesc → QDesc) : State → State :=
  State.modSlot f k (fun x => { x with queue := x.queue.map (fun e => if e.seq = seq then g e else e) })

/-- Poisoned data a descriptor has met at an address: 0x0132 once for the descriptor, with class 0's doubt (R139, R166). -/
def descPoison (f k : Nat) (d : QDesc) (addr : Nat) (s : State) : State :=
  if ((s.frond f).slot k).queue.any (fun e => e.seq = d.seq && e.poisonNoted) then s
  else
    let s := modDesc f k d.seq (fun e => { e with poisonNoted := true }) s
    streamDoubt f k 5 0x0132 (reportFrond f { descRecord s f k 0x0132 addr d.seq with doubt := decide (k = 0) } s)

/-- The operands a descriptor reads are counted, and a poisoned word among them is recorded (R139). -/
def noteReads (f k : Nat) (d : QDesc) (s : State) : State :=
  let xs := (viewOf s f d).feet
  let p := (s.frond f).firstPoison xs
  let s := State.modFrond f (noteFeet xs) s
  match p with
  | none => s
  | some w => descPoison f k d (storeAddr f (w * 32)) s

/-- The handle entries a view names, as they stand (R142). -/
def FrondRec.entriesOf (r : FrondRec) (v : View) : Tab HandleRec :=
  (v.handles ++ v.feet.map Foot.h).foldl (fun t h => tset {} t h (r.handle h)) []

/-- The descriptor counts as started, with the handle entries it keeps (R142). -/
def beginDesc (f k : Nat) (d : QDesc) (s : State) : State :=
  let es := (s.frond f).entriesOf (viewOf s f d)
  noteReads f k d (markUsed f k (modDesc f k d.seq (fun e => { e with started := true, kept := es }) s))

/-- A descriptor's opcode command: nothing where it may not start yet; its fault; a stall on a fill mark; or its effect, unless the
doubt its start raises has entered the safe state, whose reset takes the stream (R317, R339). -/
def runOp (op f k : Nat) (act : QDesc → State → State) (s : State) : State :=
  match s.ready f k op with
  | none => s
  | some d =>
    match s.judge f k d with
    | .halt c a => haltSlot f k c a d.seq s
    | .stall => State.modFrond f (fun r => { r with fillWait := true }) s
    | .go =>
      let t := beginDesc f k d s
      if ((t.frond f).slot k).executing then act d t else t

/-- A drain boundary reached, or an ABORT whose issued descriptors are over (R156, R157). -/
def afterComplete (f k : Nat) (s : State) : State :=
  let r := s.frond f
  let x := r.slot k
  if x.st ≠ .idle && x.aborting && !x.executing then idleSlot f k s
  else if !r.spanOpen k then State.modSlot f k (fun x => { x with spanNoted := false }) s
  else s

/-- A started descriptor ends with a fault of its own: it will not complete, and the stream halts; under an ABORT the fault is only
recorded (R156, R161, R166, R252). -/
def failDesc (f k : Nat) (code : BitVec 16) (addr : Nat) (d : QDesc) (s : State) : State :=
  let s := State.modSlot f k (fun x => { x with queue := x.queue.filter (fun e => e.seq ≠ d.seq) }) s
  if ((s.frond f).slot k).aborting then afterComplete f k (reportFrond f (descRecord s f k code addr d.seq) s)
  else haltSlot f k code addr d.seq s

/-! ### Stalls on a fill mark (R146, R170, R326) -/

/-- Slot k has an engine read that waits for a fill mark: a descriptor that could start but for it (R146). -/
def State.fillStalled (s : State) (f k : Nat) : Bool :=
  (s.frond f).fillWait && (List.range 17).any (fun op => match s.ready f k op with
    | some d => s.judge f k d = .stall
    | none => false)

/-! ### Completion (R156, R162, R166, R169) -/

/-- A bank under way to another state. -/
def BankRec.settled (b : BankRec) : Bool := b.st ≠ .fencing && !b.moving && !b.powering

/-- Whether a started descriptor can complete: BANKPWR when its banks have settled (R169), KVAPPEND and SORUS when their page work
is done (R241, R248). -/
def FrondRec.completable (r : FrondRec) (d : QDesc) : Bool :=
  d.started &&
  (if d.op = 0x10 then (List.range 32).all (fun b => !bit (d.fld 8 4) b || (r.bank b).settled)
   else if d.op = 0x0E || d.op = 0x0F then d.done else true)

/-- The stream behind a slot has ended (R156, R410). -/
def streamEnded (f k : Nat) (s : State) : State :=
  let x := (s.frond f).slot k
  let pf := s.frameOf f k
  let s := State.modFrond f (fun r => { (r.modSlot k (fun y =>
    let z := y.toIdle
    { z with owner := match y.owner with | .load m sh => .load m sh | _ => .none })).emptyBanks with fillWait := false }) s
  match x.owner with
  | .run n sh =>
    let s := shardEnded n sh s
    match pf with
    | some (p, fr) => advanceStages p fr s
    | none => s
  | _ => s

/-- DESCRIPTOR_COMPLETE (R156): DONE, the fill a LOADM raises (R166), and END's end of the stream once nothing before it is open. -/
def opDescComplete (f k : Nat) (seq : Word32) (s : State) : State :=
  let r := s.frond f
  let x := r.slot k
  match x.queue.find? (fun d => d.seq = seq) with
  | none => s
  | some d =>
    let head := (x.queue.takeWhile (fun e => e.seq ≠ seq)).isEmpty
    if !r.completable d || (d.last && !head) then s
    else
      let s := State.modSlot f k (fun x => { x with doneSeq := seq, queue := x.queue.filter (fun e => e.seq ≠ seq) }) s
      let s := if d.op = 7 && (xferBody true d).fill ≠ 0 then fillUpdate f (xferBody true d).h false (xferBody true d).fill s else s
      if d.last && x.st = .running && !x.aborting then streamEnded f k s else afterComplete f k s

/-- DESCRIPTOR_FETCH (R158). -/
def execDescriptorFetch (fp : Frond) (k : Slot) (s : State) := performFab fp.val (fetchBlock fp.val k.val 64) s
/-- DESCRIPTOR_COMPLETE (R156). -/
def execDescriptorComplete (fp : Frond) (k : Slot) (seq : Word32) (s : State) := performFab fp.val (opDescComplete fp.val k.val seq) s

end Sys2Proof.Machine
end

