-- ==== Sys2Proof/WellFormed.lean ====
section
/-! DEFINITION. Which terms are commands the device can be given: operands within the ranges no type fixes. -/

namespace Sys2Proof

/-- The bytes an access names. -/
def BusAcc.len : BusAcc → Nat
  | .read n => n
  | .write d => d.length

/-- One transaction carries 1 to 4,096 bytes, in flits of 64 (R29). -/
def BusAcc.wf (a : BusAcc) : Bool := decide (0 < a.len) && decide (a.len ≤ 4096)

/-- Symbol errors at distinct positions, each changing its symbol. -/
def SymErr.distinct (l : List SymErr) : Bool := decide ((l.map (fun e => e.pos)).Nodup) && l.all (fun e => decide (e.flip ≠ 0))

/-- Symbol errors of a 35-symbol store word (R138). -/
def SymErr.inWord (l : List SymErr) : Bool := SymErr.distinct l && l.all (fun e => decide (e.pos.val < 35))

/-- An upset of a store word has the errors of one (R138). -/
def Upset.wf : Upset → Bool
  | .cell _ _ _ => true
  | .word _ errs => SymErr.inWord errs

/-- One symbol error a place in a line, and up to three repeats of a transfer (R467, R470). -/
def LineErrs.wf (x : LineErrs) : Bool := SymErr.distinct x.syms && decide (x.link.length ≤ 3)

/-- Bytes of an access. -/
def BusAcc.bytes : BusAcc → Nat
  | .read n => n
  | .write d => d.length

/-- A NOC transaction names a 40-bit address (R25), or the host an offset of the 64 KiB BAR4 (R415); errors sit in the 67 symbols of a flit (R33) and the 35 of a store word (R138). -/
def NocAccess.wf (x : NocAccess) : Bool :=
  x.acc.wf && decide (x.addr < 2 ^ 40) && x.flitErrs.all (fun l => SymErr.distinct l && l.all (fun e => decide (e.pos.val < 67))) &&
  x.storeErrs.all (fun e => SymErr.inWord e.2) && (!x.bar4 || x.init = 0xB0 && decide (x.addr + x.acc.bytes ≤ 0x10000))

/-- Payload bytes of a CAN data length code, classical or FD (ISO 11898-1). -/
def canLen (fdf : Bool) (dlc : Nat) : Nat :=
  if dlc ≤ 8 then dlc else if !fdf then 8 else
  match dlc with
  | 9 => 12 | 10 => 16 | 11 => 20 | 12 => 24 | 13 => 32 | 14 => 48 | _ => 64

/-- A CAN frame is one of the forms of R370: remote frames and 8 bytes at most in classical format, BRS and ESI in FD only. -/
def CanFrame.wf (f : CanFrame) : Bool :=
  (f.ide || decide (f.id.toNat < 2 ^ 11)) && (!f.rtr || !f.fdf) && (f.fdf || (!f.brs && !f.esi)) &&
  decide (f.data.length = if f.rtr then 0 else canLen f.fdf f.dlc.toNat)

/-- The well-formed commands. -/
def Instr.wf : Instr → Bool
  | .porstNRelease _ _ _ => true
  | .sysrstNRelease _ _ _ => true
  | .memoryTrainingDone failed => decide failed.Nodup
  | .fabricSelfTestDone found => decide (found.failed ++ found.goldenBad).Nodup
  | .droopCalibrationDone _ _ => true
  | .pushLenDoorbell _ => true
  | .fclkEnable _ => true
  | .fclkDisable _ => true
  | .fclkPeriodWrite _ _ => true
  | .fclkEdge _ => true
  | .goldenClockEdge => true
  | .goldenDeadline => true
  | .golden _ => true
  | .goldenResult _ _ => true
  | .csiFrameStart _ _ _ => true
  | .csiLongPacket _ _ _ payload _ _ => decide (payload.length < 65536)
  | .csiFrameEnd _ _ _ => true
  | .ingestDeadline _ => true
  | .udpIngestPayload _ _ payload => decide (payload.length ≤ 9170)
  | .udpWindowClose _ => true
  | .hostSubmit _ => true
  | .roiWindowWrite _ _ _ => true
  | .roiCommit _ _ => true
  | .prepJobDispatch _ => true
  | .prepJobDone _ => true
  | .slotGo _ _ => true
  | .slotAbort _ _ => true
  | .descriptorFetch _ _ => true
  | .descriptorComplete _ _ _ => true
  | .spanTimerExpiry _ _ => true
  | .matmul _ _ upset => upset.all Upset.wf
  | .convtap _ _ upset => upset.all Upset.wf
  | .attn _ _ upset => upset.all Upset.wf
  | .vec _ _ => true
  | .vecPload _ _ => true
  | .pool _ _ => true
  | .argmax _ _ => true
  | .loadm _ _ => true
  | .storem _ _ => true
  | .move _ _ => true
  | .cbload _ _ => true
  | .wait _ _ => true
  | .signal _ _ => true
  | .optstep _ _ => true
  | .kvappend _ _ => true
  | .sorus _ _ => true
  | .bankpwr _ _ => true
  | .bankFenceResolve _ _ => true
  | .bankFenceAbandon _ _ => true
  | .bankTransitionDone _ _ => true
  | .storeCorrectionWriteback _ => true
  | .frndEpochWrite _ _ => true
  | .frndFill _ _ => true
  | .fillRaise _ _ _ => true
  | .handleEntryWrite _ _ _ _ => true
  | .nocTransaction x => x.wf
  | .registerWrite _ off _ _ => decide (off < 0x4000000)
  | .modelRegister _ => true
  | .modelWarm _ => true
  | .modelEvict _ => true
  | .modelRetire _ => true
  | .shardLoadDone _ _ => true
  | .ctxCreate _ => true
  | .ctxDestroy _ => true
  | .ctxFork _ => true
  | .ctxTrim _ => true
  | .contextDrained _ => true
  | .run _ => true
  | .runChain _ => true
  | .runDispatch => true
  | .runComplete _ => true
  | .cancel _ => true
  | .kvPageResolve _ _ => true
  | .sorusWalk _ _ => true
  | .kvUnpin _ _ => true
  | .kvAppendCommit _ _ => true
  | .kvpoolEnable _ => true
  | .kvpoolDisable _ => true
  | .kvpoolBuildDone _ => true
  | .pipeConfig _ => true
  | .pipeStart _ => true
  | .pipeStop _ => true
  | .roiSeed _ => true
  | .nop _ => true
  | .identify _ => true
  | .getStatus _ => true
  | .setSleep _ _ => true
  | .setPlevel _ => true
  | .attest _ => true
  | .fwWrite _ => true
  | .fwFlashWriteDone _ => true
  | .fuseProgram _ _ => true
  | .eventArm _ => true
  | .sqTailDoorbell _ _ => true
  | .cqHeadDoorbell _ _ => true
  | .evqHeadDoorbell _ => true
  | .sqEnable _ _ => true
  | .sqDisable _ _ => true
  | .cqEnable _ _ => true
  | .cqDisable _ _ => true
  | .commandFetch => true
  | .completionPost _ => true
  | .peerCommandFrame _ frame _ => decide (frame.length ≤ 9170)
  | .wdogClose _ _ => true
  | .wdogExpiry _ _ => true
  | .checkComplete _ plan => plan.all (fun x => decide (x.2.length ≤ 256))
  | .safeRestart failed => decide failed.Nodup
  | .mossRunStart _ => true
  | .mossRunEnd _ payloads envelope us => decide (us < 1000) && payloads.all (fun x => decide (x.2.length ≤ 256)) && (envelope.getD []).all (fun x => decide (x.2.2.1 ≤ x.2.2.2))
  | .mossOverrun _ => true
  | .lockstep => true
  | .clkloss => true
  | .heartbeat => true
  | .heartbeatService => true
  | .vddSafUndervoltage => true
  | .faultRecord _ => true
  | .canLeaveInit _ => true
  | .canEnterInit _ => true
  | .borec _ => true
  | .canIntegrationDone _ => true
  | .canRecoveryDone _ => true
  | .canBusError _ _ => true
  | .canFrameReceive _ frame _ => frame.wf
  | .txreq _ _ _ => true
  | .txabort _ _ _ => true
  | .canRxGet _ _ => true
  | .canRxcfgWrite _ _ => true
  | .canSubmit _ _ => true
  | .canArbitration _ => true
  | .canTxDone _ _ => true
  | .canReferenceSend _ => true
  | .canSyncTimeout _ => true
  | .canTtMissed _ _ => true
  | .ethPortEnable _ _ => true
  | .ethLinkUp _ _ _ => true
  | .ethLinkDown _ => true
  | .ethTxSend _ _ _ => true
  | .ethTxDone _ _ => true
  | .ethGateCommit _ => true
  | .ethGateSwitch _ => true
  | .ethGateInterval _ => true
  | .gptpMessage _ _ => true
  | .gptpSyncTimeout => true
  | .qpSqDoorbell _ _ => true
  | .qpRqDoorbell _ _ => true
  | .qpCqDoorbell _ _ => true
  | .qpLoadContext _ => true
  | .roceWorkRequest _ => true
  | .rocePacket _ pkt => decide (pkt.payload.length ≤ 4096)
  | .roceAckTimeout _ => true
  | .roceRateRecovery _ => true
  | .bar2Access _ acc => acc.wf
  | .pcieCompletion _ _ => true
  | .pcieCompletionTimeout _ => true
  | .pcieLinkReset => true
  | .dmaGo _ => true
  | .dmaAbort _ => true
  | .dmaResume _ => true
  | .dmaDescriptorFetch _ => true
  | .dmaDescriptorComplete _ => true
  | .dmaBusError _ _ addr => decide (addr < 2 ^ 40)
  | .dmaRetry _ _ => true
  | .memRead _ _ addr errs => decide (addr < 0x1000000000) && decide (addr % 64 = 0) && errs.wf
  | .memWrite _ _ addr data _ errs => decide (addr < 0x1000000000) && decide (0 < data.length) && decide (addr % 64 + data.length ≤ 64) && errs.wf
  | .memChannelRetrain _ _ => true
  | .sparePoisonFillDone _ => true
  | .scrubStep errs => errs.all (fun e => SymErr.distinct e.2)
  | .rowSpareDone _ row => decide (row.row < 524288) && row.errs.all (fun e => SymErr.distinct e.2)
  | .migrateRequest _ => true
  | .migrationBlockCopy g => g.errs.all (fun e => SymErr.distinct e.2)
  | .tokenPeriod _ => true
  | .twinLinkUp _ => true
  | .twinLaneLoss _ => true
  | .twinTrainRetry _ _ => true
  | .heartbeatSend => true
  | .heartbeatReceive hb => decide (hb.frames.length = 8)
  | .heartbeatLoss => true
  | .digestComputeDone _ => true
  | .digestResend _ => true
  | .digestReceive _ _ _ _ _ _ => true
  | .digwaitExpiry _ => true
  | .peerFaultNHigh => true
  | .peerFaultNLow => true
  | .takeoverWaitExpiry => true
  | .peerKill => true
  | .pmicWriteDone _ => true
  | .pmicRetry _ => true
  | .pmicSettleExpiry => true
  | .pllLock _ _ => true
  | .pllLockLost _ => true
  | .pllRelockRetry _ _ _ => true
  | .domainClockLoss _ => true
  | .mcgClockWaitExpiry _ => true
  | .thermalForceStep _ _ => true
  | .thermalLiftStep _ _ => true
  | .droopDetect _ fcycles => decide (fcycles < 2 ^ 32)
  | .droopRecover _ => true
  | .sleepEntryComplete => true
  | .vehMotionRise => true
  | .wakeNLow => true
  | .wakeTimerExpiry => true
  | .sleepExitComplete => true
  | .padHoldRelease _ _ => true
  | .unlock => true
  | .rhizomeLockstepMismatch => true
  | .domainClockReturn _ => true
  | .pcieLinkUp _ _ => true
  | .twinImageRequest => true
  | .twinImageReceived image => decide (image.length ≤ 4194304)
  | .arpRequest _ _ _ _ _ => true
  | .ethRxDiscard _ _ => true
  | .gptpSyncInterval _ => true
  | .imuTransfer _ sample => decide (sample.length ≤ 64)
  | .epochInvalidationDone _ => true
  | .postingRepeat => true
  | .porstNAssert => true
  | .sysrstNAssert => true
  | .vddSafRestored => true

end Sys2Proof
end

