-- ==== Sys2Proof/Machine/Grid.lean ====
section
/-! DEFINITION. The cell grid: accumulation order, checksums, ABFT and drain, with MATMUL and CONVTAP (R100 to R105, R113 to R121, R131 to R134, R184 to R191). -/

namespace Sys2Proof.Machine

/-- An operand value with its poison. -/
abbrev PVal := Fl × Bool

/-- A chunk of reduction steps: for each row the values of its steps, none where absent (R184), and for each column its own. -/
structure Chunk where
  rows : List (List (Option PVal))
  cols : List (List PVal)
deriving DecidableEq, Repr

/-- The integer an exact value stands for. -/
def Fl.toInt : Fl → Int
  | .fin s m e => Fl.units 0 s (m * 2 ^ e.toNat) 0
  | _ => 0

/-- A product as it enters the accumulator (R102). -/
def gridMul (int : Bool) (a b : Fl) : Word32 := if int then BitVec.ofInt 32 (a.mul b).toInt else rne32 (a.mul b)
/-- One accumulating addition (R102, R113). -/
def gridAdd (int : Bool) (a b : Word32) : Word32 := if int then a + b else fadd a b
/-- One node of an edge adder tree (R131). -/
def edgeAdd (int : Bool) (a b : Fl) : Fl := if int then a.add b else dec32 (rne32 (a.add b))
/-- An edge adder tree of 2^k inputs; idle ones give zero (R105, R131). -/
def edgeSum (int : Bool) (k : Nat) (l : List Fl) : Fl :=
  treeReduce (edgeAdd int) (.fin false 0 0) k (l ++ List.replicate (2 ^ k - l.length) (.fin false 0 0))

/-- The sequential sum of a chunk's products; none without one (R113). -/
def chunkSum (int : Bool) : List Word32 → Option Word32
  | [] => none
  | p :: ps => some (ps.foldl (gridAdd int) p)

/-- A chunk sum added into what a cell holds; an empty one takes it as it is (R113). -/
def intoCell (int : Bool) (old : Option Cell) (s : Option Word32) (poison : Bool) : Option Cell :=
  match old, s with
  | _, none => old
  | none, some v => some ⟨v, poison⟩
  | some c, some v => some ⟨gridAdd int c.v v, c.poison || poison⟩

/-- One cell's chunk: its present products in order (R113, R184). -/
def cellChunk (int : Bool) (a : List (Option PVal)) (b : List PVal) (old : Option Cell) : Option Cell :=
  let ps := (a.zip b).filterMap (fun x => x.1.map (fun y => (gridMul int y.1 x.2.1, y.2 || x.2.2)))
  intoCell int old (chunkSum int (ps.map Prod.fst)) (ps.any Prod.snd)

/-- A checksum accumulator's chunk (R131). -/
def sumChunk (int : Bool) (ps : List (Fl × Fl)) (old : Word32) : Word32 :=
  match chunkSum int (ps.map (fun x => gridMul int x.1 x.2)) with
  | none => old
  | some v => gridAdd int old v

/-- Entry i of every list. -/
def nthOf {α : Type} (d : α) (i : Nat) (l : List (List α)) : List α := l.map (fun x => x.getD i d)

/-- A chunk accumulated into a bank: cells, checksum row and checksum column (R113, R131); ka and kb give the sizes of the edge trees. -/
def gridChunk (int : Bool) (ka kb : Nat) (c : Chunk) (acc : AccBank) : AccBank :=
  let steps := (c.cols.headD []).length
  let at_ : Option PVal → Fl := fun x => match x with | some y => y.1 | none => .fin false 0 0
  let as := (List.range steps).map (fun k => (nthOf none k c.rows).map at_)
  let bs := (List.range steps).map (fun k => (nthOf (Fl.fin false 0 0, false) k c.cols).map Prod.fst)
  let sA := as.map (edgeSum int ka)
  let tA := as.map (fun l => edgeSum int ka (l.map Fl.abs))
  let sB := bs.map (edgeSum int kb)
  let tB := bs.map (fun l => edgeSum int kb (l.map Fl.abs))
  let acc := (c.rows.zipIdx).foldl (fun x ri =>
    (c.cols.zipIdx).foldl (fun y cj =>
      let key := 64 * ri.2 + cj.2
      { y with cells := tset none y.cells key (cellChunk int ri.1 cj.1 (tget none y.cells key)) }) x) acc
  let acc := (c.cols.zipIdx).foldl (fun x cj =>
    let b := cj.1.map Prod.fst
    { x with pCol := tset 0 x.pCol cj.2 (sumChunk int (sA.zip b) (tget 0 x.pCol cj.2)),
             tCol := tset 0 x.tCol cj.2 (sumChunk int (tA.zip (b.map Fl.abs)) (tget 0 x.tCol cj.2)) }) acc
  (c.rows.zipIdx).foldl (fun x ri =>
    let a := (ri.1.zip (sB.zip tB)).filterMap (fun y => y.1.map (fun v => (v.1, y.2)))
    { x with pRow := tset 0 x.pRow ri.2 (sumChunk int (a.map (fun y => (y.1, y.2.1))) (tget 0 x.pRow ri.2)),
             tRow := tset 0 x.tRow ri.2 (sumChunk int (a.map (fun y => (y.1.abs, y.2.2))) (tget 0 x.tRow ri.2)) }) acc

/-- The bank a descriptor accumulates into: ACC continues an occupied bank, anything else starts afresh (R114). DESIGN CHOICE (log 110): the
spec does not say what ACC = 1 does where the earlier descriptors had another M, N or accumulator mode; the bank's cells keep their
bits and take this descriptor's M, N and mode, and the checksum compares the last tile. -/
def startBank (acc : AccBank) (cont int : Bool) (m n k : Nat) : AccBank :=
  let a := if cont && acc.occupied then acc else {}
  { a with occupied := true, int := int, steps := a.steps + k, rows := m, cols := n }

/-- Upsets of cells, of the checksum row (row 32) and of the checksum column (column 64) (log 10). -/
def upsetCells (l : List Upset) (acc : AccBank) : AccBank :=
  l.foldl (fun x u => match u with
    | .cell i j d =>
      if i.val = 32 then (if j.val = 64 then x else { x with pCol := tset 0 x.pCol j.val (tget 0 x.pCol j.val + d) })
      else if j.val = 64 then { x with pRow := tset 0 x.pRow i.val (tget 0 x.pRow i.val + d) }
      else
        let c := (tget none x.cells (64 * i.val + j.val)).map (fun c => { c with v := c.v + d })
        { x with cells := tset none x.cells (64 * i.val + j.val) c }
    | .word _ _ => x) acc

/-! ### ABFT (R131 to R134) -/

/-- The value of a cell before conversion, as the adder trees read it (R132, R184). -/
def AccBank.cellVal (a : AccBank) (i j : Nat) : Fl :=
  match tget none a.cells (64 * i + j) with
  | none => .fin false 0 0
  | some c => if a.int then .ofInt c.v.toInt else dec32 c.v

/-- Whether one row or column fails: exact in integer mode; within K' · 2^-22 · T in float modes; not compared where anything is
not finite (R132, R133). -/
def checkFails (int : Bool) (k : Nat) (sum : Fl) (p t : Word32) : Bool :=
  if int then BitVec.ofInt 32 sum.toInt ≠ p
  else
    let p := dec32 p
    let t := dec32 t
    sum.isFinite && p.isFinite && t.isFinite &&
      !((sum.sub p).abs.le ((Fl.fin false (max k 8) (-22)).mul t))

/-- First failing column and row of a bank, over the tile's rows and columns (R132, R134). -/
def AccBank.failing (a : AccBank) (ka kb : Nat) : Option Nat × Option Nat :=
  let col := (List.range a.cols).find? (fun j =>
    checkFails a.int a.steps (edgeSum a.int ka ((List.range a.rows).map (fun i => a.cellVal i j))) (tget 0 a.pCol j) (tget 0 a.tCol j))
  let row := (List.range a.rows).find? (fun i =>
    checkFails a.int a.steps (edgeSum a.int kb ((List.range a.cols).map (fun j => a.cellVal i j))) (tget 0 a.pRow i) (tget 0 a.tRow i))
  (col, row)

/-- An ABFT mismatch is recorded once for the drain; class-0 work counts it and puts the frame in doubt (R134). -/
def abftFault (f k : Nat) (d : QDesc) (what : Nat) (x : Option Nat × Option Nat) (s : State) : State :=
  if x = (none, none) then s else
  let r := descRecord s f k 0x0110 (((s.frond f).slot k).descAddr d.seq) d.seq
  let det := d.seq.toNat + place what 32 + place (x.1.getD 0xFF) 40 + place (x.2.getD 0xFF) 48
  let s := reportFrond f { r with detail := BitVec.ofNat 64 det, doubt := decide (k = 0) } s
  let s := if k ≠ 0 then s else match s.frameOf f k with
    | some (p, n) => State.modLedger p n (fun l =>
        if l.isOpen && l.frame = n then { l with abftCount := satInc l.abftCount } else l) s
    | none => s
  streamDoubt f k 2 0x0110 s

/-! ### Drain (R121) -/

/-- The output scale of a column as FP32, with poison; none without one. -/
def outScale (r : FrondRec) (ko so off j : Nat) : Option (F32 × Bool) :=
  if ko = 0 then none else some (r.val32 so (scaleCode ko) (off + j : Nat))

/-- A cell converted: INT32 to FP32 unless the output is INT32, the output scale, then the output format (R121). -/
def drainCell (int : Bool) (fc : Nat) (so : Option (F32 × Bool)) (rd : Rounding) (c : Option Cell) : Nat × Bool :=
  let v := (c.map Cell.v).getD 0
  let p := (c.map Cell.poison).getD false
  if fc = 8 then (v.toNat, p)
  else
    let x := if int then rne32 (.ofInt v.toInt) else v
    match so with
    | none => (encodeFmt fc rd (dec32 x), p)
    | some (y, q) => (encodeFmt fc rd (dec32 (fmul x y)), p || q)

/-- The rows of a drained tile written to the output handle, each from its first element. -/
def drainRows (acc : AccBank) (fc m n h : Nat) (so : Nat → Option (F32 × Bool)) (rd : Nat → Nat → Rounding) (elem : Nat → Int)
    (r : FrondRec) : FrondRec :=
  let sc := (List.range n).map so
  forUpTo m (fun i x => putElems h fc (elem i) ((List.range n).map (fun j =>
    drainCell acc.int fc (sc.getD j none) (rd i j) (tget none acc.cells (64 * i + j)))) x) r

/-- The drain of a bank: ABFT, the write of C, and the bank empty (R103, R121, R132, R134). -/
def drainBank (f k bank : Nat) (d : QDesc) (write : AccBank → FrondRec → FrondRec) (s : State) : State :=
  let acc := (s.frond f).acc bank
  let s := State.modFrond f (fun r => (write acc r).setAcc bank {}) s
  abftFault f k d bank (acc.failing 5 6) s

/-! ### MATMUL -/

/-- Product of an element with its scale: exact, at the edge (R119). -/
def scaled (x : PVal) (sc : Option PVal) : PVal :=
  match sc with
  | none => x
  | some y => (x.1.mul y.1, x.2 || y.2)

/-- A scale element; none without scales. -/
def scaleAt (r : FrondRec) (kind h : Nat) (e : Nat) : Option PVal := if kind = 0 then none else some (r.val h (scaleCode kind) 0 e)

/-- Chunk q of a MATMUL (R113, R119, R145). -/
def matChunk (r : FrondRec) (x : MatBody) (q : Nat) : Chunk :=
  let ks := (List.range (min 32 (x.k - 32 * q))).map (fun t => 32 * q + t)
  let sta := (r.hnd x.a).stride
  let stb := (r.hnd x.b).stride
  { rows := (List.range x.m).map (fun i =>
      let sc := scaleAt r x.ka x.sa (x.saOff + i * (r.hnd x.sa).stride + q)
      ks.map (fun k => some (scaled (r.val x.a x.fa x.ca (x.aOff + (if x.ta then k * sta + i else i * sta + k) : Nat)) sc))),
    cols := (List.range x.n).map (fun j =>
      let sc := scaleAt r x.kb x.sb (x.sbOff + q * (r.hnd x.sb).stride + j)
      ks.map (fun k => scaled (r.val x.b x.fb x.cb (x.bOff + (if x.tb then j * stb + k else k * stb + j) : Nat)) sc)) }

/-- MATMUL (R113, R114, R121, R122). -/
def actMatmul (f k : Nat) (upset : List Upset) (d : QDesc) (s : State) : State :=
  let x := matBody d
  let r := s.frond f
  let int := r.effCode x.fa x.ca = 0
  let acc := startBank (r.acc x.bank) x.acc int x.m x.n x.k
  let acc := forUpTo (cdiv x.k 32) (fun q a => gridChunk int 5 6 (matChunk r x q) a) acc
  let s := State.modFrond f (fun r => { r.setAcc x.bank (upsetCells upset acc) with bankSlot := k }) s
  if !x.drain then s
  else drainBank f k x.bank d (fun a r =>
    drainRows a x.fc x.m x.n x.c (outScale r (if x.fc = 8 then 0 else x.ko) x.so x.soOff)
      (fun i j => pickRounding x.hashed x.seed x.tid (x.baseIdx + i * x.ntot + j))
      (fun i => (x.cOff + i * (r.hnd x.c).stride : Nat)) r) s

/-! ### CONVTAP -/

/-- The input value of tap t, channel c for tile row i: absent in padding with PADVAL 0, PADVAL in padding otherwise (R184). -/
def convInput (r : FrondRec) (x : ConvBody) (xh : Handle) (t c i : Nat) : Option PVal :=
  if x.geo.inside xh x.oy (x.ox + i) t then some (r.val x.x x.fa 0 (x.geo.elem xh x.iy0 x.oy (x.ox + i) t c))
  else if x.pad = 0 then none else some (decodeFmt x.fa x.pad, false)

/-- Chunk q of tap t (R185, R189). -/
def convChunk (r : FrondRec) (x : ConvBody) (xh : Handle) (t q : Nat) : Chunk :=
  let cs := (List.range (min 32 (xh.dim0 - 32 * q))).map (fun u => 32 * q + u)
  let sw := (r.hnd x.w).stride
  { rows := (List.range x.m).map (fun i => cs.map (fun c => convInput r x xh t c i)),
    cols := (List.range x.n).map (fun j =>
      let sc := scaleAt r x.kb x.sb ((t * cdiv xh.dim0 32 + q) * (r.hnd x.sb).stride + x.co + j)
      cs.map (fun c => scaled (r.val x.w x.fb x.cb (x.wOff + (t * xh.dim0 + c) * sw + j : Nat)) sc)) }

/-- CONVTAP (R183 to R191). -/
def actConvtap (f k : Nat) (upset : List Upset) (d : QDesc) (s : State) : State :=
  let x := convBody d
  let r := s.frond f
  let xh := r.hnd x.x
  let yh := r.hnd x.y
  let int := decide (x.fa = 0)
  let acc := startBank (r.acc x.bank) x.acc int x.m x.n (x.taps.length * xh.dim0)
  let acc := (x.taps.filter (fun t => !x.skipped xh t)).foldl (fun a t =>
    forUpTo (cdiv xh.dim0 32) (fun q b => gridChunk int 5 6 (convChunk r x xh t q) b) a) acc
  let s := State.modFrond f (fun r => { r.setAcc x.bank (upsetCells upset acc) with bankSlot := k }) s
  if !x.drain then s
  else
    let ow := match x.geo.out xh.dim2 xh.dim1 with | some (_, w) => w | none => 0
    drainBank f k x.bank d (fun a r =>
      drainRows a x.fc x.m x.n x.y (outScale r (if x.fc = 8 then 0 else x.ko) x.so x.co)
        (fun i j => pickRounding x.hashed x.seed x.tid (x.baseIdx + (x.oy * ow + x.ox + i) * yh.dim0 + x.co + j))
        (fun i => ((x.oy : Int) - x.oyb) * yh.stride + ((x.ox + i) * yh.cp + x.co : Nat)) r) s

/-- A grid descriptor with the upsets of its time: words before it reads, cells before it drains (log 10). -/
def runUpset (op f k : Nat) (upset : List Upset) (act : Nat → Nat → List Upset → QDesc → State → State) (s : State) : State :=
  runOp op f k (act f k upset) (State.modFrond f (upsetWords upset) s)

/-- MATMUL (R122). -/
def execMatmul (fp : Frond) (k : Slot) (upset : List Upset) (s : State) :=
  performWfFab (Instr.matmul fp k upset).wf fp.val (runUpset 1 fp.val k.val upset actMatmul) s
/-- CONVTAP (R188). -/
def execConvtap (fp : Frond) (k : Slot) (upset : List Upset) (s : State) :=
  performWfFab (Instr.convtap fp k upset).wf fp.val (runUpset 2 fp.val k.val upset actConvtap) s

end Sys2Proof.Machine
end

