-- ==== Sys2Proof/Machine/Attn.lean ====
section
/-! DEFINITION. The attention pipe (R197 to R220). -/

namespace Sys2Proof.Machine

/-- What the softmax stage keeps for a query row (R200). -/
structure AttnRow where
  o : List F32
  m : F32
  l : F32
  npres : F32
  poison : Bool
deriving DecidableEq, Repr

/-- STARTED (R200). -/
def AttnRow.started (x : AttnRow) : Bool := (Fl.fin false 0 0).lt (dec32 x.npres)

/-! ### Rotary position coding (R212 to R214) -/

/-- F_p of the rotary table (R213, R217). -/
def AttnBody.turn (x : AttnBody) (r : FrondRec) (p : Nat) : Nat :=
  let w : Nat → Nat := fun i => (r.elem x.rot 8 (x.rotOff + 2 * p + i : Nat)).1
  w 0 + place (w 1 % 65536) 32

/-- One pair rotated (R212). -/
def rotPair (c s a b : F32) : F32 × F32 := (fsub (fmul a c) (fmul b s), fadd (fmul a s) (fmul b c))

/-- A row rotated at a position and converted to ROTFMT (R212, R213). -/
def AttnBody.rotate (x : AttnBody) (r : FrondRec) (pos : Nat) (v : List PVal) : List PVal :=
  let w := v.map (fun y => rne32 y.1)
  let pairs := (List.range x.rotp).map (fun p =>
    let phase := ((pos + x.rotoff) % 2 ^ 32 * x.turn r p) % 2 ^ 48
    let a := if x.halves then p else 2 * p
    let b := if x.halves then p + x.rotp else 2 * p + 1
    (a, b, rotPair (rotTrig true phase) (rotTrig false phase) (w.getD a 0) (w.getD b 0)))
  let w := pairs.foldl (fun u y => (u.set y.1 y.2.2.1).set y.2.1 y.2.2.2) w
  (w.zip v).map (fun y => (decodeFmt x.rotfmt (encodeFmt x.rotfmt .nearest (dec32 y.1)), y.2.2))

/-! ### Operands (R197, R217) -/

/-- Elements of a row. -/
def rowVals (r : FrondRec) (h code off d : Nat) : List PVal := (List.range d).map (fun e => r.val h code 0 (off + e : Nat))

/-- Query row i as it enters the grid. -/
def AttnBody.qRow (x : AttnBody) (r : FrondRec) (i : Nat) : List PVal :=
  let v := rowVals r x.q x.fq (x.qOff + i * (r.hnd x.q).stride) x.d
  if x.rope then x.rotate r (x.qpos i) v else v

/-- Key 32n + j as it enters the grid, with its scale and rotation (R119, R212). -/
def AttnBody.kRow (x : AttnBody) (r : FrondRec) (n j : Nat) : List PVal :=
  let key := 32 * n + j
  let sc := if x.ksc then some (r.val x.sk 2 0 (x.skOff + x.kidx0 + key : Nat)) else none
  let v := (rowVals r x.k x.fk (x.kOff + key * (r.hnd x.k).stride) x.d).map (fun y => scaled y sc)
  if x.rope then x.rotate r (x.kpos r n j) v else v

/-- The value row of key 32n + j with its scale. -/
def AttnBody.vRow (x : AttnBody) (r : FrondRec) (n j : Nat) : List PVal :=
  let key := 32 * n + j
  let sc := if x.vsc then some (r.val x.sv 2 0 (x.svOff + x.kidx0 + key : Nat)) else none
  (rowVals r x.v x.fv (x.vOff + key * (r.hnd x.v).stride) x.d).map (fun y => scaled y sc)

/-- Whether key j of tile n is present for row i (R199, R208, R210). -/
def AttnBody.present (x : AttnBody) (f : Nat) (r : FrondRec) (n i j : Nat) : Bool :=
  let key := 32 * n + j
  let col := x.kidx0 + key
  decide (key < x.nkey) && (!x.compares f || x.allowed (x.qpos i) (x.kpos r n j)) &&
  (!x.masked f || bit (r.elem x.mask 0 (x.maskOff + (x.qidx0 + i) * (r.hnd x.mask).stride + col / 8 : Nat)).1 (col % 8))

/-! ### One key tile (R198, R200, R220) -/

/-- The tile's scores: the left half's bank after its reduction (R198). -/
def scoreTile (qs ks : List (List PVal)) (d : Nat) : AccBank :=
  forUpTo (d / 32) (fun q a =>
    let cut : List PVal → List PVal := fun l => (l.drop (32 * q)).take 32
    gridChunk false 5 5 { rows := qs.map (fun l => (cut l).map some), cols := ks.map cut } a)
    (startBank {} false false qs.length ks.length d)

/-- One block of the right half: weights of the present keys against 32 dimensions (R198). -/
def valueBlock (ps : List (List (Option PVal))) (vs : List (List PVal)) (b : Nat) : AccBank :=
  let keep := (List.range vs.length).filter (fun j => ps.any (fun l => (l.getD j none).isSome))
  let ps' := ps.map (fun l => keep.map (fun j => l.getD j none))
  let cols := (List.range 32).map (fun e => keep.map (fun j => (vs.getD j []).getD (32 * b + e) (.fin false 0 0, false)))
  gridChunk false 5 5 { rows := ps', cols := cols } (startBank {} false false ps.length 32 32)

/-- The softmax stage's new weights for a row: the scores scaled, the new maximum, and the converted exponentials (R200). -/
def softRow (x : AttnBody) (row : AttnRow) (pres : List Bool) (sc : List F32) : F32 × List F32 :=
  let t := pres.zip sc |>.map (fun y => if y.1 then fmul y.2 x.smscale else negInf32)
  let t := t ++ List.replicate (32 - t.length) negInf32
  let mt := treeReduce fmax 0 5 t
  let mnew := if row.started then fmax row.m mt else mt
  let p := t.zipIdx.map (fun y => if pres.getD y.2 false then
    rne32 (decodeFmt x.pfmt (encodeFmt x.pfmt .nearest (dec32 (fexp2 (fsub y.1 mnew))))) else 0)
  (mnew, p)

/-- A row folded with the tile's weights and products (R200). -/
def foldRow (row : AttnRow) (mnew : F32) (p pv : List F32) (count : Nat) : AttnRow :=
  let ps := treeReduce fadd 0 5 p
  let n := fadd row.npres (rne32 (.ofInt count))
  if !row.started then { row with o := pv, l := ps, m := mnew, npres := n }
  else
    let c := fexp2 (fsub row.m mnew)
    { row with o := (row.o.zip pv).map (fun y => ffma y.1 c y.2), l := ffma row.l c ps, m := mnew, npres := n }

/-- What the pass carries: rows, and the first failing check (R220). -/
structure AttnPass where
  rows : List AttnRow
  fail : Option (Nat × Option Nat × Option Nat)
deriving DecidableEq, Repr

/-- The first failing check is kept. -/
def AttnPass.check (a : AttnPass) (what : Nat) (b : AccBank) : AttnPass :=
  if a.fail.isSome || b.failing 5 5 = (none, none) then a else { a with fail := some (what, b.failing 5 5) }

/-- Upsets of the left and of the right half (R197; log 10). -/
def leftUpset (l : List Upset) : List Upset := l.filter (fun u => match u with
  | .cell _ j _ => decide (j.val < 32) || j.val = 64
  | .word _ _ => false)
def rightUpset (l : List Upset) : List Upset := l.filterMap (fun u => match u with
  | .cell i j d => if 32 ≤ j.val ∧ j.val < 64 then some (.cell i (Fin.ofNat 65 (j.val - 32)) d) else none
  | .word _ _ => none)

/-- The word a bank holds at (i, j). -/
def AccBank.word (a : AccBank) (i j : Nat) : F32 := ((tget none a.cells (64 * i + j)).map Cell.v).getD 0

/-- One computed key tile (R197 to R200). -/
def attnTile (x : AttnBody) (f : Nat) (r : FrondRec) (qs : List (List PVal)) (up : List Upset) (n : Nat) (a : AttnPass) : AttnPass :=
  let nk := x.keysOf n
  let sb := upsetCells (leftUpset up) (scoreTile qs ((List.range nk).map (x.kRow r n)) x.d)
  let a := a.check 2 sb
  let pres := (List.range x.m).map (fun i => (List.range nk).map (x.present f r n i))
  let soft := (List.range x.m).map (fun i =>
    softRow x (a.rows.getD i ⟨[], 0, 0, 0, false⟩) (pres.getD i []) ((List.range nk).map (sb.word i)))
  let ps := (List.range x.m).map (fun i => (List.range nk).map (fun j =>
    if (pres.getD i []).getD j false then some (dec32 ((soft.getD i (0, [])).2.getD j 0), false) else none))
  let vs := (List.range nk).map (x.vRow r n)
  let bs := (List.range x.dh).map (fun b => (if b = 0 then upsetCells (rightUpset up) else id) (valueBlock ps vs b))
  let a := bs.foldl (fun y b => y.check 3 b) a
  { a with rows := a.rows.zipIdx.map (fun y =>
      let pr := pres.getD y.2 []
      if !pr.any id then y.1
      else foldRow y.1 (soft.getD y.2 (0, [])).1 (soft.getD y.2 (0, [])).2
        (bs.flatMap (fun b => (List.range 32).map (b.word y.2))) (pr.filter id).length) }

/-! ### The descriptor (R201, R203, R215) -/

/-- The rows as the descriptor starts: from the state handle, or with NPRES 0 and nothing else said of them (R203; log 8). -/
def attnStart (x : AttnBody) (r : FrondRec) (free : List Byte) : List AttnRow :=
  (List.range x.m).map (fun i =>
    if x.init then
      let w : Nat → F32 := fun e => BitVec.ofNat 32 (field free (4 * (i * (x.d + 2) + e)) 4)
      ⟨(List.range x.d).map w, w x.d, w (x.d + 1), 0, false⟩
    else
      let w := (List.range (x.d + 3)).map (fun e => r.elem x.st 4 (x.stOff + i * (r.hnd x.st).stride + e : Nat))
      let v : Nat → F32 := fun e => BitVec.ofNat 32 (w.getD e (0, false)).1
      ⟨(List.range x.d).map v, v x.d, v (x.d + 1), v (x.d + 2), w.any Prod.snd⟩)

/-- Poison that reaches row i: its own Q and mask words, and every K, V, scale, position, table and record word (R218). -/
def attnPoison (x : AttnBody) (f : Nat) (r : FrondRec) (i : Nat) : Bool :=
  let one : Foot → Foot := fun y => { y with spans := y.spans.map (fun z => { z with off := z.off + (i * z.stride : Nat), rows := min 1 z.rows }) }
  (r.firstPoison ((x.ownFeet f r).map one)).isSome || (r.firstPoison (x.sharedFeet f r)).isSome

/-- A row's output values, EMPTY and NONFINITE (R201). -/
def attnOut (x : AttnBody) (row : AttnRow) : List F32 :=
  if row.started then
    let c := frcp row.l
    row.o.map (fun y => fmul y c)
  else List.replicate x.d 0

/-- The row-status word (R201). -/
def attnStatus (row : AttnRow) : Nat :=
  let n := match dec32 row.npres with
    | .fin false m e => (roundInt .nearest false m e).toNat
    | .inf false => 65535
    | _ => 0
  let bad := row.started && !((row.l :: row.m :: row.o).all (fun y => (dec32 y).isFinite))
  b2n (!row.started) + 2 * b2n bad + place (min 65535 (if row.started then n else 0)) 16

/-- State written back (R203). -/
def attnSave (x : AttnBody) (rows : List AttnRow) (r : FrondRec) : FrondRec :=
  rows.zipIdx.foldl (fun t y => putElems x.st 4 (x.stOff + y.2 * (r.hnd x.st).stride : Nat)
    ((y.1.o ++ [y.1.m, y.1.l, y.1.npres, 0]).map (fun w => (w.toNat, y.1.poison))) t) r

/-- Normalised output and row status (R201, R215). -/
def attnFinal (x : AttnBody) (rows : List AttnRow) (r : FrondRec) : FrondRec :=
  let r := rows.zipIdx.foldl (fun t y => putElems x.o x.fo (x.oOff + y.2 * (t.hnd x.o).stride : Nat)
    ((attnOut x y.1).zipIdx.map (fun w =>
      (encodeFmt x.fo (pickRounding x.hashed x.seed x.tid ((x.qidx0 + y.2) * x.d + w.2)) (dec32 w.1), y.1.poison))) t) r
  if x.rsen then putElems x.rs 8 (x.rsOff + x.qidx0 : Nat) (rows.map (fun y => (attnStatus y, y.poison))) r else r

/-- ATTN (R197 to R206, R215 to R220). -/
def actAttn (f k : Nat) (upset : List Upset) (d : QDesc) (s : State) : State :=
  let r := s.frond f
  let x := attnBody r d
  let fr := if x.init then freeBytes (4 * x.m * (x.d + 2)) s else ([], s)
  let s := fr.2
  let qs := if x.nkey = 0 then [] else (List.range x.m).map (x.qRow r)
  let ts := x.computed r f
  let a : AttnPass := ts.foldl (fun a n => attnTile x f r qs (if some n = ts.head? then upset else []) n a) ⟨attnStart x r fr.1, none⟩
  let rows := a.rows.zipIdx.map (fun y => { y.1 with poison := y.1.poison || attnPoison x f r y.2 })
  let s := State.modFrond f (fun r =>
    let r := r.emptyBanks
    let r := if x.save then attnSave x rows r else r
    if x.fin then attnFinal x rows r else r) s
  match a.fail with
  | none => s
  | some (what, y) => abftFault f k d what y s

/-- ATTN (R215). -/
def execAttn (fp : Frond) (k : Slot) (upset : List Upset) (s : State) :=
  performWfFab (Instr.attn fp k upset).wf fp.val (runUpset 3 fp.val k.val upset actAttn) s

end Sys2Proof.Machine
end

