-- ==== Sys2Proof/Machine/Banks.lean ====
section
/-! DEFINITION. Bank power of a Frond store, and the write-back of corrected words (R139, R149 to R152, R169). -/

namespace Sys2Proof.Machine

/-- BANKPWR asks one bank for a state; a bank in it, or on its way elsewhere, is unchanged. A power-down under way is the last one, so
ABANDONED clears with its start (R150, R169, R179; log 33). -/
def bankTo (t : BankState) (now : Word64) (b : BankRec) : BankRec :=
  if b.st = t || !b.settled then b
  else if b.st = .on then { b with st := .fencing, target := t, since := now, abandoned := false }
  else if t = .on then { b with target := .on, powering := true }
  else b

/-- BANKPWR (R169). -/
def actBankpwr (f : Nat) (d : QDesc) (s : State) : State :=
  let t : BankState := match d.fld 0xC 1 with | 0 => .on | 1 => .off | _ => .ret
  State.modFrond f (fun r => forUpTo 32 (fun b x => if bit (d.fld 8 4) b then x.modBank b (bankTo t s.gctl.time) else x) r) s

/-- Both conditions of R150: no claim and no inbound write. -/
def BankRec.free (b : BankRec) : Bool := b.claims = 0 && b.inbound = 0

/-- BANK_FENCE_RESOLVE (R150). -/
def fenceResolve (b : BankRec) : BankRec := if b.st = .fencing && b.free then { b with st := b.target, moving := true } else b

/-- BANK_FENCE_ABANDON: 100 µs after FENCING was entered with a condition open (R150). -/
def opFenceAbandon (f b : Nat) (s : State) : State :=
  let x := (s.frond f).bank b
  if x.st = .fencing && !x.free && decide (x.since.toNat + 100000 ≤ s.gctl.time.toNat) then
    reportFrond f { code := 0x0130 }
      (State.modFrond f (fun r => r.modBank b (fun x => { x with st := .on, target := .on, abandoned := true })) s)
  else s

/-- Every row of a bank zero, with valid check bytes and no poison (R152). -/
def zeroBank (b : Nat) (r : FrondRec) : FrondRec :=
  let inB : Nat → Bool := fun w => w / 8192 = b
  { r with store := r.store.filter (fun c => c.1 / 262144 ≠ b), poison := r.poison.filter (fun c => !inB c.1),
           errs := r.errs.filter (fun c => !inB c.1), pendingCorr := r.pendingCorr.filter (fun w => !inB w) }

/-- BANK_TRANSITION_DONE (R152). -/
def transitionDone (b : Nat) (r : FrondRec) : FrondRec :=
  let x := r.bank b
  if x.powering then (if x.st = .off then zeroBank b r else r).modBank b (fun x => { x with st := .on, powering := false })
  else r.modBank b (fun x => { x with moving := false })

/-- STORE_CORRECTION_WRITEBACK: the oldest corrected word goes back into the array (R139). -/
def writeBack (r : FrondRec) : FrondRec :=
  match r.pendingCorr with
  | [] => r
  | w :: _ => setWord w (r.wordData w) (tget false r.poison w) r

/-- BANKPWR (R169). -/
def execBankpwr (fp : Frond) (k : Slot) (s : State) := performFab fp.val (runOp 0x10 fp.val k.val (actBankpwr fp.val)) s
/-- BANK_FENCE_RESOLVE (R150). -/
def execBankFenceResolve (fp : Frond) (b : Bank) (s : State) :=
  performFab fp.val (State.modFrond fp.val (fun r => r.modBank b.val fenceResolve)) s
/-- BANK_FENCE_ABANDON (R150). -/
def execBankFenceAbandon (fp : Frond) (b : Bank) (s : State) := performFab fp.val (opFenceAbandon fp.val b.val) s
/-- BANK_TRANSITION_DONE (R152). -/
def execBankTransitionDone (fp : Frond) (b : Bank) (s : State) := performFab fp.val (State.modFrond fp.val (transitionDone b.val)) s
/-- STORE_CORRECTION_WRITEBACK (R139). -/
def execStoreCorrectionWriteback (fp : Frond) (s : State) := performFab fp.val (State.modFrond fp.val writeBack) s

end Sys2Proof.Machine
end

