-- ==== Sys2Proof/Machine/Pixels.lean ====
section
/-! DEFINITION. The arithmetic of PREP: unpacking, predictor decoding, demosaic, regions, colour and conversion (R57, R58, R65 to R71). -/

namespace Sys2Proof.Machine

/-! ### Unpacking and predictor decoding (R57, R58; MIPI CSI-2 packings, log 25) -/

/-- RAW10: four pixels in five bytes. -/
def unpack10 : List Byte → List Nat
  | a :: b :: c :: d :: e :: t =>
    let l := e.toNat
    [a.toNat * 4 + l % 4, b.toNat * 4 + l / 4 % 4, c.toNat * 4 + l / 16 % 4, d.toNat * 4 + l / 64] ++ unpack10 t
  | _ => []

/-- RAW12: two pixels in three bytes. -/
def unpack12 : List Byte → List Nat
  | a :: b :: c :: t => [a.toNat * 16 + c.toNat % 16, b.toNat * 16 + c.toNat / 16] ++ unpack12 t
  | _ => []

/-- RAW14: four pixels in seven bytes. -/
def unpack14 : List Byte → List Nat
  | a :: b :: c :: d :: e :: f :: g :: t =>
    let l := e.toNat + 256 * f.toNat + 65536 * g.toNat
    [a.toNat * 64 + l % 64, b.toNat * 64 + l / 64 % 64, c.toNat * 64 + l / 4096 % 64, d.toNat * 64 + l / 262144] ++ unpack14 t
  | _ => []

/-- Two bytes a pixel, low byte first. -/
def unpack16 : List Byte → List Nat
  | a :: b :: t => (a.toNat + 256 * b.toNat) :: unpack16 t
  | _ => []

/-- The prediction of a pixel from those decoded before it, newest first (R58; MIPI CSI-2, log 25). -/
def predict (pred : Nat) : List Nat → Option Nat
  | [] => none
  | a :: t =>
    if pred = 1 then t.head?
    else match t with
      | [] => some a
      | [b] => some b
      | [b, c] => if (a ≤ b ∧ b ≤ c) ∨ (a ≥ b ∧ b ≥ c) then some a else some b
      | b :: c :: d :: _ =>
        if (a ≤ b ∧ b ≤ c) ∨ (a ≥ b ∧ b ≥ c) then some a
        else if (a ≤ c ∧ b ≤ d) ∨ (a ≥ c ∧ b ≥ d) then some b
        else some ((b + d + 1) / 2)

/-- A prediction plus or minus a difference, held in the raw range. -/
def addDiff (max pred diff : Nat) (neg : Bool) : Nat := if neg then pred - diff else min max (pred + diff)

/-- 10-8-10: one code word (R58; log 25). -/
def decode10_8 (x : Nat) : Option Nat → Nat
  | none => 4 * x + 2
  | some p =>
    if x < 64 then addDiff 1023 p (x % 32) (bit x 5)
    else if x < 96 then addDiff 1023 p (2 * (x % 16) + 32) (bit x 4)
    else if x < 128 then addDiff 1023 p (4 * (x % 16) + 65) (bit x 4)
    else if p < 8 * (x % 128) then 8 * (x % 128) + 3 else 8 * (x % 128) + 4

/-- 12-8-12: one code word (R58; log 25). -/
def decode12_8 (x : Nat) : Option Nat → Nat
  | none => 16 * x + 8
  | some p =>
    if x < 16 then addDiff 4095 p (x % 8) (bit x 3)
    else if x < 32 then addDiff 4095 p (16 * (x % 8) + 239) (bit x 3)
    else if x < 64 then addDiff 4095 p (8 * (x % 16) + 107) (bit x 4)
    else if x < 96 then addDiff 4095 p (4 * (x % 16) + 41) (bit x 4)
    else if x < 128 then addDiff 4095 p (2 * (x % 16) + 8) (bit x 4)
    else if p < 32 * (x % 128) then 32 * (x % 128) + 15 else 32 * (x % 128) + 16

/-- 12-10-12: one code word (R58; log 25). -/
def decode12_10 (x : Nat) : Option Nat → Nat
  | none => 4 * x + 2
  | some p =>
    if x < 256 then addDiff 4095 p (x % 128) (bit x 7)
    else if x < 384 then addDiff 4095 p (2 * (x % 64) + 128) (bit x 6)
    else if x < 512 then addDiff 4095 p (4 * (x % 64) + 257) (bit x 6)
    else if p < 8 * (x % 512) then 8 * (x % 512) + 3 else 8 * (x % 512) + 4

/-- Decode a line of code words; the pixels so far come newest first. -/
def decodeLinePred (comp pred : Nat) : List Nat → List Nat → List Nat
  | seen, [] => seen.reverse
  | seen, x :: t =>
    let p := predict pred seen
    let y := if comp = 1 then decode10_8 x p else if comp = 2 then decode12_8 x p else decode12_10 x p
    decodeLinePred comp pred (y :: seen) t

/-- Bytes of one line as stored; DESIGN CHOICE: the packed bits rounded down to whole bytes where WIDTH is not a multiple of 4
(R53, R57, R58; log 97). -/
def lineBytes (c : StreamCfg) : Nat :=
  if c.comp = 1 ∨ c.comp = 2 then c.width
  else if c.comp = 3 then c.width * 10 / 8
  else match c.dt with
    | 0x2A => c.width
    | 0x2B => c.width * 10 / 8
    | 0x2C => c.width * 12 / 8
    | 0x2D => c.width * 14 / 8
    | 0x2E => c.width * 2
    | 0x1E => c.width * 2
    | _ => c.width * 3

/-- The integers of a line: one a pixel for raw types, in byte order for YUV422 and RGB888 (R57, R66). -/
def lineInts (c : StreamCfg) (l : List Byte) : List Nat :=
  if c.comp = 1 ∨ c.comp = 2 then decodeLinePred c.comp c.pred [] (l.map (fun b => b.toNat))
  else if c.comp = 3 then decodeLinePred 3 c.pred [] (unpack10 l)
  else match c.dt with
    | 0x2B => unpack10 l
    | 0x2C => unpack12 l
    | 0x2D => unpack14 l
    | 0x2E => unpack16 l
    | _ => l.map (fun b => b.toNat)

/-! ### Demosaic (R67) -/

/-- The mirror position of an index outside 0 to n - 1 (R67). -/
def mirror (n : Nat) (i : Int) : Nat := if i < 0 then (-i).toNat else if (n : Int) ≤ i then (2 * ((n : Int) - 1) - i).toNat else i.toNat

/-- Colour of the site (x, y): 0 red, 1 green, 2 blue, by BAYER (R87). -/
def bayerSite (b x y : Nat) : Nat :=
  let rggb : Nat := if x % 2 = 0 ∧ y % 2 = 0 then 0 else if x % 2 = 1 ∧ y % 2 = 1 then 2 else 1
  match b with
  | 0 => rggb
  | 1 => if x % 2 = 1 ∧ y % 2 = 0 then 0 else if x % 2 = 0 ∧ y % 2 = 1 then 2 else 1
  | 2 => if x % 2 = 0 ∧ y % 2 = 1 then 0 else if x % 2 = 1 ∧ y % 2 = 0 then 2 else 1
  | _ => 2 - rggb

/-- An integer as FP32. -/
def f32OfNat (n : Nat) : F32 := rne32 (.ofInt n)

def half32 : F32 := 0x3F000000
def quarter32 : F32 := 0x3E800000

/-- Colour c at (x, y) of a mosaic read by g (R67). -/
def demosaic (b w h : Nat) (g : Nat → Nat → Nat) (c x y : Nat) : F32 :=
  let at_ : Int → Int → F32 := fun dx dy => f32OfNat (g (mirror w (x + dx)) (mirror h (y + dy)))
  let s := bayerSite b x y
  if s = c then f32OfNat (g x y)
  else if c = 1 then fmul (fadd (fadd (fadd (at_ 0 (-1)) (at_ (-1) 0)) (at_ 1 0)) (at_ 0 1)) quarter32
  else if s = 1 then
    if bayerSite b (x + 1) y = c then fmul (fadd (at_ (-1) 0) (at_ 1 0)) half32
    else fmul (fadd (at_ 0 (-1)) (at_ 0 1)) half32
  else fmul (fadd (fadd (fadd (at_ (-1) (-1)) (at_ 1 (-1))) (at_ (-1) 1)) (at_ 1 1)) quarter32

/-- Channels of a stream's image (R66, R69, R74). -/
def channels (c : StreamCfg) : Nat := if c.kind ≠ 2 ∧ c.dt ≠ 0x1E ∧ c.dt ≠ 0x24 ∧ c.bayer = 4 then 1 else 3

/-- The channels x0, x1, x2 of pixel (x, y): rows are read by g as integers in stored order; PRESUMED: that order is U Y V Y for YUV422 and
B, G, R for RGB888, as MIPI CSI-2 sends them (R57, R66, R67; log 98). -/
def pixelOf (c : StreamCfg) (w h : Nat) (g : Nat → Nat → Nat) (x y : Nat) : List F32 :=
  if c.dt = 0x1E then
    let o := x / 2 * 4
    [f32OfNat (g (o + 1 + 2 * (x % 2)) y), f32OfNat (g o y), f32OfNat (g (o + 2) y)]
  else if c.dt = 0x24 then [f32OfNat (g (3 * x + 2) y), f32OfNat (g (3 * x + 1) y), f32OfNat (g (3 * x) y)]
  else if c.bayer = 4 then [f32OfNat (g x y)]
  else [demosaic c.bayer w h g 0 x y, demosaic c.bayer w h g 1 x y, demosaic c.bayer w h g 2 x y]

/-! ### Regions (R68, R70) -/

/-- A region of a sample: its aligned, clipped input rectangle, its decimation, where its output starts, the pixels of an output
row's pitch, and the output extent it is cropped to. -/
structure Region where
  x0 : Nat
  x1 : Nat
  y0 : Nat
  y1 : Nat
  d : Nat
  off : Nat
  pitch : Nat
  maxW : Nat
  maxH : Nat
deriving DecidableEq, Repr

/-- Output extent of a region before cropping (R68). -/
def Region.outW (r : Region) : Nat := cdiv (r.x1 - r.x0) r.d
def Region.outH (r : Region) : Nat := cdiv (r.y1 - r.y0) r.d
/-- A rectangle that is empty after clipping (R68). -/
def Region.empty (r : Region) : Bool := decide (r.x1 ≤ r.x0) || decide (r.y1 ≤ r.y0)

/-- Align and clip a rectangle to a w by h image (R68). -/
def alignRect (x0 x1 y0 y1 d w h off pitch maxW maxH : Nat) : Region :=
  let m := max 2 d
  ⟨x0 / m * m, min (cdiv x1 m * m) w, y0 / m * m, min (cdiv y1 m * m) h, d, off, pitch, maxW, maxH⟩

/-- A ROI table entry: X0, Y0, X1, Y1 and the decimation, none when not VALID (R76). -/
def roiEntry (t : Tab Word32) (i : Nat) : Option (Nat × Nat × Nat × Nat × Nat) :=
  let a := (tget 0 t (4 * i)).toNat
  let b := (tget 0 t (4 * i + 1)).toNat
  let c := (tget 0 t (4 * i + 2)).toNat
  let x0 := a % 65536
  let y0 := a / 65536
  let x1 := b % 65536
  let y1 := b / 65536
  if bit c 8 && decide (c % 256 < 4) && decide (x0 < x1) && decide (y0 < y1) then some (x0, y0, x1, y1, 2 ^ (c % 256)) else none

/-- Size of an output element (R69). -/
def outSize (c : StreamCfg) : Nat := fmtBytes c.outFmt

/-- The background region over a w by h image (R70, R79); its pitch is the configured image's. -/
def background (c : StreamCfg) (w h : Nat) : Region :=
  let d := 2 ^ c.bgDecim
  ⟨0, w, 0, h, d, c.bgOff, cdiv c.width d, cdiv c.width d, cdiv c.height d⟩

/-- ROI i's region (R70), for a valid entry. -/
def roiRegion (c : StreamCfg) (w h : Nat) (t : Tab Word32) (i : Nat) : Option Region :=
  (roiEntry t i).map (fun (x0, y0, x1, y1, d) =>
    alignRect x0 x1 y0 y1 d w h (c.roiOff + i * c.slotStride) c.slotW c.slotW c.slotH)

/-- The frame produces a background (R79). -/
def Sample.hasBg (x : Sample) (c : StreamCfg) : Bool := x.fullFrame || c.bgMode = 0

/-- The ROI regions of a sample with their slot numbers; none under the full-frame rule (R70, R79). -/
def Sample.roiRegions (x : Sample) (c : StreamCfg) (w h : Nat) : List (Nat × Region) :=
  if x.fullFrame then []
  else (List.range 32).filterMap (fun i => (roiRegion c w h x.rois i).map (fun r => (i, r)))

/-! ### Colour, normalisation, conversion (R66, R69, R71) -/

/-- Coefficient i of the stream: MATRIX 0 to 8, OFFSET 9, MEAN 12, SCALE 15, PAD 18 (R87). -/
def StreamCfg.co (c : StreamCfg) (i : Nat) : F32 := c.coef.getD i 0

/-- Colour and normalisation of one pixel (R66). -/
def colour (c : StreamCfg) (x : List F32) : List F32 :=
  match x with
  | [x0] => [fmul (fsub (fadd (fmul (c.co 0) x0) (c.co 9)) (c.co 12)) (c.co 15)]
  | x =>
    let x0 := x.getD 0 0
    let x1 := x.getD 1 0
    let x2 := x.getD 2 0
    (List.range 3).map (fun i =>
      fmul (fsub (fadd (fadd (fadd (fmul (c.co (3 * i)) x0) (fmul (c.co (3 * i + 1)) x1)) (fmul (c.co (3 * i + 2)) x2))
        (c.co (9 + i))) (c.co (12 + i))) (c.co (15 + i)))

/-- A pixel's bytes: converted channels and zeros up to CPAD (R69). -/
def pixelBytes (c : StreamCfg) (ch : List F32) : List Byte :=
  ch.flatMap (fun x => toLe (outSize c) (encodeFmt c.outFmt .nearest (dec32 x))) ++
    List.replicate ((c.cpad - ch.length) * outSize c) 0

/-- The normalised pad pixel (R71). -/
def padPixel (c : StreamCfg) : List Byte :=
  pixelBytes c ((List.range (channels c)).map (fun i => fmul (fsub (c.co (18 + i)) (c.co (12 + i))) (c.co (15 + i))))

/-- 1/n rounded to nearest even in FP32. -/
def rcpNat (n : Nat) : F32 := rne32 (.fin false (2 ^ 80 / n * 2 + b2n (2 ^ 80 % n ≠ 0)) (-81))

/-- The block mean of channel i over a block (R68). -/
def blockMean (px : List (List F32)) (i : Nat) : F32 :=
  match px.map (fun p => p.getD i 0) with
  | [] => 0
  | v :: vs => fmul (vs.foldl fadd v) (rcpNat (vs.length + 1))

/-- Output pixel (ox, oy) of a region, its input pixels read by px (R66, R68). -/
def outPixel (c : StreamCfg) (r : Region) (px : Nat → Nat → List F32) (ox oy : Nat) : List Byte :=
  let xs := (List.range r.d).map (fun i => r.x0 + ox * r.d + i) |>.filter (fun x => decide (x < r.x1))
  let ys := (List.range r.d).map (fun i => r.y0 + oy * r.d + i) |>.filter (fun y => decide (y < r.y1))
  let block := ys.flatMap (fun y => xs.map (fun x => px x y))
  pixelBytes c (colour c ((List.range (channels c)).map (blockMean block)))

/-- The output rows of a region that a band of 16 input rows gives, cropped: address offset and bytes (R64, R70). -/
def bandRows (c : StreamCfg) (r : Region) (px : Nat → Nat → List F32) (lo hi : Nat) : List (Nat × List Byte) :=
  (List.range (min r.outH r.maxH)).filterMap (fun oy =>
    let y := r.y0 + oy * r.d
    if lo ≤ y ∧ y < hi then
      some (r.off + oy * r.pitch * c.cpad * outSize c,
        (List.range (min r.outW r.maxW)).flatMap (fun ox => outPixel c r px ox oy))
    else none)

/-- The rest of a region's output extent, written with pad: columns beyond each row, and rows beyond the last (R70, R75). -/
def padRest (c : StreamCfg) (r : Region) : List (Nat × List Byte) :=
  let w := min r.outW r.maxW
  let h := min r.outH r.maxH
  let e := c.cpad * outSize c
  (List.range r.maxH).filterMap (fun oy =>
    let from_ := if oy < h then w else 0
    if from_ < r.maxW then
      some (r.off + (oy * r.pitch + from_) * e, (List.range (r.maxW - from_)).flatMap (fun _ => padPixel c))
    else none)

/-- A whole region's extent in pad (R73). -/
def padAll (c : StreamCfg) (r : Region) : List (Nat × List Byte) := padRest c { r with x1 := r.x0, y1 := r.y0 }

end Sys2Proof.Machine
end

