-- ==== Sys2Proof/Machine/Jpeg.lean ====
section
/-! DEFINITION. The JPEG decoder: markers, tables, Huffman codes, dequantisation, the inverse transform and chroma repetition (R74, R75;
ISO/IEC 10918-1). How the inverse transform rounds is free (log 17). -/

namespace Sys2Proof.Machine

/-- A Huffman table: the number of codes of each length 1 to 16, and the symbols in code order. -/
structure Huff where
  counts : List Nat
  syms : List Nat
deriving DecidableEq, Repr

/-- A component of the frame: identifier, sampling factors and quantisation table. -/
structure JComp where
  id : Nat
  h : Nat
  v : Nat
  tq : Nat
deriving DecidableEq, Repr

/-- A block's coefficients that are not 0 by zig-zag index. -/
abbrev JBlock := List (Nat × Int)

/-- A component's blocks in a scan: its sampling factors, whether the scan interleaved it, the MCUs in a row, and its dequantised blocks in
the order they came. -/
structure JPlane where
  id : Nat
  h : Nat
  v : Nat
  inter : Bool
  perRow : Nat
  blocks : List JBlock
deriving DecidableEq, Repr

/-- A component within a scan: its blocks in an MCU, its tables, the DC value predicted next, and its blocks so far, newest first. -/
structure JPart where
  comp : JComp
  n : Nat
  dc : Huff
  ac : Huff
  quant : List Nat
  pred : Int := 0
  blocks : List JBlock := []
deriving DecidableEq, Repr

/-- What the segments so far have set up; quantisation tables by identifier, and the components decoded. -/
structure JpegSt where
  w : Nat := 0
  h : Nat := 0
  comps : List JComp := []
  quants : List (Nat × List Nat) := []
  dc : List (Nat × Huff) := []
  ac : List (Nat × Huff) := []
  restart : Nat := 0
  planes : List JPlane := []
deriving DecidableEq, Repr

/-- Entropy-coded data: bytes left, the current byte and its bits left. -/
structure BitSrc where
  rest : List Byte
  cur : Nat := 0
  n : Nat := 0
deriving DecidableEq, Repr

/-! REASON codes of R55. -/
def jSize : Nat := 7
def jShort : Nat := 8
def jBad : Nat := 9
def jUnsupported : Nat := 10

/-- The next bit; a marker in the data is the end of it for EOI and an error otherwise (R74, R75). -/
def nextBit (b : BitSrc) : Except Nat (Nat × BitSrc) :=
  if b.n ≠ 0 then .ok (b.cur / 2 ^ (b.n - 1) % 2, { b with n := b.n - 1 })
  else match b.rest with
    | [] => .error jShort
    | 0xFF#8 :: 0#8 :: t => .ok (1, ⟨t, 255, 7⟩)
    | 0xFF#8 :: m :: _ => .error (if m = 0xD9 then jShort else jBad)
    | [0xFF#8] => .error jShort
    | x :: t => .ok (x.toNat / 128, ⟨t, x.toNat, 7⟩)

/-- n bits, the first most significant. -/
def takeBits : Nat → Nat → BitSrc → Except Nat (Nat × BitSrc)
  | 0, a, b => .ok (a, b)
  | n + 1, a, b => match nextBit b with
    | .ok (x, b) => takeBits n (2 * a + x) b
    | .error e => .error e

/-- Decode one symbol; counts are those of the lengths still to try. -/
def huffSym (syms : List Nat) : List Nat → Nat → Nat → Nat → BitSrc → Except Nat (Nat × BitSrc)
  | [], _, _, _, _ => .error jBad
  | c :: cs, code, first, idx, b => match nextBit b with
    | .error e => .error e
    | .ok (x, b) =>
      let code := code + x
      if code < first + c then .ok (syms.getD (idx + (code - first)) 0, b)
      else huffSym syms cs (2 * code) (2 * (first + c)) (idx + c) b

/-- The value that t further bits v stand for: the lower half of their range is negative. -/
def jExtend (t v : Nat) : Int := if v < 2 ^ (t - 1) then (v : Int) - (2 ^ t - 1 : Nat) else v

/-- The AC coefficients of a block from index k on. -/
def acBlock (h : Huff) : Nat → Nat → BitSrc → Except Nat (JBlock × BitSrc)
  | 0, _, b => .ok ([], b)
  | fuel + 1, k, b =>
    if 64 ≤ k then .ok ([], b) else
    match huffSym h.syms h.counts 0 0 0 b with
    | .error e => .error e
    | .ok (rs, b) =>
      let r := rs / 16
      let s := rs % 16
      if s = 0 then (if r = 15 then (if 63 < k + 15 then .error jBad else acBlock h fuel (k + 16) b)
        else if r = 0 then .ok ([], b) else .error jBad)
      else if 10 < s ∨ 63 < k + r then .error jBad
      else match takeBits s 0 b with
        | .error e => .error e
        | .ok (v, b) => match acBlock h fuel (k + r + 1) b with
          | .error e => .error e
          | .ok (t, b) => .ok ((k + r, jExtend s v) :: t, b)

/-- Coefficients times their quantisation steps. -/
def dequant (q : List Nat) (l : JBlock) : JBlock := l.map (fun x => (x.1, x.2 * (q.getD x.1 0 : Nat)))

/-- One block of a component: its DC value from the one predicted and the difference, then its AC coefficients. -/
def jBlock (x : JPart) (b : BitSrc) : Except Nat (JPart × BitSrc) :=
  match huffSym x.dc.syms x.dc.counts 0 0 0 b with
  | .error e => .error e
  | .ok (t, b) =>
    if 11 < t then .error jBad
    else match takeBits t 0 b with
      | .error e => .error e
      | .ok (v, b) => match acBlock x.ac 64 1 b with
        | .error e => .error e
        | .ok (l, b) =>
          let d := x.pred + if t = 0 then 0 else jExtend t v
          .ok ({ x with pred := d, blocks := dequant x.quant ((0, d) :: l) :: x.blocks }, b)

/-- n blocks of one component. -/
def jBlocks : Nat → JPart → BitSrc → Except Nat (JPart × BitSrc)
  | 0, x, b => .ok (x, b)
  | n + 1, x, b => match jBlock x b with
    | .error e => .error e
    | .ok (x, b) => jBlocks n x b

/-- One MCU: each scan component's blocks in turn. -/
def jMcu : List JPart → BitSrc → Except Nat (List JPart × BitSrc)
  | [], b => .ok ([], b)
  | x :: t, b => match jBlocks x.n x b with
    | .error e => .error e
    | .ok (x, b) => match jMcu t b with
      | .error e => .error e
      | .ok (t, b) => .ok (x :: t, b)

/-- A restart marker of number i at a byte boundary. -/
def jRestart (i : Nat) (b : BitSrc) : Except Nat BitSrc :=
  match b.rest with
  | 0xFF#8 :: m :: t => if m.toNat = 0xD0 + i % 8 then .ok ⟨t, 0, 0⟩ else if m = 0xD9 then .error jShort else .error jBad
  | [] => .error jShort
  | [_] => .error jShort
  | _ => .error jBad

/-- The MCUs of a scan, k of them decoded so far; a restart marker also resets the DC predictions. -/
def jMcus (restart : Nat) : Nat → Nat → List JPart → BitSrc → Except Nat (List JPart × BitSrc)
  | 0, _, parts, b => .ok (parts, b)
  | n + 1, k, parts, b =>
    let stop := restart ≠ 0 ∧ k ≠ 0 ∧ k % restart = 0
    match (if stop then jRestart (k / restart - 1) b else .ok b) with
    | .error e => .error e
    | .ok b => match jMcu (if stop then parts.map (fun x => { x with pred := 0 }) else parts) b with
      | .error e => .error e
      | .ok (parts, b) => jMcus restart n (k + 1) parts b

/-- The tables of a DHT segment. -/
def jDht : Nat → List Byte → JpegSt → Except Nat JpegSt
  | 0, _, s => .ok s
  | fuel + 1, d, s =>
    if d = [] then .ok s else
    let tc := field d 0 1 / 16
    let th := field d 0 1 % 16
    let counts := ((slice d 1 16).map (fun b => b.toNat))
    let n := counts.foldl (· + ·) 0
    if 1 < tc ∨ 1 < th ∨ d.length < 17 + n ∨ 256 < n then .error jBad
    else
      let h : Huff := ⟨counts, (slice d 17 n).map (fun b => b.toNat)⟩
      let s := if tc = 0 then { s with dc := (th, h) :: s.dc } else { s with ac := (th, h) :: s.ac }
      jDht fuel (d.drop (17 + n)) s

/-- The tables of a DQT segment: 8-bit tables only in the baseline process. -/
def jDqt : Nat → List Byte → JpegSt → Except Nat JpegSt
  | 0, _, s => .ok s
  | fuel + 1, d, s =>
    if d = [] then .ok s
    else if field d 0 1 / 16 ≠ 0 ∨ 3 < field d 0 1 % 16 ∨ d.length < 65 then .error jBad
    else jDqt fuel (d.drop 65) { s with quants := (field d 0 1 % 16, (slice d 1 64).map (fun b => b.toNat)) :: s.quants }

/-- The frame header of the baseline process: size, then components and their sampling (R74, R75). -/
def jSof (maxW maxH : Nat) (d : List Byte) (s : JpegSt) : Except Nat JpegSt :=
  let be := fun o => field d o 1 * 256 + field d (o + 1) 1
  let h := be 1
  let w := be 3
  let n := field d 5 1
  if !s.comps.isEmpty ∨ d.length < 6 then .error jBad
  else if field d 0 1 ≠ 8 then .error jUnsupported
  else if w = 0 ∨ h = 0 ∨ maxW < w ∨ maxH < h then .error jSize
  else if d.length < 6 + 3 * n then .error jBad
  else
    let cs : List JComp := (List.range n).map (fun i =>
      ⟨field d (6 + 3 * i) 1, field d (7 + 3 * i) 1 / 16, field d (7 + 3 * i) 1 % 16, field d (8 + 3 * i) 1⟩)
    let samp := cs.map (fun c => (c.h, c.v))
    let ok := n = 1 || samp = [(1, 1), (1, 1), (1, 1)] || samp = [(2, 1), (1, 1), (1, 1)] || samp = [(2, 2), (1, 1), (1, 1)]
    if ok then .ok { s with w := w, h := h, comps := cs } else .error jUnsupported

/-- One scan: its components' tables are looked up, and its MCUs decoded. -/
def jScan (d : List Byte) (data : List Byte) (s : JpegSt) : Except Nat (JpegSt × List Byte) :=
  let n := field d 0 1
  if s.comps.isEmpty ∨ n = 0 ∨ 4 < n ∨ d.length < 1 + 2 * n then .error jBad
  else
    let sel := (List.range n).map (fun i => (field d (1 + 2 * i) 1, field d (2 + 2 * i) 1))
    let parts : List JPart := sel.filterMap (fun x =>
      match s.comps.find? (fun c => c.id = x.1), s.dc.find? (fun t => t.1 = x.2 / 16), s.ac.find? (fun t => t.1 = x.2 % 16) with
      | some c, some dc, some ac => (s.quants.find? (fun t => t.1 = c.tq)).map (fun q =>
        { comp := c, n := if n = 1 then 1 else c.h * c.v, dc := dc.2, ac := ac.2, quant := q.2 })
      | _, _, _ => none)
    if parts.length ≠ n then .error jBad
    else
      let hm := s.comps.foldl (fun a c => max a c.h) 1
      let vm := s.comps.foldl (fun a c => max a c.v) 1
      let size := match parts with
        | [x] => (cdiv (cdiv (s.w * x.comp.h) hm) 8, cdiv (cdiv (s.h * x.comp.v) vm) 8)
        | _ => (cdiv s.w (8 * hm), cdiv s.h (8 * vm))
      match jMcus s.restart (size.1 * size.2) 0 parts ⟨data, 0, 0⟩ with
      | .error e => .error e
      | .ok (parts, b) =>
        let planes := parts.map (fun x => (⟨x.comp.id, x.comp.h, x.comp.v, decide (n ≠ 1), size.1, x.blocks.reverse⟩ : JPlane))
        .ok ({ s with planes := planes ++ s.planes }, b.rest)

/-- The segments of the image, until every component's MCUs are decoded (R74, R75): the declared size, or a REASON. -/
def jSegments (maxW maxH : Nat) : Nat → List Byte → JpegSt → Except Nat JpegSt
  | 0, _, _ => .error jShort
  | fuel + 1, d, s =>
    if !s.comps.isEmpty && s.comps.all (fun c => s.planes.any (fun x => x.id = c.id)) then .ok s else
    match d with
    | 0xFF#8 :: 0xFF#8 :: t => jSegments maxW maxH fuel (0xFF#8 :: t) s
    | 0xFF#8 :: m :: t =>
      let mk := m.toNat
      let len := field t 0 1 * 256 + field t 1 1
      if mk = 0xD9 then .error jShort
      else if mk < 0xC0 ∨ (0xD0 ≤ mk ∧ mk ≤ 0xD8) then .error jBad
      else if t.length < 2 ∨ t.length < len then .error jShort
      else if len < 2 then .error jBad
      else
        let body := (t.drop 2).take (len - 2)
        let rest := t.drop len
        let go : Except Nat JpegSt → Except Nat JpegSt := fun r => match r with
          | .ok s => jSegments maxW maxH fuel rest s
          | .error e => .error e
        if mk = 0xC4 then go (jDht (body.length + 1) body s)
        else if mk = 0xC0 then go (jSof maxW maxH body s)
        else if mk < 0xD0 then .error jUnsupported
        else if mk = 0xDB then go (jDqt (body.length + 1) body s)
        else if mk = 0xDD then go (if body.length < 2 then .error jBad else .ok { s with restart := field body 0 1 * 256 + field body 1 1 })
        else if mk = 0xDA then match jScan body rest s with
          | .ok (s, rest) => jSegments maxW maxH fuel rest s
          | .error e => .error e
        else if mk = 0xDC then .error jBad
        else if mk = 0xDE ∨ mk = 0xDF then .error jUnsupported
        else go (.ok s)
    | [] => .error jShort
    | [_] => .error jShort
    | _ => .error jBad

/-- A JPEG sample judged: the decoded image, or the REASON it is corrupt (R55, R74, R75). -/
def jpegCheck (maxW maxH : Nat) (d : List Byte) : Except Nat JpegSt :=
  match d with
  | 0xFF#8 :: 0xD8#8 :: t => jSegments maxW maxH (t.length + 1) t {}
  | [] => .error jShort
  | [_] => .error jShort
  | _ => .error jBad

/-! ### Pixels (R74) -/

/-- Row and column of the coefficients in zig-zag order: diagonal by diagonal, the even ones upwards. -/
def zigzag : List (Nat × Nat) :=
  (List.range 15).flatMap (fun d =>
    let l := (List.range 8).filterMap (fun i => if i ≤ d ∧ d < i + 8 then some (i, d - i) else none)
    if d % 2 = 0 then l.reverse else l)

/-- cos (m π / 16) in units of 2^-30. -/
def cos16 (m : Nat) : Int :=
  let t : Nat → Int := fun i => [1073741824, 1053110176, 992008094, 892783698, 759250125, 596538995, 410903207, 209476638].getD i 0
  let k := m % 32
  if k ≤ 8 then t k else if k ≤ 16 then -t (16 - k) else if k ≤ 24 then -t (k - 16) else t (32 - k)

/-- The basis function of frequency u at x, with its factor for u = 0. -/
def idctBasis (u x : Nat) : Int := cos16 (if u = 0 then 4 else (2 * x + 1) * u)

/-- Sample (x, y) of a block: the inverse transform, the level shift and the range of 8 bits; the transform is exact to a free error of at
most 1 (R74; log 17). -/
def idctSample (l : JBlock) (x y : Nat) : Nat :=
  let n := l.foldl (fun a e => let p := zigzag.getD e.1 (0, 0); a + e.2 * idctBasis p.2 x * idctBasis p.1 y) 0
  let v := 128 + (n + 2 ^ 61) / 2 ^ 62 + (Config.jpegError l x y).val - 1
  (max 0 (min 255 v)).toNat

/-- Sample (x, y) of a component. -/
def JPlane.sample (p : JPlane) (x y : Nat) : Nat :=
  let bx := x / 8
  let by_ := y / 8
  let i := if p.inter then (by_ / p.v * p.perRow + bx / p.h) * (p.h * p.v) + by_ % p.v * p.h + bx % p.h else by_ * p.perRow + bx
  idctSample (p.blocks.getD i []) (x % 8) (y % 8)

/-- Pixel (x, y) of a decoded image: Y, and U and V where there are three components, repeated over the pixels they cover, else 128 (R74). -/
def jpegPixelAt (s : JpegSt) (x y : Nat) : List F32 :=
  let hm := s.comps.foldl (fun a c => max a c.h) 1
  let vm := s.comps.foldl (fun a c => max a c.v) 1
  let px : JComp → F32 := fun c => match s.planes.find? (fun p => p.id = c.id) with
    | some p => f32OfNat (if s.comps.length = 1 then p.sample x y else p.sample (x * c.h / hm) (y * c.v / vm))
    | none => f32OfNat 128
  match s.comps with
  | [c] => [px c, f32OfNat 128, f32OfNat 128]
  | l => l.map px

end Sys2Proof.Machine
end

