-- ==== Sys2Proof/Machine/Samples.lean ====
section
/-! DEFINITION. Samples of a frame: settling, corruption, status, batch records, PREP jobs (R52 to R55, R63, R64, R70 to R73, R81 to R85). -/

namespace Sys2Proof.Machine

/-! ### Samples -/

def State.sample (s : State) (p st : Nat) (k : Word32) : Option Sample :=
  s.loop.samples.find? (fun x => x.pipe = p && x.stream = st && x.frame = k)

def State.modSample (p st : Nat) (k : Word32) (g : Sample → Sample) (s : State) : State :=
  { s with loop := { s.loop with samples := s.loop.samples.map (fun x => if x.pipe = p && x.stream = st && x.frame = k then g x else x) } }

/-- The samples of a frame. -/
def State.frameSamples (s : State) (p : Nat) (k : Word32) : List Sample :=
  s.loop.samples.filter (fun x => x.pipe = p && x.frame = k)

/-- Add a sample of one frame. -/
def addSample (x : Sample) (s : State) : State := { s with loop := { s.loop with samples := s.loop.samples ++ [x] } }

/-- Record of a stream in a blob. -/
def PipeBlob.cfg (b : PipeBlob) (st : Nat) : Option StreamCfg := b.streams.find? (fun c => c.stream = st)

/-- The input slot of frame k (R53). -/
def inSlot (c : StreamCfg) (k : Word32) : Nat := c.inBase + k.toNat % (max 1 c.inSlots) * c.inSlotSize

/-- The output region of frame k (R70). -/
def outRegion (c : StreamCfg) (k : Word32) : Nat := c.outBase + k.toNat % (max 1 c.outCount) * c.outFrameStride

/-- Bands of a sample (R64, R73). -/
def bandCount (c : StreamCfg) : Nat := cdiv c.height 16

/-! ### Output writes (R55, R70) -/

/-- PREP's lowest unit of a mask. -/
def firstUnit (mask : Nat) : Nat := ((List.range 8).find? (fun u => bit mask u)).getD 0

/-- The Frond and the banks that the descriptor of a run of n output bytes at a claims: of OUT_H's rows and of the run (R70, R445). -/
def State.prepClaims (s : State) (c : StreamCfg) (a n : Nat) : Nat × List Nat :=
  match targetOf a with
  | .frond f o => (f, (s.frond f).dmaBanks c.outH [(o, n)])
  | _ => (0, [])

/-- One run of output bytes: to main memory under the unit's initiator, to a Frond store by the stream's DMA channel, whose descriptor
holds its claims to its end and is BAD at the first error response (R70, R445, R448; log 54). -/
def prepWrite (u cls : Nat) (c : StreamCfg) (a : Nat) (d : List Byte) (s : State) : Bool × State :=
  if c.outDest = 0 then
    let r := writeStop (0xA1 + u) cls a (clean d) s
    (r.1.isNone, r.2)
  else
    let k := s.prepClaims c a d.length
    let r := writeStop (dmaInit c.dmaCh) cls a (clean d) (addClaims k.1 k.2 (ownDescriptors c.dmaCh s))
    let s := dropClaims k.1 k.2 r.2
    match r.1 with
    | none => (true, s)
    | some e => (false, ownFault 0x0C02 c.dmaCh e 0 (State.modDma c.dmaCh (fun x => { x with bad := satInc x.bad }) s))

/-- A list of output runs, offset and bytes; stops at the first that fails. -/
def prepWrites (u cls : Nat) (c : StreamCfg) (base : Nat) : List (Nat × List Byte) → State → Bool × State
  | [], s => (true, s)
  | (o, d) :: t, s =>
    let r := prepWrite u cls c (base + o) d s
    if r.1 then prepWrites u cls c base t r.2 else r

/-- A list of output runs, each of them made whatever becomes of the others; whether all were acknowledged (R73). -/
def prepWritesAll (u cls : Nat) (c : StreamCfg) (base : Nat) : List (Nat × List Byte) → State → Bool × State
  | [], s => (true, s)
  | (o, d) :: t, s =>
    let r := prepWrite u cls c (base + o) d s
    let rest := prepWritesAll u cls c base t r.2
    (r.1 && rest.1, rest.2)

/-! ### Batch records (R82 to R85) -/

/-- A record goes to the ring under 0xA0, and RING_SYNC advances (R85, R90). -/
def ringWrite (p : Nat) (b : PipeBlob) (d : List Byte) (s : State) : State :=
  let n := (s.pipe p).ringWritten
  let s := (writeAll 0xA0 b.cls (b.ringBase + n.toNat % (max 1 b.ringCount) * 64) (clean (slice d 0 64)) s).2
  let s := State.modPipe p (fun r => { r with ringWritten := r.ringWritten + 1 }) s
  s.setGsync b.ringSync (s.gsync b.ringSync + 1)

/-- SEQ of sample index i of frame k (R82). -/
def sampleSeq (b : PipeBlob) (k : Word32) (i : Nat) : Nat := (k.toNat * b.streams.length + i) % 2 ^ 32

/-- A streaming record: sample or tombstone (R84, R85). -/
def streamRecord (s : State) (p : Nat) (b : PipeBlob) (k : Word32) (i : Nat) (x : Sample) : List Byte :=
  toLe 4 k.toNat ++ toLe 1 p ++ [1, if x.reason = 0 then 0 else 1] ++ toLe 1 x.stream ++ toLe 4 x.reason.toNat ++
    toLe 4 (sampleSeq b k i) ++ List.replicate 32 0 ++ toLe 8 s.gctl.time.toNat ++ List.replicate 8 0

/-- A fixed-mode record of batch j (R83, R85). -/
def batchRecord (s : State) (p : Nat) (b : PipeBlob) (k : Word32) (j : Nat) (xs : List Sample) : List Byte :=
  let valid := (List.range xs.length).foldl (fun a i => match xs[i]? with
    | some x => if x.reason = 0 then a + 2 ^ i else a
    | none => a) 0
  toLe 4 k.toNat ++ toLe 1 p ++ [0] ++ toLe 1 j ++ toLe 1 b.batch ++ toLe 4 valid ++ toLe 4 (sampleSeq b k (j * b.batch)) ++
    slice (xs.map (fun x => x.reason)) 0 32 ++ toLe 8 s.gctl.time.toNat ++ List.replicate 8 0

/-- A sample its records may tell of: written, or corrupt (R83). -/
def Sample.concluded (x : Sample) : Bool := x.finished || decide (x.reason ≠ 0)

/-- A sample is written or corrupt: its record, once, or its batch's once all of the batch are (R83, R84). -/
def recordSample (p st : Nat) (k : Word32) (s : State) : State :=
  match (s.pipe p).blob, s.sample p st k with
  | some b, some x =>
    if x.recorded then s else
    let i := (b.streams.findIdx? (fun c => c.stream = st)).getD 0
    if b.streaming then
      ringWrite p b (streamRecord s p b k i x) (State.modSample p st k (fun y => { y with recorded := true }) s)
    else
      let bs := max 1 b.batch
      let j := i / bs
      let xs := ((b.streams.drop (j * bs)).take bs).filterMap (fun c => s.sample p c.stream k)
      if xs.length = ((b.streams.drop (j * bs)).take bs).length && xs.all Sample.concluded then
        ringWrite p b (batchRecord s p b k j xs) (xs.foldl (fun t y => State.modSample p y.stream k (fun z => { z with recorded := true }) t) s)
      else s
  | _, _ => s

/-! ### Stages INGEST and PREP (R16) -/

/-- INGEST completes once every sample is settled and the edge has fired; PREP once every sample's outputs are written (R16). -/
def sampleStages (p : Nat) (k : Word32) (s : State) : State :=
  let xs := s.frameSamples p k
  let n := match (s.pipe p).blob with | some b => b.streams.length | none => 0
  if xs.length ≠ n ∨ !xs.all (fun x => x.edged && x.settled) then s
  else
    let s := stageComplete p k 0 s
    if xs.all (fun x => x.finished) then stageComplete p k 1 s else s

/-! ### Finishing a sample (R72, R73) -/

/-- The 32-byte sample status (R72). -/
def statusBytes (s : State) (k : Word32) (x : Sample) (c : StreamCfg) : List Byte :=
  let valid := x.reason = 0
  toLe 4 k.toNat ++ toLe 1 x.stream ++ [x.reason, x.age] ++
    toLe 1 (b2n valid + 2 * b2n (x.hasBg c && !x.bgLost) + 4 * b2n x.fullFrame) ++ toLe 4 x.roiValid.toNat ++ List.replicate 4 0 ++
    toLe 8 s.gctl.time.toNat ++ List.replicate 8 0

/-- Units working on a sample are free again. -/
def freeUnits (p st : Nat) (k : Word32) (s : State) : State :=
  forUpTo 8 (fun u t =>
    let r := t.prep u
    if r.busy && r.pipe.toNat = p && r.stream.toNat = st && r.frame = k then State.modPrep u (fun r => { r with busy := false, jpeg := false }) t else t) s

/-- The counter of a stream's bands rises to a count within the sample (R73). -/
def signalBands (p st : Nat) (k : Word32) (c : StreamCfg) (n : Nat) (s : State) : State :=
  match s.sample p st k with
  | none => s
  | some x =>
    if n ≤ x.signalled then s
    else
      let s := State.modSample p st k (fun y => { y with signalled := n }) s
      s.setGsync c.bandSync (s.gsync c.bandSync + BitVec.ofNat 32 (n - x.signalled))

/-! ### Corruption and the last steps of a sample (R55, R72, R73) -/

/-- The first reason found: the record 0x0400 + REASON, the stream's counters, CORRUPT; LAST_REASON is of the sample settled last (R55, R91, R92). -/
def noteCorrupt (p st : Nat) (k : Word32) (reason : Nat) (s : State) : State :=
  let r := BitVec.ofNat 8 reason
  let s := State.modSample p st k (fun y => { y with reason := r }) s
  let s := State.modStream st (fun x => { x with
    corrupt := satInc x.corrupt, lastReason := if x.lastFrame = some k then r else x.lastReason }) s
  let s := State.modLedger p k (fun l => if l.isOpen && l.frame = k then { l with corrupt := satInc l.corrupt } else l) s
  reportFrame (BitVec.ofNat 16 (0x400 + reason)) p k false 0 s

/-- A corrupt sample's outputs: jobs stopped, pad over the background and every ROI slot the table assigns, ROI_VALID clear, the counter
at its full count; a refused write keeps none of the others back (R73). -/
def padSample (u p : Nat) (b : PipeBlob) (c : StreamCfg) (k : Word32) (s : State) : State :=
  match s.sample p c.stream k with
  | none => s
  | some x =>
    let s := State.modSample p c.stream k (fun y => { y with roiValid := 0 }) (freeUnits p c.stream k s)
    let bg := prepWritesAll u b.cls c (outRegion c k) (if x.hasBg c then padAll c (background c c.width c.height) else []) s
    let rois := (x.roiRegions c c.width c.height).flatMap (fun r => padAll c r.2)
    let s := (prepWritesAll u b.cls c (outRegion c k) rois (State.modSample p c.stream k (fun y => { y with bgLost := !bg.1 }) bg.2)).2
    signalBands p c.stream k c (bandCount c) s

/-- The sample status, after every other output write; a points sample has none (R62, R72). -/
def writeStatus (u p : Nat) (b : PipeBlob) (c : StreamCfg) (k : Word32) (s : State) : Bool × State :=
  match s.sample p c.stream k with
  | none => (true, s)
  | some x => if c.kind = 1 then (true, s) else prepWrite u b.cls c (outRegion c k) (statusBytes s k x c) s

/-- A sample is at its end: its record and the stages. -/
def endSample (p st : Nat) (k : Word32) (s : State) : State :=
  sampleStages p k (recordSample p st k (State.modSample p st k (fun y => { y with finished := true, jobsOut := [] }) s))

/-- A corrupt sample of an open frame: pad, then the status (R73). -/
def endCorrupt (u p : Nat) (b : PipeBlob) (c : StreamCfg) (k : Word32) (s : State) : State :=
  endSample p c.stream k (writeStatus u p b c k (if c.kind = 1 then s else padSample u p b c k s)).2

/-- The last step of a valid sample: its status, whose refused write makes the sample corrupt like any output write's, then the record (R55, R72). -/
def finishSample (p st : Nat) (k : Word32) (u : Nat) (s : State) : State :=
  match (s.pipe p).blob, s.sample p st k with
  | some b, some _ =>
    match b.cfg st with
    | none => s
    | some c =>
      let w := writeStatus u p b c k s
      if w.1 then endSample p st k w.2 else endCorrupt u p b c k (noteCorrupt p st k 0x0B w.2)
  | _, _ => s

/-- A stream's DMA channel still runs a software list, which the pipeline waits for (R437). -/
def State.awaitsChannel (s : State) (c : StreamCfg) : Bool := c.kind ≠ 1 && c.outDest = 1 && (s.dmac c.dmaCh).owner ≠ 1

/-- A corrupt sample ends as soon as PREP can write for it: its channel may still be another's (R73, R437). -/
def finishCorrupt (p st : Nat) (k : Word32) (s : State) : State :=
  match (s.pipe p).blob, s.sample p st k with
  | some b, some x =>
    match b.cfg st with
    | none => s
    | some c => if x.finished then s else if s.awaitsChannel c then recordSample p st k s else endCorrupt (firstUnit b.prepMask) p b c k s
  | _, _ => s

/-- A pipeline has its channel: the corrupt samples that waited for it end (R73, R437). -/
def resumeCorrupt (p n : Nat) (s : State) : State :=
  match (s.pipe p).blob with
  | none => s
  | some b => s.loop.samples.foldl (fun t x =>
      if x.pipe = p && x.edged && x.reason ≠ 0 && !x.finished && b.streams.any (fun c => c.stream = x.stream && c.dmaCh = n)
      then finishCorrupt p x.stream x.frame t else t) s

/-! ### Settling (R16, R54, R55) -/

/-- What follows a settlement: a corrupt sample is recorded at once, and its outputs wait for the frame's edge (R73, R83, R84). -/
def afterSettle (p st : Nat) (k : Word32) (s : State) : State :=
  match s.sample p st k with
  | none => s
  | some x =>
    if x.finished then sampleStages p k s
    else if !x.edged then sampleStages p k (if x.reason ≠ 0 then recordSample p st k s else s)
    else if x.reason ≠ 0 then sampleStages p k (finishCorrupt p st k s)
    else match (s.pipe p).blob with
      | some b => match b.cfg st with
        | some c => if c.kind = 1 then finishSample p st k 0 s else sampleStages p k s
        | none => s
      | none => s

/-- A sample is settled, with a reason or none (R16, R55). -/
def settle (p st : Nat) (k : Word32) (reason : Nat) (s : State) : State :=
  match s.sample p st k with
  | none => s
  | some x =>
    if x.settled then s
    else
      let s := State.modSample p st k (fun y => { y with settled := true }) s
      let s := State.modStream st (fun r => { r with samples := satInc r.samples, lastReason := 0, lastFrame := some k }) s
      afterSettle p st k (if reason = 0 then s else noteCorrupt p st k reason s)

/-- A sample found corrupt: at once its settlement where it had none, PREP's finding where it had (R55, R73). -/
def corruptSample (p st : Nat) (k : Word32) (reason : Nat) (s : State) : State :=
  match s.sample p st k with
  | none => s
  | some x =>
    if x.reason ≠ 0 || x.finished then s
    else if x.settled then afterSettle p st k (noteCorrupt p st k reason s)
    else settle p st k reason s

/-! ### PREP jobs (R64, R73) -/

/-- The next band of a sample that is ready and not yet given out: rows 0 to 16b + 16 are in memory; a JPEG sample is one job (R64). -/
def readyBand (c : StreamCfg) (x : Sample) : Option Nat :=
  if !x.edged || x.reason ≠ 0 || x.finished || c.kind = 1 then none
  else if c.kind = 2 then (if x.settled && x.jobsOut.isEmpty then some 0 else none)
  else (List.range (bandCount c)).find? (fun b =>
    !x.bandsDone.contains b && !x.jobsOut.any (fun j => j.2 = b) && decide (min (16 * b + 17) c.height ≤ x.lines))

/-- The job of R64's order: oldest frame, then blob order, then band. -/
def State.nextJob (s : State) (p : Nat) : Option (Word32 × StreamCfg × Nat) :=
  match (s.pipe p).blob, (s.pipe p).cur with
  | some b, some cur => ((List.range 64).reverse).findSome? (fun i =>
      let k := cur - BitVec.ofNat 32 i
      b.streams.findSome? (fun c => match s.sample p c.stream k with
        | some x => if s.awaitsChannel c then none else (readyBand c x).map (fun n => (k, c, n))
        | none => none))
  | _, _ => none

/-- The lowest-numbered free unit of the pipeline's mask (R64). -/
def State.freeUnit (s : State) (b : PipeBlob) : Option Nat := (List.range 8).find? (fun u => bit b.prepMask u && !(s.prep u).busy)

/-- PREP_JOB_DISPATCH (R64, R98). -/
def opPrepDispatch (p : Nat) (s : State) : State :=
  match (s.pipe p).blob with
  | none => s
  | some b => match s.freeUnit b, s.nextJob p with
    | some u, some (k, c, n) =>
      let s := State.modPrep u (fun r => { r with busy := true, stream := BitVec.ofNat 6 c.stream, jpeg := c.kind = 2, frame := k, band := n }) s
      State.modSample p c.stream k (fun x => { x with jobsOut := x.jobsOut ++ [(u, n)] }) s
    | _, _ => s

/-- The payloads of a UDP slot's records, in arrival order (R61). -/
def udpPayloads : Nat → List Byte → List Byte
  | 0, _ => []
  | fuel + 1, d =>
    if d.length < 16 then []
    else
      let n := field d 8 4
      slice (d.drop 16) 0 n ++ udpPayloads fuel (d.drop (16 + cdiv n 16 * 16))

/-- Bytes a unit reads from main memory; a refused read leaves them free. -/
def prepRead (u cls a n : Nat) (s : State) : List Byte × State :=
  let r := readAll (0xA1 + u) cls a n s
  match r.1 with
  | some d => (plain d, r.2)
  | none => freeBytes n r.2

/-- The whole data of a sample that is not read line by line. -/
def wholeData (u cls : Nat) (c : StreamCfg) (k : Word32) (x : Sample) (s : State) : List Byte × State :=
  let r := prepRead u cls (inSlot c k) x.bytes s
  (if c.source = 1 then udpPayloads (x.bytes + 1) r.1 else r.1, r.2)

/-- The pixels of band n: a reader of channels by column and row (R66, R67). -/
def bandPixels (u cls : Nat) (c : StreamCfg) (k : Word32) (x : Sample) (n : Nat) (s : State) : (Nat → Nat → List F32) × State :=
  let lb := lineBytes c
  let lo := 16 * n - 1
  let hi := min (16 * n + 17) c.height
  let r := if c.source = 1 then wholeData u cls c k x s else prepRead u cls (inSlot c k + lo * lb) ((hi - lo) * lb) s
  let skip := if c.source = 1 then lo * lb else 0
  let rows := (List.range (hi - lo)).map (fun i => lineInts c (slice r.1 (skip + i * lb) lb))
  (fun x y => pixelOf c c.width c.height (fun i j => (rows.getD (j - lo) []).getD i 0) x y, r.2)

/-- The output runs of a job: the band's rows of every region, and with the first job the pad around them (R64, R70). -/
def jobWrites (c : StreamCfg) (x : Sample) (w h : Nat) (px : Nat → Nat → List F32) (lo hi : Nat) : List (Nat × List Byte) :=
  let regions := (if x.hasBg c then [background c w h] else []) ++ ((x.roiRegions c w h).map Prod.snd).filter (fun r => !r.empty)
  regions.flatMap (fun r => bandRows c r px lo hi ++ (if lo = 0 then padRest c r else []))

/-- ROI slots written with data (R72). -/
def roiValidBits (c : StreamCfg) (x : Sample) (w h : Nat) : Word32 :=
  (x.roiRegions c w h).foldl (fun a r => if r.2.empty then a else a ||| BitVec.ofNat 32 (2 ^ r.1)) 0

/-- How many bands from 0 up are done. -/
def contiguous (done : List Nat) : Nat → Nat → Nat
  | 0, n => n
  | fuel + 1, n => if done.contains n then contiguous done fuel (n + 1) else n

/-- A raw band is processed (R66, R73). -/
def doBand (u p : Nat) (b : PipeBlob) (c : StreamCfg) (k : Word32) (x : Sample) (n : Nat) (s : State) : State :=
  let r := bandPixels u b.cls c k x n s
  let w := prepWrites u b.cls c (outRegion c k) (jobWrites c x c.width c.height r.1 (16 * n) (16 * n + 16)) r.2
  if !w.1 then corruptSample p c.stream k 0x0B w.2
  else
    let done := addNew x.bandsDone n
    let s := State.modSample p c.stream k (fun y => { y with
      bandsDone := done, jobsOut := y.jobsOut.filter (fun j => j.2 ≠ n), roiValid := roiValidBits c x c.width c.height }) w.2
    let cnt := contiguous done (bandCount c) 0
    let s := signalBands p c.stream k c cnt s
    if cnt = bandCount c then finishSample p c.stream k u s else s

/-- A JPEG sample is decoded and processed whole (R74, R75). -/
def doJpeg (u p : Nat) (b : PipeBlob) (c : StreamCfg) (k : Word32) (x : Sample) (s : State) : State :=
  let r := wholeData u b.cls c k x s
  match jpegCheck c.width c.height r.1 with
  | .error reason => corruptSample p c.stream k reason r.2
  | .ok j =>
    let wr := prepWrites u b.cls c (outRegion c k) (jobWrites c x j.w j.h (jpegPixelAt j) 0 j.h) r.2
    if !wr.1 then corruptSample p c.stream k 0x0B wr.2
    else
      let s := State.modSample p c.stream k (fun y => { y with roiValid := roiValidBits c x j.w j.h }) wr.2
      finishSample p c.stream k u (signalBands p c.stream k c (bandCount c) s)

/-- PREP_JOB_DONE: the unit's job ends and the unit is free, STREAM staying as it was (DESIGN CHOICE, log 96); a sample that became corrupt meanwhile gets nothing from it (R73). -/
def opPrepDone (u : Nat) (s : State) : State :=
  let r := s.prep u
  if !r.busy then s
  else
    let s := State.modPrep u (fun r => { r with busy := false, jpeg := false }) s
    let p := r.pipe.toNat
    match (s.pipe p).blob, s.sample p r.stream.toNat r.frame with
    | some b, some x =>
      match b.cfg r.stream.toNat with
      | some c =>
        if x.reason ≠ 0 || x.finished then s
        else if c.kind = 2 then doJpeg u p b c r.frame x s
        else doBand u p b c r.frame x r.band s
      | none => s
    | _, _ => s

/-- PREP_JOB_DISPATCH (R64). -/
def execPrepJobDispatch (p : Pipe) (s : State) := perform (opPrepDispatch p.val) s
/-- PREP_JOB_DONE (R73). -/
def execPrepJobDone (u : PrepUnit) (s : State) := perform (opPrepDone u.val) s

end Sys2Proof.Machine
end

