-- ==== Sys2Proof/Machine/Blob.lean ====
section
/-! DEFINITION. The pipeline configuration blob: its layout and the checks PIPE_CONFIG makes (R81, R86 to R88). -/

namespace Sys2Proof.Machine

/-- The bytes of stream record i of a blob (R86). -/
def blobRecord (d : List Byte) (i : Nat) : List Byte := slice d (64 + 176 * i) 176

/-- A stream record's fields (R87). -/
def parseStream (r : List Byte) : StreamCfg :=
  { stream := field r 0x00 1, source := field r 0x01 1, port := field r 0x02 1, vc := field r 0x03 1, dt := field r 0x04 1,
    comp := field r 0x05 1, pred := field r 0x06 1, kind := field r 0x07 1, bayer := field r 0x08 1, bgMode := field r 0x09 1,
    bgDecim := field r 0x0A 1, maxAge := field r 0x0B 1, width := field r 0x0C 2, height := field r 0x0E 2,
    lead := field r 0x10 4, inSlotSize := field r 0x14 4, inBase := field r 0x18 8, inSlots := field r 0x20 1,
    outFmt := field r 0x21 1, outDest := field r 0x22 1, cpad := field r 0x23 1, dmaCh := field r 0x24 1,
    outCount := field r 0x25 1, bandSync := field r 0x26 2, slotW := field r 0x28 2, slotH := field r 0x2A 2,
    outFrameStride := field r 0x2C 4, outBase := field r 0x30 8, bgOff := field r 0x38 4, roiOff := field r 0x3C 4,
    slotStride := field r 0x40 4, winStart := field r 0x44 4, winLen := field r 0x48 4, outH := field r 0x4C 1,
    coef := (List.range 21).map (fun i => BitVec.ofNat 32 (field r (0x50 + 4 * i) 4)) }

/-- A blob's fields; streaming is BATCH_MODE with the grade default applied (R81, R86). -/
def parseBlob (gradeStream : Bool) (d : List Byte) : PipeBlob :=
  { fclk := field d 0x07 1, prepMask := field d 0x09 1,
    streaming := field d 0x0A 1 = 1 || (field d 0x0A 1 = 0xFF && gradeStream),
    batch := field d 0x0B 1, cls := field d 0x0C 1, ingestDl := field d 0x10 4, ringCount := field d 0x14 2,
    ringSync := field d 0x16 2, ringBase := field d 0x18 8,
    streams := (List.range (field d 0x08 1)).map (fun i => parseStream (blobRecord d i)) }

/-! ### Step 3 (R86, R88) -/

/-- MAGIC, VERSION, LENGTH and CRC. -/
def blobSound (d : List Byte) (len : Nat) : Bool :=
  field d 0 4 = 0x4243504B && field d 4 2 = 1 && field d 0x20 4 = 64 + 176 * field d 8 1 && field d 0x20 4 = len &&
  field d 0x24 4 = crc32 ((d.set 0x24 0).set 0x25 0 |>.set 0x26 0 |>.set 0x27 0)

/-! ### Step 4 (R57 to R59, R61, R62, R69, R74, R86 to R88) -/

/-- Supported CSI-2 data types (R57), and those of them that are raw. -/
def rawDt (dt : Nat) : Bool := [0x2A, 0x2B, 0x2C, 0x2D, 0x2E].contains dt
def knownDt (dt : Nat) : Bool := rawDt dt || dt = 0x1E || dt = 0x24

/-- The raw type a compression scheme decodes to (R58). -/
def compFits (comp dt : Nat) : Bool :=
  match comp with
  | 0 => true
  | 1 => dt = 0x2B
  | 2 => dt = 0x2C
  | 3 => dt = 0x2C
  | _ => false

/-- A field that does not apply is 0 (R87). -/
def zeroUnless (applies : Bool) (l : List Nat) : Bool := applies || l.all (fun x => x = 0)

/-- Source, kind and stream number (R62, R87). -/
def streamKindOk (c : StreamCfg) : Bool :=
  decide (c.stream < 64) && decide (c.source ≤ 2) && ((c.source = 0) == decide (c.stream < 32)) && decide (c.kind ≤ 2) &&
  (c.source ≠ 0 || c.kind = 0)

/-- Fields that do not apply to the SOURCE or KIND are 0 (R87; log 90). -/
def streamZeroOk (r : List Byte) (c : StreamCfg) : Bool :=
  let csi := decide (c.source = 0)
  let img := decide (c.kind ≠ 1)
  let raw := decide (c.kind = 0)
  zeroUnless csi [c.port, c.vc, c.lead] && zeroUnless raw [c.dt, c.comp, c.bayer, c.pred] &&
  zeroUnless img [c.bgMode, c.bgDecim, c.maxAge, c.width, c.height, c.outFmt, c.outDest, c.cpad, c.outCount, c.bandSync, c.slotW,
    c.slotH, c.outFrameStride, c.outBase, c.bgOff, c.roiOff, c.slotStride, c.dmaCh, c.outH] &&
  zeroUnless img (c.coef.map BitVec.toNat) &&
  zeroUnless (c.source = 1) [c.winStart, c.winLen] && field r 0x4D 3 = 0 && leNat (slice r 0xA4 12) = 0

/-- Period-dependent fields of a stream (R88, R412). -/
def streamPeriodOk (c : StreamCfg) (period : Nat) : Bool :=
  (c.source ≠ 0 || decide (c.lead < period)) && (c.source ≠ 1 || decide (c.winStart + c.winLen ≤ period))

/-- Raw-image fields (R57, R58, R66). -/
def rawFieldsOk (c : StreamCfg) : Bool :=
  knownDt c.dt && decide (c.comp ≤ 3) && compFits c.comp c.dt && (c.comp = 0 || c.pred = 1 || c.pred = 2) &&
  decide (c.bayer ≤ 4)

/-- Image fields (R69, R75, R87). -/
def imageFieldsOk (c : StreamCfg) : Bool :=
  let dim : Nat → Bool := fun x => decide (2 ≤ x) && x % 2 = 0 && (c.kind ≠ 2 || decide (x ≤ 8192))
  dim c.width && dim c.height && decide (c.bgMode ≤ 1) && decide (c.bgDecim ≤ 3) && decide (1 ≤ c.maxAge) && decide (c.maxAge ≤ 15) &&
  decide (c.outFmt ≤ 4) && decide (c.outDest ≤ 1) && (c.cpad = 4 || c.cpad = 32) &&
  (c.outDest ≠ 1 || (c.cpad = 32 && decide (c.dmaCh ≤ 15))) && decide (1 ≤ c.outCount) && decide (c.outCount ≤ 16) &&
  decide (c.bandSync < 1024) && [c.outFrameStride, c.outBase, c.bgOff, c.roiOff, c.slotStride].all (fun x => x % 64 = 0)

/-- Step 4 for one stream record. -/
def streamOk (r : List Byte) (c : StreamCfg) (period : Nat) : Bool :=
  streamKindOk c && streamZeroOk r c && streamPeriodOk c period &&
  (c.source ≠ 0 || (decide (c.port < 12) && decide (c.vc < 16))) && decide (1 ≤ c.inSlots) && decide (c.inSlots ≤ 16) &&
  c.inBase % 64 = 0 && (c.kind ≠ 0 || rawFieldsOk c) && (c.kind = 1 || imageFieldsOk c)

/-- Step 4 for the header (R86, R88). -/
def headerOk (d : List Byte) (b : PipeBlob) (pipe period : Nat) : Bool :=
  field d 6 1 = pipe && decide (b.fclk < 4) && decide (1 ≤ b.streams.length) && decide (b.streams.length ≤ 64) &&
  [0, 1, 0xFF].contains (field d 0x0A 1) && (b.streaming || (decide (1 ≤ b.batch) && decide (b.batch ≤ 32))) &&
  decide (b.cls ≤ 3) && field d 0x0D 3 = 0 && leNat (slice d 0x28 24) = 0 && decide (b.ingestDl < period) &&
  decide (1 ≤ b.ringCount) && decide (b.ringCount ≤ 4096) && decide (b.ringSync < 1024) && b.ringBase % 64 = 0 &&
  (b.prepMask ≠ 0 || b.streams.all (fun c => c.kind = 1))

/-- Step 4. -/
def blobFieldsOk (d : List Byte) (b : PipeBlob) (pipe period : Nat) : Bool :=
  headerOk d b pipe period &&
  (List.range b.streams.length).all (fun i => streamOk (blobRecord d i) (parseStream (blobRecord d i)) period)

/-! ### Steps 6 and 7 (R59, R64, R70, R88) -/

/-- A stream bound elsewhere or twice, a (PORT, VC) pair matched twice, a PREP unit of another pipeline's mask. -/
def State.blobConflict (s : State) (p : Nat) (b : PipeBlob) : Bool :=
  let others := ((List.range 8).filter (fun q => q ≠ p)).filterMap (fun q => (s.pipe q).blob)
  let pairs : List (Nat × Nat) := (b.streams.filter (fun c => c.source = 0)).map (fun c => (c.port, c.vc))
  !decide ((b.streams.map (fun c => c.stream)).Nodup) || !decide pairs.Nodup ||
  others.any (fun o => (o.prepMask &&& b.prepMask) ≠ 0 ||
    o.streams.any (fun x => b.streams.any (fun c => c.stream = x.stream || (c.source = 0 && x.source = 0 && c.port = x.port && c.vc = x.vc))))

/-- Bytes of one output element (R69). -/
def outElem (c : StreamCfg) : Nat := match c.outFmt with | 0 => 1 | 1 => 1 | 2 => 2 | 3 => 2 | _ => 4

/-- The parts of an output region, offset and size: status, background, ROI slots (R70). -/
def regionParts (c : StreamCfg) : List (Nat × Nat) :=
  let e := outElem c * c.cpad
  let bg := cdiv c.width (2 ^ c.bgDecim) * cdiv c.height (2 ^ c.bgDecim) * e
  (0, 32) :: (c.bgOff, bg) :: (List.range 32).map (fun i => (c.roiOff + i * c.slotStride, c.slotW * c.slotH * e))

/-- No two parts meet (R70). -/
def apart : List (Nat × Nat) → Bool
  | [] => true
  | x :: t => t.all (fun y => x.2 = 0 || y.2 = 0 || decide (x.1 + x.2 ≤ y.1) || decide (y.1 + y.2 ≤ x.1)) && apart t

/-- n bytes of main memory. -/
def inMain (a n : Nat) : Bool := decide (a + max 1 n ≤ 0x1000000000)

/-- The output region lies in one Frond's store, within the rows of OUT_H there; an entry that is not valid holds no rows to judge by (R70; log 99). -/
def State.outHandleOk (s : State) (c : StreamCfg) : Bool :=
  match targetRange c.outBase (max 1 (c.outCount * c.outFrameStride)) with
  | .frond f o =>
    let h := (s.frond f).hnd c.outH
    !h.valid || (decide (h.base * 512 ≤ o) && decide (o + c.outCount * c.outFrameStride ≤ (h.base + h.rows) * 512))
  | _ => false

/-- Step 7 for one stream: output region, input ring and values. -/
def State.streamRegionsOk (s : State) (c : StreamCfg) : Bool :=
  inMain c.inBase (c.inSlots * c.inSlotSize) &&
  (c.kind = 1 ||
    (apart (regionParts c) && (regionParts c).all (fun x => x.2 = 0 || decide (x.1 + x.2 ≤ c.outFrameStride)) &&
      (if c.outDest = 0 then inMain c.outBase (c.outCount * c.outFrameStride)
       else s.outHandleOk c) &&
      c.coef.all (fun x => bits x.toNat 30 23 ≠ 255)))

/-- Step 7. -/
def State.blobRegionsOk (s : State) (b : PipeBlob) : Bool := inMain b.ringBase (64 * b.ringCount) && b.streams.all s.streamRegionsOk

/-- The status of R88's steps 3 to 7, none when the blob is accepted. -/
def State.checkBlob (s : State) (p : Nat) (d : List Byte) (len : Nat) : Option Nat :=
  let b := parseBlob s.gctl.stream d
  let period := (s.fclk (b.fclk % 4)).inForce.toNat
  if !blobSound d len then some 0x05
  else if !blobFieldsOk d b p period then some 0x02
  else if b.streaming && !s.gctl.stream then some 0x26
  else if s.blobConflict p b then some 0x29
  else if !s.blobRegionsOk b then some 0x02
  else none

/-- Main-memory ranges an accepted blob names, address and size. -/
def PipeBlob.ranges (b : PipeBlob) : List (Nat × Nat) :=
  (b.ringBase, 64 * b.ringCount) :: b.streams.flatMap (fun c =>
    [(c.inBase, c.inSlots * c.inSlotSize), (c.outBase, c.outCount * c.outFrameStride)])

end Sys2Proof.Machine
end

