-- ==== Sys2Proof/Machine/Crypto.lean ====
section
/-! DEFINITION. SHAKE256 and Ed448 as R283, R589 and R601 name them; their algorithms are those of FIPS 202 and RFC 8032 (log 14). -/

namespace Sys2Proof.Machine

/-! ### SHAKE256 (FIPS 202) -/

/-- The state array of FIPS 202, 3.1.2: five sheets x, each of five lanes y. -/
abbrev Sheets := List (List (BitVec 64))

/-- Lane (x, y). -/
def Sheets.lane (a : Sheets) (x y : Nat) : BitVec 64 := (a.getD x []).getD y 0

/-- The array whose lane (x, y) is f x y. -/
def sheetsOf (f : Nat → Nat → BitVec 64) : Sheets := (List.range 5).map (fun x => (List.range 5).map (f x))

/-- Theta: every lane takes the parities of two neighbouring columns (3.2.1). -/
def keccakTheta (a : Sheets) : Sheets :=
  let parity := a.map (fun s => s.foldl (fun p l => p ^^^ l) 0)
  let mix := (List.range 5).map (fun x => parity.getD ((x + 4) % 5) 0 ^^^ (parity.getD ((x + 1) % 5) 0).rotateLeft 1)
  (a.zip mix).map (fun e => e.1.map (fun l => l ^^^ e.2))

/-- Rho's walk over the lanes other than (0, 0): position and offset of each step t (3.2.2). -/
def rhoWalk : Nat → Nat → Nat → Nat → List (Nat × Nat)
  | 0, _, _, _ => []
  | n + 1, t, x, y => (5 * x + y, (t + 1) * (t + 2) / 2 % 64) :: rhoWalk n (t + 1) y ((2 * x + 3 * y) % 5)

/-- Rho's offset of lane (x, y). -/
def rhoOffset (walk : List (Nat × Nat)) (x y : Nat) : Nat := ((walk.find? (fun e => e.1 = 5 * x + y)).map Prod.snd).getD 0

/-- Rho and pi: lanes turned, then moved (3.2.2, 3.2.3). -/
def keccakRhoPi (walk : List (Nat × Nat)) (a : Sheets) : Sheets :=
  sheetsOf (fun x y => let from_ := (x + 3 * y) % 5; (a.lane from_ x).rotateLeft (rhoOffset walk from_ x))

/-- Chi (3.2.4). -/
def keccakChi (a : Sheets) : Sheets :=
  sheetsOf (fun x y => a.lane x y ^^^ (~~~ (a.lane ((x + 1) % 5) y) &&& a.lane ((x + 2) % 5) y))

/-- One step of the shift register behind iota's constants (3.2.5). -/
def lfsrStep (r : Nat) : Nat := if r < 128 then 2 * r else (2 * r - 256) ^^^ 0x71

/-- The constant of one round, and the register after its seven bits: bit j stands at 2^j - 1 (3.2.5). -/
def roundConstant : Nat → Nat → Nat → Nat → Nat × Nat
  | 0, _, r, c => (c, r)
  | n + 1, j, r, c => roundConstant n (j + 1) (lfsrStep r) (c + place (r % 2) (2 ^ j - 1))

/-- Iota: the round's constant enters lane (0, 0) (3.2.5). -/
def keccakIota (c : Nat) (a : Sheets) : Sheets :=
  match a with
  | (l :: s) :: rest => ((l ^^^ BitVec.ofNat 64 c) :: s) :: rest
  | _ => a

/-- n rounds, with the shift register at r (3.3). -/
def keccakRounds (walk : List (Nat × Nat)) : Nat → Nat → Sheets → Sheets
  | 0, _, a => a
  | n + 1, r, a =>
    let c := roundConstant 7 0 r 0
    keccakRounds walk n c.2 (keccakIota c.1 (keccakChi (keccakRhoPi walk (keccakTheta a))))

/-- The permutation of 24 rounds. -/
def keccakPermute (a : Sheets) : Sheets := keccakRounds (rhoWalk 24 0 1 0) 24 1 a

/-- Rate of SHAKE256 in bytes. -/
def shakeRate : Nat := 136

/-- A block of 136 bytes, its lanes in order x + 5y, enters the state (FIPS 202, 3.1.2 and 4). -/
def absorbBlock (a : Sheets) (b : List Byte) : Sheets :=
  keccakPermute (sheetsOf (fun x y => a.lane x y ^^^ BitVec.ofNat 64 (field (b.take shakeRate) (8 * (x + 5 * y)) 8)))

/-- Absorb n whole blocks. -/
def absorbAll : Nat → Sheets → List Byte → Sheets
  | 0, a, _ => a
  | n + 1, a, m => absorbAll n (absorbBlock a (m.take shakeRate)) (m.drop shakeRate)

/-- The 136 bytes a state gives. -/
def rateBytes (a : Sheets) : List Byte := (List.range (shakeRate / 8)).flatMap (fun i => toLe 8 (a.lane (i % 5) (i / 5)).toNat)

/-- Squeeze n further blocks of output. -/
def squeezeAll : Nat → Sheets → List Byte
  | 0, _ => []
  | n + 1, a => rateBytes a ++ squeezeAll n (keccakPermute a)

/-- A message with SHAKE256's suffix and padding, to whole blocks (FIPS 202, 5.1 and 6.2). -/
def shakePadded (m : List Byte) : List Byte :=
  let k := shakeRate - m.length % shakeRate
  m ++ (if k = 1 then [0x9F] else 0x1F :: List.replicate (k - 2) 0 ++ [0x80])

/-- SHAKE256 of a message, n bytes of output. -/
def shake256 (m : List Byte) (n : Nat) : List Byte :=
  let msg := shakePadded m
  (squeezeAll (cdiv n shakeRate) (absorbAll (msg.length / shakeRate) [] msg)).take n

/-! ### Ed448 (RFC 8032, 5.2) -/

/-- The field's prime. -/
def edP : Nat := 2 ^ 448 - 2 ^ 224 - 1
/-- Order of the base point. -/
def edL : Nat := 2 ^ 446 - 13818066809895115352007386748515426880336692474882178609894547503885
/-- The curve's constant d = -39081. -/
def edD : Nat := edP - 39081

/-- A point in projective coordinates. -/
structure EdPoint where
  x : Nat
  y : Nat
  z : Nat
deriving DecidableEq, Repr

/-- The base point. -/
def edB : EdPoint :=
  ⟨224580040295924300187604334099896036246789641632564134246125461686950415467406032909029192869357953282578032075146446173674602635247710,
   298819210078481492676017930443930673437544040154080242095928241372331506189835876003536878655418784733982303233503462500531545062832660, 1⟩

/-- The neutral point. -/
def edO : EdPoint := ⟨0, 1, 1⟩

/-- Addition (RFC 8032, 5.2.4). -/
def edAdd (p q : EdPoint) : EdPoint :=
  let a := p.z * q.z % edP
  let b := a * a % edP
  let c := p.x * q.x % edP
  let d := p.y * q.y % edP
  let e := edD * c % edP * d % edP
  let f := (b + edP - e) % edP
  let g := (b + e) % edP
  let h := (p.x + p.y) * (q.x + q.y) % edP
  ⟨a * f % edP * ((h + 2 * edP - c - d) % edP) % edP, a * g % edP * ((d + edP - c) % edP) % edP, f * g % edP⟩

/-- n times a point, by the n's k low bits. -/
def edMul : Nat → Nat → EdPoint → EdPoint
  | 0, _, _ => edO
  | k + 1, n, p => if n % 2 = 1 then edAdd p (edMul k (n / 2) (edAdd p p)) else edMul k (n / 2) (edAdd p p)

/-- Two points are the same. -/
def edSame (p q : EdPoint) : Bool := p.x * q.z % edP = q.x * p.z % edP && p.y * q.z % edP = q.y * p.z % edP

/-- Powers modulo p, by the exponent's k low bits. -/
def powMod : Nat → Nat → Nat → Nat → Nat
  | 0, _, _, acc => acc
  | k + 1, b, e, acc => powMod k (b * b % edP) (e / 2) (if e % 2 = 1 then acc * b % edP else acc)

/-- Modular inverse. -/
def edInv (x : Nat) : Nat := powMod 448 (x % edP) (edP - 2) 1

/-- A point's 57 bytes (RFC 8032, 5.2.2). -/
def edEncode (p : EdPoint) : List Byte :=
  let i := edInv p.z
  let x := p.x * i % edP
  let y := p.y * i % edP
  toLe 57 (y + place (x % 2) 455)

/-- The point of 57 bytes, if they are one's (RFC 8032, 5.2.3). -/
def edDecode (b : List Byte) : Option EdPoint :=
  let n := leNat b
  let sign := bits n 455 455
  let y := n % 2 ^ 455
  if edP ≤ y then none
  else
    let yy := y * y % edP
    let u := (yy + edP - 1) % edP
    let v := (edD * yy % edP + edP - 1) % edP
    let w := u * u % edP * u % edP * v % edP
    let x := w * powMod 448 (w * u % edP * u % edP * v % edP * v % edP) ((edP - 3) / 4) 1 % edP
    if v * x % edP * x % edP ≠ u then none
    else if x = 0 && sign = 1 then none
    else some ⟨if x % 2 = sign then x else (edP - x) % edP, y, 1⟩

/-- The hash prefix of Ed448 with no context. -/
def edDom : List Byte := [0x53, 0x69, 0x67, 0x45, 0x64, 0x34, 0x34, 0x38, 0x00, 0x00]

/-- Ed448 PureEdDSA verification, empty context (RFC 8032, 5.2.7). -/
def edVerify (key msg sig : List Byte) : Bool :=
  let r := sig.take 57
  let s := leNat ((sig.drop 57).take 57)
  match edDecode key, edDecode r with
  | some a, some rp =>
    let k := leNat (shake256 (edDom ++ r ++ key ++ msg) 114) % edL
    sig.length = 114 && decide (s < edL) && edSame (edMul 448 s edB) (edAdd rp (edMul 448 k a))
  | _, _ => false

/-- The scalar and prefix of a private key (RFC 8032, 5.2.5). -/
def edSecret (priv : List Byte) : Nat × List Byte :=
  let h := shake256 priv 114
  let s := leNat (h.take 57)
  (bits s 446 2 * 4 + 2 ^ 447, h.drop 57)

/-- The public key of a private key. -/
def edPublic (priv : List Byte) : List Byte := edEncode (edMul 448 (edSecret priv).1 edB)

/-- Ed448 signing (RFC 8032, 5.2.6). -/
def edSign (priv msg : List Byte) : List Byte :=
  let x := edSecret priv
  let pub := edPublic priv
  let r := leNat (shake256 (edDom ++ x.2 ++ msg) 114) % edL
  let rb := edEncode (edMul 448 r edB)
  let k := leNat (shake256 (edDom ++ rb ++ pub ++ msg) 114) % edL
  rb ++ toLe 57 ((r + k * x.1) % edL)

/-- Signature and key slot of a 128-byte signature block (R283, R589). -/
def sigOf (block : List Byte) : List Byte := slice block 0 114
def sigSlot (block : List Byte) : Nat := field block 114 1

end Sys2Proof.Machine
end

