-- ==== Sys2Proof/Machine/Interp.lean ====
section
/-! DEFINITION. The command interpreter: which command starts next and the checks every packet meets (R399 to R403, R408, R421). -/

namespace Sys2Proof.Machine

/-! ### Starting (R402, R403, R413) -/

/-- The commands that start and complete when their action does (R403). -/
def asyncOp (op : Nat) : Bool := [0x30, 0x31, 0x10, 0x11, 0x20, 0x21, 0x42, 0x61].contains op

/-- Opcodes of the table (R408). -/
def knownOp (op : Nat) : Bool :=
  [0x01, 0x02, 0x03, 0x10, 0x11, 0x12, 0x13, 0x20, 0x21, 0x22, 0x23, 0x30, 0x31, 0x32, 0x40, 0x41, 0x42, 0x43, 0x50, 0x51, 0x60,
   0x61, 0x62, 0x70].contains op

/-- An earlier command of the queue lets a later one start: ended, or one of R403's eight that has started, without FENCE. -/
def Cmd.passes (fence : Bool) (c : Cmd) : Bool := c.ended || (!fence && asyncOp c.op && c.stage = .started)

/-- The earlier commands of the same queue. -/
def State.before (s : State) (c : Cmd) : List Cmd :=
  (s.cmdq.cmds.takeWhile (fun d => d.tag ≠ c.tag)).filter (fun d => d.sq = c.sq)

/-- The interpreter runs: after READY, outside a restart, and awake (R340, R413, R422). -/
def State.interpRuns (s : State) : Bool :=
  s.gctl.ready && !s.island.restarting && s.pwr.phase = .steady && s.pwr.sleep = 0

/-- A command may start as far as its own queue goes (R403). -/
def State.queueStart (s : State) (c : Cmd) : Bool :=
  s.interpRuns && c.stage = .waiting && (s.before c).all (Cmd.passes c.fence)

/-- Place of a queue among those of class k, in round robin from the one after the queue that started last (R402). -/
def State.turn (s : State) (k n : Nat) : Nat := (n + 64 - tget 0 s.cmdq.startRr k % 64) % 64

/-- And no command goes before it that could start: of a queue of a numerically lower class, or of one of its class whose turn comes
earlier (R402). -/
def State.startable (s : State) (c : Cmd) : Bool :=
  let k := (s.sq c.sq).cls.toNat
  s.queueStart c && s.cmdq.cmds.all (fun d =>
    let j := (s.sq d.sq).cls.toNat
    !((decide (j < k) || (j = k && decide (s.turn k d.sq < s.turn k c.sq))) && knownOp d.op && s.queueStart d))

/-- A command is taken: its stage, and its class's turn (R402, R403). -/
def takeCmd (c : Cmd) (s : State) : State :=
  let s := State.modCmd c.tag (fun c => { c with stage := .started }) s
  { s with cmdq := { s.cmdq with startRr := tset 0 s.cmdq.startRr (s.sq c.sq).cls.toNat ((c.sq + 1) % 64) } }

/-! ### The checks of R400 -/

/-- Parameter bytes an opcode uses, offset and size; the rest are reserved (R408, R410). -/
def paramBytes (op : Nat) : List (Nat × Nat) :=
  match op with
  | 0x02 => [(0x18, 1), (0x1A, 2)]
  | 0x10 => [(0x18, 2), (0x1C, 4), (0x20, 8)]
  | 0x11 => [(0x18, 2)]
  | 0x12 => [(0x18, 2)]
  | 0x13 => [(0x18, 2)]
  | 0x20 => [(0x18, 10), (0x24, 8), (0x30, 8)]
  | 0x21 => [(0x18, 2)]
  | 0x22 => [(0x18, 2)]
  | 0x23 => [(0x18, 2), (0x1C, 4)]
  | 0x30 => [(0x18, 1), (0x1A, 2), (0x20, 32)]
  | 0x31 => [(0x18, 1), (0x20, 8)]
  | 0x32 => [(0x18, 1), (0x1A, 2)]
  | 0x40 => [(0x18, 1), (0x1C, 4), (0x20, 8)]
  | 0x41 => [(0x18, 1), (0x20, 8)]
  | 0x42 => [(0x18, 1)]
  | 0x43 => [(0x18, 1), (0x1C, 4), (0x20, 8)]
  | 0x50 => [(0x18, 1)]
  | 0x51 => [(0x18, 2)]
  | 0x60 => [(0x18, 32)]
  | 0x61 => [(0x18, 4), (0x20, 8)]
  | 0x62 => [(0x18, 2), (0x20, 16)]
  | 0x70 => [(0x18, 4)]
  | _ => []

/-- Every byte of a packet's part outside the listed ranges is 0. -/
def reservedZero (pkt : List Byte) (used : List (Nat × Nat)) : Bool :=
  (List.range 40).all (fun i => used.any (fun u => decide (u.1 ≤ 0x18 + i) && decide (0x18 + i < u.1 + u.2)) || pkt.getD (0x18 + i) 0 = 0)

/-- A 32-bit pattern is a finite FP32 number. -/
def finite32 (x : Nat) : Bool := bits x 30 23 ≠ 255

/-- Context IDs and counts of a RUN packet in range (R410). -/
def runFieldsOk (pkt : List Byte) : Bool :=
  let n := field pkt 0x18 1
  decide (1 ≤ n) && decide (n ≤ 64) && decide (field pkt 0x1A 2 < 1024) &&
  (decide (8 < n) || (List.range n).all (fun i => decide (field pkt (0x20 + 2 * i) 2 < 16384)))

/-- The opcode's own fields in range (R228, R399, R408, R410). -/
def fieldsOk (c : Cmd) : Bool :=
  let f := c.fld
  match c.op with
  | 0x02 => decide (f 0x18 1 ≤ 1) && decide (f 0x1A 2 < 1024)
  | 0x10 => decide (f 0x18 2 < 1024) || f 0x18 2 = 0xFFFF
  | 0x11 => decide (f 0x18 2 < 1024)
  | 0x12 => decide (f 0x18 2 < 1024)
  | 0x13 => decide (f 0x18 2 < 1024)
  | 0x20 => decide (f 0x18 1 ≤ 3) && decide (f 0x19 1 ≤ 3) && decide (f 0x1A 2 < 1024) && decide (1 ≤ f 0x1C 1) &&
      decide (f 0x1C 1 ≤ 32) && (f 0x1D 1 = 1 || f 0x1D 1 = 2) && decide (1 ≤ f 0x1E 1) && decide (f 0x1E 1 ≤ 8) &&
      decide (f 0x1F 1 ≤ 64) && decide (f 0x20 1 ≤ 64) && decide (f 0x21 1 ≤ 64) && decide (1 ≤ f 0x24 4) &&
      decide (f 0x24 4 ≤ 262144) && finite32 (f 0x28 4)
  | 0x21 => decide (f 0x18 2 < 16384)
  | 0x22 => decide (f 0x18 2 < 16384)
  | 0x23 => decide (f 0x18 2 < 16384)
  | 0x30 => runFieldsOk c.pkt
  | 0x31 => decide (1 ≤ f 0x18 1) && decide (f 0x18 1 ≤ 64)
  | 0x32 => decide (f 0x18 1 < 64)
  | 0x40 => decide (f 0x18 1 < 8)
  | 0x41 => decide (f 0x18 1 < 8)
  | 0x42 => decide (f 0x18 1 < 8)
  | 0x43 => decide (f 0x18 1 < 64)
  | 0x50 => decide (1 ≤ f 0x18 1) && decide (f 0x18 1 ≤ 4)
  | 0x51 => decide (f 0x18 1 < 16) && decide (f 0x19 1 < 4)
  | _ => true

/-- Whether an opcode returns result data, which RBUF and RLEN then concern (R408). -/
def hasResult (op : Nat) : Bool := [0x02, 0x03, 0x30, 0x31, 0x60].contains op

/-- Step 2: reserved fields and ranges (R400); MBOX is not for peers (R421). -/
def stepFields (c : Cmd) : Bool :=
  bits (c.fld 1 1) 7 3 = 0 && bits (c.fld 4 1) 7 4 = 0 && c.fld 5 3 = 0 && c.fld 0x14 4 = 0 &&
  (!hasResult c.op || decide (c.rlen ≤ 16777216) && (!c.mbox || decide (c.rlen ≤ 4032))) &&
  !(c.reply.isSome && c.mbox) && reservedZero c.pkt (paramBytes c.op) && fieldsOk c

/-- n bytes at an aligned address of main memory or the outbound window (R400). -/
def addrOk (a n align : Nat) : Bool :=
  a % align = 0 && match targetRange a (max 1 n) with
    | .main => true
    | .outbound _ => true
    | _ => false

/-- n bytes at an aligned main-memory address. -/
def mainOk (a n align : Nat) : Bool := a % align = 0 && targetRange a (max 1 n) = .main

/-- Lengths a LENGTH parameter may have (R86, R282, R594). -/
def lengthOk (c : Cmd) : Bool :=
  match c.op with
  | 0x10 => decide (256 ≤ c.fld 0x1C 4) && decide (c.fld 0x1C 4 ≤ 0xFFFFFFC0)
  | 0x40 => decide (240 ≤ c.fld 0x1C 4) && decide (c.fld 0x1C 4 ≤ 11328)
  | 0x61 => decide (c.fld 0x18 4 ≤ 4194304)
  | _ => true

/-- Addresses of a RUN packet (R410). -/
def runAddrsOk (pkt : List Byte) (rlen : Nat) : Bool :=
  (decide (field pkt 0x18 1 ≤ 8) || addrOk (field pkt 0x30 8) (2 * field pkt 0x18 1) 64) && mainOk (field pkt 0x38 8) rlen 64

/-- Step 3: RBUF and every address parameter (R400, R408, R421). -/
def stepAddrs (c : Cmd) : Bool :=
  let f := c.fld
  (!hasResult c.op || c.rbuf = 0 ||
    (if c.reply.isSome then mainOk c.rbuf c.rlen 32 else addrOk c.rbuf c.rlen 32)) &&
  match c.op with
  | 0x10 => addrOk (f 0x20 8) (f 0x1C 4) 64
  | 0x30 => runAddrsOk c.pkt c.rlen
  | 0x31 => addrOk (f 0x20 8) (64 * f 0x18 1) 64
  | 0x40 => addrOk (f 0x20 8) (min 11328 (f 0x1C 4)) 64
  | 0x41 => addrOk (f 0x20 8) 128 64
  | 0x43 => addrOk (f 0x20 8) 512 64
  | 0x61 => addrOk (f 0x20 8) (min 4194304 (f 0x18 4)) 64
  | _ => true

/-- Fixed result size of an opcode (R409, R602). -/
def resultSize (c : Cmd) : Nat :=
  match c.op with
  | 0x02 => if c.fld 0x18 1 = 0 then 128 else 64
  | 0x03 => 64
  | 0x60 => 528
  | _ => 0

/-- A context of a run whose class is numerically below the queue's (R402). -/
def State.classBarred (s : State) (cls x : Nat) : Bool := (s.ctx x).st ≠ .free && decide ((s.ctx x).cls.toNat < cls)

/-- Step 5: the class rule and the opcodes barred to peers (R402, R421). -/
def State.permitted (s : State) (c : Cmd) : Bool :=
  let q := (s.sq c.sq).cls.toNat
  !(c.reply.isSome && [0x61, 0x62, 0x50, 0x70].contains c.op) &&
  match c.op with
  | 0x20 => decide (q ≤ c.fld 0x18 1)
  | 0x30 => decide (8 < c.fld 0x18 1) || (List.range (c.fld 0x18 1)).all (fun i => !s.classBarred q (c.fld (0x20 + 2 * i) 2))
  | _ => true

/-- The first failing check of steps 1 to 5 (R400). -/
def State.checkPacket (s : State) (c : Cmd) : Option Nat :=
  if !knownOp c.op then some 0x01
  else if !stepFields c then some 0x02
  else if !stepAddrs c then some 0x03
  else if decide (c.rlen < resultSize c) || !lengthOk c then some 0x04
  else if !s.permitted c then some 0x07
  else none

/-- A command starts: refused by the first failing check, or its action (R400, R403). -/
def startCmd (op tag : Nat) (act : Cmd → State → State) (s : State) : State :=
  match s.cmd tag with
  | none => s
  | some c =>
    if !(c.op = op && s.startable c) then s
    else match s.checkPacket c with
      | some st => finishCmd tag st 0 0 (takeCmd c s)
      | none => act c (takeCmd c s)

/-- Bytes a command names, read under 0xA0 in its queue's class; none for an error response or poison (R400). -/
def readNamed (c : Cmd) (a n : Nat) (s : State) : Option (List Byte) × State :=
  let r := readAll 0xA0 (s.sq c.sq).cls.toNat a n s
  match r.1 with
  | some d => if poisoned d then (none, r.2) else (some (plain d), r.2)
  | none => (none, r.2)

/-- The commands in flight whose packet names no command of the table end with 0x01 when their turn comes (R400, R403). -/
def refuseUnknown (s : State) : State :=
  s.cmdq.cmds.foldl (fun t c => if !knownOp c.op && t.queueStart c then finishCmd c.tag 0x01 0 0 t else t) s

end Sys2Proof.Machine
end

