-- ==== Sys2Proof/Machine/Models.lean ====
section
/-! DEFINITION. Model images, their checks, and the states of a model (R282 to R288, R591). -/

namespace Sys2Proof.Machine

/-! ### Image layout (R282 to R287) -/

/-- Shard table entry s (R284). -/
def parseShard (d : List Byte) (o : Nat) : ShardEnt :=
  { caps := field d (o + 0x02) 2, cbSlots := field d (o + 0x04) 2, nHandle := field d (o + 0x06) 1, row0 := field d (o + 0x08) 2,
    rows := field d (o + 0x0A) 2, loadBytes := field d (o + 0x0C) 4, loadStream := field d (o + 0x10) 4,
    handleOff := field d (o + 0x14) 4, maxRun := field d (o + 0x18) 4 }

/-- Stream table entry (R285). -/
def parseStreamEnt (d : List Byte) (o : Nat) : StreamEnt :=
  { shard := field d o 2, kind := field d (o + 2) 1, bucket := field d (o + 3) 1, ndesc := field d (o + 4) 4, off := field d (o + 8) 4,
    stage := field d (o + 0x0C) 1 }

/-- Relocation entry (R286). -/
def parseReloc (d : List Byte) (o : Nat) : RelocEnt :=
  { off := field d o 4, kind := field d (o + 4) 1, width := field d (o + 5) 1, shard := field d (o + 6) 2 }

/-- Bound table entry: GRADE, PLEVEL, H, L_ISO (R287). -/
def parseBound (d : List Byte) (o : Nat) : Nat × Nat × Nat × Nat := (field d o 1, field d (o + 1) 1, field d (o + 2) 2, field d (o + 4) 4)

/-- n entries of a size from an offset. -/
def parseTable {α : Type} (f : List Byte → Nat → α) (d : List Byte) (o size n : Nat) : List α :=
  (List.range n).map (fun i => f d (o + size * i))

def imgShards (d : List Byte) : List ShardEnt := parseTable parseShard d (field d 0x20 4) 32 (field d 0x0C 2)
def imgStreams (d : List Byte) : List StreamEnt := parseTable parseStreamEnt d (field d 0x24 4) 16 (field d 0x10 4)
def imgRelocs (d : List Byte) : List RelocEnt := parseTable parseReloc d (field d 0x28 4) 16 (field d 0x14 4)
def imgBounds (d : List Byte) : List (Nat × Nat × Nat × Nat) := parseTable parseBound d (field d 0x2C 4) 16 (field d 0x18 2)

/-- FLAGS.C0 of a header (R283). -/
def imgC0 (d : List Byte) : Bool := bit (field d 6 2) 0

/-! ### The checks (R282 to R287) -/

/-- MAGIC, VERSION and LENGTH (R282, R283). -/
def imgHeaderOk (d : List Byte) : Bool :=
  field d 0 4 = 0x4C444F4D && field d 4 2 = 1 && field d 8 4 = d.length && d.length % 64 = 0 && decide (256 ≤ d.length)

/-- A table of n entries at a multiple of 64, between the header and the signature block (R282). -/
def tableOk (d : List Byte) (o size n : Nat) : Bool :=
  n = 0 || (o % 64 = 0 && decide (128 ≤ o) && decide (o + size * n ≤ d.length - 128))

/-- Counts, sizes and places of the tables (R282, R283, R287). -/
def imgTablesOk (d : List Byte) : Bool :=
  let n := field d 0x0C 2
  decide (1 ≤ n) && decide (n ≤ 1024) && decide (field d 0x0E 2 ≤ 1024) && field d 0x1C 4 % 4096 = 0 &&
  tableOk d (field d 0x20 4) 32 n && tableOk d (field d 0x24 4) 16 (field d 0x10 4) && tableOk d (field d 0x28 4) 16 (field d 0x14 4) &&
  tableOk d (field d 0x2C 4) 16 (field d 0x18 2) && (imgC0 d || field d 0x18 2 = 0) && (field d 0x18 2 ≠ 0 || field d 0x2C 4 = 0)

/-- A preset handle lies within its shard's rows (R284). -/
def presetOk (d : List Byte) (e : ShardEnt) (h : Nat) : Bool :=
  let x := decodeHandle (field d (e.handleOff + 16 * h) 8) (field d (e.handleOff + 16 * h + 8) 8)
  decide (e.row0 ≤ x.base) && decide (x.base + x.rows ≤ e.row0 + e.rows)

/-- A shard entry (R284). -/
def shardOk (d : List Byte) (i : Nat) (e : ShardEnt) : Bool :=
  let st := (imgStreams d)[e.loadStream]?
  field d (field d 0x20 4 + 32 * i) 2 = i && decide (1 ≤ e.rows) && decide (e.row0 + e.rows ≤ 16384) && decide (e.loadBytes ≤ 8388608) &&
  decide (e.maxRun ≤ 33712) && (e.nHandle = 0 || decide (e.handleOff + 16 * e.nHandle ≤ d.length - 128)) &&
  (List.range e.nHandle).all (presetOk d e) && (match st with | some x => x.kind = 0 && x.shard = i | none => false)

/-- A stream entry; its last descriptor is END, and a load stream holds LOADM, CBLOAD and SIGNAL only (R153, R285). -/
def streamEntOk (d : List Byte) (x : StreamEnt) : Bool :=
  decide (x.shard < field d 0x0C 2) && decide (x.kind ≤ 2) && (decide (x.bucket ≤ 13) || x.bucket = 0xFF) &&
  [2, 3, 0xFF].contains x.stage && decide (1 ≤ x.ndesc) && x.off % 64 = 0 && decide (128 ≤ x.off) &&
  decide (x.off + 64 * x.ndesc ≤ d.length - 128) && bit (field d (x.off + 64 * (x.ndesc - 1) + 2) 2) 2 &&
  (x.kind ≠ 0 || (List.range x.ndesc).all (fun i => [7, 0x0A, 0x0C].contains (field d (x.off + 64 * i) 1)))

/-- A relocation entry (R286). -/
def relocOk (d : List Byte) (r : RelocEnt) : Bool :=
  decide (r.kind ≤ 3) && [1, 2, 4, 8].contains r.width && decide (r.off + r.width ≤ d.length) &&
  (r.kind % 2 = 0 || decide (r.shard < field d 0x0C 2))

/-- The bound table: legal entries, one per grade and level (R287). -/
def boundsOk (l : List (Nat × Nat × Nat × Nat)) : Bool :=
  l.all (fun b => [0x80, 0x60, 0x40].contains b.1 && decide (b.2.1 ≤ 2) && decide (1 ≤ b.2.2.1) && decide (b.2.2.1 ≤ 1024)) &&
  decide ((l.map (fun b => (b.1, b.2.1))).Nodup)

/-- R284 to R287. -/
def imgRulesOk (d : List Byte) : Bool :=
  imgTablesOk d && (List.range (field d 0x0C 2)).all (fun i => shardOk d i ((imgShards d).getD i ⟨0, 0, 0, 0, 0, 0, 0, 0, 0⟩)) &&
  (imgStreams d).all (streamEntOk d) && (imgRelocs d).all (relocOk d) && boundsOk (imgBounds d)

/-! ### Keys (R591, R597, R598) -/

/-- Slot s is fused: either of its digest words has a bit blown (R597). -/
def State.slotFused (s : State) (i : Nat) : Bool := s.fuse (0x102 + 2 * i) ≠ 0 || s.fuse (0x103 + 2 * i) ≠ 0
/-- Slot s is revoked (R597). -/
def State.slotRevoked (s : State) (i : Nat) : Bool := bit (s.fuse 0x100) (4 + i)
/-- No slot is fused (R598). -/
def State.unprovisioned (s : State) : Bool := !(List.range 4).any s.slotFused

/-- The key an image carries for a slot; none for an all-zero one (R588). -/
def carriedKey (img : List Byte) (i : Nat) : Option (List Byte) :=
  let k := slice img (0x40 + 64 * i) 57
  if k.all (fun b => b = 0) then none else some k

/-- The accepted key of a slot under a firmware image; none on a returned part's fused and revoked slots (R591, R603). -/
def State.acceptedKeyOf (s : State) (img : List Byte) (i : Nat) : Option (List Byte) :=
  if decide (4 ≤ i) then none
  else if s.unprovisioned then carriedKey img i
  else if s.slotFused i && !s.slotRevoked i then carriedKey img i else none

/-- The accepted key of a slot of the running image. -/
def State.acceptedKey (s : State) (i : Nat) : Option (List Byte) := s.acceptedKeyOf s.sec.image i

/-- A model image's signature under its slot's accepted key in a firmware image (R283, R591). -/
def State.modelSigned (s : State) (fw : List Byte) (d : List Byte) : Bool :=
  let blk := d.drop (d.length - 128)
  match s.acceptedKeyOf fw (sigSlot blk) with
  | some k => edVerify k (d.take (d.length - 128)) (sigOf blk)
  | none => false

/-! ### Main memory and sync counters for a model (R286, R288) -/

/-- Bytes of main memory a model takes (R282, R283). -/
def ModelRec.bytes (m : ModelRec) : Nat := cdiv m.length 4096 * 4096 + m.scratch

/-- Main-memory ranges in use: copies of models, enabled pools, accepted blobs. -/
def State.memUsed (s : State) : List (Nat × Nat) :=
  (s.sched.models.filterMap (fun e => if e.2.st = .warm || e.2.st = .hot then some (e.2.base, e.2.bytes) else none)) ++
  (s.sched.pools.flatMap (fun e => if e.2.en then
    [(e.2.base.toNat * 4096, e.2.blocks.toNat * e.2.bfr.toNat * 4096), (e.2.metaPfn.toNat * 4096, e.2.blocks.toNat * 8)] else [])) ++
  (s.loop.pipes.flatMap (fun e => match e.2.blob with | some b => b.ranges | none => []))

/-- A range below a limit that meets none in use. -/
def fitsAt (used : List (Nat × Nat)) (limit n a : Nat) : Bool :=
  decide (a + n ≤ limit) && used.all (fun u => decide (a + n ≤ u.1) || decide (u.1 + u.2 ≤ a) || u.2 = 0)

/-- A place for n units: a free value where it fits, else the lowest after a range in use; which place is not specified (log 35). -/
def findPlace (used : List (Nat × Nat)) (limit align n : Nat) (s : State) : Option Nat × State :=
  let d := draw 40 s
  let a := d.1.toNat % max 1 limit / align * align
  if fitsAt used limit n a then (some a, d.2)
  else ((0 :: used.map (fun u => cdiv (u.1 + u.2) align * align)).find? (fitsAt used limit n), d.2)

/-- Sync counters models have been given. -/
def State.syncUsed (s : State) : List (Nat × Nat) :=
  s.sched.models.filterMap (fun e => if e.2.st = .free then none else some (e.2.syncBase, e.2.nsync))

/-- A relocation of kind 0 or 2 applied to the image's bytes (R286). -/
def applyReloc (base sync : Nat) (d : List Byte) (r : RelocEnt) : List Byte :=
  let v := if r.kind = 0 then base else sync
  if r.kind % 2 = 0 then d.take r.off ++ toLe r.width ((field d r.off r.width + v) % 2 ^ (8 * r.width)) ++ d.drop (r.off + r.width) else d

/-- The accesses of a firmware channel's read, one 64-byte block each under R450; none once the retries of one are used up. -/
def imageBlocks (ch : Nat) : Nat → Nat → Nat → State → Option (List PByte) × State
  | 0, _, _, s => (some [], s)
  | fuel + 1, a, n, s =>
    if n = 0 then (some [], s)
    else
      let k := min n (toLineEnd a)
      match firmwareAccess ch a (fun t => busRead (dmaInit ch) (t.dmac ch).cls.toNat a k t) s with
      | (none, s) => (none, s)
      | (some d, s) => match imageBlocks ch fuel (a + k) (n - k) s with
        | (none, s) => (none, s)
        | (some t, s) => (some (d ++ t), s)

/-- An image read by a firmware channel, retried as R450 says; none where the channel halts, or where the data is poisoned, which records
0x0C03 (R400, R436, R451). -/
def readImage (ch a n : Nat) (s : State) : Option (List Byte) × State :=
  match imageBlocks ch (n / 64 + 2) a n s with
  | (none, s) => (none, s)
  | (some d, s) =>
    let s := firmwareDone ch s
    if poisoned d then (none, ownFault 0x0C03 ch (a + d.findIdx (fun b => b.2)) 0 s) else (some (plain d), s)

/-- The accesses of a firmware channel's write, one 64-byte block each under R450; false once the retries of one are used up. -/
def putBlocks (ch : Nat) : Nat → Nat → List Byte → State → Bool × State
  | 0, _, _, s => (true, s)
  | fuel + 1, a, d, s =>
    if d = [] then (true, s)
    else
      let k := toLineEnd a
      match firmwareAccess ch a (fun t =>
          let w := busWrite (dmaInit ch) (t.dmac ch).cls.toNat a (clean (d.take k)) t; (if w.1 then some () else none, w.2)) s with
      | (none, s) => (false, s)
      | (some _, s) => putBlocks ch fuel (a + k) (d.drop k) s

/-- An image written by a firmware channel (R436, R450). -/
def writeImage (ch a : Nat) (d : List Byte) (s : State) : Bool × State :=
  let w := putBlocks ch (d.length / 64 + 2) a d s
  (w.1, if w.1 then firmwareDone ch w.2 else w.2)

/-- Memory allocated, kinds 0 and 2 applied, the copy written by DMA28; the status where something fails (R286, R288). -/
def warmCopy (m : Nat) (x : ModelRec) (d : List Byte) (s : State) : Option Nat × State :=
  let r := findPlace s.memUsed 0x1000000000 4096 x.bytes s
  match r.1 with
  | none => (some 0x22, r.2)
  | some base =>
    let d' := x.relocs.foldl (applyReloc base x.syncBase) d
    let w := writeImage 28 base d' r.2
    if w.1 then (none, State.modModel m (fun _ => { x with st := .warm, base := base, placed := [] }) w.2) else (some 0x28, w.2)

/-! ### The commands (R288) -/

/-- The ID MODEL_REGISTER takes: the one named, or the lowest FREE. -/
def State.modelIdFor (s : State) (id : Nat) : Option Nat :=
  if id = 0xFFFF then (List.range 1024).find? (fun m => (s.model m).st = .free)
  else if (s.model id).st = .free then some id else none

/-- A verified image's record, before it has memory. -/
def imgRecord (src sync : Nat) (d : List Byte) : ModelRec :=
  { st := .cold, src := src, length := d.length, flags := field d 6 2, tag := BitVec.ofNat 64 (field d 0x30 8), nsync := field d 0x0E 2,
    scratch := field d 0x1C 4, digest := shake256 d 32, syncBase := sync, shards := imgShards d, streams := imgStreams d,
    relocs := imgRelocs d }

/-- MODEL_REGISTER: read, verify, allocate, relocate (R283, R288). -/
def actModelRegister (c : Cmd) (s : State) : State :=
  let src := c.fld 0x20 8
  match s.modelIdFor (c.fld 0x18 2) with
  | none => finishCmd c.tag 0x21 0 0 s
  | some m =>
    let r := readImage 28 src (c.fld 0x1C 4) s
    match r.1 with
    | none => finishCmd c.tag 0x28 0 0 r.2
    | some d =>
      let s := r.2
      if !imgHeaderOk d then finishCmd c.tag 0x06 0 0 s
      else if !s.modelSigned s.sec.image d then finishCmd c.tag 0x41 0 0 s
      else if !imgRulesOk d then finishCmd c.tag 0x06 0 0 s
      else
        let y := findPlace s.syncUsed 1024 1 (field d 0x0E 2) s
        match y.1 with
        | none => finishCmd c.tag 0x27 0 0 s
        | some sync =>
          let w := warmCopy m (imgRecord src sync d) d y.2
          match w.1 with
          | some st => finishCmd c.tag st 0 0 w.2
          | none => finishCmd c.tag 0 m 0 w.2

/-- A COLD model is read again, its digest compared, and it becomes WARM; the status where that fails (R288). -/
def warmModel (m : Nat) (s : State) : Option Nat × State :=
  let x := s.model m
  if x.st ≠ .cold then (none, s)
  else
    let r := readImage 28 x.src x.length s
    match r.1 with
    | none => (some 0x28, r.2)
    | some d => if shake256 d 32 ≠ x.digest then (some 0x42, r.2) else warmCopy m x d r.2

/-- MODEL_WARM. -/
def actModelWarm (c : Cmd) (s : State) : State :=
  let m := c.fld 0x18 2
  if (s.model m).st = .free then finishCmd c.tag 0x40 0 0 s
  else
    let w := warmModel m s
    finishCmd c.tag (w.1.getD 0) m 0 w.2

/-- The class-0 shards of a model are pinned (R281, R310). -/
def State.pinned (s : State) (m : Nat) : Bool := s.sched.fps.any (fun e => (e.2.res ++ e.2.replaceRes).any (fun r => r.model = m && r.pinned))

/-- A load stream of the model on a slot is ABORTed. -/
def abortLoads (m : Nat) (s : State) : State :=
  forUpTo 144 (fun f t => forUpTo 2 (fun k t =>
    match ((t.frond f).slot k).owner with
    | .load m' _ => if m' = m then abortSlot f k t else t
    | _ => t) t) s

/-- Every shard of a model released; its memory is free again with the record's state (R288, R289). -/
def releaseModel (m : Nat) (s : State) : State :=
  let s := abortLoads m s
  forUpTo 144 (fun f t => if ((t.fp f).res ++ (t.fp f).replaceRes).any (fun r => r.model = m) then
    State.modFp f (fun x => { x with res := x.res.filter (fun r => r.model ≠ m), replaceRes := x.replaceRes.filter (fun r => r.model ≠ m) }) t
    else t) s

/-- MODEL_EVICT. -/
def actModelEvict (c : Cmd) (s : State) : State :=
  let m := c.fld 0x18 2
  match (s.model m).st with
  | .free => finishCmd c.tag 0x40 0 0 s
  | .cold => finishCmd c.tag 0 m 0 s
  | _ =>
    if s.pinned m then finishCmd c.tag 0x43 0 0 s
    else finishCmd c.tag 0 m 0 (State.modModel m (fun x => { x with st := .cold, base := 0, placed := [] }) (releaseModel m s))

/-- A non-FREE context names the model. -/
def State.modelInUse (s : State) (m : Nat) : Bool := s.sched.ctxs.any (fun e => e.2.st ≠ .free && e.2.model.toNat = m)

/-- MODEL_RETIRE. -/
def actModelRetire (c : Cmd) (s : State) : State :=
  let m := c.fld 0x18 2
  if (s.model m).st = .free then finishCmd c.tag 0x40 0 0 s
  else if s.modelInUse m then finishCmd c.tag 0x44 0 0 s
  else finishCmd c.tag 0 m 0 (State.modModel m (fun _ => {}) (releaseModel m s))

/-- MODEL_REGISTER (R288). -/
def execModelRegister (tag : Nat) (s : State) := perform (startCmd 0x10 tag actModelRegister) s
/-- MODEL_WARM (R288). -/
def execModelWarm (tag : Nat) (s : State) := perform (startCmd 0x11 tag actModelWarm) s
/-- MODEL_EVICT (R288). -/
def execModelEvict (tag : Nat) (s : State) := perform (startCmd 0x12 tag actModelEvict) s
/-- MODEL_RETIRE (R288). -/
def execModelRetire (tag : Nat) (s : State) := perform (startCmd 0x13 tag actModelRetire) s

end Sys2Proof.Machine
end

