-- ==== Sys2Proof/Machine/Governor.lean ====
section
/-! DEFINITION. The egress governor: the eight checks, history, rejection, shadow egress, the latency record, the identifier guard
(R303, R350 to R353, R502). -/

namespace Sys2Proof.Machine

/-- What the governor answers: sent; discarded as a shadow frame; rejected at a check and field. -/
inductive GovAnswer where
  | pass | shadow | reject (check field : Nat)
deriving DecidableEq, Repr

/-- Bytes of a field's width code (R351). -/
def govWidth (w : Nat) : Nat := if w = 0 then 1 else if w = 1 then 2 else 4

/-- The value of a used field in a payload; none where it cannot be judged (R351, R352 check 6). -/
def GovField.value (f : GovField) (payload : List Byte) : Option Int :=
  if f.width = 3 ∨ payload.length < f.off + govWidth f.width then none
  else
    let b := slice payload f.off (govWidth f.width)
    let x := leNat (if f.big then b.reverse else b)
    some (if f.sgn then signed (8 * govWidth f.width) x else x)

/-- A limit of a field, read with the field's sign (R351). -/
def GovField.limit (f : GovField) (x : Nat) : Int := if f.sgn then signed 32 x else x

/-- Whether a field is used. -/
def GovField.used (f : GovField) : Bool := f.off ≠ 0xFF

/-- The first used field that fails a condition. -/
def firstField (g : GovChan) (ok : Nat → GovField → Bool) : Option Nat :=
  (List.range 4).find? (fun i => match g.fields[i]? with
    | some f => f.used && !ok i f
    | none => false)

/-- Check 6: within MIN to MAX (R352). -/
def inRange (payload : List Byte) (f : GovField) : Bool :=
  match f.value payload with
  | none => false
  | some v => decide (f.limit f.min ≤ v) && decide (v ≤ f.limit f.max)

/-- Check 7: within DELTA of the last passed value (R352). -/
def inDelta (last : Option (List Int)) (payload : List Byte) (i : Nat) (f : GovField) : Bool :=
  match last, f.value payload with
  | some l, some v => f.delta = 0 || decide ((v - l.getD i 0).natAbs ≤ f.delta)
  | _, _ => true

/-- Check 8: within Moss's envelope (R336, R352). -/
def inEnvelope (env : Option (List (Nat × Nat × Int × Int))) (c : Nat) (payload : List Byte) (i : Nat) (f : GovField) : Bool :=
  match env, f.value payload with
  | some e, some v => e.any (fun x => x.1 = c && x.2.1 = i && decide (x.2.2.1 ≤ v) && decide (v ≤ x.2.2.2))
  | _, _ => false

/-- Moss's envelope for a frame of a pipeline. -/
def State.envelopeFor (s : State) (p : Nat) (frame : Word32) : Option (List (Nat × Nat × Int × Int)) :=
  match (s.moss p).envelope with
  | some (k, e) => if k = frame then some e else none
  | none => none

/-- The frame an actuator frame of pipeline p belongs to: that of the authority in force (R303). -/
def State.govFrame (s : State) (p : Nat) : Word32 :=
  match (s.auth p).decided with
  | some k => k
  | none => (s.pipe p).cur.getD 0xFFFFFFFF

/-- Checks 2 to 8 in order: the first that fails, with its field (R352). -/
def govChecks (c : Nat) (primary : Bool) (ident : Nat) (payload : List Byte) (s : State) : Option (Nat × Nat) :=
  let g := s.govChan c
  let h := s.gov c
  let now := s.gctl.time.toNat
  if primary ≠ (s.auth g.pipe).primary then some (2, 0)
  else if ident ≠ g.id % 2 ^ 30 then some (3, 0)
  else if (match h.times.getLast? with | some t => decide (now < t.toNat + g.minIvl * 1000) | none => false) then some (4, 0)
  else if g.maxCnt ≤ (h.times.filter (fun t => decide (now < t.toNat + g.win * 1000000))).length then some (5, 0)
  else match firstField g (fun _ f => inRange payload f) with
    | some i => some (6, i)
    | none => match firstField g (inDelta h.lastVals payload) with
      | some i => some (7, i)
      | none =>
        if !primary then none
        else match s.envelopeFor g.pipe (s.govFrame g.pipe) with
          | none => some (8, 0)
          | some e => (firstField g (inEnvelope (some e) c payload)).map (fun i => (8, i))

/-- The governor's answer: check 1 first in ACTIVE and SILENT, last in STANDBY (R352, R502); nothing passes while an undervoltage
holds the island in reset (R341, R342). -/
def govAnswer (c : Nat) (primary : Bool) (ident : Nat) (payload : List Byte) (s : State) : GovAnswer :=
  if s.island.inReset then .reject 1 0 else
  match s.island.mode, govChecks c primary ident payload s with
  | .silent, _ => .reject 1 0
  | _, some x => .reject x.1 x.2
  | .active, none => .pass
  | .standby, none => .shadow

/-- A frame enters the channel's history for checks 4, 5 and 7 (R352, R502). -/
def govHistory (c : Nat) (payload : List Byte) (s : State) : State :=
  let g := s.govChan c
  State.modGov c (fun h => { h with
    times := h.times.filter (fun t => decide (s.gctl.time.toNat < t.toNat + 1000000000)) ++ [s.gctl.time],
    lastVals := some (g.fields.map (fun f => (f.value payload).getD 0)) }) s

/-- The bound of R300 in ns: L_ISO × 1.02 + 40 µs × H. -/
def latencyBound (liso h : Nat) : Nat := liso * 102 / 100 + 40000 * (h % 2048)

/-- The void bits of a frame: the newest one's, or those of the frame before it (R303). -/
def C0Rec.voids (c : C0Rec) (k : Word32) : Voids := if c.openFrame = some k then c.openVoid else c.prevVoid

/-- A condition of the promise was broken. -/
def Voids.any (v : Voids) : Bool := v.move || v.safe || v.droop || v.floor || v.fit

/-- The latency record at the first actuator frame of a frame (R300, R303, R314, R315). -/
def latencyRecord (p : Nat) (s : State) : State :=
  match (s.auth p).decided with
  | none => s
  | some k =>
    let l := s.ledgerAt p k
    let c := s.c0 p
    if c.recorded = some k || !(l.valid && l.frame = k && l.stageDone 0) then s
    else
      let lat := s.gctl.time.toNat - (l.tEdge.toNat + (l.tStage.getD 0 0).toNat)
      let b := latencyBound c.liso.toNat c.h.toNat
      let late := decide (100 * lat > c.liso.toNat * 102 + 4000000 * (c.h.toNat % 2048)) && c.h.toNat % 2048 ≠ 0
      let v := c.voids k
      let s := State.modC0 p (fun c => { c with
        recorded := some k, frame := k, l := BitVec.ofNat 32 (min lat 0xFFFFFFFF),
        bound := BitVec.ofNat 32 (min b 0xFFFFFFFF), voidMove := v.move, voidSafe := v.safe, voidDroop := v.droop,
        voidFloor := v.floor, voidFit := v.fit, exceeded := late, valid := true }) s
      if late && !v.any then
        postEvent 6 (some p) (some k) (toLe 4 lat) (reportFrame 0x0121 p k false 0 s)
      else s

/-- A frame has passed, or counts as passed, for EGRESS (R16, R502). -/
def egressPassed (c : Nat) (s : State) : State :=
  let p := (s.govChan c).pipe
  let s := State.modAuth p (fun a => { a with passed := addNew a.passed c }) s
  match (s.auth p).decided with
  | some k => advanceEgress p k s
  | none => s

/-- A rejected frame: counters, 0x0910, and the doubt R353 counts. -/
def govReject (c check fieldNo : Nat) (primary : Bool) (s : State) : State :=
  let g := s.govChan c
  let p := g.pipe
  let k := s.govFrame p
  let isDoubt := primary && check ≠ 1 && !(check = 2 && (s.auth p).decided.isSome)
  let s := State.modGov c (fun h => { h with
    rejected := satInc h.rejected, lastSource := !primary,
    lastField := BitVec.ofNat 8 fieldNo, lastCheck := BitVec.ofNat 8 check }) s
  let s := reportFrame 0x0910 p k isDoubt (c + place check 8 + place fieldNo 16 + place (b2n (!primary)) 24) s
  if isDoubt then doubt p k 8 0x0910 s else s

/-- A frame is submitted on an output of channel c: the answer, and the governor's own state after it (R352, R353, R502). -/
def govSubmit (c : Nat) (primary : Bool) (ident : Nat) (payload : List Byte) (s : State) : GovAnswer × State :=
  match govAnswer c primary ident payload s with
  | .pass =>
    let s := govHistory c payload s
    let s := State.modGov c (fun h => { h with passed := satInc h.passed }) s
    (.pass, egressPassed c (latencyRecord (s.govChan c).pipe s))
  | .shadow =>
    let s := govHistory c payload s
    let s := { s with twin := { s.twin with shadow := satInc s.twin.shadow } }
    (.shadow, egressPassed c s)
  | .reject k f => (.reject k f, govReject c k f primary s)

/-- The VALID channel of KIND CAN an object is an output of, and whether it is the PRIMARY output: exactly these are actuator objects
(R351, R380). -/
def State.canOutput (s : State) (m o : Nat) : Option (Nat × Bool) :=
  (List.range 16).findSome? (fun c =>
    let g := s.govChan c
    if !g.valid || g.eth then none
    else if g.pOut = m && g.pObj = o then some (c, true)
    else if g.mCan = m && g.mObj = o then some (c, false) else none)

/-- The VALID channel whose payloads Moss writes to an object (R336, R351). -/
def State.mossOutput (s : State) (m o : Nat) : Option Nat :=
  (List.range 16).find? (fun c => let g := s.govChan c; g.valid && g.mCan = m && g.mObj = o)

/-- The VALID Ethernet channel a transmit stream is the PRIMARY output of (R351, R521). -/
def State.ethOutput (s : State) (n i : Nat) : Option Nat :=
  (List.range 16).find? (fun c => let g := s.govChan c; g.valid && g.eth && g.pOut = n && g.pObj = i)

/-- The first VALID channel of a kind whose identifier a frame uses (R353). -/
def State.guarded (s : State) (eth : Bool) (ident : Nat) : Option Nat :=
  (List.range 16).find? (fun c => let g := s.govChan c
    g.valid && g.eth = eth && (if eth then g.id % 65536 = ident else g.id % 2 ^ 30 = ident))

/-- Record an identifier-guard rejection (R353). -/
def reportGuard (c source obj : Nat) : State → State := reportCode 0x0911 (c + place source 16 + place obj 24)

end Sys2Proof.Machine
end

