-- ==== Sys2Proof/Machine/Can.lean ====
section
/-! DEFINITION. The CAN FD controllers and the correction of the timebase (R13, R370 to R398, 11). -/

namespace Sys2Proof.Machine

/-! ### The timebase's correction (R13, R386, R523) -/

/-- A discipline source gives an offset: the first lock steps the timebase when no frame clock is enabled; any other correction
is slewed (R13). -/
def timeCorrect (src : TimeSource) (offset : Int) (s : State) : State :=
  let g := s.gctl
  let idle := (List.range 4).all (fun n => !(s.fclk n).en)
  let g := if !g.everLocked && idle then { g with time := g.time + BitVec.ofInt 64 offset, slewLeft := 0 }
           else { g with slewLeft := offset }
  { s with gctl := { g with timeSource := src, locked := true, everLocked := true } }

/-! ### Faults, states and error confinement (R372, R373, R388) -/

/-- Record a CAN fault: controller, object, TEC (R388). -/
def canFault (code : BitVec 16) (m : Nat) (o : Option Nat) (s : State) : State :=
  reportCode code (m + place (o.getD 0xFF) 8 + place (s.canc m).tec.toNat 16) s

/-- Restricted or listen-only operation, by CTRL or by the latch (R373, R381). -/
def State.canQuiet (s : State) (m : Nat) : Bool :=
  (s.canc m).rom || (s.canc m).lom || ((s.island.silent || s.island.inReset) && decide (6 ≤ m))

/-- On the bus: ACTIVE or PASSIVE (R372). -/
def CanRec.onLine (r : CanRec) : Bool := r.st = .active || r.st = .passive

/-- Whether an object is an actuator object (R380). -/
def State.canAct (s : State) (m o : Nat) : Bool := (s.canOutput m o).isSome

/-- Bit timing that may leave INIT (R371, R391, R392). -/
def CanRec.timingOk (r : CanRec) : Bool :=
  let n := r.nbt.toNat
  let d := r.dbt.toNat
  let ts1 := if bits n 15 8 = 0 then 1 else bits n 15 8
  decide (80 ≤ (bits n 7 0 + 1) * (ts1 + bits n 22 16 + 3)) && decide (10 ≤ (bits d 4 0 + 1) * (bits d 12 8 + bits d 19 16 + 3))

/-- CTRL.INIT = 0 in the INIT state (R371, R372). -/
def opCanLeaveInit (m : Nat) (s : State) : State :=
  let r := s.canc m
  if r.st ≠ .init then s
  else if r.timingOk then
    State.modCan m (fun r => { r with st := .integrating, initBit := false, cfgerr := false, tec := 0, rec_ := 0 }) s
  else canFault 0x0507 m none (State.modCan m (fun r => { r with cfgerr := true }) s)

/-- An object when its controller stops (R372, R381). -/
def stopObj (act : Bool) (x : ObjRec) : ObjRec :=
  match x.st with
  | .held => { x with st := .aborted }
  | .pending => { x with st := if act then .withdrawn else .aborted }
  | _ => x

/-- A slave that disciplines the timebase (R386). -/
def CanRec.disciplines (r : CanRec) : Bool := r.role = 1 && r.disc

/-- SYNC falls: a timebase this controller disciplines runs free (R386). -/
def canUnsync (m : Nat) (s : State) : State :=
  if (s.canc m).sync && (s.canc m).disciplines && s.gctl.timeSource = .can then timeFree s else s

/-- The INIT state is reached (R372, R384, R386). -/
def canStop (m : Nat) (s : State) : State :=
  let s := canUnsync m s
  State.modCan m (fun r => { r with
    st := .init, initPending := false, busBusy := false, onBus := none, abortOnBus := false, refPending := false, sync := false,
    tRef := none, prevReceived := none, cycles := 0,
    objs := (r.objs.map (fun e => (e.1, stopObj (s.canAct m e.1) e.2))) }) s

/-- CTRL.INIT = 1: at the next bus idle, or at once in BUSOFF; busy says that another node's frame is on the bus (R372; log 108). -/
def opCanEnterInit (m : Nat) (busy : Bool) (s : State) : State :=
  let s := State.modCan m (fun r => { r with initBit := true, busBusy := r.busBusy || busy }) s
  let r := s.canc m
  if (r.onBus.isSome || r.busBusy) && r.st ≠ .busoff && r.st ≠ .init then State.modCan m (fun r => { r with initPending := true }) s
  else canStop m s

/-- A frame on the bus has ended: a pending INIT takes effect once the bus is idle (R372). -/
def canIdle (m : Nat) (s : State) : State :=
  let r := s.canc m
  if r.onBus.isSome then s
  else if r.initPending then canStop m s
  else State.modCan m (fun r => { r with busBusy := false }) s

/-- BUSOFF leaves for RECOVERING (R372). -/
def opBorec (m : Nat) (s : State) : State :=
  if (s.canc m).st = .busoff then State.modCan m (fun r => { r with st := .recovering }) s else s

/-- 11 recessive bits, an idle bus: ACTIVE, and a pending INIT takes effect (R372). -/
def opCanIntegrated (m : Nat) (s : State) : State :=
  canIdle m (if (s.canc m).st = .integrating then State.modCan m (fun r => { r with st := .active, integratedAt := s.gctl.time }) s else s)

/-- 128 occurrences of 11 recessive bits: ACTIVE with both counters 0 (R372). -/
def opCanRecovered (m : Nat) (s : State) : State :=
  canIdle m (if (s.canc m).st = .recovering then
    State.modCan m (fun r => { r with st := .active, tec := 0, rec_ := 0, integratedAt := s.gctl.time }) s else s)

/-- What the counters make of the state: BUSOFF, PASSIVE or ACTIVE (R372). -/
def canConfine (m : Nat) (s : State) : State :=
  let r := s.canc m
  if !r.onLine then s
  else if 255 < r.tec.toNat then
    let s := State.modCan m (fun r => { r with
      st := if r.boauto then .recovering else .busoff, onBus := none, abortOnBus := false,
      objs := r.objs.map (fun e => (e.1, if e.2.st = .pending && s.canAct m e.1 then { e.2 with st := .withdrawn } else e.2)) }) s
    canFault 0x0502 m none s
  else if r.st = .active && (decide (127 < r.tec.toNat) || decide (127 < r.rec_.toNat)) then
    canFault 0x0501 m none (State.modCan m (fun r => { r with st := .passive }) s)
  else if r.st = .passive && decide (r.tec.toNat ≤ 127) && decide (r.rec_.toNat ≤ 127) then
    State.modCan m (fun r => { r with st := .active }) s
  else s

/-- TEC up by n, held at 256; REC up by n, held at 255 (R390). -/
def tecAdd (n : Nat) (r : CanRec) : CanRec := { r with tec := BitVec.ofNat 9 (min 256 (r.tec.toNat + n)) }
def recAdd (n : Nat) (r : CanRec) : CanRec := { r with rec_ := BitVec.ofNat 8 (min 255 (r.rec_.toNat + n)) }

/-- The counters' change for an error (ISO 11898-1; log 16). -/
def errorCount : CanError → CanRec → CanRec
  | .txError => tecAdd 8
  | .txAckPassive => id
  | .txArbStuff => id
  | .rxError => recAdd 1
  | .rxPrimary => recAdd 8
  | .txDominant8 => tecAdd 8
  | .rxDominant8 => recAdd 8

/-- An attempt on the bus fails: retried, or ABORTED with SINGLE or after an abort (R377). -/
def canAttemptFailed (m : Nat) (s : State) : State :=
  let r := s.canc m
  match r.onBus with
  | none => s
  | some o =>
    let s := State.modCan m (fun r => { r with onBus := none, abortOnBus := false }) s
    if o = 128 then State.modCan m (fun r => { r with refPending := true }) s
    else State.modObj m o (fun x =>
      if x.st = .pending && (x.flags.getLsbD 5 || r.abortOnBus) then { x with st := .aborted } else x) s

/-- Whether the error ends the controller's own transmission. -/
def errorOfTx : CanError → Bool
  | .txError => true | .txAckPassive => true | .txArbStuff => true | _ => false

/-- Object FLAGS bits (R374). -/
def ObjRec.fdf (x : ObjRec) : Bool := x.flags.getLsbD 0
def ObjRec.brs (x : ObjRec) : Bool := x.flags.getLsbD 1
def ObjRec.tt (x : ObjRec) : Bool := x.flags.getLsbD 3
def ObjRec.unsync (x : ObjRec) : Bool := x.flags.getLsbD 4

/-- RTR, which a classical frame alone has (R370, R374). -/
def ObjRec.rtr (x : ObjRec) : Bool := x.id.getLsbD 30 && !x.fdf

/-- The payload an object sends: as many bytes as its DLC says, none in a remote frame. -/
def ObjRec.payload (x : ObjRec) : List Byte :=
  if x.rtr then [] else treadN 0 x.data 0 (canLen x.fdf x.dlc.toNat)

/-- The frame an object sends (R374). -/
def ObjRec.toFrame (x : ObjRec) (passive : Bool) : CanFrame :=
  { id := x.id.setWidth 29, ide := x.id.getLsbD 29, rtr := x.rtr, fdf := x.fdf, brs := x.fdf && x.brs,
    esi := x.fdf && passive, dlc := x.dlc, data := x.payload }

/-! ### Payloads that wait for an output (R636) -/

/-- The Rhizome writes PLAN's frame to a CAN PRIMARY output: an old request ends first (R319, R636). -/
def planWriteCan (c : Nat) (payload : List Byte) (frame : Word32) (s : State) : State :=
  let g := s.govChan c
  let s := abortObj g.pOut g.pObj s
  if (s.canc g.pOut).onBus = some g.pObj then
    State.modAuth g.pipe (fun a => { a with planDue := a.planDue.filter (fun x => x.1 ≠ c) ++ [(c, payload, frame)] }) s
  else requestObj g.pOut g.pObj
    (State.modObj g.pOut g.pObj (fun x => { x with data := bytesTab (payload.take 64) }) s)

/-- An object is free again: the payload that waited for it is written (R636). -/
def writeDue (m o : Nat) (s : State) : State :=
  match s.canOutput m o, s.mossOutput m o with
  | some (c, true), _ =>
    let p := (s.govChan c).pipe
    match (s.auth p).planDue.find? (fun x => x.1 = c) with
    | some (_, d, k) => planWriteCan c d k (State.modAuth p (fun a => { a with planDue := a.planDue.filter (fun x => x.1 ≠ c) }) s)
    | none => s
  | _, none => s
  | _, some c =>
    let p := (s.govChan c).pipe
    let r := s.moss p
    if r.dueChans.contains c then
      let s := State.modMoss p (fun r => { r with dueChans := r.dueChans.filter (fun x => x ≠ c) }) s
      match r.payloads.find? (fun x => x.1 = c) with
      | some x => mossWrite c x.2 p s
      | none => s
    else s

/-! ### Time services (R382 to R386) -/

/-- A reference message starts a new cycle; SYNC rises, or one more is counted (R382, R384, R398). -/
def canNewCycle (sof : Word64) (own : Bool) (r : CanRec) : CanRec :=
  { r with tRef := some sof, master := own, sync := true, cycles := if r.sync then satInc r.cycles else 0,
           prevReceived := if own then none else some sof }

/-- Whether a received frame is a reference message of this controller's bus (R382). -/
def CanRec.isReference (r : CanRec) (f : CanFrame) : Bool :=
  f.ide = r.refIde &&
  (if r.role = 1 then f.id.toNat = r.ttRef.toNat % 2 ^ 29
   else r.role = 2 && f.id.toNat / 8 = r.ttRef.toNat % 2 ^ 29 / 8)

/-- The offset a reference message gives a disciplining slave (R386). -/
def CanRec.offset (r : CanRec) (f : CanFrame) (sof : Word64) : Option Int :=
  match r.prevReceived with
  | some t =>
    let x := field f.data 0 8
    if r.disciplines && decide (8 ≤ f.data.length) && x ≠ 2 ^ 64 - 1 && decide (sof.toNat - t.toNat ≤ r.ttTimeout.toNat)
    then some ((x : Int) - t.toNat) else none
  | none => none

/-- A received reference message (R382, R384, R386). -/
def canReference (m : Nat) (f : CanFrame) (sof : Word64) (s : State) : State :=
  let r := s.canc m
  if !r.isReference f then s
  else
    let off := r.offset f sof
    let s := State.modCan m (fun r => { canNewCycle sof false r with refPending := false }) s
    let s := if r.disciplines then { s with gctl := { s.gctl with timeSource := .can } } else s
    match off with
    | some d => timeCorrect .can d s
    | none => s

/-- The RX ring's object of an index (R375). -/
def CanRec.isRx (r : CanRec) (o : Nat) : Bool := decide (r.rxFirst.toNat ≤ o) && decide (o < r.rxFirst.toNat + r.rxCount.toNat)

/-- Store a received frame, or drop it when the ring is full (R374, R375). -/
def canStore (m : Nat) (f : CanFrame) (sof : Word64) (s : State) : State :=
  let r := s.canc m
  if (r.rxPut - r.rxGet).toNat = r.rxCount.toNat then
    let s := State.modCan m (fun r => { r with rxLost := satInc r.rxLost, rxDropped := true }) s
    if r.rxDropped then s else canFault 0x0503 m none s
  else
    let o := r.rxFirst.toNat + r.rxPut.toNat % r.rxCount.toNat
    let id := f.id.toNat + place (b2n f.ide) 29 + place (b2n f.rtr) 30
    let fl := b2n f.fdf + place (b2n f.brs) 1 + place (b2n f.esi) 2
    State.modCan m (fun r => { (r.modObj o (fun x => { x with
      id := BitVec.ofNat 32 id, dlc := f.dlc, flags := BitVec.ofNat 6 fl, time := sof, data := bytesTab f.data })) with
      rxPut := r.rxPut + 1 }) s

/-- REC after a frame received without error: down by one, or from above 127 to a value of 119 to 127 (ISO 11898-1; log 16). -/
def recReceived (m : Nat) (s : State) : State :=
  let r := s.canc m
  if s.canQuiet m then s
  else if 127 < r.rec_.toNat then
    let v := draw 4 s
    State.modCan m (fun r => { r with rec_ := BitVec.ofNat 8 (119 + v.1.toNat % 9) }) v.2
  else State.modCan m (fun r => { r with rec_ := r.rec_ - (if r.rec_ = 0 then 0 else 1) }) s

/-- A frame received without error, whose start-of-frame lay age ns ago (R372, R375, R382, R386, R335). -/
def opCanReceive (m : Nat) (f : CanFrame) (age : Word32) (s : State) : State :=
  if !(s.canc m).onLine then s
  else
    let sof := s.gctl.time - age.setWidth 64
    let s := canConfine m (recReceived m s)
    let s := canStore m f sof s
    let s := if 6 ≤ m then State.modCan m (fun r => { r with mossFrames := r.mossFrames ++ [f] }) s else s
    canIdle m (canReference m f sof s)

/-! ### Requests and transmission (R377 to R381) -/

/-- Apply f to the objects named by a word of 32 bits, RX objects left out (R395). -/
def overObjs (m word : Nat) (w : Word32) (f : Nat → State → State) (s : State) : State :=
  forUpTo 32 (fun i t => if w.getLsbD i && !(t.canc m).isRx (32 * word + i) then f (32 * word + i) t else t) s

/-- TXREQ (R377). -/
def opTxreq (m word : Nat) (w : Word32) (s : State) : State :=
  overObjs m word w (fun o t => requestObj m o t) s

/-- TXABORT (R377). -/
def opTxabort (m word : Nat) (w : Word32) (s : State) : State := overObjs m word w (fun o t => abortObj m o t) s

/-- RX_GET moves on within RX_GET to RX_PUT (R375). -/
def opCanRxGet (m : Nat) (v : Word32) (s : State) : State :=
  State.modCan m (fun r =>
    if (v - r.rxGet).toNat ≤ (r.rxPut - r.rxGet).toNat then { r with rxGet := v, rxDropped := r.rxDropped && v = r.rxGet } else r) s

/-- RXCFG in the INIT state (R375, R393). -/
def opCanRxcfg (m : Nat) (v : Word32) (s : State) : State :=
  let first := bits v.toNat 6 0
  let count := bits v.toNat 15 8
  State.modCan m (fun r => if r.st = .init && decide (first + count ≤ 128) then
    { r with rxFirst := BitVec.ofNat 7 first, rxCount := BitVec.ofNat 8 count, rxPut := 0, rxGet := 0, rxDropped := false } else r) s

/-- The instant of a time-triggered object's mark in the current cycle, if it lies at or after its request (R384). -/
def CanRec.markAt (r : CanRec) (x : ObjRec) : Option Nat :=
  match r.tRef with
  | some t => if x.heldAt.toNat ≤ t.toNat + x.mark.toNat then some (t.toNat + x.mark.toNat) else none
  | none => none

/-- Whether an object's time condition holds (R384). -/
def CanRec.timeOk (r : CanRec) (x : ObjRec) (now : Nat) : Bool :=
  !x.tt || (if r.sync then (match r.markAt x with | some d => decide (d ≤ now) | none => false) else x.unsync)

/-- A HELD object is submitted: PENDING, REJECTED, or checked by the governor (R378, R380, R384, R502). -/
def opCanSubmit (m o : Nat) (s : State) : State :=
  let r := s.canc m
  let x := r.obj o
  if !(x.st = .held && r.onLine && !s.canQuiet m && r.timeOk x s.gctl.time.toNat) then s
  else
    let due := if x.tt && r.sync then (r.markAt x).map (BitVec.ofNat 64) else none
    let ident := x.id.toNat % 2 ^ 30
    let set : ObjState → State → State := fun st => State.modObj m o (fun x => { x with st := st, markDue := due })
    match s.canOutput m o with
    | some (c, primary) =>
      let a := govAnswer c primary ident x.payload s
      let s := set (match a with | .pass => .pending | .shadow => .withdrawn | .reject _ _ => .rejected) s
      (govSubmit c primary ident x.payload s).2
    | none =>
      match s.guarded false ident with
      | some c => reportGuard c m o (set .rejected s)
      | none => set .pending s

/-- The arbitration field of a frame as a number: base identifier, extended after standard, extended bits, remote after data,
object number (R379). -/
def arbKey (id : Nat) (ide rtr : Bool) (o : Nat) : Nat :=
  let base := if ide then id / 2 ^ 18 else id % 2 ^ 11
  let ext := if ide then id % 2 ^ 18 else 0
  (((base * 2 + b2n ide) * 2 ^ 18 + ext) * 2 + b2n rtr) * 256 + o

/-- The frames the controller may offer: PENDING objects and its own reference message, by arbitration key. -/
def CanRec.offers (r : CanRec) : List (Nat × Nat) :=
  (r.objs.filter (fun e => e.2.st = .pending)).map (fun e =>
    (arbKey (e.2.id.toNat % 2 ^ 29) (e.2.id.getLsbD 29) e.2.rtr e.1, e.1)) ++
  (if r.refPending then [(arbKey (r.ttRef.toNat % 2 ^ 29) r.refIde false 128, 128)] else [])

/-- The least of a list of keyed numbers. -/
def leastKey : List (Nat × Nat) → Option (Nat × Nat)
  | [] => none
  | x :: l => match leastKey l with
    | none => some x
    | some y => if y.1 < x.1 then some y else some x

/-- The frame of the controller's own reference message (R383). -/
def CanRec.refFrame (r : CanRec) : CanFrame :=
  { id := BitVec.ofNat 29 r.ttRef.toNat, ide := r.refIde, rtr := false, fdf := false, brs := false, esi := false, dlc := 8,
    data := match r.prevSent with | some t => toLe 8 t.toNat | none => List.replicate 8 0xFF }

/-- The pad of the controller's TXD is held: its frames do not reach the bus (R570). -/
def State.txdHeld (s : State) (m : Nat) : Bool := if m < 6 then s.pwr.holdSoc else s.pwr.holdSaf

/-- An arbitration attempt starts with the frame that would win (R379, R381). -/
def opCanArbitration (m : Nat) (s : State) : State :=
  let r := s.canc m
  if !(r.onLine && !s.canQuiet m && r.onBus = none && !r.initPending) then s
  else match leastKey r.offers with
    | none => s
    | some (_, o) =>
      let s := State.modCan m (fun r => { r with onBus := some o, onBusAt := s.gctl.time, busBusy := false, refPending := r.refPending && o ≠ 128 }) s
      let s := State.modObj m o (fun x => { x with markDue := none }) s
      if s.txdHeld m then s else
      emit (.canFrame m (if o = 128 then none else some o)
        (if o = 128 then r.refFrame else (r.obj o).toFrame (r.st = .passive))) s

/-- The frame on the bus ends: SENT, or the attempt failed, and after a lost arbitration another node's frame is on the bus (R372, R374,
R377, R382, R384). -/
def opCanTxDone (m : Nat) (ok : Bool) (s : State) : State :=
  let r := s.canc m
  match r.onBus with
  | none => s
  | some o =>
    let s :=
      if !ok then State.modCan m (fun r => { r with busBusy := true }) (canAttemptFailed m s)
      else
        let s := State.modCan m (fun r => { r with
          onBus := none, abortOnBus := false, tec := r.tec - (if r.tec = 0 then 0 else 1) }) s
        let s := canConfine m s
        if o = 128 then State.modCan m (fun r => { canNewCycle r.onBusAt true r with prevSent := some r.onBusAt }) s
        else State.modObj m o (fun x => if x.st = .pending then { x with st := .sent, time := r.onBusAt } else x) s
    let s := if o = 128 || ((s.canc m).obj o).st = .pending then s else writeDue m o s
    if ok then canIdle m s else s

/-- A bus error: the counters, the attempt it ends, and the state (R372, R377; log 16). -/
def opCanError (m : Nat) (k : CanError) (s : State) : State :=
  let r := s.canc m
  if !r.onLine || s.canQuiet m then s
  else
    let o := r.onBus
    let s := if errorOfTx k then canAttemptFailed m s else s
    let s := canConfine m (State.modCan m (errorCount k) s)
    let s := if errorOfTx k then (match o with
      | some x => if x = 128 || ((s.canc m).obj x).st = ObjState.pending then s else writeDue m x s
      | none => s) else s
    canIdle m s

/-- A potential master's reference message falls due: TIMEOUT after integration with none received, or at CYCLE (R382, R383). -/
def opCanReferenceSend (m : Nat) (s : State) : State :=
  let r := s.canc m
  let now := s.gctl.time.toNat
  let due := match r.tRef with
    | none => decide (r.integratedAt.toNat + r.ttTimeout.toNat ≤ now)
    | some t => decide (t.toNat + r.ttCycle.toNat ≤ now)
  if r.role = 2 && r.onLine && !s.canQuiet m && due && r.onBus ≠ some 128 then
    State.modCan m (fun r => { r with refPending := true }) s
  else s

/-- The cycle time exceeds TIMEOUT: SYNC falls, 0x0505, and a disciplined timebase runs free (R384, R386). -/
def opCanSyncTimeout (m : Nat) (s : State) : State :=
  let r := s.canc m
  let late := match r.tRef with | some t => decide (t.toNat + r.ttTimeout.toNat < s.gctl.time.toNat) | none => false
  if r.sync && late then
    let s := canFault 0x0505 m none (State.modCan m (fun r => { r with sync := false, cycles := 0 }) (canUnsync m s))
    s
  else s

/-- A time-triggered frame has not started by MARK + TTWIN (R385). -/
def opCanTtMissed (m o : Nat) (s : State) : State :=
  let r := s.canc m
  let x := r.obj o
  let late := match x.markDue with | some d => decide (d.toNat + r.ttWin.toNat ≤ s.gctl.time.toNat) | none => false
  if x.st = .pending && r.onBus ≠ some o && r.ttWin ≠ 0 && late then
    canFault 0x0504 m (some o) (State.modObj m o (fun x => { x with st := .missed }) s)
  else s

/-! ### The commands -/

/-- CAN_LEAVE_INIT (R371, R372). -/
def execCanLeaveInit (m : CanNo) (s : State) := performCanReg m.val (opCanLeaveInit m.val) s
/-- CAN_ENTER_INIT (R372). -/
def execCanEnterInit (m : InitWrite) (s : State) := performCanReg m.can.val (opCanEnterInit m.can.val m.busy) s
/-- BOREC (R372, R389). -/
def execBorec (m : CanNo) (s : State) := performCanReg m.val (opBorec m.val) s
/-- CAN_INTEGRATION_DONE (R372). -/
def execCanIntegrationDone (m : CanNo) (s : State) := performCan m.val (opCanIntegrated m.val) s
/-- CAN_RECOVERY_DONE (R372). -/
def execCanRecoveryDone (m : CanNo) (s : State) := performCan m.val (opCanRecovered m.val) s
/-- CAN_BUS_ERROR (R372). -/
def execCanBusError (m : CanNo) (kind : CanError) (s : State) := performCan m.val (opCanError m.val kind) s
/-- TXREQ (R377). -/
def execTxreq (m : CanNo) (word : Fin 4) (bits : Word32) (s : State) := performCanReg m.val (opTxreq m.val word.val bits) s
/-- TXABORT (R377). -/
def execTxabort (m : CanNo) (word : Fin 4) (bits : Word32) (s : State) := performCanReg m.val (opTxabort m.val word.val bits) s
/-- CAN_RX_GET (R375). -/
def execCanRxGet (m : CanNo) (value : Word32) (s : State) := performCanReg m.val (opCanRxGet m.val value) s
/-- CAN_RXCFG_WRITE (R375). -/
def execCanRxcfgWrite (m : CanNo) (value : Word32) (s : State) := performCanReg m.val (opCanRxcfg m.val value) s
/-- CAN_SUBMIT (R378). -/
def execCanSubmit (m : CanNo) (o : ObjNo) (s : State) := performCan m.val (opCanSubmit m.val o.val) s
/-- CAN_ARBITRATION (R379). -/
def execCanArbitration (m : CanNo) (s : State) := performCan m.val (opCanArbitration m.val) s
/-- CAN_TX_DONE (R377). -/
def execCanTxDone (m : CanNo) (ok : Bool) (s : State) := performCan m.val (opCanTxDone m.val ok) s
/-- CAN_REFERENCE_SEND (R382). -/
def execCanReferenceSend (m : CanNo) (s : State) := performCan m.val (opCanReferenceSend m.val) s
/-- CAN_SYNC_TIMEOUT (R384). -/
def execCanSyncTimeout (m : CanNo) (s : State) := performCan m.val (opCanSyncTimeout m.val) s
/-- CAN_TT_MISSED (R385). -/
def execCanTtMissed (m : CanNo) (o : ObjNo) (s : State) := performCan m.val (opCanTtMissed m.val o.val) s

end Sys2Proof.Machine
end

