-- ==== Sys2Proof/Machine/EthTx.lean ====
section
/-! DEFINITION. Ethernet transmit streams and actuator frames (R520 to R522, R545). -/

namespace Sys2Proof.Machine

/-- Reset value of a template byte: TTL 0x40, every other 0 (R545). -/
def tmplReset (o : Nat) : Byte := if o = 0x1C then 0x40 else 0
def TxRec.tmplByte (x : TxRec) (o : Nat) : Byte := tget (tmplReset o) x.tmpl o
/-- A little-endian template field. -/
def TxRec.tmplField (x : TxRec) (o n : Nat) : Nat := leNat ((List.range n).map (fun i => x.tmplByte (o + i)))
def TxRec.dport (x : TxRec) : Nat := x.tmplField 0x1A 2
/-- Priority of a stream's frames: of its tag, 0 untagged (R517, R545). -/
def TxRec.prio (x : TxRec) : Nat := if x.tmplField 6 2 = 0 then 0 else bits (x.tmplField 6 2) 15 13

/-- The template a frame's headers are made of (R520, R545). -/
def TxRec.header (x : TxRec) : List Byte := (List.range 0x1E).map x.tmplByte

/-- Whether the gate of a priority is open: as the operational list's current entry says, every gate with LEN = 0 (R522). -/
def EthRec.gateOpen (r : EthRec) (prio : Nat) : Bool :=
  r.operLen = 0 || (tget 0xFF000000 r.operTab r.operEntry).getLsbD (24 + prio)

/-- SEND: a frame of an actuator stream meets the governor, any other the identifier guard (R353, R520, R521). -/
def opEthSend (n i len : Nat) (s : State) : State :=
  let x := (s.port n).txs i
  if x.st = .pending || len = 0 || decide (256 < len) then s
  else
    let set : TxState → State → State := fun st => State.modTx n i (fun x => { x with st := st, len := BitVec.ofNat 9 len })
    let payload := treadN 0 x.payload 0 len
    match s.ethOutput n i with
    | some c =>
      let a := govAnswer c true x.dport payload s
      let s := set (match a with | .pass => .pending | .shadow => .withdrawn | .reject _ _ => .rejected) s
      (govSubmit c true x.dport payload s).2
    | none =>
      match s.guarded true x.dport with
      | some c => reportGuard c (0x10 + n) i (set .rejected s)
      | none => set .pending s

/-- The Rhizome writes PLAN's frame to an Ethernet PRIMARY output; a PENDING stream is waited for (R319, R636). -/
def planWriteEth (c : Nat) (payload : List Byte) (frame : Word32) (s : State) : State :=
  let g := s.govChan c
  if ((s.port g.pOut).txs g.pObj).st = .pending then
    State.modAuth g.pipe (fun a => { a with planDue := a.planDue.filter (fun x => x.1 ≠ c) ++ [(c, payload, frame)] }) s
  else
    let s := State.modTx g.pOut g.pObj (fun x => { x with payload := twriteN 0 x.payload 0 (payload.take 256) }) s
    opEthSend g.pOut g.pObj (min payload.length 256) s

/-- PLAN's frame for a channel goes to its PRIMARY output (R319). -/
def planWrite (c : Nat) (payload : List Byte) (frame : Word32) (s : State) : State :=
  if (s.govChan c).eth then planWriteEth c payload frame s else planWriteCan c payload frame s

/-- A stream of an actuator output is free again: the payload that waited for it is written and sent (R636). -/
def ethFreed (n i : Nat) (s : State) : State :=
  match s.ethOutput n i with
  | none => s
  | some c =>
    let p := (s.govChan c).pipe
    match (s.auth p).planDue.find? (fun y => y.1 = c) with
    | some (_, d, k) => planWriteEth c d k (State.modAuth p (fun a => { a with planDue := a.planDue.filter (fun y => y.1 ≠ c) }) s)
    | none => s

/-- A queued frame leaves on the link when its gate is open: SENT, and counted (R520, R522, R542); the payload that waited for
the stream follows (R636). -/
def opEthTxDone (n i : Nat) (s : State) : State :=
  let r := s.port n
  let x := r.txs i
  if !(x.st = .pending && r.link = .up && r.gateOpen x.prio) then s
  else
    let s := State.modPort n (fun r => { r with txOk := satInc r.txOk }) (State.modTx n i (fun x => { x with st := .sent }) s)
    ethFreed n i (emit (.ethFrame n x.prio x.header (treadN 0 x.payload 0 x.len.toNat)) s)

/-- ETH_TX_SEND (R520, R521). -/
def execEthTxSend (n : EthPort) (i : TxStream) (len : Word32) (s : State) := performBar (opEthSend n.val i.val (bits len.toNat 8 0)) s
/-- ETH_TX_DONE (R520). -/
def execEthTxDone (n : EthPort) (i : TxStream) (s : State) := perform (opEthTxDone n.val i.val) s

end Sys2Proof.Machine
end

