-- ==== Sys2Proof/Machine/Ingest.lean ====
section
/-! DEFINITION. Ingest: CSI-2 packets, UDP payloads, host submissions, the ingest deadline, and the ROI tables (R51 to R62, R76 to R80, R95). -/

namespace Sys2Proof.Machine

/-! ### CSI-2 (R52, R53, R55, R57, R59, R60) -/

/-- The stream bound to a port and virtual channel (R59). -/
def State.csiStream (s : State) (port vc : Nat) : Option (Nat × PipeBlob × StreamCfg) :=
  (List.range 8).findSome? (fun p => match (s.pipe p).blob with
    | some b => (b.streams.find? (fun c => c.source = 0 && c.port = port && c.vc = vc)).map (fun c => (p, b, c))
    | none => none)

/-- The sample a stream is receiving. -/
def State.openSample (s : State) (p st : Nat) : Option Sample :=
  s.loop.samples.find? (fun x => x.pipe = p && x.stream = st && x.receiving)

/-- A sample stops being received. -/
def closeSample (p st : Nat) (k : Word32) : State → State := State.modSample p st k (fun x => { x with receiving := false })

/-- An uncorrectable header: counted, and every sample open on the port is corrupt with reason HDR (R60). -/
def headerLost (port : Nat) (s : State) : State :=
  let s := State.modCsi port (fun r => { r with eccUncorr := satInc r.eccUncorr }) s
  (List.range 16).foldl (fun t vc => match t.csiStream port vc with
    | some (p, _, c) => match t.openSample p c.stream with
      | some x => corruptSample p c.stream x.frame 0x01 t
      | none => t
    | none => t) s

/-- A packet header's ECC: a correction is counted, an uncorrectable packet discarded (R60, R96). -/
def withHeader (port : Nat) (ecc : Ecc) (f : State → State) (s : State) : State :=
  match ecc with
  | .good => f s
  | .corrected => f (State.modCsi port (fun r => { r with eccCorr := satInc r.eccCorr }) s)
  | .uncorrectable => headerLost port s

/-- The number k of the frame to which an arrival at time t belongs, given LEAD: the frame whose interval holds it (R14, R52). -/
def FclkRec.frameAt (c : FclkRec) (t lead : Nat) : Int :=
  let e0 : Int := c.start.toInt + (c.next * c.inForce.toNat : Nat)
  let x : Int := (t : Int) + lead
  if x < e0 then (c.next : Int) - 1 else (c.next : Int) + (x - e0) / (max 1 c.period.toNat : Nat)

/-- Data is discarded until the next Frame Start and counted once (R60). -/
def extraData (st : Nat) : State → State :=
  State.modStream st (fun r => { r with ignoring := true, extra := satInc r.extra })

/-- A Frame Start opens the sample of its frame, or introduces extra data (R52, R60). -/
def startSample (p : Nat) (c : StreamCfg) (after : Option Word32) (s : State) : State :=
  let r := s.pipe p
  let k := (s.fclk r.fclk).frameAt s.gctl.time.toNat c.lead
  let kw := BitVec.ofInt 32 k
  let later := match after with | some a => decide (0 < (kw - a).toInt) | none => true
  if !r.running || k < 0 || decide ((kw - r.firstFrame).toInt < 0) || !later then extraData c.stream s
  else
    let s := State.modStream c.stream (fun r => { r with ignoring := false }) s
    match s.sample p c.stream kw with
    | some x => if x.settled then extraData c.stream s else State.modSample p c.stream kw (fun x => { x with receiving := true }) s
    | none => addSample { pipe := p, stream := c.stream, frame := kw, receiving := true } s

/-- CSI_FRAME_START: a sample still open is TRUNCATED first (R60). -/
def opFrameStart (port vc : Nat) (s : State) : State :=
  match s.csiStream port vc with
  | none => s
  | some (p, _, c) => match s.openSample p c.stream with
    | some x => startSample p c (some x.frame) (corruptSample p c.stream x.frame 0x04 (closeSample p c.stream x.frame s))
    | none => startSample p c none s

/-- Data of a line that lies beyond the input slot is not written (R53). -/
def fitSlot (c : StreamCfg) (o : Nat) (d : List Byte) : List Byte := d.take (c.inSlotSize - o)

/-- A refused ingest write settles the sample with WRITE_ERR, and the rest of its data is discarded (R55). -/
def ingestRefused (p st : Nat) (k : Word32) (s : State) : State :=
  corruptSample p st k 0x0B (State.modStream st (fun r => { r with ignoring := true }) (closeSample p st k s))

/-- The first reason a line gives: its header's data type, its first byte beyond the slot, then its length and number, and the CRC at its
end; 0 for none (R53, R55, R57; log 92). -/
def lineReason (c : StreamCfg) (x : Sample) (dt : Nat) (d : List Byte) (crcOk : Bool) : Nat :=
  if dt ≠ c.dt then 0x03
  else if c.inSlotSize < x.lines * lineBytes c + d.length then 0x06
  else if d.length ≠ lineBytes c ∨ c.height ≤ x.lines then 0x03
  else if !crcOk then 0x02 else 0

/-- A line of the open sample: stored as it arrives, as far as the slot goes, then judged by the first reason found (R53, R55, R57). -/
def storeLine (p : Nat) (b : PipeBlob) (c : StreamCfg) (x : Sample) (dt : Nat) (d : List Byte) (crcOk : Bool) (s : State) : State :=
  let o := x.lines * lineBytes c
  let fits := fitSlot c o d
  let bad := lineReason c x dt d crcOk
  let s := State.modSample p c.stream x.frame (fun y => { y with anyData := true, lines := y.lines + 1, bytes := y.bytes + fits.length }) s
  let w := writeStop 0xA0 b.cls (inSlot c x.frame + o) (clean fits) s
  if w.1.isSome then ingestRefused p c.stream x.frame w.2
  else if bad ≠ 0 then corruptSample p c.stream x.frame bad w.2 else w.2

/-- CSI_LONG_PACKET: embedded and user-defined types are discarded, unbound packets counted (R51, R57, R97). -/
def opLongPacket (port vc dt : Nat) (d : List Byte) (crcOk : Bool) (s : State) : State :=
  match s.csiStream port vc with
  | none => State.modCsi port (fun r => { r with unbound := satInc r.unbound }) s
  | some (p, b, c) =>
    if dt = 0x12 ∨ (0x30 ≤ dt ∧ dt ≤ 0x37) ∨ (s.stream c.stream).ignoring then s
    else match s.openSample p c.stream with
      | some x => storeLine p b c x dt d crcOk s
      | none => s

/-- CSI_FRAME_END: the open sample is complete, or corrupt with too few lines (R55). -/
def opFrameEnd (port vc : Nat) (s : State) : State :=
  match s.csiStream port vc with
  | none => s
  | some (p, _, c) => match s.openSample p c.stream with
    | none => s
    | some x =>
      let s := closeSample p c.stream x.frame s
      if x.lines < c.height then corruptSample p c.stream x.frame 0x03 s else settle p c.stream x.frame 0 s

/-! ### The deadline (R54) -/

/-- One unsettled sample at the deadline: MISSING with no data, else TRUNCATED and the rest discarded (R54). -/
def deadlineSample (p : Nat) (x : Sample) (s : State) : State :=
  if x.anyData then
    corruptSample p x.stream x.frame 0x04 (State.modStream x.stream (fun r => { r with ignoring := true }) (closeSample p x.stream x.frame s))
  else corruptSample p x.stream x.frame 0x05
    (if x.receiving then State.modStream x.stream (fun r => { r with ignoring := true }) (closeSample p x.stream x.frame s) else s)

/-- INGEST_DEADLINE of the oldest open frame whose deadline has come with samples unsettled (R54). -/
def opIngestDeadline (p : Nat) (s : State) : State :=
  match (s.pipe p).blob with
  | none => s
  | some b =>
    match (s.openFrames p).find? (fun l => decide (l.tEdge.toNat + b.ingestDl ≤ s.gctl.time.toNat) &&
        (s.frameSamples p l.frame).any (fun x => !x.settled)) with
    | none => s
    | some l => ((s.frameSamples p l.frame).filter (fun x => !x.settled)).foldl (fun t x => deadlineSample p x t) s

/-! ### UDP and host streams (R61, R62, R99) -/

/-- A record of n payload bytes is stored at the sample's next free byte, up to the slot's end; the rows of a raw image count as they come
into memory (R53, R61, R64). -/
def appendData (init p : Nat) (b : PipeBlob) (c : StreamCfg) (x : Sample) (n : Nat) (d : List Byte) (s : State) : State :=
  let fits := fitSlot c x.bytes d
  let total := x.payload + n
  let rows := if c.kind = 0 && fits.length = d.length then min c.height (total / max 1 (lineBytes c)) else x.lines
  let s := State.modSample p c.stream x.frame (fun y => { y with
    anyData := true, bytes := y.bytes + fits.length, payload := total, lines := rows }) s
  let w := writeStop init b.cls (inSlot c x.frame + x.bytes) (clean fits) s
  if w.1.isSome then ingestRefused p c.stream x.frame w.2
  else if fits.length < d.length then corruptSample p c.stream x.frame 0x06 w.2 else w.2

/-- The record of a payload: arrival time, length, the payload padded to 16 bytes (R61). -/
def udpRecord (t : Word64) (d : List Byte) : List Byte :=
  toLe 8 t.toNat ++ toLe 4 d.length ++ List.replicate 4 0 ++ slice d 0 (cdiv d.length 16 * 16)

/-- The open frame whose window of the stream holds the time now, and its sample; DEDUCED: edge k is the time its edge fired, T_EDGE
(R17, R61; log 93). -/
def State.udpWindow (s : State) (p : Nat) (c : StreamCfg) : Option Sample :=
  match (s.pipe p).cur with
  | none => none
  | some k =>
    let l := s.ledgerAt p k
    let t := s.gctl.time.toNat
    if (s.pipe p).running && decide (l.tEdge.toNat + c.winStart ≤ t) && decide (t < l.tEdge.toNat + c.winStart + c.winLen) then
      s.sample p c.stream k
    else none

/-- A payload that Ethernet port n steers to a stream, written under the port's initiator (R51, R61, R519). -/
def udpArrive (n st : Nat) (d : List Byte) (s : State) : State :=
  match s.boundTo st with
  | none => s
  | some (p, b, c) =>
    if c.source ≠ 1 then s
    else match s.udpWindow p c with
      | some x => if x.settled then s else appendData (0xB1 + n) p b c x d.length (udpRecord s.gctl.time d) s
      | none => State.modStream st (fun r => { r with extra := satInc r.extra }) s

/-- A raw image that came whole: all its lines, or corrupt with FORMAT (R55, R64). -/
def settleWhole (p : Nat) (c : StreamCfg) (k : Word32) (n : Nat) (s : State) : State :=
  if c.kind = 0 then
    (if n = c.height * lineBytes c then settle p c.stream k 0 (State.modSample p c.stream k (fun x => { x with lines := c.height }) s)
     else corruptSample p c.stream k 0x03 s)
  else settle p c.stream k 0 s

/-- UDP_WINDOW_CLOSE: the sample completes, MISSING with no payload (R61). -/
def opWindowClose (st : Nat) (s : State) : State :=
  match s.boundTo st with
  | none => s
  | some (p, _, c) =>
    if c.source ≠ 1 then s
    else match (s.openFrames p).find? (fun l => decide (l.tEdge.toNat + c.winStart + c.winLen ≤ s.gctl.time.toNat) &&
        (match s.sample p st l.frame with | some x => !x.settled | none => false)) with
      | none => s
      | some l => match s.sample p st l.frame with
        | none => s
        | some x =>
          if !x.anyData then corruptSample p st l.frame 0x05 s
          else
            settleWhole p c l.frame x.payload s

/-- The frame whose sample of a host stream a write into one of its slots belongs to: the first from the current one on that uses the slot
and is not settled (R53, R62; log 94). -/
def State.slotFrame (s : State) (p : Nat) (c : StreamCfg) (j : Nat) : Option Word32 :=
  match (s.pipe p).running, (s.pipe p).cur with
  | true, some k => ((List.range (2 * c.inSlots)).map (fun i => k + BitVec.ofNat 32 i)).find? (fun f =>
      f.toNat % max 1 c.inSlots = j && (match s.sample p c.stream f with | some x => !x.settled | none => true))
  | _, _ => none

/-- A write of the host ring got an error response: the sample of each host stream whose slot it touches is settled with WRITE_ERR (R55, R62). -/
def hostRefused (a n : Nat) (s : State) : State :=
  (List.range 64).foldl (fun t st => match t.boundTo st with
    | some (p, _, c) =>
      if c.source ≠ 2 then t
      else (List.range c.inSlots).foldl (fun u j =>
        let lo := c.inBase + j * c.inSlotSize
        if a + n ≤ lo || lo + c.inSlotSize ≤ a then u
        else match u.slotFrame p c j with
          | none => u
          | some k =>
            let u := if (u.sample p st k).isNone then addSample { pipe := p, stream := st, frame := k } u else u
            corruptSample p st k 0x0B u) t
    | none => t) s

/-- HOST_SUBMIT: a write of LOOP_HOST_SUBMIT_HI with LENGTH as last written (R62, R99). -/
def opHostSubmit (hi : Word32) (s : State) : State :=
  let st := bits hi.toNat 5 0
  let n := s.loop.submitLo.toNat
  match s.boundTo st with
  | none => s
  | some (p, _, c) =>
    if c.source ≠ 2 then s
    else
      let extra := State.modStream st (fun r => { r with extra := satInc r.extra }) s
      match (s.pipe p).running, (s.pipe p).cur with
      | true, some k => match s.sample p st k with
        | some x =>
          if x.settled then extra
          else
            let s := State.modSample p st k (fun y => { y with anyData := true, bytes := min n c.inSlotSize }) s
            if c.inSlotSize < n then corruptSample p st k 0x06 s else settleWhole p c k n s
        | none => extra
      | _, _ => extra

/-! ### ROI tables (R76 to R80, R93 to R95) -/

/-- The active and the pending bank of a stream (R77). -/
def StreamRec.activeBank (r : StreamRec) : Tab Word32 := if r.roiBank then r.bank1 else r.bank0
def StreamRec.pendingBank (r : StreamRec) : Tab Word32 := if r.roiBank then r.bank0 else r.bank1
def StreamRec.setPending (r : StreamRec) (t : Tab Word32) : StreamRec := if r.roiBank then { r with bank0 := t } else { r with bank1 := t }

/-- The bits of word w of an ROI table that are not reserved: all of X0 to Y1, DECIM and VALID, none of the last word (R8, R76). -/
def roiMask (w : Nat) : Word32 := match w % 4 with | 2 => 0x1FF | 3 => 0 | _ => 0xFFFFFFFF

/-- ROI_WINDOW_WRITE: always the pending bank; reserved bits stay 0 (R8, R77). -/
def roiWrite (st word : Nat) (v : Word32) : State → State :=
  State.modStream st (fun r => r.setPending (tset 0 r.pendingBank word (v &&& roiMask word)))

/-- ROI_COMMIT: the pending bank is committed for TARGET; a second replaces the first (R77, R78, R95). -/
def roiCommit (st : Nat) (target : Word32) : State → State :=
  State.modStream st (fun r => { r with roiPending := true, pendTarget := target })

/-- Both banks empty and no commit pending; DESIGN CHOICE: BANK, AGE and TARGET read as at reset until the first edge (R80, R93, R94; log 95). -/
def roiClear (r : StreamRec) : StreamRec :=
  { r with bank0 := [], bank1 := [], roiPending := false, roiValid := false, roiBank := false, roiAge := 0xFF, roiTgt := 0, pendTarget := 0 }

/-- The choice of a stream's table at edge k (R78). -/
def StreamRec.choose (r : StreamRec) (maxAge : Nat) (k : Word32) : StreamRec :=
  let r := if r.roiPending && decide (0 ≤ (k - r.pendTarget).toInt) then
    { r with roiBank := !r.roiBank, roiPending := false, roiTgt := r.pendTarget, roiValid := true } else r
  let age := (k - r.roiTgt).toInt
  if !r.roiValid || decide ((maxAge : Int) < age) then { r with roiValid := false, roiAge := 0xFF }
  else { r with roiAge := BitVec.ofInt 8 age }

/-! ### The commands -/

/-- CSI_FRAME_START (R52, R60). -/
def execCsiFrameStart (port : CsiPort) (vc : VirtChan) (ecc : Ecc) (s : State) :=
  perform (withHeader port.val ecc (opFrameStart port.val vc.val)) s
/-- CSI_LONG_PACKET (R53, R55). -/
def execCsiLongPacket (port : CsiPort) (vc : VirtChan) (dt : BitVec 6) (payload : List Byte) (crcOk : Bool) (ecc : Ecc) (s : State) :=
  performWf (Instr.wf (.csiLongPacket port vc dt payload crcOk ecc))
    (withHeader port.val ecc (opLongPacket port.val vc.val dt.toNat payload crcOk)) s
/-- CSI_FRAME_END (R55). -/
def execCsiFrameEnd (port : CsiPort) (vc : VirtChan) (ecc : Ecc) (s : State) :=
  perform (withHeader port.val ecc (opFrameEnd port.val vc.val)) s
/-- INGEST_DEADLINE (R54). -/
def execIngestDeadline (p : Pipe) (s : State) := perform (opIngestDeadline p.val) s
/-- UDP_WINDOW_CLOSE (R61). -/
def execUdpWindowClose (st : Stream) (s : State) := perform (opWindowClose st.val) s
/-- HOST_SUBMIT (R62). -/
def execHostSubmit (hi : Word32) (s : State) := performBlk (opHostSubmit hi) s
/-- ROI_WINDOW_WRITE (R77). -/
def execRoiWindowWrite (st : Stream) (word : Fin 128) (value : Word32) (s : State) := performBlk (roiWrite st.val word.val value) s
/-- ROI_COMMIT (R95). -/
def execRoiCommit (st : Stream) (target : Word32) (s : State) := performBlk (roiCommit st.val target) s

end Sys2Proof.Machine
end

