-- ==== Sys2Proof/Machine/EthPort.lean ====
section
/-! DEFINITION. Ethernet ports: enabling, link, gates, received frames and gPTP (R516 to R519, R522, R523, R539 to R548). -/

namespace Sys2Proof.Machine

/-! ### Enabling and link (R516, R539, R540) -/

/-- Fault 0x0601, 0x0602, 0x0603 or 0x0604: port and QPN (R531). -/
def reportEth (code : BitVec 16) (n qpn : Nat) : State → State := reportCode code (n + place qpn 16)

/-- A frame queued on a link that goes down is dropped; what its stream then reads, other than PENDING, is not stated (R516; log 46).
A payload that waited for the stream is written and sent (R636). -/
def dropQueued (n i : Nat) (s : State) : State :=
  if ((s.port n).txs i).st = .pending then
    let r := draw 2 s
    ethFreed n i (State.modTx n i (fun x => { x with
      st := if r.1 = 0 then .idle else if r.1 = 1 then .sent else if r.1 = 2 then .withdrawn else .rejected }) r.2)
  else s

/-- A link that was UP goes down: 0x0601, queued frames dropped (R516). -/
def linkLost (n : Nat) (dest : LinkState) (s : State) : State :=
  if (s.port n).link ≠ .up then State.modPort n (fun r => { r with link := dest }) s
  else forUpTo 16 (fun i t => dropQueued n i t) (reportEth 0x0601 n 0 (State.modPort n (fun r => { r with link := dest }) s))

/-- A write of ETHn_CFG: with EN = 1 only EN is taken; enabling starts training, disabling takes the link down (R516, R539). -/
def opEthCfg (n cfg : Nat) (s : State) : State :=
  let on := bit cfg 31
  if (s.port n).en then (if on then s else linkLost n .down (State.modPort n (fun r => { r with en := false }) s))
  else State.modPort n (fun r =>
    { r with maxFrame := BitVec.ofNat 14 (bits cfg 29 16), pfc := BitVec.ofNat 8 (bits cfg 15 8), fec := BitVec.ofNat 2 (bits cfg 3 2),
             rate := BitVec.ofNat 2 (bits cfg 1 0), en := on, link := if on then .training else r.link }) s

/-- The FEC a rate uses under CFG.FEC: RS(544,514) at 100 Gb/s, RS(528,514) or none at 25, none at 10 (R516, R539, R540). -/
def fecFor (rate : Nat) (none_ : Bool) : BitVec 2 := if rate = 0 then 2 else if rate = 1 && !none_ then 1 else 0

/-- Port n's clock is lost (R558). -/
def State.ethStopped (s : State) (n : Nat) : Bool :=
  s.pwr.lostDomains.any (fun d => match d with | .eth m => m.val = n | _ => false)

/-- Training completes at a rate CFG allows; not while the pads are held or without a clock (R516, R558, R570). -/
def opLinkUp (n : Nat) (rate fec : BitVec 2) (s : State) : State :=
  let r := s.port n
  if r.link = .training && rate ≠ 3 && (r.rate = 3 || r.rate = rate) && fec = fecFor rate.toNat (r.fec = 1) && !s.pwr.holdSoc && !s.ethStopped n then
    State.modPort n (fun r => { r with link := .up, stRate := rate, stFec := fec }) s
  else s

/-- A link goes down and retrains (R516). -/
def opLinkDown (n : Nat) (s : State) : State := if (s.port n).link = .up then linkLost n .training s else s

/-! ### Gates (R522, R543, R544) -/

/-- INTERVAL of a gate entry. -/
def gateInterval (e : Word32) : Nat := bits e.toNat 23 0

/-- Cycle time of the admin list (R522). -/
def EthRec.adminCycle (r : EthRec) : Nat := ((treadN 0xFF000000 r.gcl 0 r.gateLen.toNat).map gateInterval).foldl (· + ·) 0

/-- COMMIT; a second one before the switch replaces the first (R522). -/
def opGateCommit (n : Nat) : State → State := State.modPort n (fun r => { r with gatePending := true, commitBase := r.gateBase })

/-- Whether a time is the first tick at or after ADMIN_BASE + m × cycle time, a tick being 2 ns or, slewing, 4 (R13, R522). -/
def EthRec.switchNow (r : EthRec) (t : Nat) : Bool :=
  decide (r.commitBase.toNat ≤ t) && (r.adminCycle = 0 || decide ((t - r.commitBase.toNat) % r.adminCycle < 4))

/-- The admin list becomes operational, and software writes the other bank (R522). -/
def opGateSwitch (n : Nat) (s : State) : State :=
  let r := s.port n
  if r.gatePending && r.switchNow s.gctl.time.toNat then
    State.modPort n (fun r => { r with gatePending := false, gateOper := !r.gateOper, operTab := r.gcl, gcl := r.operTab,
                                       operLen := r.gateLen, operAt := s.gctl.time, operEntry := 0 }) s
  else s

/-- An entry's interval ends and the next applies, the first after the last (R522). -/
def opGateInterval (n : Nat) (s : State) : State :=
  let r := s.port n
  let iv := gateInterval (tget 0xFF000000 r.operTab r.operEntry)
  if r.operLen ≠ 0 && decide (r.operAt.toNat + iv ≤ s.gctl.time.toNat) then
    State.modPort n (fun r => { r with operAt := r.operAt + BitVec.ofNat 64 iv, operEntry := (r.operEntry + 1) % r.operLen.toNat }) s
  else s

/-! ### Received frames (R517 to R519) -/

/-- The stream of the lowest-numbered rule that takes a UDP port on port n (R519, R546). -/
def State.flowStream (s : State) (n dport : Nat) : Option Nat :=
  (List.range 32).findSome? (fun f =>
    let w := (tget 0 s.eth.flows f).toNat
    if bit w 31 && bit w (24 + n) && bits w 15 0 = dport && decide (32 ≤ bits w 21 16) then some (bits w 21 16) else none)

/-- Count a frame no row takes (R519). -/
def countOther (n : Nat) : State → State := State.modPort n (fun r => { r with rxOther := satInc r.rxOther })

/-- A stream bound to a running pipeline with SOURCE 1 (R519). -/
def State.takesUdp (s : State) (st : Nat) : Bool :=
  match s.boundTo st with
  | some (p, _, c) => (s.pipe p).running && c.source = 1
  | none => false

/-- A UDP payload, steered, unbound or matching no rule; ports 4791 and ETH_CMDPORT go elsewhere (R61, R519). -/
def opUdpPayload (n dport : Nat) (d : List Byte) (s : State) : State :=
  if dport = 4791 || (dport ≠ 0 && s.eth.cmdPort.toNat = dport) then s
  else receiveLen n (udpFrame false d.length) (fun s => match s.flowStream n dport with
    | none => countOther n s
    | some st => if s.takesUdp st then udpArrive n st d s else State.modPort n (fun r => { r with rxUnbound := satInc r.rxUnbound }) s) s

/-- A frame the port discards itself (R518, R519). -/
def opRxDiscard (n : Nat) (why : RxDiscard) (s : State) : State :=
  if (s.port n).link ≠ .up then s
  else match why with
    | .noClass => receive n (countOther n) s
    | _ => State.modPort n (fun r => { r with rxBad := satInc r.rxBad }) s

/-- An ARP request or neighbour solicitation: answered for the port's own address, else discarded as matching no row (R518, R519, R541). -/
def opArp (n : Nat) (v6 : Bool) (target sender : BitVec 128) (mac : BitVec 48) (s : State) : State :=
  let r := s.port n
  let own := if v6 then r.ip6 else r.ip4.setWidth 128
  receive n (fun s =>
    if target = own && own ≠ 0 then
      emit (.arpReply n v6 target sender mac) (State.modPort n (fun r => { r with txOk := satInc r.txOk }) s)
    else countOther n s) s

/-! ### gPTP (R523, R548) -/

/-- gPTP runs on port n. -/
def State.gptpOn (s : State) (n : Nat) : Bool := s.eth.ptpEn && s.eth.ptpPorts.getLsbD n && (s.port n).link = .up

/-- The device's clock identity, from port 0's MAC address (IEEE 802.1AS; log 47). -/
def State.ownIdentity (s : State) : Nat :=
  let m := (s.port 0).mac.toNat
  leNat ((toLe 6 m).drop 3).reverse + place 0xFFFE 24 + place (leNat ((toLe 6 m).take 3).reverse) 40

/-- Better master: lower priority, then lower identity (R523; log 47). -/
def betterMaster (p1 i1 p2 i2 : Nat) : Bool := decide (p1 < p2) || (p1 = p2 && decide (i1 < i2))

/-- An Announce: its master is selected where it is better than the one in force and than the device itself (R523). -/
def announce (n prio ident : Nat) (s : State) : State :=
  let e := s.eth
  let beatsSelf := !e.ptpGmcap || betterMaster prio ident e.ptpPriority.toNat s.ownIdentity
  let beatsBest := match e.ptpBest with
    | none => true
    | some (p, i, _) => betterMaster prio ident p.toNat i.toNat
  if beatsSelf && beatsBest then
    { s with eth := { e with ptpBest := some (BitVec.ofNat 8 prio, BitVec.ofNat 64 ident, n), ptpSlave := BitVec.ofNat 4 n, ptpGm := false } }
  else s

/-- A Sync and Follow_Up pair on the slave port disciplines the timebase once the neighbour rate ratio is known (R13, R523). -/
def gptpSync (n : Nat) (master : Word64) (s : State) : State :=
  if s.eth.ptpSlave.toNat ≠ n then s
  else
    let s := { s with eth := { s.eth with ptpLastSync := some s.gctl.time } }
    if s.eth.ptpRate.getLsbD n && s.eth.ptpDisc then timeCorrect .gptp (master - s.gctl.time).toInt s else s

/-- GPTP_MESSAGE: accepted and, where gPTP runs on the port, handled; a peer-delay exchange gives the port's neighbour rate ratio (R519, R523). -/
def opGptp (n : Nat) (msg : GptpMsg) (s : State) : State :=
  receive n (fun s => if !s.gptpOn n then s else match msg with
    | .announce prio ident _ dom => if dom = s.eth.ptpDomain then announce n prio.toNat ident.toNat s else s
    | .sync dom t => if dom = s.eth.ptpDomain then gptpSync n t s else s
    | .pdelay => emit (.gptp n false s.gctl.time) { s with eth := { s.eth with ptpRate := s.eth.ptpRate ||| BitVec.ofNat 4 (2 ^ n) } }) s

/-- Three sync intervals pass without a Sync: the master is gone, and a lock to it with it (R523). -/
def opGptpTimeout (s : State) : State :=
  if s.eth.ptpLastSync = none then s
  else
    let n := s.eth.ptpSlave.toNat
    let s := { s with eth := { s.eth with ptpLastSync := none, ptpBest := none, ptpSlave := 0xF } }
    if s.gctl.timeSource = .gptp && s.gctl.locked then reportEth 0x0604 n 0 (timeFree s) else s

/-- A sync interval of port n: the grandmaster's ports, and the ports of a slave other than its slave port, send (R523). -/
def opGptpInterval (n : Nat) (s : State) : State :=
  if !s.gptpOn n then s
  else
    let e := s.eth
    let s := { s with eth := { e with ptpGm := e.ptpGm || (e.ptpGmcap && e.ptpBest = none) } }
    if s.eth.ptpGm || (e.ptpBest ≠ none && e.ptpSlave.toNat ≠ n) then emit (.gptp n true s.gctl.time) s else s

/-! ### The commands -/

/-- UDP_INGEST_PAYLOAD (R61, R519). -/
def execUdpIngestPayload (port : EthPort) (dport : BitVec 16) (payload : List Byte) (s : State) :=
  performWf (Instr.wf (.udpIngestPayload port dport payload)) (opUdpPayload port.val dport.toNat payload) s
/-- ETH_PORT_ENABLE (R539). -/
def execEthPortEnable (n : EthPort) (cfg : Word32) (s : State) := performBar (opEthCfg n.val cfg.toNat) s
/-- ETH_LINK_UP (R516). -/
def execEthLinkUp (n : EthPort) (rate fec : BitVec 2) (s : State) := perform (opLinkUp n.val rate fec) s
/-- ETH_LINK_DOWN (R516). -/
def execEthLinkDown (n : EthPort) (s : State) := perform (opLinkDown n.val) s
/-- ETH_GATE_COMMIT (R522). -/
def execEthGateCommit (n : EthPort) (s : State) := performBar (opGateCommit n.val) s
/-- ETH_GATE_SWITCH (R522). -/
def execEthGateSwitch (n : EthPort) (s : State) := perform (opGateSwitch n.val) s
/-- ETH_GATE_INTERVAL (R522). -/
def execEthGateInterval (n : EthPort) (s : State) := perform (opGateInterval n.val) s
/-- GPTP_MESSAGE (R523). -/
def execGptpMessage (n : EthPort) (msg : GptpMsg) (s : State) := perform (opGptp n.val msg) s
/-- GPTP_SYNC_TIMEOUT (R523). -/
def execGptpSyncTimeout (s : State) := perform opGptpTimeout s
/-- GPTP_SYNC_INTERVAL (R523). -/
def execGptpSyncInterval (n : EthPort) (s : State) := perform (opGptpInterval n.val) s
/-- ARP_REQUEST (R518). -/
def execArpRequest (n : EthPort) (ipv6 : Bool) (target sender : BitVec 128) (senderMac : BitVec 48) (s : State) :=
  perform (opArp n.val ipv6 target sender senderMac) s
/-- ETH_RX_DISCARD (R519). -/
def execEthRxDiscard (n : EthPort) (reason : RxDiscard) (s : State) := perform (opRxDiscard n.val reason) s

end Sys2Proof.Machine
end

