-- ==== Sys2Proof/Machine/Golden.lean ====
section
/-! DEFINITION. The golden clock, golden requests, sequences and their results (R324 to R329, R357, R358). -/

namespace Sys2Proof.Machine

/-- A Frond that takes golden requests: MAPPED, SPARE or SPARE_UNVERIFIED, its quadrant not power-gated (R325, R329). -/
def State.goldenEligible (s : State) (f : Nat) : Bool :=
  ((s.fp f).st = .mapped || (s.fp f).st = .spare || (s.fp f).st = .spareUnverified) && (s.quad (quadOf f)).powered

/-- The internal period while no class-0 pipeline runs, in ns (R325). -/
def goldenPeriod : Nat := 33333333

/-- Period of the golden clock (R325). -/
def State.goldenPer (s : State) : Nat :=
  if s.thal.goldenInternal then goldenPeriod else (s.fclk s.thal.goldenFclk.toNat).inForce.toNat

/-- The edge the golden clock has reached and not taken yet: the frame clock's latest, or the internal period's next (R325). -/
def State.goldenDue (s : State) : Option Word64 :=
  if s.thal.goldenInternal then
    (if s.thal.goldenEdge.toNat + goldenPeriod ≤ s.gctl.time.toNat then some s.gctl.time else none)
  else
    let c := s.fclk s.thal.goldenFclk.toNat
    if c.run && decide (s.thal.goldenEdge.toNat < c.edge.toNat) then some c.edge else none

/-- The frames of pipeline p that were open in the golden period between two edges: opened before its end, not before its start
unless still open. -/
def State.framesBetween (s : State) (p : Nat) (e0 e1 : Nat) : List Ledger :=
  match (s.pipe p).cur with
  | none => []
  | some k => ((List.range 64).map (fun i => s.ledgerAt p (k - BitVec.ofNat 32 (63 - i)))).filter
      (fun l => l.valid && l.pipe.toNat = p && decide (l.tEdge.toNat < e1) && (decide (e0 ≤ l.tEdge.toNat) || l.isOpen))

/-- UNVERIFIED for one frame: the bitmap, and the verdict and doubt where the Frond was USED (R18, R328). -/
def unverifiedFrame (f p : Nat) (l : Ledger) (s : State) : State :=
  let s := if l.isOpen then State.modLedger p l.frame (fun l => { l with unverified := l.unverified ||| BitVec.ofNat 144 (2 ^ f) }) s else s
  if l.used.getLsbD f then doubt p l.frame 1 0x0119 s else s

/-- A Frond whose golden-clock request has not completed by the next edge is unverified for the period: 0x0119, and a SPARE becomes
SPARE_UNVERIFIED (R328, R329). -/
def unverifiedFrond (f e0 e1 : Nat) (s : State) : State :=
  let frames := s.runningPipes.flatMap (fun p => (s.framesBetween p e0 e1).map (fun l => (p, l)))
  let s := State.modGolden f (fun g => { g with unverified := true }) s
  let s := if (s.fp f).st = .spare then State.modFp f (fun x => { x with st := .spareUnverified }) s else s
  let s := reportFrond f { code := 0x0119, doubt := frames.any (fun x => x.2.used.getLsbD f) } s
  frames.foldl (fun t x => unverifiedFrame f x.1 x.2 t) s

/-- GOLDEN_CLOCK_EDGE: the requests of the period that ended are judged, the frame boundary of R293 passes, and every eligible
Frond gets one request (R325, R328). -/
def opGoldenEdge (s : State) : State :=
  match s.goldenDue with
  | none => s
  | some e =>
    let e0 := s.thal.goldenEdge.toNat
    let s := forUpTo 144 (fun f t =>
      let g := (t.frond f).golden
      if t.goldenEligible f && (g.clockReq || (g.running && g.answersClock)) then unverifiedFrond f e0 e.toNat t else t) s
    let s := frameBoundary s
    let s := forUpTo 144 (fun f t => if t.goldenEligible f then State.modGolden f (fun g => { g with clockReq := true }) t else t) s
    { s with thal := { s.thal with goldenEdge := e } }

/-- GOLDEN_DEADLINE: at 90 % of the period the requests still pending are forced (R325, R327). -/
def opGoldenDeadline (s : State) : State :=
  if s.goldenPer * 9 ≤ 10 * (s.gctl.time.toNat - s.thal.goldenEdge.toNat) then
    forUpTo 144 (fun f t =>
      if (t.frond f).golden.clockReq then State.modGolden f (fun g => { g with forced := true }) t else t) s
  else s

/-- Slot 0 stalls: nothing of it executes and its oldest descriptor is a WAIT, or waits for a fill mark (R326). -/
def State.stalled0 (s : State) (f : Nat) : Bool :=
  let x := (s.frond f).slot0
  !x.executing && (s.fillStalled f 0 || match x.queue with
    | d :: _ => d.op = 0x0B
    | [] => false)

/-- The Frond's gap: drain boundaries of both slots, and slot 0 IDLE or stalled unless the request is forced (R326, R327). -/
def State.goldenGap (s : State) (f : Nat) : Bool :=
  let r := s.frond f
  r.drainBoundary 0 && r.drainBoundary 1 && (r.golden.forced || r.slot0.st = .idle || s.stalled0 f)

/-- GOLDEN: a sequence starts at the gap and serves every request then pending (R326). -/
def opGolden (f : Nat) (s : State) : State :=
  let r := s.frond f
  let g := r.golden
  if g.pending && !g.running && s.goldenGap f && !r.epochBusy then
    State.modGolden f (fun g => { g with
      running := true, startedAt := s.gctl.time, epochAt := r.epoch, answersClock := g.clockReq, clockReq := false,
      answers := g.checkReqs, checkReqs := [], forced := false }) s
  else s

/-- A sequence passed: a spare is SPARE again, and a replacement gets its FL where the sequence ran under its fresh epoch (R292, R293,
R295, R329). -/
def goldenPass (f : Nat) (s : State) : State :=
  let s := State.modGolden f (fun g => { g with unverified := false }) s
  match (s.fp f).replaceFl with
  | some fl => if (s.frond f).golden.epochAt = (s.frond f).epoch then finishReplace f fl s else s
  | none => if (s.fp f).st = .spareUnverified then State.modFp f (fun x => { x with st := .spare }) s else s

/-- A sequence failed: 0x0118, the count, GOLDEN_FAIL in every open frame and GOLDEN where USED; a mapped Frond is retired at the
next boundary, a spare at once, and a failed replacement gives way to the next (R293, R328, R329). -/
def goldenFail (f : Nat) (s : State) : State :=
  let open_ := s.runningPipes.flatMap (fun p => (s.openFrames p).map (fun l => (p, l)))
  let s := reportFrond f { code := 0x0118, doubt := open_.any (fun x => x.2.used.getLsbD f) } s
  let s := { s with thal := { s.thal with goldenFails := satInc s.thal.goldenFails } }
  let s := open_.foldl (fun t x =>
    let t := State.modLedger x.1 x.2.frame (fun l => { l with goldenFail := l.goldenFail ||| BitVec.ofNat 144 (2 ^ f) }) t
    if x.2.used.getLsbD f then doubt x.1 x.2.frame 0 0x0118 t else t) s
  let r := s.fp f
  match r.replaceFl with
  | some fl => replaceFrond fl r.replaceRes (State.modFp f (fun x => { x with st := .retired, replaceFl := none, replaceRes := [] }) s)
  | none =>
    if r.st = .mapped then State.modFp f (fun x => { x with retireMark := true }) s
    else State.modFp f (fun x => { x with st := .retired }) s

/-- GOLDEN_RESULT: the running sequence ends and its requests are answered (R328). -/
def opGoldenResult (f : Nat) (pass : Bool) (s : State) : State :=
  if !(s.frond f).golden.running then s
  else
    let s := State.modGolden f (fun g => { g with
      running := false, answersClock := false, answers := [], lastDone := some s.gctl.time }) s
    if pass then goldenPass f s else goldenFail f s

/-- GOLDEN_CLOCK_EDGE (R325). -/
def execGoldenClockEdge (s : State) := perform opGoldenEdge s
/-- GOLDEN_DEADLINE (R327). -/
def execGoldenDeadline (s : State) := perform opGoldenDeadline s
/-- GOLDEN (R326). -/
def execGolden (fp : Frond) (s : State) := performFab fp.val (opGolden fp.val) s
/-- GOLDEN_RESULT (R328). -/
def execGoldenResult (fp : Frond) (pass : Bool) (s : State) := performFab fp.val (opGoldenResult fp.val pass) s

end Sys2Proof.Machine
end

