-- ==== Sys2Proof/Machine/FrameClock.lean ====
section
/-! DEFINITION. Frame clocks and what an edge does: re-basing, ledger entries, ROI choice, droop latch, a frame's runs (R14 to R20, R46 to R50, R78, R293, R412, R561). -/

namespace Sys2Proof.Machine

/-- A running pipeline is bound to the clock (R46). -/
def State.fclkBound (s : State) (n : Nat) : Bool := s.runningPipes.any (fun p => (s.pipe p).fclk = n)

/-- The smallest k at least 0 whose edge is not in the past (R14). -/
def firstEdge (start : Int) (period t : Nat) : Nat :=
  if (t : Int) ≤ start then 0 else cdiv ((t : Int) - start).toNat (max 1 period)

/-- FCLK_ENABLE (R14, R46). -/
def opFclkEnable (n : Nat) (s : State) : State :=
  let c := s.fclk n
  if c.en then s
  else State.modFclk n (fun c => { c with
    en := true, run := false, frame := 0xFFFFFFFF, inForce := c.period, next := firstEdge c.start.toInt c.period.toNat s.gctl.time.toNat }) s

/-- FCLK_DISABLE: ignored while a running pipeline is bound (R15). -/
def opFclkDisable (n : Nat) (s : State) : State :=
  if s.fclkBound n then s else State.modFclk n (fun c => { c with en := false, run := false, frame := 0xFFFFFFFF, inForce := c.period }) s

/-- A period that would break a running pipeline (R15, R330). -/
def State.breaksPipe (s : State) (p v : Nat) : Bool :=
  match (s.pipe p).blob with
  | none => false
  | some b =>
    decide (v ≤ b.ingestDl) || b.streams.any (fun c => decide (v ≤ c.lead) || decide (v < c.winStart + c.winLen)) ||
      (b.cls = 0 && decide (v < (s.wdog (wdogNo p 5)).closeNs.toNat))

/-- FCLK_PERIOD_WRITE (R15, R47). -/
def opFclkPeriod (n : Nat) (v : Word32) (s : State) : State :=
  if v.toNat < 5000000 ∨ 200000000 < v.toNat then s
  else if s.runningPipes.any (fun p => (s.pipe p).fclk = n && s.breaksPipe p v.toNat) then s
  else State.modFclk n (fun c => { c with period := v, inForce := if c.en then c.inForce else v }) s

/-- Nominal time of the next edge under the period in force (R14). -/
def FclkRec.nextTime (c : FclkRec) : Int := c.start.toInt + (c.next * c.inForce.toNat : Nat)

/-- The edge fires: re-based where PERIOD was written since the last, numbered, and timed (R14, R15). -/
def FclkRec.fire (c : FclkRec) (t : Word64) : FclkRec :=
  let start := if c.period = c.inForce then c.start else BitVec.ofInt 64 (c.nextTime - (c.next * c.period.toNat : Nat))
  { c with start := start, inForce := c.period, run := true, frame := BitVec.ofNat 32 c.next, edge := t, next := c.next + 1 }

/-! ### A frame opens (R17, R78, R300, R412, R500, R561) -/

/-- TWIN_PRESENT (R500). -/
def State.twinPresent (s : State) (p : Nat) (k : Word32) : Bool :=
  let d := (s.twin.hbFrames.getD p 0 - k).toInt
  s.twin.link = .up && s.twin.peerAlive && s.twin.hbRunMask.getLsbD p && decide (-1 ≤ d) && decide (d ≤ 1) &&
    (s.twinPipe p).digLen ≠ 0

/-- The void bits a frame starts with: shards not hot, shards moved at the edge, and the level floor (R300). -/
def State.startVoid (s : State) (p : Nat) (k : Word32) (c : C0Rec) : C0Rec :=
  let ms := (s.pipe p).start.ctxs.map (fun x => (s.ctx x).model.toNat)
  let cold := ms.any (fun m => (List.range (s.model m).shards.length).any (fun sh => match s.homeOf m sh with
    | some f => !s.hotOn m sh f
    | none => true))
  let moved := s.sched.fps.any (fun e => e.2.replaceRes.any (fun r => ms.contains r.model) || e.2.res.any (fun r => r.cls = 0 && !r.loaded && ms.contains r.model))
  let low := s.sched.c0Floor = 3 || (List.range 4).any (fun q => decide (s.sched.c0Floor.toNat < (s.quad q).level.toNat))
  { c with prevVoid := c.openVoid, openFrame := some k, openVoid := { move := moved, floor := low, fit := cold } }

/-- fabric clock of a level in MHz (R554). -/
def levelMHz (l : Nat) : Nat := match l with | 0 => 2600 | 1 => 2000 | 2 => 1400 | _ => 800

/-- Each powered quadrant's stretch count latched with the frame's budget (R561); a power-gated one counts nothing. -/
def latchDroop (p : Nat) (s : State) : State :=
  let per := (s.fclk (s.pipe p).fclk).inForce.toNat
  let qs := (List.range 4).map (fun q => s.quad q)
  State.modDroop p (fun d => { d with
    qlast := 0, latched := qs.map (fun r => r.stretch.toNat), budget := qs.map (fun r => per * levelMHz r.level.toNat / 50000) }) s

/-- A stream's table and sample for frame k: the choice of R78, and the sample with it. -/
def edgeStream (p : Nat) (k : Word32) (c : StreamCfg) (s : State) : State :=
  let s := if c.kind = 1 then s else State.modStream c.stream (fun r => r.choose c.maxAge k) s
  let r := s.stream c.stream
  let full := c.kind ≠ 1 && !r.roiValid
  let put : Sample → Sample := fun x => { x with
    edged := true, fullFrame := full, age := r.roiAge, rois := if r.roiValid then r.activeBank else [] }
  match s.sample p c.stream k with
  | some _ => State.modSample p c.stream k put s
  | none => addSample (put { pipe := p, stream := c.stream, frame := k }) s

/-- A run of one listed context for the frame (R412): its streams are chosen at dispatch. -/
def frameRun (p : Nat) (k : Word32) (c : Nat) (s : State) : State :=
  let x := s.ctx c
  let r : RunRec := { num := s.sched.nextRun, pipe := some (p, k), cls := (s.pipe p).cls, model := x.model.toNat, ctxs := [c] }
  let r := { r with todo := List.range (s.model x.model.toNat).shards.length }
  let s := { s with sched := { s.sched with runs := s.sched.runs ++ [r], nextRun := s.sched.nextRun + 1 } }
  if x.st = .idle then setCtxState c .runnable s else s

/-- The ledger entry of frame k as it opens (R17). -/
def openEntry (s : State) (p : Nat) (k : Word32) : Ledger :=
  let xs := s.frameSamples p k
  { frame := k, pipe := BitVec.ofNat 8 p, fclk := BitVec.ofNat 8 (s.pipe p).fclk, valid := true, sync := s.gctl.locked,
    twinPresent := (s.pipe p).cls = 0 && s.twinPresent p k, tEdge := s.gctl.time,
    tStage := List.replicate 6 0xFFFFFFFF, authority := s.ledgerAuthority p,
    corrupt := BitVec.ofNat 8 (min 255 (xs.filter (fun x => x.reason ≠ 0)).length) }

/-- An edge of the pipeline's clock clears SUPPRESS of the channels PREP owns for it (R449). -/
def clearSuppress (b : PipeBlob) (s : State) : State :=
  b.streams.foldl (fun t c => if c.kind ≠ 1 && c.outDest = 1 then
    State.modDma c.dmaCh (fun d => if d.owner = 1 then { d with suppress := false, supFp := 0xFF } else d) t else t) s

/-- Digests and verdicts of frames that are no longer open are dropped as frame k opens (R506). -/
def dropDigests (p : Nat) (k : Word32) (s : State) : State :=
  let opens := (s.openFrames p).map (fun l => l.frame)
  let keep : Word32 → Bool := fun j => opens.contains j && decide (j ≠ k)
  State.modTwinPipe p (fun t => { t with
    local_ := t.local_.filter (fun x => keep x.1), localFailed := t.localFailed.filter keep, judged := t.judged.filter keep,
    waitOver := t.waitOver.filter keep, held := t.held.filter (fun h => h.1 = k || keep h.1) }) s

/-- Pipeline p opens frame k (R17). A stopping pipeline opens no more (R412). -/
def openFrame (p : Nat) (k : Word32) (s : State) : State :=
  match (s.pipe p).blob with
  | none => s
  | some b =>
    let s := clearSuppress b s
    if (s.pipe p).stopping then s else
    let s := State.modPipe p (fun r => { r with cur := some k }) s
    let s := { s with loop := { s.loop with samples := s.loop.samples.filter (fun x => !(x.pipe = p && x.finished && x.recorded && decide (2 ≤ (k - x.frame).toInt))) } }
    let s := b.streams.foldl (fun t c => edgeStream p k c t) s
    let image := b.streams.filter (fun c => c.kind ≠ 1)
    let s := State.modLedger p k (fun _ => { openEntry s p k with
      roiAge := image.foldl (fun a c => if a < (s.stream c.stream).roiAge then (s.stream c.stream).roiAge else a) 0 }) s
    let s := dropDigests p k s
    let s := if b.cls = 0 then latchDroop p (State.modC0 p (s.startVoid p k) (State.modAuth p (fun a => a.shiftTo k) s)) else s
    let s := (s.pipe p).start.ctxs.foldl (fun t c => frameRun p k c t) s
    b.streams.foldl (fun t c => match t.sample p c.stream k with
      | some x => if x.settled then afterSettle p c.stream k t else t
      | none => t) s

/-- FCLK_EDGE (R14, R15, R17). -/
def opFclkEdge (n : Nat) (s : State) : State :=
  let c := s.fclk n
  if !c.en || decide ((s.gctl.time.toNat : Int) < c.nextTime) then s
  else
    let s := State.modFclk n (fun c => c.fire s.gctl.time) s
    let k := (s.fclk n).frame
    let s := if s.fclkBound n then frameBoundary s else s
    (s.runningPipes.filter (fun p => (s.pipe p).fclk = n)).foldl (fun t p => openFrame p k t) s

/-- FCLK_ENABLE (R14). -/
def execFclkEnable (n : Fclk) (s : State) := performBlk (opFclkEnable n.val) s
/-- FCLK_DISABLE (R15). -/
def execFclkDisable (n : Fclk) (s : State) := performBlk (opFclkDisable n.val) s
/-- FCLK_PERIOD_WRITE (R15). -/
def execFclkPeriodWrite (n : Fclk) (period : Word32) (s : State) := performBlk (opFclkPeriod n.val period) s
/-- FCLK_EDGE (R14). -/
def execFclkEdge (n : Fclk) (s : State) := perform (opFclkEdge n.val) s

end Sys2Proof.Machine
end

