-- ==== Sys2Proof/Machine/Check.lean ====
section
/-! DEFINITION. CHECK and the stage watchdogs (R16, R317, R319, R328, R331, R352, 10). -/

namespace Sys2Proof.Machine

/-- CLOSE of a stage's window, ns after the edge (R362). -/
def State.closeOf (s : State) (p stage : Nat) : Nat := (s.wdog (wdogNo p stage)).closeNs.toNat

/-- The oldest open frame with a stage still to complete that satisfies a condition. -/
def State.frameWhere (s : State) (p stage : Nat) (ok : Ledger → Bool) : Option Ledger :=
  (s.openFrames p).find? (fun l => !l.stageDone stage && ok l)

/-- PLAUS: a PLAN payload outside Moss's envelope for the frame, or no envelope for it (R317, R352). -/
def State.plausFails (s : State) (p : Nat) (frame : Word32) (plan : List (Fin 16 × List Byte)) : Bool :=
  match s.envelopeFor p frame with
  | none => true
  | some e => plan.any (fun x =>
      let g := s.govChan x.1.val
      g.valid && g.pipe = p && (firstField g (inEnvelope (some e) x.1.val x.2)).isSome)

/-- The Rhizome submits PLAN's frames when the decision is PRIMARY (R319). -/
def planSubmit (p : Nat) (frame : Word32) (plan : List (Fin 16 × List Byte)) (s : State) : State :=
  plan.foldl (fun t x =>
    if (t.govChan x.1.val).valid && (t.govChan x.1.val).pipe = p && (t.auth p).primary && (t.auth p).decided = some frame
    then planWrite x.1.val x.2 frame t else t) s

/-- CHECK completes for the oldest frame whose PLAN is complete, golden requests answered and twin wait judged: the plausibility
verdict, T_STAGE and its window, the decision, and PLAN's frames under PRIMARY (R16, R319, R327, R352, R506). -/
def opCheckComplete (p : Nat) (plan : List (Fin 16 × List Byte)) (s : State) : State :=
  if !((s.pipe p).running && (s.pipe p).cls = 0) then s
  else match s.frameWhere p 4 (fun l => l.stageDone 3 && s.goldenAnswered p l.frame && s.twinSettled p l) with
    | none => s
    | some l =>
      let k := l.frame
      let s := if s.plausFails p k plan then doubt p k 3 0x0904 (reportFrame 0x0904 p k true 0 s) else s
      if !(s.pipe p).running then s else
      let s := markStage p k 4 s
      if !(s.pipe p).running then s else
      let s := decide_ p k s
      advanceEgress p k (planSubmit p k plan s)

/-- A USED Frond whose CHECK request has no result when the CHECK window closes is unverified for the frame (R328). -/
def checkUnverified (p : Nat) (k : Word32) (s : State) : State :=
  forUpTo 144 (fun f t =>
    let g := (t.frond f).golden
    if g.checkReqs.contains (p, k) || g.answers.contains (p, k) then
      let used := (t.ledgerAt p k).used.getLsbD f
      let t := State.modLedger p k (fun l => { l with unverified := l.unverified ||| BitVec.ofNat 144 (2 ^ f) }) t
      let t := reportFrond f { withPipe t p k { code := 0x0119 } with doubt := used } t
      if used then doubt p k 1 0x0119 t else t
    else t) s

/-- A window closes on a stage that has not completed: WDOG_LATE; the first of the frame, or CHECK's, is also D_k (R319, R328, R331). -/
def opWdogClose (p stage : Nat) (s : State) : State :=
  let w := s.wdog (wdogNo p stage)
  if !w.armed then s
  else match s.frameWhere p stage (fun l => !w.lateFor.contains l.frame && decide (l.tEdge.toNat + s.closeOf p stage ≤ s.gctl.time.toNat)) with
    | none => s
    | some l =>
      let s := if stage = 4 then checkUnverified p l.frame s else s
      let s := wdogLate p stage l s
      if (s.pipe p).running then advanceEgress p l.frame (decide_ p l.frame s) else s

/-- A stage has not completed by CLOSE + PERIOD: expiry, 0x0903, safe state (R331, R338). -/
def opWdogExpiry (p stage : Nat) (s : State) : State :=
  let w := s.wdog (wdogNo p stage)
  let period := (s.fclk (s.pipe p).fclk).inForce.toNat
  if !w.armed then s
  else match s.frameWhere p stage (fun l => !w.expiredFor.contains l.frame &&
      decide (l.tEdge.toNat + s.closeOf p stage + period ≤ s.gctl.time.toNat)) with
    | none => s
    | some l =>
      let s := State.modWdog (wdogNo p stage) (fun w => { w with expired := true, expiredFor := l.frame :: w.expiredFor.take 63 }) s
      let s := report { withPipe s p l.frame { code := 0x0903 } with safe := true } s
      safeDecide s

/-- The Rhizome lockstep comparator mismatches: 0x0907 and the safe state (R338). -/
def opRhizomeLockstep (s : State) : State := safeDecide (report { code := 0x0907, safe := true } s)

/-- CHECK_COMPLETE (R16); plan holds PLAN's frames by governor channel (log 15). -/
def execCheckComplete (p : Pipe) (plan : List (Fin 16 × List Byte)) (s : State) :=
  performWf (Instr.wf (.checkComplete p plan)) (opCheckComplete p.val plan) s
/-- WDOG_CLOSE (R331). -/
def execWdogClose (p : Pipe) (stage : Stage) (s : State) := perform (opWdogClose p.val (stageNo stage)) s
/-- WDOG_EXPIRY (R331). -/
def execWdogExpiry (p : Pipe) (stage : Stage) (s : State) := perform (opWdogExpiry p.val (stageNo stage)) s
/-- RHIZOME_LOCKSTEP_MISMATCH (R338). -/
def execRhizomeLockstepMismatch (s : State) := perform opRhizomeLockstep s

end Sys2Proof.Machine
end

