-- ==== Sys2Proof/Machine/Moss.lean ====
section
/-! DEFINITION. Moss's runs, its feed and the IMU (R333 to R337, R339, 10). -/

namespace Sys2Proof.Machine

/-- Length of a feed buffer (R334). -/
def feedLen : Nat := 17920

/-- MAGIC, FRAME and CRC of a feed are right (R334, R335). -/
def feedGood (k : Word32) (d : List Byte) : Bool :=
  field d 0 4 = 0x44534F4D && field d 4 4 = k.toNat && field d 0x3C 4 = crc32 (d.take 0x3C ++ (d.drop 0x40).take (0x4600 - 0x40))

/-- Moss takes no feed this run: the last good one, older by one, or none at all (R335). -/
def feedBad (r : MossRec) : MossRec :=
  match r.feed with
  | some _ => { r with feedAge := if r.feedAge.toNat ≥ 254 then 254 else r.feedAge + 1 }
  | none => { r with feedAge := 0xFF }

/-- Read the feed of frame k (R335); a poisoned read is a class-0 read under 0xC1 (R477). -/
def readFeed (p : Nat) (k : Word32) (s : State) : State :=
  let a := (s.pipe p).start.feed + (k.toNat % 2) * feedLen
  let r := readAll 0xC1 0 a feedLen s
  match r.1 with
  | some d =>
    if !poisoned d && feedGood k (plain d) then State.modMoss p (fun m => { m with feed := some (plain d), feedAge := 0 }) r.2
    else State.modMoss p feedBad (reportFrame 0x0931 p k false 0 r.2)
  | none => State.modMoss p feedBad (reportFrame 0x0931 p k false 0 r.2)

/-- Where the feed lies in Moss's store: the spec gives no address, so the place is free (R335; log 106). -/
def mossFeedAt : Nat := Config.mossFeed % (0x200000 - feedLen)

/-- The feed area of Moss's store for a run: the feed the run uses, or cleared to zero (R335). -/
def placeFeed (feed : Option (List Byte)) (m : Memory) : Memory :=
  let out := m.filter (fun e => decide (e.1 < mossFeedAt) || decide (mossFeedAt + feedLen ≤ e.1))
  match feed with
  | some d => twriteN 0 out mossFeedAt (d.take feedLen)
  | none => out

/-- Moss takes its other inputs: vehicle-state frames and IMU samples since its last run (R335). -/
def takeInputs (s : State) : State :=
  let s := State.modCan 6 (fun r => { r with mossFrames := [] }) (State.modCan 7 (fun r => { r with mossFrames := [] }) s)
  { s with thal := { s.thal with imuSamples := [] } }

/-- A run of pipeline p for frame k begins, with the feed and the FEED_AGE it uses (R335, R359). -/
def mossBegin (p : Nat) (k : Word32) (s : State) : State :=
  let s := { s with thal := { s.thal with mossStore := placeFeed (s.moss p).feed s.thal.mossStore } }
  takeInputs (State.modMoss p (fun m => { m with runningFrame := some k, runStart := s.gctl.time, runAge := m.feedAge }) s)

/-- The frame of pipeline p Moss is to run for now: the one whose PERCEIVE is complete or closed (R335); in a restart the frame its
clock counts, for the class-0 pipelines that ran (R339). -/
def State.mossFrame (s : State) (p : Nat) : Option Word32 :=
  let done := (s.moss p).doneFrame
  if s.island.restarting then
    let k := (s.fclk (s.moss p).fclk).frame
    if s.island.c0Running.contains p && done ≠ some k then some k else none
  else if !((s.pipe p).running && (s.pipe p).cls = 0) then none
  else ((s.openFrames p).find? (fun l => done ≠ some l.frame &&
      (match done with | some d => decide ((l.frame - d).toNat < 2 ^ 31) | none => true) &&
      (l.stageDone 2 || decide (l.tEdge.toNat + s.closeOf p 2 ≤ s.gctl.time.toNat)))).map (fun l => l.frame)

/-- A run of Moss starts: one at a time, the pipelines in their order (R335); in a restart with the feed it has (R339). -/
def opMossRunStart (p : Nat) (s : State) : State :=
  if !s.island.mossReady || s.thal.moss.any (fun e => e.2.runningFrame.isSome) || (List.range p).any (fun q => (s.mossFrame q).isSome) then s
  else match s.mossFrame p with
    | none => s
    | some k => mossBegin p k (if s.island.restarting then State.modMoss p feedBad s else readFeed p k s)

/-- The run ends: payloads and envelope for frame k; its frames are submitted if D_k has already given MOSS (R336). -/
def opMossRunEnd (p : Nat) (payloads : List (Fin 16 × List Byte)) (envelope : Option (List (Fin 16 × Fin 4 × Int × Int)))
    (us : Nat) (s : State) : State :=
  match (s.moss p).runningFrame with
  | none => s
  | some k =>
    let own := (payloads.filter (fun x => (s.channelsOf p).contains x.1.val)).map (fun x => (x.1.val, x.2))
    let s := State.modMoss p (fun m => { m with
      runningFrame := none, doneFrame := some k, payloads := own, payloadFrame := some k, stopped := 0,
      envelope := envelope.map (fun e => (k, e.map (fun x => (x.1.val, x.2.1.val, x.2.2.1, x.2.2.2)))) }) s
    let s := { s with thal := { s.thal with mossRunUs := BitVec.ofNat 16 us, mossStopped := 0 } }
    if (s.moss p).submitDue || s.island.restarting then mossSubmit p s else s

/-- A run reaches 1 ms: 0x0930, no envelope, the old payloads again; the second in a row latches the device (R337, R342). -/
def opMossOverrun (p : Nat) (s : State) : State :=
  let r := s.moss p
  match r.runningFrame with
  | none => s
  | some k =>
    if s.gctl.time.toNat < r.runStart.toNat + 1000000 then s
    else
      let s := reportFrame 0x0930 p k false 0 s
      let s := State.modMoss p (fun m => { m with runningFrame := none, doneFrame := some k, envelope := none, stopped := m.stopped + 1 }) s
      let s := { s with thal := { s.thal with mossRunUs := 1000, mossStopped := BitVec.ofNat 2 (min 3 (r.stopped + 1)) } }
      let s := if (s.moss p).submitDue || s.island.restarting then
          (if (s.moss p).payloadFrame.isSome then mossSubmit p s else s) else s
      if r.stopped + 1 ≥ 2 then fatal (fun i => { i with fatalMoss := true }) s else s

/-- A transfer of the IMU's SPI master ends (R335). -/
def opImu (ok : Bool) (sample : List Byte) (s : State) : State :=
  if ok then { s with thal := { s.thal with imuValid := true, imuSamples := s.thal.imuSamples ++ [sample] } }
  else reportCode 0x0932 0 { s with thal := { s.thal with imuValid := false } }

/-- MOSS_RUN_START (R335). -/
def execMossRunStart (p : Pipe) (s : State) := perform (opMossRunStart p.val) s
/-- MOSS_RUN_END (R336); M-MOSS's outputs are operands (log 15). -/
def execMossRunEnd (p : Pipe) (payloads : List (Fin 16 × List Byte)) (envelope : Option (List (Fin 16 × Fin 4 × Int × Int)))
    (us : Nat) (s : State) := performWf (Instr.wf (.mossRunEnd p payloads envelope us)) (opMossRunEnd p.val payloads envelope us) s
/-- MOSS_OVERRUN (R337). -/
def execMossOverrun (p : Pipe) (s : State) := perform (opMossOverrun p.val) s
/-- IMU_TRANSFER (R335). -/
def execImuTransfer (ok : Bool) (sample : List Byte) (s : State) :=
  if Instr.wf (.imuTransfer ok sample) then performSaf (opImu ok sample) s else .refused .illFormed

end Sys2Proof.Machine
end

