-- ==== Sys2Proof/Machine/Thallus.lean ====
section
/-! DEFINITION. The detectors of a failed Thallus, its supply, and the fault collector (R341, R342, R344, R418). -/

namespace Sys2Proof.Machine

/-- The lockstep comparator (R341). -/
def opLockstep (s : State) : State := fatal (fun i => { i with fatalLockstep := true }) s
/-- No SAF clock edge for 3 AON cycles (R341). -/
def opClkloss (s : State) : State := fatal (fun i => { i with fatalClkloss := true }) s
/-- 2 ms since the last service (R341). -/
def opHeartbeat (s : State) : State :=
  if s.island.lastService + 2000000 ≤ s.safNow then fatal (fun i => { i with fatalHeartbeat := true }) s else s
/-- Thallus firmware services the timer (R341). -/
def opService (s : State) : State := { s with island := { s.island with lastService := s.safNow } }

/-- VDD_SAF falls below its range: the island resets, and its pins hold the state of R342 while it is in reset (R341; log 24). -/
def opUndervoltage (s : State) : State :=
  { s with
    pins := { s.pins with faultN := false },
    island := { inReset := true, silent := s.island.silent, mode := if s.island.silent then .silent else .standby,
                fatalMoss := s.island.fatalMoss, fatalHeartbeat := s.island.fatalHeartbeat, fatalClkloss := s.island.fatalClkloss,
                fatalLockstep := s.island.fatalLockstep },
    thal := {}, can := s.can.filter (fun e => decide (e.1 < 6)), twin := { s.twin with armed := false } }

/-- VDD_SAF is back in range: the island leaves reset; FAULT_N stays low until the device has started again (R341; log 24). -/
def opRestored (s : State) : State :=
  { s with island := { s.island with inReset := false, lastService := s.safNow } }

/-- A record enters the log, and posts FAULT when it carries DOUBT or SAFE (R344, R369, R418). -/
def logRecord (r : FaultRec) (s : State) : State :=
  let r := { r with valid := true, lost := s.thal.lostMark }
  let s := { s with thal := { s.thal with
    flog := tset { valid := false } s.thal.flog (s.thal.flogWr.toNat % 1024) r, flogWr := s.thal.flogWr + 1, lostMark := false } }
  s

/-- Bytes 0x00 to 0x0F of a record, for the FAULT event (R343, R418). -/
def FaultRec.head (r : FaultRec) : List Byte :=
  toLe 2 r.code.toNat ++ [r.init, r.fp, r.fl] ++
  toLe 1 (r.pipe.toNat + place r.fclk.toNat 4 + place r.cls.toNat 6) ++
  toLe 1 (b2n r.valid + 2 * b2n r.doubt + 4 * b2n r.safe + 8 * b2n r.lost + 16 * b2n r.noframe) ++
  toLe 5 r.addr.toNat ++ toLe 4 r.frame.toNat

/-- The 32 bytes of a record (R343). -/
def FaultRec.bytes (r : FaultRec) : List Byte := r.head ++ toLe 8 r.time.toNat ++ toLe 8 r.detail.toNat

/-- The oldest record in transit reaches the collector: appended, or dropped and counted when the 64-entry queue is full (R344; log 11). -/
def opFaultRecord (queueFull : Bool) (s : State) : State :=
  match s.thal.inFlight with
  | [] => s
  | r :: rest =>
    let s := { s with thal := { s.thal with inFlight := rest } }
    if queueFull then { s with thal := { s.thal with flogLost := satInc s.thal.flogLost, lostMark := true } }
    else
      let lost := s.thal.lostMark
      let s := logRecord r s
      if r.doubt || r.safe then
        postEvent 4 (if r.pipe = 0xF then none else some r.pipe.toNat) (if r.noframe then none else some r.frame)
          ({ r with lost := lost }.head) s
      else s

/-- LOCKSTEP (R341). -/
def execLockstep (s : State) := performSaf opLockstep s
/-- CLKLOSS (R341). -/
def execClkloss (s : State) := performSaf opClkloss s
/-- HEARTBEAT (R341). -/
def execHeartbeat (s : State) := performSaf opHeartbeat s
/-- HEARTBEAT_SERVICE (R341). -/
def execHeartbeatService (s : State) := performSaf opService s
/-- VDD_SAF_UNDERVOLTAGE (R341). -/
def execVddSafUndervoltage (s : State) := performSaf opUndervoltage s
/-- VDD_SAF_RESTORED (R341). -/
def execVddSafRestored (s : State) := performSaf opRestored s
/-- FAULT_RECORD (R344). -/
def execFaultRecord (queueFull : Bool) (s : State) := performSaf (opFaultRecord queueFull) s

end Sys2Proof.Machine
end

