-- ==== Sys2Proof/Machine/MemCtl.lean ====
section
/-! DEFINITION. The memory controllers: reads, writes, scrubbing, sparing, migration, failure and tokens (R462 to R493, 14). -/

namespace Sys2Proof.Machine

/-- The row of a main-memory address in its channel (R463). -/
def rowOf (a : Nat) : Nat := chanOff a / 1024

/-- DETAIL of a main-memory fault (R485). -/
def memDetail (pch row : Nat) (wss : Bool) (cause : Nat) : Nat := pch + place row 8 + place (b2n wss) 27 + place cause 28

/-- Report a main-memory fault about an address (R485). -/
def memFault (code : BitVec 16) (init a : Nat) (doubt_ wss : Bool) (s : State) : State :=
  report { faultAt code init a (memDetail (s.servingPch a) (rowOf a) wss 0) with doubt := doubt_ } s

/-- Report a fault of a channel. -/
def chanFault (code : BitVec 16) (pch cause : Nat) : State → State := reportCode code (memDetail pch 0 false cause)

/-! ### Migration and sparing (R479, R480, R482) -/

/-- The lowest SPARE channel of a group not already the target of its migration. -/
def State.spareOf (s : State) (g : Nat) : Option Nat :=
  ((List.range 36).map (fun i => 36 * g + i)).find? (fun p => (s.pch p).st = .spare && (s.group g).migTo.toNat ≠ p)

/-- A migration starts, or is dropped with 0x0209 where no spare is left (R480, R482). -/
def startMigration (lch cause : Nat) (s : State) : State :=
  let g := lch / 32
  let old := s.mappedPch lch
  match s.spareOf g with
  | none => chanFault 0x0209 old 0 s
  | some sp =>
    let s := State.modGroup g (fun r => { r with
      migFrom := BitVec.ofNat 8 old, migTo := BitVec.ofNat 8 sp, migBlocks := 0, migLch := lch, spares := r.spares - 1 }) s
    chanFault 0x0207 old cause (State.modPch old (fun r => { r with st := .migrating }) s)

/-- A migration is asked for: at once, or in request order behind the group's own (R480). -/
def requestMigration (lch cause : Nat) (s : State) : State :=
  let r := s.group (lch / 32)
  if (s.chmap lch).lost || (r.migFrom ≠ 0xFF && r.migLch = lch) || r.waiting.any (fun x => x.1 = lch) then s
  else if r.migFrom ≠ 0xFF then State.modGroup (lch / 32) (fun r => { r with waiting := r.waiting ++ [(lch, cause)] }) s
  else startMigration lch cause s

/-- Start waiting requests until one runs. -/
def startWaiting (g : Nat) : Nat → State → State
  | 0, s => s
  | n + 1, s =>
    match (s.group g).waiting with
    | [] => s
    | (l, c) :: rest =>
      let s := startMigration l c (State.modGroup g (fun r => { r with waiting := rest }) s)
      if (s.group g).migFrom ≠ 0xFF then s else startWaiting g n s

/-- The logical channel a physical channel serves. -/
def State.lchServed (s : State) (p : Nat) : Option Nat :=
  ((List.range 32).map (fun i => 32 * (p / 36) + i)).find? (fun l => s.mappedPch l = p && !(s.chmap l).lost)

/-- A row needs sparing: a spare row is copied to, or with all 64 in use 0x0206 and a migration (R479, R480). -/
def requestRowSpare (pch row : Nat) (s : State) : State :=
  let r := s.pch pch
  if r.sparing.contains row then s
  else if 64 ≤ r.sprows.toNat + r.sparing.length then
    let s := reportCode 0x0206 (memDetail pch row false 0) s
    match s.lchServed pch with
    | some l => requestMigration l 0 s
    | none => s
  else State.modPch pch (fun r => { r with sparing := r.sparing ++ [row] }) s

/-- A correction in a row: the row table, the row's threshold and the channel's (R479, R480). -/
def noteCorrection (pch row : Nat) (s : State) : State :=
  let old := match (s.pch pch).rowTable.find? (fun x => x.1 = row) with | some x => x.2 | none => 0
  let s := State.modPch pch (fun r => { r with
    corr := satInc r.corr, passCorr := r.passCorr + 1,
    rowTable := ((row, old + 1) :: r.rowTable.filter (fun x => x.1 ≠ row)).take 16 }) s
  let s := if max 1 s.mem.rowThresh.toNat ≤ old + 1 then requestRowSpare pch row s else s
  if max 1 s.mem.chThresh.toNat < (s.pch pch).passCorr then
    match s.lchServed pch with
    | some l => requestMigration l 1 s
    | none => s
  else s

/-- An uncorrectable line: counted, and its row spared (R474, R479, R493). -/
def noteUncorrectable (pch row : Nat) (s : State) : State :=
  requestRowSpare pch row (State.modPch pch (fun r => { r with uncorr := satInc r.uncorr }) s)

/-! ### One line read (R471, R473, R474) -/

/-- What a line read finds: the data as returned, the metadata, and whether it was corrected or uncorrectable. -/
structure LineRead where
  data : List Byte
  poison : Bool
  wss : Bool
  corrected : Bool
  bad : Bool
deriving DecidableEq, Repr

/-- The metadata byte of a line (R473). -/
def metaByte (m : LineMeta) : Byte := BitVec.ofNat 8 (b2n m.poison + 2 * b2n m.wss)

/-- Decode line i as it arrives with symbol errors (R471 to R474). -/
def State.decodeLine (s : State) (i : Nat) (errs : List SymErr) : LineRead :=
  let m := s.lineMeta i
  let w := applyErrs (rsEncode (s.memBytes (i * 64) 64 ++ [metaByte m])) (errs.map (fun e => (e.pos.val, e.flip)))
  let out := rsDecode w
  let c := rsCorrected w
  let mb := (c.getD 64 0).toNat
  if out = .uncorrectable || decide (4 ≤ mb) then
    { data := w.take 64, poison := true, wss := bit (w.getD 64 0).toNat 1, corrected := false, bad := true }
  else { data := c.take 64, poison := bit mb 0, wss := bit mb 1, corrected := out ≠ .good, bad := false }

/-- The read's counters, write-back and row or channel sparing, in the same step (R474, R476, R479). -/
def lineEffects (i : Nat) (r : LineRead) (wssBack : Bool) (s : State) : State :=
  let a := i * 64
  let pch := s.servingPch a
  if r.bad then
    noteUncorrectable pch (rowOf a) (setLineMeta i true wssBack (putMem a r.data s))
  else if r.corrected then
    noteCorrection pch (rowOf a) (setLineMeta i r.poison wssBack (putMem a r.data s))
  else s

/-- The repeats a transfer of line i needs, each counted: one for every attempt whose link CRC-8 does not match (R467). -/
def linkTransfer (i : Nat) (link : List LinkErr) (s : State) : State :=
  let w := rsEncode (s.memBytes (i * 64) 64 ++ [metaByte (s.lineMeta i)])
  let n := (link.filter (fun e => !linkOk w e)).length
  transferOk (i * 64) (if n = 0 then s else State.modPch (s.servingPch (i * 64)) (fun r => { r with replay := satAdd r.replay n }) s)

/-- MEM_READ: a line under a class, decoded, corrected or poisoned, written back; class-0 poison is reported (R474, R477, R482). -/
def opMemRead (init cls a : Nat) (errs : List SymErr) (link : List LinkErr) (s : State) : State :=
  let i := a / 64
  let c0 := class0Read init cls
  let s := useTokens init cls a 64 s
  if s.lineLost i then
    let s := emit (.readReply (BitVec.ofNat 8 init) (some (s.memBytes a 64)) true) s
    if c0 then class0Poison 0x020B (memFault 0x020B init a true false s) else s
  else
    let s := linkTransfer i link s
    let r := s.decodeLine i errs
    let s := lineEffects i r r.wss s
    let s := emit (.readReply (BitVec.ofNat 8 init) (some r.data) r.poison) s
    if r.bad then
      let s := memFault 0x0201 init a c0 false s
      if c0 then class0Poison 0x0201 s else s
    else if r.poison && c0 then class0Poison 0x020B (memFault 0x020B init a true false s)
    else s

/-- MEM_WRITE: a whole line, or a part merged by a read-modify-write whose read counts but is not reported (R475, R482). -/
def opMemWrite (init cls a : Nat) (d : List Byte) (poison : Bool) (errs : List SymErr) (link : List LinkErr) (s : State) : State :=
  let i := a / 64
  let s := useTokens init cls a d.length s
  if s.lineLost i then emit (.readReply (BitVec.ofNat 8 init) none false) s
  else
    let s := linkTransfer i link s
    let s := if d.length = 64 then s else
      let r := s.decodeLine i errs
      let t := lineEffects i r r.wss s
      if r.bad then memFault 0x0201 init a false false t else t
    memWrite a (d.map (fun b => (b, poison))) s

/-- One access of the controllers. -/
def memAccess (x : MemWait) (s : State) : State :=
  match x.write with
  | none => opMemRead x.init x.cls x.addr x.errs x.link s
  | some w => opMemWrite x.init x.cls x.addr w.1 w.2 x.errs x.link s

/-- The accesses to a line wait: its group's clock is lost, its channel's spare is still being written, or its row is being copied
(R479, R481, R558). -/
def State.lineWaits (s : State) (i : Nat) : Bool :=
  s.lineStopped i || (s.chmap (lchOf (i * 64))).filling || (s.pch (s.servingPch (i * 64))).sparing.contains (rowOf (i * 64))

/-- An access is served, or waits (R479, R481, R558). -/
def memServe (x : MemWait) (s : State) : State :=
  if s.lineWaits (x.addr / 64) then State.modGroup (lchOf x.addr / 32) (fun r => { r with held := r.held ++ [x] }) s else memAccess x s

/-- An access of an identifier that is issued; any other never reaches the controllers (R28). -/
def memCommand (x : MemWait) (s : State) : State := if s.initIssued x.init then memServe x s else s

/-- What waits at a group is looked at again, in order: served, or waiting on (R476). -/
def serveHeld (g : Nat) (s : State) : State :=
  (s.group g).held.foldl (fun t x => memServe x t) (State.modGroup g (fun r => { r with held := [] }) s)

/-- The group's clock returns (R558). -/
def groupResumes (g : Nat) (s : State) : State := serveHeld g (State.modGroup g (fun r => { r with clockLost := false }) s)

/-- MCG_CLOCK_WAIT_EXPIRY: what still waits for the clock after 100 µs gets error responses (R558). -/
def opClockWait (g : Nat) (s : State) : State :=
  let xs := if (s.group g).clockLost then (s.group g).held else []
  if xs = [] then s else
  xs.foldl (fun t x => emit (.readReply (BitVec.ofNat 8 x.init) none false) t) (State.modGroup g (fun r => { r with held := [] }) s)

/-! ### Channel failure (R468, R481, R482) -/

/-- Lines of logical channel l at or above a line of the channel lose their data (R481). -/
def wipeChannel (l fromLine : Nat) (s : State) : State :=
  let keep : Nat → Bool := fun a => !(lchOf a = l && decide (fromLine ≤ chanOff a / 64))
  let s := { s with mem := { s.mem with
    bytes := s.mem.bytes.filter (fun e => keep e.1), lines := s.mem.lines.filter (fun e => keep (e.1 * 64)) } }
  State.modChmap l (fun m => { m with wiped := some (match m.wiped with | some w => min w fromLine | none => fromLine), filling := true }) s

/-- Channel sp takes over logical channel l whose data above a line is lost. -/
def replaceBy (l sp fromLine : Nat) (s : State) : State :=
  wipeChannel l fromLine (State.modChmap l (fun m => { m with pch := some (BitVec.ofNat 8 sp) })
    (State.modPch sp (fun r => { r with st := .active }) s))

/-- A channel fails: a spare written poisoned takes its place, or its logical channel is LOST (R468, R481, R482). -/
def failChannel (p : Nat) (code : BitVec 16) (s : State) : State :=
  let g := p / 36
  let r := s.group g
  let wasSpare := (s.pch p).st = .spare
  let served := s.lchServed p
  let s := chanFault code p 0 (State.modPch p (fun r => { r with st := .failed, retrained := false, sparing := [] }) s)
  if r.migFrom ≠ 0xFF && r.migTo.toNat = p then
    -- the migration's own target fails: the request starts again on another spare
    let l := r.migLch
    let s := State.modGroup g (fun r => { r with migFrom := 0xFF, migTo := 0xFF, migBlocks := 0 })
      (State.modPch r.migFrom.toNat (fun r => { r with st := .active }) s)
    let s := startMigration l 0 s
    if (s.group g).migFrom ≠ 0xFF then s else startWaiting g 33 s
  else match served with
    | none => if wasSpare then State.modGroup g (fun r => { r with spares := r.spares - 1 }) s else s
    | some l =>
      if r.migFrom.toNat = p then
        let s := replaceBy l r.migTo.toNat (4 * r.migBlocks) s
        startWaiting g 33 (State.modGroup g (fun r => { r with migFrom := 0xFF, migTo := 0xFF, migBlocks := 0 }) s)
      else match s.spareOf g with
        | some sp => State.modGroup g (fun r => { r with spares := r.spares - 1 }) (replaceBy l sp 0 s)
        | none => serveHeld g (State.modChmap l (fun m => { m with lost := true }) (chanFault 0x0209 p 0 s))

/-- A transfer has failed 4 times: 0x0203 and a retraining; the channel fails where that does not succeed, or where the repeated
transfer fails 4 more times (R467, R468). -/
def opRetrain (p : Nat) (ok : Bool) (s : State) : State :=
  let s := State.modPch p (fun r => { r with replay := satAdd r.replay 3 }) s
  if (s.pch p).st = .failed then s
  else if (s.pch p).retrained then failChannel p 0x0204 s
  else
    let s := chanFault 0x0203 p 0 s
    if ok then State.modPch p (fun r => { r with retrained := true }) s else failChannel p 0x0204 s

/-- The spare is written: the logical channel's accesses go on (R481). -/
def opFillDone (l : Nat) (s : State) : State := serveHeld (l / 32) (State.modChmap l (fun m => { m with filling := false }) s)

/-! ### Scrubbing (R478, R487) -/

/-- Scrub one line: corrected and written back with WSS clear; uncorrectable poisoned with 0x0202; poisoned left as it is. -/
def scrubLine (lch : Nat) (errs : List SymErr) (s : State) : State :=
  let a := addrOf lch (s.mem.line.toNat * 64)
  let i := a / 64
  if s.lineLost i || (s.chmap lch).filling then s
  else
    let s := transferOk a s
    let r := s.decodeLine i errs
    if r.bad then lineEffects i r false (memFault 0x0202 0xFF a false r.wss s)
    else if r.poison then s
    else
      let s := lineEffects i r false s
      if r.wss && !r.corrected then setLineMeta i r.poison false s else s

/-- The pass ends: PASSES counts and the row tables clear (R479, R487). -/
def endPass (s : State) : State :=
  forUpTo 144 (fun p t => State.modPch p (fun r => { r with rowTable := [], passCorr := 0 }) t)
    { s with mem := { s.mem with passes := s.mem.passes + 1 } }

/-- The symbol errors of a channel's line in a scrub step. -/
def errsOf (errs : List (LogChan × List SymErr)) (l : Nat) : List SymErr :=
  match errs.find? (fun e => decide (e.1.val = l)) with
  | some e => e.2
  | none => []

/-- The scrub position moves on; a pass ends as it wraps (R478, R487). -/
def advanceScrub (s : State) : State :=
  let n := s.mem.line.toNat + 1
  let s := { s with mem := { s.mem with line := BitVec.ofNat 23 n } }
  if n = 2 ^ 23 then endPass s else s

/-- SCRUB_STEP: the line at the scrub position of every mapped channel (R478). -/
def opScrub (errs : List (LogChan × List SymErr)) (s : State) : State :=
  if s.mem.scrubPeriod.toNat = 0 || s.gctl.bootStage.toNat ≠ 4 || s.mem.selfRefresh then s
  else advanceScrub (forUpTo 128 (fun l t => scrubLine l (errsOf errs l) t) s)

/-! ### Row spares, migration, tokens -/

/-- A line as a copy leaves it: corrected, or poisoned with its data as read and WSS as read (R474, R479). -/
def copyLine (i : Nat) (errs : List SymErr) (s : State) : State :=
  let r := s.decodeLine i errs
  if r.bad || r.corrected then setLineMeta i r.poison r.wss (putMem (i * 64) r.data s) else s

/-- The 16 lines of a row of logical channel l, copied with the symbol errors they arrive with (R463, R479). -/
def copyRow (l row : Nat) (errs : List (Fin 16 × List SymErr)) (s : State) : State :=
  forUpTo 16 (fun j t => copyLine (addrOf l (row * 1024 + j * 64) / 64)
    (match errs.find? (fun e => decide (e.1.val = j)) with | some e => e.2 | none => []) t) s

/-- ROW_SPARE_DONE: the row's lines are copied and the row is mapped to its spare, 0x0205; its accesses go on (R479, R492). -/
def opRowSpared (p row : Nat) (errs : List (Fin 16 × List SymErr)) (s : State) : State :=
  if (s.pch p).sparing.contains row then
    let s := match s.lchServed p with
      | some l => copyRow l row errs (transferOk (addrOf l (row * 1024)) s)
      | none => s
    serveHeld (p / 36) (reportCode 0x0205 (memDetail p row false 0) (State.modPch p (fun r => { r with
      sparing := r.sparing.filter (fun x => x ≠ row), sparedRows := addNew r.sparedRows row, sprows := r.sprows + 1,
      rowTable := r.rowTable.filter (fun x => x.1 ≠ row) }) s))
  else s

/-- Blocks of a channel (R480). -/
def chanBlocks : Nat := 2097152

/-- MIGRATE_REQUEST: a write of MEMC_MIGRATE (R480, R488). -/
def opMigrate (v : Word32) (s : State) : State := if v.getLsbD 7 then requestMigration (bits v.toNat 6 0) 2 s else s

/-- The four lines of the block at the copy position, read under R474 and copied: an uncorrectable one records 0x0201 and arrives poisoned (R480). -/
def copyBlock (r : GroupRec) (errs : List (Fin 4 × List SymErr)) (s : State) : State :=
  forUpTo 4 (fun j t =>
    let a := addrOf r.migLch (r.migBlocks * 256 + j * 64)
    let t := transferOk a t
    let x := t.decodeLine (a / 64) (match errs.find? (fun e => decide (e.1.val = j)) with | some e => e.2 | none => [])
    let u := lineEffects (a / 64) x x.wss t
    if x.bad then memFault 0x0201 0xFF a false false u else u) s

/-- MIGRATION_BLOCK_COPY: a block is copied and the copy position moves; at the end the map points to the spare and the old channel retires (R480). -/
def opBlockCopy (g : Nat) (errs : List (Fin 4 × List SymErr)) (s : State) : State :=
  let r := s.group g
  if r.migFrom = 0xFF || s.mem.selfRefresh then s
  else
  let s := copyBlock r errs s
  if r.migBlocks + 1 < chanBlocks then State.modGroup g (fun r => { r with migBlocks := r.migBlocks + 1 }) s
  else
    let s := State.modChmap r.migLch (fun m => { m with pch := some r.migTo }) s
    let s := State.modPch r.migFrom.toNat (fun x => { x with st := .retired }) (State.modPch r.migTo.toNat (fun x => { x with st := .active }) s)
    let s := State.modGroup g (fun r => { r with migFrom := 0xFF, migTo := 0xFF, migBlocks := 0 }) s
    startWaiting g 33 (chanFault 0x0208 r.migFrom.toNat 0 s)

/-- Tokens of a period, and class 0's reserved part (R483, R299). -/
def tokenBudget : Nat := 5390

/-- TOKEN_PERIOD: the last period's use, and a fresh budget (R483, R490). Class-0 traffic beyond C0_PCT fails the promise's condition
for the open frames (R300). -/
def opTokenPeriod (g : Nat) (s : State) : State :=
  let resv := tokenBudget * s.sched.c0Pct.toNat / 100
  let late := decide (resv < (s.group g).c0Now)
  let s := State.modGroup g (fun r => { r with
    c0Used := BitVec.ofNat 16 (min r.c0Now 65535), c0Resv := BitVec.ofNat 16 resv, c0Now := 0 }) s
  if late then s.class0Pipes.foldl (fun t p => State.modC0 p (fun c => { c with openVoid := { c.openVoid with fit := true } }) t) s else s

/-- MEM_READ (R474). -/
def execMemRead (init : Initiator) (cls : Fin 4) (addr : Addr) (errs : LineErrs) (s : State) :=
  performWf (Instr.wf (.memRead init cls addr errs)) (memCommand ⟨init.toNat, cls.val, addr, none, errs.syms, errs.link⟩) s
/-- MEM_WRITE (R475). -/
def execMemWrite (init : Initiator) (cls : Fin 4) (addr : Addr) (data : List Byte) (poison : Bool) (errs : LineErrs)
    (s : State) :=
  performWf (Instr.wf (.memWrite init cls addr data poison errs))
    (memCommand ⟨init.toNat, cls.val, addr, some (data, poison), errs.syms, errs.link⟩) s
/-- MEM_CHANNEL_RETRAIN (R468). -/
def execMemChannelRetrain (pch : PhysChan) (ok : Bool) (s : State) := perform (opRetrain pch.val ok) s
/-- SPARE_POISON_FILL_DONE (R481). -/
def execSparePoisonFillDone (lch : LogChan) (s : State) := perform (opFillDone lch.val) s
/-- SCRUB_STEP (R478). -/
def execScrubStep (errs : List (LogChan × List SymErr)) (s : State) := performWf (Instr.wf (.scrubStep errs)) (opScrub errs) s
/-- ROW_SPARE_DONE (R479). -/
def execRowSpareDone (pch : PhysChan) (row : RowCopy) (s : State) :=
  performWf (Instr.wf (.rowSpareDone pch row)) (opRowSpared pch.val row.row row.errs) s
/-- MIGRATE_REQUEST (R488). -/
def execMigrateRequest (value : Word32) (s : State) := performBar (opMigrate value) s
/-- MIGRATION_BLOCK_COPY (R480). -/
def execMigrationBlockCopy (g : GroupCopy) (s : State) :=
  performWf (Instr.wf (.migrationBlockCopy g)) (opBlockCopy g.group.val g.errs) s
/-- MCG_CLOCK_WAIT_EXPIRY (R558). -/
def execMcgClockWaitExpiry (g : Group) (s : State) := perform (opClockWait g.val) s
/-- TOKEN_PERIOD (R483). -/
def execTokenPeriod (g : Group) (s : State) := perform (opTokenPeriod g.val) s

end Sys2Proof.Machine
end

