-- ==== Sys2Proof/Machine/Pcie.lean ====
section
/-! DEFINITION. The PCI Express endpoint: BAR2, outbound completions, link events (R532 to R538, R552, R586). -/

namespace Sys2Proof.Machine

/-! ### BAR2 (R534, R586) -/

/-- What a BAR2 read returns block by block: zeros where the access was refused (R534). -/
def bar2Data (b : Nat × Nat × Option (List PByte)) : List PByte :=
  match b.2.2 with
  | some d => d
  | none => clean (List.replicate b.2.1 0)

/-- A BAR2 read of main memory under 0xB0 and class 3; poisoned data goes with EP set and 0x0703 (R534). -/
def bar2Read (off n : Nat) (s : State) : State :=
  let r := readBlocks 0xB0 3 (n / 64 + 2) off n s
  let d := r.1.flatMap bar2Data
  let s := emit (.readReply 0xB0 (some (plain d)) (poisoned d)) r.2
  if poisoned d then report (faultAt 0x0703 0xB0 off 0) s else s

/-- A BAR2 write of main memory under 0xB0 and class 3; a refused one settles the host sample whose slot it was for (R55, R62, R534). -/
def bar2Write (off : Nat) (d : List Byte) (s : State) : State :=
  let r := writeAll 0xB0 3 off (clean d) s
  if r.1 then r.2 else hostRefused off d.length r.2

/-- Zeros and discarded writes, as R9 has it. -/
def asR9 (acc : BusAcc) (s : State) : State :=
  match acc with
  | .read n => emit (.readReply 0xB0 (some (List.replicate n 0)) false) s
  | .write _ => s

/-- The staging buffer in HOSTWAIT (R586). -/
def stagingAccess (off : Nat) (acc : BusAcc) (s : State) : State :=
  if 0x400000 < off + acc.len then asR9 acc s
  else match acc with
    | .read n => emit (.readReply 0xB0 (some (treadN 0 s.sec.staging off n)) false) s
    | .write d => { s with sec := { s.sec with staging := twriteN 0 s.sec.staging off d } }

/-- BAR2_ACCESS. Outside the BAR it is an Unsupported Request; before memory is trained nothing answers (R534, R586; log 49). -/
def opBar2 (off : Nat) (acc : BusAcc) (s : State) : State :=
  if !s.gctl.pcieUp then s
  else if 0x1000000000 < off + acc.len then emit .unsupportedRequest s
  else if s.sec.phase = .hostWait then stagingAccess off acc s
  else if s.gctl.bootStage.toNat < 3 then asR9 acc s
  else match acc with
    | .read n => bar2Read off n s
    | .write d => bar2Write off d s

/-! ### Flits (R29, R33) -/

/-- One flit as received: its payload, whether a symbol was corrected, whether it is poisoned (R33). -/
def flitReceive (d : List PByte) (errs : List SymErr) : List PByte × Bool × Bool :=
  if errs = [] then (d, false, false)
  else
    let w := applyErrs (rsEncode (slice (plain d) 0 64)) (errs.map (fun e => (e.pos.val, e.flip)))
    let got := (rsCorrected w).take d.length
    match rsDecode w with
    | .good => (got.zip (d.map (·.2)), false, false)
    | .corrected _ _ => (got.zip (d.map (·.2)), true, false)
    | .uncorrectable => (got.map (fun b => (b, true)), false, true)

/-- The payload of a transaction flit by flit, with the counter and the fault of each (R33). -/
def flits (init cls a : Nat) : Nat → List PByte → List (List SymErr) → State → List PByte × State
  | 0, d, _, s => (d, s)
  | fuel + 1, d, errs, s =>
    if d = [] then ([], s)
    else
      let f := flitReceive (d.take 64) (errs.headD [])
      let s := if f.2.1 then { s with gctl := { s.gctl with nocCorr := satInc s.gctl.nocCorr } } else s
      let s := if f.2.2 then
          let s := report { faultAt 0x0301 init a 0 with doubt := class0Read init cls } s
          if class0Read init cls then class0Poison 0x0301 s else s
        else s
      let rest := flits init cls a fuel (d.drop 64) errs.tail s
      (f.1 ++ rest.1, rest.2)

/-- The answer of a read: an error response, or its data as the flits deliver it (R33). -/
def flitReply (init : Initiator) (cls a : Nat) (errs : List (List SymErr)) (r : Option (List PByte) × State) : State :=
  match r.1 with
  | none => emit (.readReply init none false) r.2
  | some d =>
    let f := flits init.toNat cls a (d.length / 64 + 1) d errs r.2
    emit (.readReply init (some (plain f.1)) (poisoned f.1)) f.2

/-! ### Outbound requests of the NOC (R532, R535, R537) -/

/-- Window of an outbound address (R535). -/
def windowOf (a : Nat) : Nat := (a - 0xC000000000) / 0x1000000000

/-- A read goes out to the host and waits for its completion; with 256 out it waits for its turn (R532, R535). -/
def outboundRequest (x : NocAccess) (n : Nat) (s : State) : State :=
  let w := windowOf x.addr
  let err := emit (.readReply x.init none false)
  let t := s.gctl.obNextTag
  if !(s.obw w).en then err (report (faultAt 0x0702 x.init.toNat x.addr w) s)
  else if !s.gctl.pcieUp then err (report (faultAt 0x0701 x.init.toNat x.addr w) s)
  else { s with gctl := { s.gctl with
    obReqs := s.gctl.obReqs ++ [(t, ⟨x.init, x.addr, n, x.vc.val, x.flitErrs⟩)], obNextTag := t + 1,
    hostCpl := s.gctl.hostCpl.filter (fun e => e.1 ≠ t) } }

/-- The request of a tag, where it is one of the 256 that are out (R532). -/
def State.outReq (s : State) (tag : Nat) : Option ObReq := ((s.gctl.obReqs.take 256).find? (fun e => e.1 = tag)).map (·.2)

/-- The request of a tag is over. -/
def dropReq (tag : Nat) (s : State) : State :=
  { s with gctl := { s.gctl with obReqs := s.gctl.obReqs.filter (fun e => e.1 ≠ tag) } }

/-- An outbound request fails: an error response and a record with its window (R535, R537, R538). -/
def failReq (code : BitVec 16) (q : ObReq) (s : State) : State :=
  emit (.readReply q.init none false) (report (faultAt code q.init.toNat q.addr (windowOf q.addr)) s)

/-- What the host will answer to the request of a tag not yet made: an engine's request and its completion are one step (log 7). -/
def awaitAnswer (tag : Nat) (kind : CplKind) (s : State) : State :=
  if tag < s.gctl.obNextTag then s
  else { s with gctl := { s.gctl with hostCpl := (tag, kind) :: s.gctl.hostCpl.filter (fun e => e.1 ≠ tag) } }

/-- PCIE_COMPLETION: data, poisoned data with 0x0705, or UR and CA with 0x0704, to the requester's receiver (R33, R535). -/
def opCompletion (tag : Nat) (kind : CplKind) (s : State) : State :=
  match s.outReq tag with
  | none => awaitAnswer tag kind s
  | some q =>
    flitReply q.init q.cls q.addr q.flitErrs (hostAnswer kind q.init.toNat (windowOf q.addr) q.addr q.len (dropReq tag s))

/-- PCIE_COMPLETION_TIMEOUT: 10 ms without a completion (R532, R535). -/
def opCplTimeout (tag : Nat) (s : State) : State :=
  match s.outReq tag with
  | none => awaitAnswer tag .ur s
  | some q => failReq 0x0704 q (dropReq tag s)

/-- PCIE_LINK_RESET: the endpoint alone; outbound requests in flight fail with 0x0701 (R537, R552). -/
def opPcieReset (s : State) : State :=
  let qs := s.gctl.obReqs
  qs.foldl (fun t e => failReq 0x0701 e.2 t) { s with gctl := { s.gctl with pcieUp := false, obReqs := [], hostCpl := [] } }

/-- PCIE_LINK_UP at a width and speed the endpoint trains to, with its clock (R532, R552, R558). -/
def opPcieUp (width : BitVec 4) (speed : BitVec 3) (s : State) : State :=
  if !s.pwr.lostDomains.contains .pcie && [1, 2, 4, 8].contains width.toNat && decide (1 ≤ speed.toNat) && decide (speed.toNat ≤ 5) then
    { s with gctl := { s.gctl with pcieUp := true, pcieWidth := width, pcieSpeed := speed } }
  else s

/-- BAR2_ACCESS (R534). -/
def execBar2Access (off : Nat) (acc : BusAcc) (s : State) := performWf (Instr.wf (.bar2Access off acc)) (opBar2 off acc) s
/-- PCIE_COMPLETION (R535). -/
def execPcieCompletion (tag : Nat) (kind : CplKind) (s : State) := perform (opCompletion tag kind) s
/-- PCIE_COMPLETION_TIMEOUT (R535). -/
def execPcieCompletionTimeout (tag : Nat) (s : State) := perform (opCplTimeout tag) s
/-- PCIE_LINK_RESET (R537). -/
def execPcieLinkReset (s : State) := perform opPcieReset s
/-- PCIE_LINK_UP (R552). -/
def execPcieLinkUp (width : BitVec 4) (speed : BitVec 3) (s : State) := perform (opPcieUp width speed) s

end Sys2Proof.Machine
end

