-- ==== Sys2Proof/Machine/Twin.lean ====
section
/-! DEFINITION. The twin link, heartbeats, digests and their verdicts, roles, takeover and PEER_KILL (R494 to R506, 15). -/

namespace Sys2Proof.Machine

/-- A twin fault: DETAIL holds the pipeline, 7 for none, and the lane (R515). -/
def reportTwin (code : BitVec 16) (lane : Nat) (s : State) : State := reportCode code (7 + place lane 8) s

/-! ### Twin verdicts (R506) -/

/-- The open frames of p whose PLAN is complete, oldest first. -/
def State.plannedFrames (s : State) (p : Nat) : List Ledger := (s.openFrames p).filter (fun l => l.stageDone 3)

/-- The oldest planned frame of p for which the region has not been read (R505). -/
def State.digestFrame (s : State) (p : Nat) : Option Ledger :=
  let t := s.twinPipe p
  (s.plannedFrames p).find? (fun l => !t.local_.any (fun x => x.1 = l.frame) && !t.localFailed.contains l.frame)

/-- A verdict is recorded: LAST, FRAME, the counter it moves, and the peer's digest of the frame is dropped (R506, R513, R514). -/
def noteVerdict (p : Nat) (k : Word32) (last : BitVec 3) : State → State :=
  State.modTwinPipe p (fun t => { t with
    last := last, frame := k, judged := k :: t.judged, held := t.held.filter (fun h => h.1 ≠ k),
    mismatch := if last = 2 || last = 3 then satInc t.mismatch else t.mismatch,
    skipped := if last = 4 then satInc t.skipped else t.skipped })

/-- A mismatched or absent digest: the fault, and VERDICT.TWIN (R506). -/
def twinDoubt (p : Nat) (k : Word32) (last : BitVec 3) (code : BitVec 16) (s : State) : State :=
  doubt p k 4 code (reportFrame code p k true p (noteVerdict p k last s))

/-- The verdict where both digests are at hand (R506). -/
def compareDigests (p : Nat) (l : Ledger) (own : List Byte) (h : Word32 × Byte × Byte × List Byte) (s : State) : State :=
  if l.corrupt ≠ 0 || h.2.2.1 ≠ 0 || l.roiAge ≠ h.2.1 then noteVerdict p l.frame 4 s
  else if own = h.2.2.2 then noteVerdict p l.frame 1 s
  else twinDoubt p l.frame 2 0x0A01 s

/-- Judge a planned frame of pipeline p if it can be: TWIN_PRESENT, not judged; the local digest complete or impossible, and the
peer's arrived or the wait over (R506). -/
def judgeFrame (p : Nat) (l : Ledger) (s : State) : State :=
  let t := s.twinPipe p
  if !l.twinPresent || t.judged.contains l.frame then s
  else if t.localFailed.contains l.frame then twinDoubt p l.frame 3 0x0A02 s
  else match t.local_.find? (fun x => x.1 = l.frame) with
    | none => s
    | some own => match t.held.find? (fun h => h.1 = l.frame) with
      | some h => compareDigests p l own.2 h s
      | none => if t.waitOver.contains l.frame then twinDoubt p l.frame 3 0x0A02 s else s

/-- Judge every planned frame of pipeline p that can be (R506). -/
def judgeTwin (p : Nat) (s : State) : State := (s.plannedFrames p).foldl (fun t l => judgeFrame p l t) s

/-- The waits of these frames end (R506). -/
def endWait (p : Nat) (ls : List Ledger) (s : State) : State :=
  judgeTwin p (State.modTwinPipe p (fun t => { t with waitOver := ls.map (fun l => l.frame) ++ t.waitOver }) s)

/-- The peer is declared lost: every wait ends (R506). -/
def endWaits (s : State) : State := s.class0Pipes.foldl (fun t p => endWait p (t.plannedFrames p) t) s

/-! ### Digests (R496, R505) -/

/-- Payload of a DIGEST frame (R505). -/
def digestPayload (p : Nat) (l : Ledger) (d : List Byte) : List Byte :=
  toLe 1 p ++ [l.roiAge, l.corrupt, 0] ++ toLe 4 l.frame.toNat ++ List.replicate 8 0 ++ d

/-- A DIGEST frame on the link, while it is UP (R496, R505). -/
def sendDigest (p : Nat) (l : Ledger) (d : List Byte) (s : State) : State :=
  if s.twin.link ≠ .up then s
  else emit (.twinDigest s.twin.sendSeq (digestPayload p l d)) { s with twin := { s.twin with sendSeq := s.twin.sendSeq + 1 } }

/-- DIGEST_COMPUTE_DONE: the command region is read under 0xD0 and digested, and the digest sent; or no digest can be made (R505, R506). -/
def opDigestCompute (p : Nat) (s : State) : State :=
  let t := s.twinPipe p
  if !((s.pipe p).running && (s.pipe p).cls = 0) || t.digLen = 0 then s
  else match s.digestFrame p with
    | none => s
    | some l =>
      let r := readAll 0xD0 0 t.digBase.toNat t.digLen.toNat s
      match r.1 with
      | none => judgeTwin p (State.modTwinPipe p (fun t => { t with localFailed := l.frame :: t.localFailed }) r.2)
      | some d =>
        if poisoned d then judgeTwin p (State.modTwinPipe p (fun t => { t with localFailed := l.frame :: t.localFailed }) r.2)
        else
          let h := shake256 (toLe 4 l.frame.toNat ++ toLe 1 p ++ plain d) 32
          let s := State.modTwinPipe p (fun t => { t with local_ := (l.frame, h) :: t.local_, resendDue := true }) r.2
          judgeTwin p (sendDigest p l h s)

/-- DIGEST_RESEND: the second copy, 10 µs after the first (R505). -/
def opDigestResend (p : Nat) (s : State) : State :=
  let t := s.twinPipe p
  match t.local_ with
  | [] => s
  | own :: _ =>
    if !t.resendDue then s
    else sendDigest p (s.ledgerAt p own.1) own.2 (State.modTwinPipe p (fun t => { t with resendDue := false }) s)

/-- Whether a digest for the frame has no use: the pipeline not running, the frame decided or judged, or its wait over (R506). -/
def State.digestLate (s : State) (p : Nat) (k : Word32) : Bool :=
  let t := s.twinPipe p
  !((s.pipe p).running && (s.pipe p).cls = 0) || (s.auth p).decided = some k || t.judged.contains k || t.waitOver.contains k ||
    t.held.any (fun h => h.1 = k)

/-- DIGEST_RECEIVE: a bad frame is counted; the first good copy is held and judged (R496, R505, R506). -/
def opDigestReceive (p : Nat) (frame : Word32) (roiAge corrupt : Byte) (digest : BitVec 256) (good : Bool) (s : State) : State :=
  if s.twin.link ≠ .up then s
  else if !good then { s with twin := { s.twin with crcErr := satInc s.twin.crcErr } }
  else if s.digestLate p frame then s
  else judgeTwin p (State.modTwinPipe p (fun t => { t with held := t.held ++ [(frame, roiAge, corrupt, toLe 32 digest.toNat)] }) s)

/-- The planned frames of p since whose PLAN's completion DIGWAIT, 0 taken as 1, has passed (R506, R510). -/
def State.digwaitOver (s : State) (p : Nat) : List Ledger :=
  (s.plannedFrames p).filter (fun l =>
    decide (l.tEdge.toNat + (l.tStage.getD 3 0).toNat + 1000 * max 1 s.twin.digwait.toNat ≤ s.gctl.time.toNat))

/-- DIGWAIT_EXPIRY: the waits of the frames since whose PLAN DIGWAIT has passed end (R506). -/
def opDigwait (p : Nat) (s : State) : State :=
  if (s.digwaitOver p).isEmpty then s else endWait p (s.digwaitOver p) s

/-! ### Roles and arming (R501, R503) -/

/-- The governor's mode is set by the twin role or a takeover, and event 0x08 says so (R501, R503). -/
def setMode (m : GovMode) (cause : Nat) (s : State) : State :=
  postEvent 8 none none (toLe 8 (m.code + place cause 8)) { s with island := { s.island with mode := m } }

/-- The mode at READY under the table of R501; while no row holds it stays STANDBY. -/
def setRole (s : State) : State :=
  if !s.gctl.ready || s.twin.roleSet || s.island.silent || s.island.inReset then s
  else
    let done : State → State := fun t => { t with twin := { t.twin with roleSet := true } }
    if s.pins.twinRole then setMode .standby 1 (done s)
    else if !s.pins.peerFaultN then setMode .active 1 (done s)
    else if s.twin.link = .up && s.twin.peerMode = 1 then setMode .active 1 (done s)
    else if s.twin.link = .up && s.twin.peerMode = 0 then setMode .standby 1 (reportTwin 0x0A09 0 (done s))
    else s

/-- READY, neither RESTARTING nor latched (R503). -/
def State.fit (s : State) : Bool := s.gctl.ready && !s.island.restarting && !s.island.silent && !s.island.inReset

/-- Takeover arms while a fit STANDBY device samples PEER_FAULT_N high (R503). -/
def evalArm (s : State) : State :=
  if s.fit && s.island.mode = .standby && s.pins.peerFaultN then { s with twin := { s.twin with armed := true } } else s

/-- READY is set: the role, the 400 ms of R503, and arming. -/
def atReady (s : State) : State := evalArm (setRole { s with twin := { s.twin with readyAt := s.safNow, refusedNoted := false } })

/-- The takeover of R503: 0x0A07, PEER_KILL driven, ACTIVE, event 0x08. -/
def takeover (s : State) : State :=
  setMode .active 0 { reportTwin 0x0A07 0 s with twin := { (reportTwin 0x0A07 0 s).twin with killOut := true, armed := false, roleSet := true } }

/-- PEER_FAULT_N_HIGH: a high sample (R501, R503). -/
def opPeerHigh (s : State) : State :=
  let s := { s with pins := { s.pins with peerFaultN := true } }
  if s.held || s.asleep 4 then s
  else evalArm (setRole { s with twin := { s.twin with lowSamples := 0, refusedNoted := false } })

/-- One low sample as the takeover rules judge it (R503). -/
def lowSample (s : State) : State :=
  if s.island.mode = .active then s
  else if !s.fit then
    if s.twin.refusedNoted then s else reportTwin 0x0A08 0 { s with twin := { s.twin with refusedNoted := true } }
  else if s.twin.armed && decide (2 ≤ s.twin.lowSamples) then takeover s else s

/-- PEER_FAULT_N_LOW: a low sample; the peer is lost, and two in a row start an armed takeover (R501, R503, R506). -/
def opPeerLow (s : State) : State :=
  let fell := s.pins.peerFaultN
  let s := { s with pins := { s.pins with peerFaultN := false } }
  if s.held || s.asleep 4 then s
  else
    let s := { s with twin := { s.twin with lowSamples := s.twin.lowSamples + 1, lowSince := if fell then s.safNow else s.twin.lowSince } }
    lowSample (setRole (if fell then endWaits s else s))

/-- TAKEOVER_WAIT_EXPIRY: not armed, and PEER_FAULT_N low without a break for 400 ms since READY (R503). -/
def opTakeoverWait (s : State) : State :=
  if s.fit && s.island.mode = .standby && !s.twin.armed && !s.pins.peerFaultN &&
      decide (max s.twin.readyAt s.twin.lowSince + 400000000 ≤ s.safNow)
  then takeover s else s

/-- PEER_KILL: high while this device does not drive it (R504). -/
def opPeerKill (s : State) : State :=
  if s.twin.killOut || s.twin.killed then s
  else
    let s := silence s
    reportTwin 0x0A06 0 { s with twin := { s.twin with killed := true } }

/-! ### Link and heartbeat (R494 to R499) -/

/-- Training ends with every lane locked, or lane 4 in the place of one (R494). -/
def linkTrained (spared : BitVec 3) (s : State) : State :=
  { s with twin := { s.twin with link := .up, spared := if spared.toNat < 4 then spared else 7,
                                 lostLanes := if spared.toNat < 4 then BitVec.ofNat 5 (2 ^ spared.toNat) else 0 } }

/-- The link can train: its transmitters are not held and it has a clock (R558, R570). -/
def State.twinTrains (s : State) : Bool := !s.pwr.holdSaf && !s.pwr.lostDomains.contains .twin

/-- TWIN_LINK_UP: training completes; after a lane was replaced it is that lane that stays replaced. Held transmitters, and a lost clock, train nothing
(R494, R495, R558, R570). -/
def opTwinUp (spared : BitVec 3) (s : State) : State :=
  if s.twin.link ≠ .training || !s.twinTrains then s
  else setRole (linkTrained (if s.twin.spared = 7 then spared else s.twin.spared) s)

/-- TWIN_TRAIN_RETRY: training of a DOWN link is retried, with the spare available to it (R495). -/
def opTwinRetry (ok : Bool) (spared : BitVec 3) (s : State) : State :=
  if s.twin.link = .down && ok && s.twinTrains then setRole (linkTrained spared s) else s

/-- The link goes DOWN; the lane of several that DETAIL names is free (R495, R515; log 8). -/
def linkDown (lanes : List Nat) (s : State) : State :=
  let r : Nat × State := match lanes with
    | [l] => (l, s)
    | _ => let d := draw 3 s; (d.1.toNat, d.2)
  reportTwin 0x0A05 r.1 { r.2 with twin := { r.2.twin with link := .down, spared := 7, lostLanes := 0 } }

/-- TWIN_LANE_LOSS: lanes lose lock together. A first lane among 0 to 3 is replaced by lane 4 and the link retrains; a second, or
two at once, take the link DOWN (R495). -/
def opLaneLoss (lanes : BitVec 5) (s : State) : State :=
  let t := s.twin
  let fresh := (List.range 5).filter (fun i => lanes.getLsbD i && !t.lostLanes.getLsbD i)
  if !(t.link = .up || (t.link = .training && t.spared ≠ 7)) || fresh = [] then s
  else if t.lostLanes ≠ 0 || decide (1 < fresh.length) then linkDown fresh s
  else
    let s := { s with twin := { t with lostLanes := lanes } }
    match fresh with
    | l :: _ => if l < 4 then reportTwin 0x0A04 l { s with twin := { s.twin with link := .training, spared := BitVec.ofNat 3 l } } else s
    | [] => s

/-- Payload of a HEARTBEAT frame (R498). -/
def State.heartbeatPayload (s : State) : List Byte :=
  let ps := List.range 8
  toLe 1 s.island.mode.code ++ toLe 1 (b2n s.gctl.ready + 2 * b2n s.island.restarting) ++ [s.island.safeCount] ++
  toLe 1 ((s.class0Pipes.map (fun p => 2 ^ p)).foldl (fun a b => a + b) 0) ++ toLe 8 s.gctl.time.toNat ++
  ps.flatMap (fun p => toLe 4 ((s.pipe p).cur.getD 0xFFFFFFFF).toNat) ++
  toLe 2 (ps.foldl (fun a p => a + place (b2n (!(s.auth p).primary)) (2 * p)) 0) ++ [0, 0]

/-- HEARTBEAT_SEND: while the link is UP and the device is not latched (R342, R498). -/
def opBeat (s : State) : State :=
  if s.twin.link ≠ .up || s.island.silent || s.island.inReset then s
  else emit (.twinHeartbeat s.twin.sendSeq s.heartbeatPayload) { s with twin := { s.twin with sendSeq := s.twin.sendSeq + 1 } }

/-- HEARTBEAT_RECEIVE: a bad frame is counted; a good one keeps the peer alive (R496, R499, R501). -/
def opHeartbeatReceive (hb : PeerHeartbeat) (s : State) : State :=
  if s.twin.link ≠ .up then s
  else if !hb.crcOk then { s with twin := { s.twin with crcErr := satInc s.twin.crcErr } }
  else setRole { s with twin := { s.twin with hbRx := s.twin.hbRx + 1, peerAlive := true, peerMode := hb.mode, hbTime := s.safNow,
                                              hbRunMask := hb.runMask, hbFrames := hb.frames } }

/-- HEARTBEAT_LOSS: 300 µs without one (R499, R506). -/
def opHeartbeatLoss (s : State) : State :=
  if s.twin.peerAlive && decide (s.twin.hbTime + 300000 ≤ s.safNow) then
    endWaits (reportTwin 0x0A03 0 { s with twin := { s.twin with peerAlive := false } })
  else s

/-- TWIN_LINK_UP (R494). -/
def execTwinLinkUp (spared : BitVec 3) (s : State) := performSaf (opTwinUp spared) s
/-- TWIN_LANE_LOSS (R495). -/
def execTwinLaneLoss (lanes : BitVec 5) (s : State) := performSaf (opLaneLoss lanes) s
/-- TWIN_TRAIN_RETRY (R495). -/
def execTwinTrainRetry (ok : Bool) (spared : BitVec 3) (s : State) := performSaf (opTwinRetry ok spared) s
/-- HEARTBEAT_SEND (R498). -/
def execHeartbeatSend (s : State) := performSaf opBeat s
/-- HEARTBEAT_RECEIVE (R499). -/
def execHeartbeatReceive (hb : PeerHeartbeat) (s : State) :=
  performWfSaf (Instr.wf (.heartbeatReceive hb)) (opHeartbeatReceive hb) s
/-- HEARTBEAT_LOSS (R499). -/
def execHeartbeatLoss (s : State) := performSaf opHeartbeatLoss s
/-- DIGEST_COMPUTE_DONE (R505). -/
def execDigestComputeDone (p : Pipe) (s : State) := perform (opDigestCompute p.val) s
/-- DIGEST_RESEND (R505). -/
def execDigestResend (p : Pipe) (s : State) := performSaf (opDigestResend p.val) s
/-- DIGEST_RECEIVE (R506). -/
def execDigestReceive (p : Pipe) (frame : Word32) (roiAge corrupt : BitVec 8) (digest : BitVec 256) (good : Bool) (s : State) :=
  performSaf (opDigestReceive p.val frame roiAge corrupt digest good) s
/-- DIGWAIT_EXPIRY (R506). -/
def execDigwaitExpiry (p : Pipe) (s : State) := performSaf (opDigwait p.val) s
/-- PEER_FAULT_N_HIGH (R503): the pin is the board's, whatever holds the device. -/
def execPeerFaultNHigh (s : State) := performUnless false opPeerHigh s
/-- PEER_FAULT_N_LOW (R503): the pin is the board's, whatever holds the device. -/
def execPeerFaultNLow (s : State) := performUnless false opPeerLow s
/-- TAKEOVER_WAIT_EXPIRY (R503). -/
def execTakeoverWaitExpiry (s : State) := performSaf opTakeoverWait s
/-- PEER_KILL (R504). -/
def execPeerKill (s : State) := performSaf opPeerKill s

end Sys2Proof.Machine
end

