-- ==== Sys2Proof/Machine/Power.lean ====
section
/-! DEFINITION. Performance levels, PLLs, domain clocks, thermal forcing, droop (R302, R554 to R562, 17). -/

namespace Sys2Proof.Machine

/-! ### Levels (R554 to R557, R559) -/

/-- A power fault: DETAIL holds the quadrant or group, pipeline 7 and the level (R571). -/
def reportPwr (code : BitVec 16) (q level : Nat) : State → State := reportCode code (q + place 7 8 + place level 12)

/-- A power fault that causes the safe state (R338, R343, R571). -/
def safePwr (code : BitVec 16) (q level : Nat) (s : State) : State :=
  safeDecide (report { code := code, safe := true, detail := BitVec.ofNat 64 (q + place 7 8 + place level 12) } s)

/-- VDD_FAB of a level, in millivolts (R554). -/
def levelMv (l : Nat) : Nat := match l with | 0 => 800 | 1 => 700 | 2 => 620 | _ => 550

/-- The level a quadrant is to run at: PL3 until calibrated, else TARGET or what thermal forcing allows (R556, R559, R562). -/
def QuadRec.want (r : QuadRec) : Nat := if r.forcedCal then 3 else max r.target.toNat r.thermCap

/-- FORCED_THERM: thermal forcing holds the quadrant below TARGET (R559, R574). -/
def QuadRec.forcedTherm (r : QuadRec) : Bool := decide (r.target.toNat < r.thermCap)

/-- The quadrants that are powered. -/
def State.poweredQuads (s : State) : List Nat := (List.range 4).filter (fun q => (s.quad q).powered)

/-- The lowest-numbered level in force in a powered quadrant, with quadrant q taken at level l (R555). -/
def State.railLevel (s : State) (q l : Nat) : Nat :=
  s.poweredQuads.foldl (fun a x => min a (if x = q then l else (s.quad x).level.toNat)) 3

/-- A VOUT_COMMAND write to the PMIC (R555). -/
def writeRail (level : Nat) (st : LevelStep) (s : State) : State :=
  emit (.pmbus s.pwr.addr.toNat s.pwr.exp.toNat (levelMv level)) { s with pwr := { s.pwr with railWanted := level, step := some st, pmicFailed := false } }

/-- The standby starts to lock to the new frequency (R557). -/
def startLock (q level : Nat) (s : State) : State :=
  let s := State.modQuad q (fun r => { r with stbyLock := false }) s
  { s with pwr := { s.pwr with step := some (.lock q level) } }

/-- A quadrant's change begins: the rail first when it has to rise, else the clock (R555). -/
def startChange (q level : Nat) (s : State) : State :=
  let rail := s.railLevel q level
  if rail < s.pwr.rail then writeRail rail (.rail q level) s else startLock q level s

/-- A SET_PLEVEL's quadrants all run at the level they are to (R556). -/
def State.levelsReached (s : State) (mask : Nat) : Bool := (List.range 4).all (fun q => !bit mask q || (s.quad q).level.toNat = (s.quad q).want)

/-- SET_PLEVEL commands whose quadrants are there complete (R556). -/
def finishLevels (s : State) : State :=
  s.pwr.levelCmds.foldl (fun t tag => match t.cmd tag with
    | none => { t with pwr := { t.pwr with levelCmds := t.pwr.levelCmds.filter (fun x => x ≠ tag) } }
    | some c =>
      if t.levelsReached (c.fld 0x18 1) then
        finishCmd tag 0 (c.fld 0x19 1) 0 { t with pwr := { t.pwr with levelCmds := t.pwr.levelCmds.filter (fun x => x ≠ tag) } }
      else t) s

/-- The next change, quadrants in ascending number, when none is under way (R556). -/
def advanceLevels (s : State) : State :=
  let s := finishLevels s
  if s.pwr.step.isSome || s.pwr.phase ≠ .steady || s.pwr.sleep ≠ 0 then s
  else match s.poweredQuads.find? (fun q => !(s.quad q).clockStopped && (s.quad q).level.toNat ≠ (s.quad q).want) with
    | some q => startChange q (s.quad q).want s
    | none => s

/-- The quadrant runs at a new level; below C0_FLOOR that voids the open class-0 frames (R300, R302). -/
def levelReached (q level : Nat) (s : State) : State :=
  let s := State.modQuad q (fun r => { r with level := BitVec.ofNat 2 level }) s
  if s.sched.c0Floor.toNat < level then s.class0Pipes.foldl (fun t p => State.modC0 p (fun c => { c with openVoid := { c.openVoid with floor := true } }) t) s else s

/-- The switch to the standby: the former active PLL relocks and becomes the standby; then a voltage higher than any level needs
comes down (R555, R557). -/
def switchLevel (q level : Nat) (s : State) : State :=
  let s := State.modQuad q (fun r => { r with pll := !r.pll, stbyLock := false }) s
  let s := levelReached q level { s with pwr := { s.pwr with step := none } }
  if s.pwr.rail < s.railLevel q level then finishLevels (writeRail (s.railLevel q level) (.lowerRail q) s) else advanceLevels s

/-- A PMIC write is acknowledged, or fails with 0x0806 and is repeated (R555). -/
def pmicAnswer (ack : Bool) (s : State) : State :=
  let acked := { s with pwr := { s.pwr with rail := s.pwr.railWanted, pmicFailed := false } }
  let failed : Nat → State := fun q => reportPwr 0x0806 q s.pwr.railWanted { s with pwr := { s.pwr with pmicFailed := true } }
  match s.pwr.step with
  | some (.rail q l) => if ack then { acked with pwr := { acked.pwr with step := some (.settle q l s.safNow) } } else failed q
  | some (.lowerRail q) => if ack then advanceLevels { acked with pwr := { acked.pwr with step := none } } else failed q
  | _ => s

/-- PMIC_WRITE_DONE (R555). -/
def opPmicDone (ack : Bool) (s : State) : State := if s.pwr.pmicFailed then s else pmicAnswer ack s

/-- PMIC_RETRY: the write is made again (R555). -/
def opPmicRetry (ack : Bool) (s : State) : State :=
  if !s.pwr.pmicFailed then s
  else pmicAnswer ack (emit (.pmbus s.pwr.addr.toNat s.pwr.exp.toNat (levelMv s.pwr.railWanted)) s)

/-- SETTLE in ns; 0 is treated as 1 (R582). -/
def Pwr.settleNs (p : Pwr) : Nat := 10000 * max 1 p.settle.toNat

/-- PMIC_SETTLE_EXPIRY: SETTLE after the acknowledgement the new voltage is relied on, and the clock follows (R555, R556). -/
def opSettle (s : State) : State :=
  match s.pwr.step with
  | some (.settle q l since) => if since + s.pwr.settleNs ≤ s.safNow then startLock q l s else s
  | _ => s

/-- SET_PLEVEL (R302, R556). -/
def actSetPlevel (c : Cmd) (s : State) : State :=
  let mask := c.fld 0x18 1
  let level := c.fld 0x19 1
  if s.sched.c0Floor.toNat < level && !s.class0Pipes.isEmpty then finishCmd c.tag 0x62 0 0 s
  else
    let s := forUpTo 4 (fun q t => if bit mask q then State.modQuad q (fun r => { r with target := BitVec.ofNat 2 level }) t else t) s
    advanceLevels { s with pwr := { s.pwr with levelCmds := s.pwr.levelCmds ++ [c.tag] } }

/-! ### PLLs (R557) -/

/-- PLL_LOCK: the standby locks; in a level change the quadrant switches to it. -/
def opPllLock (q : Nat) (b : Bool) (s : State) : State :=
  let r := s.quad q
  if b = r.pll || r.clockStopped then s
  else match s.pwr.step with
    | some (.lock x l) => if x = q then switchLevel q l s else State.modQuad q (fun r => { r with stbyLock := true }) s
    | _ => State.modQuad q (fun r => { r with stbyLock := true }) s

/-- PLL_LOCK_LOST: the active PLL loses lock; the standby takes over with 0x0801, or the clock stops with 0x0802 and the safe state. -/
def opPllLost (q : Nat) (s : State) : State :=
  let r := s.quad q
  if r.clockStopped then s
  else if r.stbyLock then
    reportPwr 0x0801 q r.level.toNat (State.modQuad q (fun r => { r with pll := !r.pll, stbyLock := false }) s)
  else
    let s := State.modQuad q (fun r => { r with clockStopped := true }) s
    let s := match s.pwr.step with
      | some (.lock x _) => if x = q then { s with pwr := { s.pwr with step := none } } else s
      | _ => s
    safePwr 0x0802 q r.level.toNat s

/-- PLL_RELOCK_RETRY: a failed PLL tries to relock; it becomes the standby, or drives a quadrant whose clock had stopped. -/
def opPllRetry (q : Nat) (b ok : Bool) (s : State) : State :=
  let r := s.quad q
  if !ok then s
  else if r.clockStopped then advanceLevels (State.modQuad q (fun r => { r with clockStopped := false, pll := b, stbyLock := false }) s)
  else opPllLock q b s

/-! ### Clocks of the other domains (R558) -/

/-- The response to a domain's loss of clock. -/
def clockResponse (d : ClockDomain) (s : State) : State :=
  match d with
  | .noc => safePwr 0x0807 0 0 s
  | .loop => safePwr 0x0807 0 0 s
  | .prep => safePwr 0x0807 0 0 s
  | .mcg g => safePwr 0x0808 g.val 0 (State.modGroup g.val (fun r => { r with clockLost := true }) s)
  | .can => reportPwr 0x0809 0 0 (forUpTo 6 (fun m t => canStop m t) s)
  | .time => reportPwr 0x080A 0 0 { s with gctl := { s.gctl with locked := false } }
  | .saf => fatal (fun i => { i with fatalClkloss := true }) s
  | .pcie => opPcieReset s
  | .eth n => opLinkDown n.val s
  | .twin => opLaneLoss 0x1F s
  | .csig _ => s
  | .aon => s

/-- Domains whose loss of clock nothing detects: the camera clocks and AON (R558, R623). -/
def silentDomain : ClockDomain → Bool
  | .csig _ => true
  | .aon => true
  | _ => false

/-- DOMAIN_CLOCK_LOSS (R558). -/
def opClockLoss (d : ClockDomain) (s : State) : State :=
  if silentDomain d || s.pwr.lostDomains.contains d then s
  else clockResponse d { s with pwr := { s.pwr with lostDomains := s.pwr.lostDomains ++ [d] } }

/-- DOMAIN_CLOCK_RETURN: the domain resumes its own clock (R558). -/
def opClockReturn (d : ClockDomain) (s : State) : State :=
  if !s.pwr.lostDomains.contains d then s
  else
    let s := { s with pwr := { s.pwr with lostDomains := s.pwr.lostDomains.filter (fun x => x ≠ d) } }
    match d with
    | .mcg g => groupResumes g.val s
    | _ => s

/-! ### Thermal forcing (R559) -/

/-- A sensor's reading: TJ, and since when it has stayed below THROTTLE − HYST (R559, R576). -/
def takeTemp (q : Nat) (temp : BitVec 16) (s : State) : State :=
  let cool := decide (temp.toInt < 8 * ((s.pwr.throttle.toNat : Int) - s.pwr.hyst.toNat))
  let since := if !cool then none else if (s.quad q).coolSince.isSome then (s.quad q).coolSince else some s.gctl.time
  State.modQuad q (fun r => { r with temp := temp, coolSince := since }) s

/-- THERMAL_FORCE_STEP: at or above THROTTLE the quadrant is forced one level lower, down to PL3, with 0x0805 (R559). -/
def opThermForce (q : Nat) (temp : BitVec 16) (s : State) : State :=
  let s := takeTemp q temp s
  let r := s.quad q
  if temp.toInt < 8 * (s.pwr.throttle.toNat : Int) || decide (3 ≤ r.want) then s
  else
    let l := r.want + 1
    advanceLevels (reportPwr 0x0805 q l (State.modQuad q (fun r => { r with thermCap := l }) s))

/-- THERMAL_LIFT_STEP: 10 ms below THROTTLE − HYST lift the forcing one level, up to TARGET (R559). -/
def opThermLift (q : Nat) (temp : BitVec 16) (s : State) : State :=
  let s := takeTemp q temp s
  let r := s.quad q
  match r.coolSince with
  | none => s
  | some t =>
    if r.thermCap = 0 || decide (s.gctl.time.toNat < t.toNat + 10000000) then s
    else
      let cap := if r.thermCap - 1 ≤ r.target.toNat then 0 else r.thermCap - 1
      advanceLevels (State.modQuad q (fun r => { r with thermCap := cap, coolSince := some s.gctl.time }) s)

/-! ### Droop (R560, R561) -/

/-- A pipeline's frame exceeds its budget in quadrant q: once per frame (R561, R577). -/
def droopOver (p q : Nat) (s : State) : State :=
  let d := s.droop p
  let rise := (((s.quad q).stretch.toNat + 2 ^ 32) - d.latched.getD q 0) % 2 ^ 32
  match (s.pipe p).cur with
  | none => s
  | some k =>
    if d.latched = [] || d.qlast.getLsbD q || decide (rise ≤ d.budget.getD q 0) then s
    else
      let s := State.modDroop p (fun d => { d with qlast := d.qlast ||| BitVec.ofNat 4 (2 ^ q), count := satInc d.count }) s
      let s := State.modC0 p (fun c => { c with openVoid := { c.openVoid with droop := true } }) s
      let s := report (withPipe s p k { code := 0x0803, detail := BitVec.ofNat 64 (q + place p 8 + place (s.quad q).level.toNat 12) }) s
      postEvent 3 (some p) (some k) (toLe 1 q) s

/-- DROOP_DETECT: the quadrant's clock period doubles and the stretched fcycles count; a power-gated quadrant counts nothing (R560, R561). -/
def opDroop (q fcycles : Nat) (s : State) : State :=
  if !(s.quad q).powered || (s.quad q).clockStopped then s
  else
    let s := State.modQuad q (fun r => { r with stretching := true, stretch := r.stretch + BitVec.ofNat 32 fcycles }) s
    s.class0Pipes.foldl (fun t p => droopOver p q t) s

/-- SET_PLEVEL (R556). -/
def execSetPlevel (tag : Nat) (s : State) := perform (startCmd 0x51 tag actSetPlevel) s
/-- PMIC_WRITE_DONE (R555). -/
def execPmicWriteDone (ack : Bool) (s : State) := performSaf (opPmicDone ack) s
/-- PMIC_RETRY (R555). -/
def execPmicRetry (ack : Bool) (s : State) := performSaf (opPmicRetry ack) s
/-- PMIC_SETTLE_EXPIRY (R555). -/
def execPmicSettleExpiry (s : State) := performSaf opSettle s
/-- PLL_LOCK (R557). -/
def execPllLock (q : Quad) (b : Bool) (s : State) := perform (opPllLock q.val b) s
/-- PLL_LOCK_LOST (R557). -/
def execPllLockLost (q : Quad) (s : State) := perform (opPllLost q.val) s
/-- PLL_RELOCK_RETRY (R557). -/
def execPllRelockRetry (q : Quad) (b ok : Bool) (s : State) := perform (opPllRetry q.val b ok) s
/-- DOMAIN_CLOCK_LOSS (R558). -/
def execDomainClockLoss (d : ClockDomain) (s : State) := performSaf (opClockLoss d) s
/-- DOMAIN_CLOCK_RETURN (R558). -/
def execDomainClockReturn (d : ClockDomain) (s : State) := performSaf (opClockReturn d) s
/-- THERMAL_FORCE_STEP (R559). -/
def execThermalForceStep (q : Quad) (temp : BitVec 16) (s : State) := perform (opThermForce q.val temp) s
/-- THERMAL_LIFT_STEP (R559). -/
def execThermalLiftStep (q : Quad) (temp : BitVec 16) (s : State) := perform (opThermLift q.val temp) s
/-- DROOP_DETECT (R560). -/
def execDroopDetect (q : Quad) (fcycles : Nat) (s : State) := performWf (Instr.wf (.droopDetect q fcycles)) (opDroop q.val fcycles) s
/-- DROOP_RECOVER (R560). -/
def execDroopRecover (q : Quad) (s : State) := perform (State.modQuad q.val (fun r => { r with stretching := false })) s

end Sys2Proof.Machine
end

