-- ==== Sys2Proof/Machine/Pages.lean ====
section
/-! DEFINITION. The page engine: pools, blocks, page tables, allocation, sharing, pins and copy-on-write (R230 to R239, R253 to R258). -/

namespace Sys2Proof.Machine

/-- A page-engine operation that ends in a page fault code with what it had recorded. -/
abbrev Eng := Except (BitVec 16 × State)

/-- A word of a table or of the block-state array; read with an error or poison it is 0x0144 (R245, R252). -/
def engRead (a : Nat) (s : State) : Eng (Nat × State) :=
  let r := readAll 0xA0 3 a 8 s
  match r.1 with
  | some d => if poisoned d then .error (0x0144, r.2) else .ok (leNat (plain d), r.2)
  | none => .error (0x0144, r.2)

/-- The page engine writes a word (R231, R232). -/
def engWrite (a v : Nat) (s : State) : State := (writeAll 0xA0 3 a (clean (toLe 8 v)) s).2

/-! ### Blocks (R230, R231, R233) -/

/-- Address of block b of a pool (R230). -/
def PoolRec.blockAddr (p : PoolRec) (b : Nat) : Nat := (p.base.toNat + b * p.bfr.toNat) * 4096
/-- First frame of block b. -/
def PoolRec.pfn (p : PoolRec) (b : Nat) : Nat := p.base.toNat + b * p.bfr.toNat
/-- Block of a frame number. -/
def PoolRec.blockOf (p : PoolRec) (pfn : Nat) : Nat := (pfn - p.base.toNat) / max 1 p.bfr.toNat
/-- Address of a block's state entry. -/
def PoolRec.entAddr (p : PoolRec) (b : Nat) : Nat := p.metaPfn.toNat * 4096 + 8 * b

/-- A block-state entry's fields (R231). -/
structure BlockEnt where
  ref : Nat
  pin : Nat
  alloc : Bool
  next : Nat
deriving DecidableEq, Repr

def decodeBlock (w : Nat) : BlockEnt := ⟨bits w 15 0, bits w 31 16, bit w 32, bits w 63 40⟩
def BlockEnt.word (e : BlockEnt) : Nat := e.ref + place e.pin 16 + place (b2n e.alloc) 32 + place e.next 40

/-- The state entry of block b of pool p. -/
def blockEnt (p b : Nat) (s : State) : Eng (BlockEnt × State) := do
  let (w, s) ← engRead ((s.pool p).entAddr b) s
  return (decodeBlock w, s)

def putBlock (p b : Nat) (e : BlockEnt) (s : State) : State := engWrite ((s.pool p).entAddr b) e.word s

/-- An entry after a drop: with REF and PIN both 0 the block is free again, its link unspecified (R231; log 18). -/
def settleBlock (p b : Nat) (e : BlockEnt) (s : State) : State :=
  if e.ref = 0 && e.pin = 0 && e.alloc then
    let d := draw 24 s
    State.modPool p (fun x => { x with free := x.free + 1 }) (putBlock p b { e with alloc := false, next := d.1.toNat } d.2)
  else putBlock p b e s

/-- The first block at or after a point that is not allocated, among n looked at. -/
def findFree (p : Nat) : Nat → Nat → State → Eng (Nat × State)
  | 0, _, s => .error (0x0140, s)
  | n + 1, b, s => do
    let b := b % max 1 (s.pool p).blocks.toNat
    let (e, s) ← blockEnt p b s
    if e.alloc then findFree p n (b + 1) s else return (b, s)

/-- Blocks a class can still take: classes 1 to 3 see FREE − RESV (R233). -/
def State.available (s : State) (p : Nat) (cls : Nat) : Nat :=
  if cls = 0 then (s.pool p).free.toNat else (s.pool p).free.toNat - (s.pool p).resv.toNat

/-- Allocation of one block for context c: which free block is not specified (R231; log 18). -/
def allocBlock (c : Nat) (s : State) : Eng (Nat × State) := do
  let x := s.ctx c
  let p := x.pool.toNat
  if s.available p x.cls.toNat = 0 then .error (0x0140, s) else
  let d := draw 24 s
  let n := (d.2.pool p).blocks.toNat
  let (b, s) ← findFree p n (d.1.toNat % max 1 n) d.2
  let s := putBlock p b { ref := 1, pin := 0, alloc := true, next := 0 } s
  let s := State.modPool p (fun y => { y with free := y.free - 1, resv := if x.reserved ≠ 0 then y.resv - 1 else y.resv }) s
  return (b, State.modCtx c (fun y => { y with pages := y.pages + 1, reserved := y.reserved - 1 }) s)

/-- Context c drops its reference to block b; the last reference of a class-0 context's goes back to its reservation, though a pin may still
keep the block from the free list (R231, R233; log 34). -/
def dropRef (c b : Nat) (s : State) : Eng (Unit × State) := do
  let x := s.ctx c
  let p := x.pool.toNat
  let (e, s) ← blockEnt p b s
  let s := settleBlock p b { e with ref := e.ref - 1 } s
  let back := x.cls = 0 && decide (e.ref ≤ 1) && !x.destroyed
  let s := State.modCtx c (fun y => { y with pages := y.pages - 1, reserved := if back then y.reserved + 1 else y.reserved }) s
  return ((), if back then State.modPool p (fun y => { y with resv := y.resv + 1 }) s else s)

/-- A pin; one on a block whose PIN is 0xFFFF waits, which ends the operation with code 0 (R239). -/
def pinBlock (p b : Nat) (s : State) : Eng (Unit × State) := do
  let (e, s) ← blockEnt p b s
  if e.pin = 0xFFFF then .error (0, s) else
  return ((), putBlock p b { e with pin := e.pin + 1 } s)

/-- A pin dropped (R231, R239). -/
def unpinBlock (p b : Nat) (s : State) : State :=
  match blockEnt p b s with
  | .ok (e, s) => settleBlock p b { e with pin := e.pin - 1 } s
  | .error (_, s) => s

/-! ### Page tables (R232) -/

/-- A valid table entry naming a frame. -/
def tableEntry (pfn : Nat) : Nat := pfn + place 1 24

/-- Virtual page number (R232). -/
def vpn (hg page : Nat) : Nat := hg * 8192 + page

/-- Address of the level-1 entry of a virtual page. -/
def l1Addr (x : CtxRec) (v : Nat) : Nat := x.root.toNat * 4096 + 8 * (v / 512)
/-- Address of a level-2 entry in the table at a frame. -/
def l2Addr (pfn v : Nat) : Nat := pfn * 4096 + 8 * (v % 512)

/-- The frame of the level-2 table of a virtual page. -/
def walk1 (c v : Nat) (s : State) : Eng ((Option Nat) × State) := do
  let (w, s) ← engRead (l1Addr (s.ctx c) v) s
  return (if bit w 24 then some (bits w 23 0) else none, s)

/-- The frame of a virtual page. -/
def walk (c v : Nat) (s : State) : Eng ((Option Nat) × State) := do
  let (t, s) ← walk1 c v s
  match t with
  | none => return (none, s)
  | some p =>
    let (w, s) ← engRead (l2Addr p v) s
    return (if bit w 24 then some (bits w 23 0) else none, s)

/-- A table's 4 KiB written with no valid entry. -/
def clearTable (pfn : Nat) (s : State) : State := forUpTo 512 (fun i t => engWrite (pfn * 4096 + 8 * i) 0 t) s

/-- The level-2 table of a virtual page, allocated where there is none (R232). -/
def needTable (c v : Nat) (s : State) : Eng (Nat × State) := do
  let (t, s) ← walk1 c v s
  match t with
  | some p => return (p, s)
  | none =>
    let (b, s) ← allocBlock c s
    let p := (s.pool (s.ctx c).pool.toNat).pfn b
    return (p, engWrite (l1Addr (s.ctx c) v) (tableEntry p) (clearTable p s))

/-- The block of a frame in the context's pool. -/
def State.blockAt (s : State) (c pfn : Nat) : Nat := (s.pool (s.ctx c).pool.toNat).blockOf pfn

/-- Whether a level-2 table holds no valid entry. -/
def tableEmpty (pfn : Nat) : Nat → State → Eng (Bool × State)
  | 0, s => .ok (true, s)
  | n + 1, s => do
    let (w, s) ← engRead (pfn * 4096 + 8 * n) s
    if bit w 24 then return (false, s) else tableEmpty pfn n s

/-- A page's entry is cleared and its reference dropped; the table goes with its last page (R232, R238). -/
def dropPage (c v : Nat) (s : State) : Eng (Unit × State) := do
  let (t, s) ← walk1 c v s
  match t with
  | none => return ((), s)
  | some p =>
    let (w, s) ← engRead (l2Addr p v) s
    if !bit w 24 then return ((), s) else
    let s := engWrite (l2Addr p v) 0 s
    let (_, s) ← dropRef c (s.blockAt c (bits w 23 0)) s
    let (e, s) ← tableEmpty p 512 s
    if e then
      let s := engWrite (l1Addr (s.ctx c) v) 0 s
      dropRef c (s.blockAt c p) s
    else return ((), s)

/-- Fold an engine operation over a list. -/
def engEach {β : Type} (f : β → State → Eng (Unit × State)) : List β → State → Eng (Unit × State)
  | [], s => .ok ((), s)
  | x :: xs, s => do
    let (_, s) ← f x s
    engEach f xs s

/-! ### Copy-on-write and the pages of an append (R237, R241) -/

/-- Bytes per element of a context's pages. -/
def CtxRec.esize (x : CtxRec) : Nat := fmtBytes x.code
/-- Offsets of the parts of a page (R230). -/
def CtxRec.offV (x : CtxRec) : Nat := 32 * x.d * x.esize
def CtxRec.offKsc (x : CtxRec) : Nat := 64 * x.d
def CtxRec.offVsc (x : CtxRec) : Nat := 64 * x.d + 64
def CtxRec.offDig (x : CtxRec) : Nat := if x.scaled then 64 * x.d + 128 else 128 * x.d
/-- Page size S (R230). -/
def CtxRec.pageSize (x : CtxRec) : Nat := if x.scaled then 66 * x.d + 192 else 130 * x.d + 64

/-- A part of a page copied, its poison with it. -/
def copyPart (src dst n : Nat) (s : State) : State :=
  let r := readAll 0xA0 3 src n s
  match r.1 with
  | some d => (writeAll 0xA0 3 dst d r.2).2
  | none => r.2

/-- K, V, scale rows and digest of the first n tokens copied (R237, R243). -/
def copyPage (x : CtxRec) (src dst n : Nat) (s : State) : State :=
  let part : Nat → Nat → State → State := fun o len t => copyPart (src + o) (dst + o) len t
  let s := part x.offV (n * x.d * x.esize) (part 0 (n * x.d * x.esize) s)
  let s := if x.scaled then part x.offVsc (2 * n) (part x.offKsc (2 * n) s) else s
  part x.offDig (x.pageSize - x.offDig) s

/-- The block an append writes for a page: the page's own, a copy where it is shared or pinned, or a new one (R237, R241). -/
def appendPage (c hg page : Nat) (s : State) : Eng (Nat × State) := do
  let x := s.ctx c
  let p := x.pool.toNat
  let (t, s) ← needTable c (vpn hg page) s
  let (w, s) ← engRead (l2Addr t (vpn hg page)) s
  if bit w 24 then
    let old := s.blockAt c (bits w 23 0)
    let (e, s) ← blockEnt p old s
    if decide (1 < e.ref) || e.pin ≠ 0 then
      let (_, s) ← pinBlock p old s
      let (b, s) ← allocBlock c s
      let rows := if page = x.tokens.toNat / 32 then x.tokens.toNat % 32 else 0
      let s := copyPage x ((s.pool p).blockAddr old) ((s.pool p).blockAddr b) rows s
      let s := engWrite (l2Addr t (vpn hg page)) (tableEntry ((s.pool p).pfn b)) s
      let s := unpinBlock p old s
      let (_, s) ← dropRef c old s
      return (b, { s with sched := { s.sched with kvCow := satInc s.sched.kvCow } })
    else return (old, s)
  else if page = x.tokens.toNat / 32 && x.tokens.toNat % 32 ≠ 0 then .error (0x0144, s)
  else
    let (b, s) ← allocBlock c s
    return (b, engWrite (l2Addr t (vpn hg page)) (tableEntry ((s.pool p).pfn b)) s)

/-- Pages resolved and pinned, ascending. -/
def appendPages (c hg : Nat) : List Nat → State → Eng ((List (Nat × Nat)) × State)
  | [], s => .ok ([], s)
  | page :: ps, s => do
    let (b, s) ← appendPage c hg page s
    let (_, s) ← pinBlock (s.ctx c).pool.toNat b s
    let (l, s) ← appendPages c hg ps s
    return ((page, b) :: l, s)

/-- Every page below NP walked and pinned; a missing one is 0x0144 (R245). -/
def pinPages (c hg : Nat) : List Nat → State → Eng ((List (Nat × Nat)) × State)
  | [], s => .ok ([], s)
  | page :: ps, s => do
    let (f, s) ← walk c (vpn hg page) s
    match f with
    | none => .error (0x0144, s)
    | some pfn =>
      let b := s.blockAt c pfn
      let (_, s) ← pinBlock (s.ctx c).pool.toNat b s
      let (l, s) ← pinPages c hg ps s
      return ((page, b) :: l, s)

/-! ### Buckets (R251) -/

/-- The smallest n in 0 to 13 with tokens ≤ 32 · 2^n (R251). -/
def bucketOf (tokens : Nat) : Nat := ((List.range 14).find? (fun n => decide (tokens ≤ 32 * 2 ^ n))).getD 13

/-- TOKENS set, with its BUCKET. -/
def setTokens (n : Nat) (x : CtxRec) : CtxRec := { x with tokens := BitVec.ofNat 32 n, bucket := BitVec.ofNat 4 (bucketOf n) }

/-! ### Fork, trim and release (R236, R238, R227, R231) -/

/-- The valid entries of a table: index and frame. -/
def tableEntries (pfn : Nat) : Nat → State → Eng ((List (Nat × Nat)) × State)
  | 0, s => .ok ([], s)
  | n + 1, s => do
    let (l, s) ← tableEntries pfn n s
    let (w, s) ← engRead (pfn * 4096 + 8 * n) s
    return (if bit w 24 then l ++ [(n, bits w 23 0)] else l, s)

/-- The level-2 tables of a context: level-1 index, frame and entries. -/
def ctxTables (c : Nat) (s : State) : Eng ((List (Nat × Nat × List (Nat × Nat))) × State) := do
  let (l1, s) ← tableEntries (s.ctx c).root.toNat 512 s
  let rec go : List (Nat × Nat) → State → Eng ((List (Nat × Nat × List (Nat × Nat))) × State)
    | [], s => .ok ([], s)
    | (i, p) :: t, s => do
      let (es, s) ← tableEntries p 512 s
      let (l, s) ← go t s
      return ((i, p, es) :: l, s)
  go l1 s

/-- One more reference to a shared block; none beyond 0xFFFF (R236). -/
def shareBlock (c b : Nat) (s : State) : Eng (Unit × State) := do
  let p := (s.ctx c).pool.toNat
  let (e, s) ← blockEnt p b s
  if e.ref = 0xFFFF then .error (1, s) else
  return ((), State.modCtx c (fun y => { y with pages := y.pages + 1 }) (putBlock p b { e with ref := e.ref + 1 } s))

/-- The root table of a context. -/
def allocRoot (c : Nat) (s : State) : Eng (Unit × State) := do
  let (b, s) ← allocBlock c s
  let p := (s.pool (s.ctx c).pool.toNat).pfn b
  return ((), State.modCtx c (fun y => { y with root := BitVec.ofNat 24 p }) (clearTable p s))

/-- The child's copy of one level-2 table, sharing its blocks (R236). -/
def forkTable (child : Nat) (t : Nat × Nat × List (Nat × Nat)) (s : State) : Eng (Unit × State) := do
  let (b, s) ← allocBlock child s
  let p := (s.pool (s.ctx child).pool.toNat).pfn b
  let s := engWrite (l1Addr (s.ctx child) (t.1 * 512)) (tableEntry p) (clearTable p s)
  engEach (fun e s => do
    let (_, s) ← shareBlock child (s.blockAt child e.2) s
    return ((), engWrite (p * 4096 + 8 * e.1) (tableEntry e.2) s)) t.2.2 s

/-- Every data reference dropped (R227, R231). -/
def dropData (c : Nat) (s : State) : Eng (Unit × State) := do
  let (ts, s) ← ctxTables c s
  engEach (fun t s => engEach (fun e s => do
    let (_, s) ← dropRef c (s.blockAt c e.2) s
    return ((), engWrite (t.2.1 * 4096 + 8 * e.1) 0 s)) t.2.2 s) ts s

/-- Every table released (R227). -/
def dropTables (c : Nat) (s : State) : Eng (Unit × State) := do
  let (ts, s) ← ctxTables c s
  let (_, s) ← engEach (fun t s => dropRef c (s.blockAt c t.2.1) s) ts s
  dropRef c (s.blockAt c (s.ctx c).root.toNat) s

/-- The pages of head group hg whose first token is at or above NEWT (R238), those of an uncommitted step included. -/
def trimPages (c newt : Nat) (s : State) : Eng (Unit × State) :=
  let x := s.ctx c
  engEach (fun hg s => engEach (fun page s => dropPage c (vpn hg page) s)
    ((List.range (x.tokens.toNat / 32 + 3)).filter (fun page => decide (newt ≤ 32 * page) && decide (page < 8192))) s) (List.range x.nhg.toNat) s

/-- An operation all or nothing: a refusal leaves the state as it was, but for what the bus recorded. -/
def engTry {α : Type} (r : Eng (α × State)) (s : State) : Except (BitVec 16 × State) (α × State) :=
  match r with
  | .ok x => .ok x
  | .error (c, t) => .error (c, { s with thal := t.thal })

/-! ### Pools (R253, R254) -/

/-- Whether blocks and block-state array lie in main memory and do not overlap (R254). -/
def PoolRec.sound (p : PoolRec) : Bool :=
  let b0 := p.base.toNat * 4096
  let b1 := b0 + p.blocks.toNat * p.bfr.toNat * 4096
  let m0 := p.metaPfn.toNat * 4096
  let m1 := m0 + p.blocks.toNat * 8
  decide (1 ≤ p.bfr.toNat) && decide (p.bfr.toNat ≤ 16) && decide (1 ≤ p.blocks.toNat) && decide (b1 ≤ 0x1000000000) &&
  decide (m1 ≤ 0x1000000000) && (decide (b1 ≤ m0) || decide (m1 ≤ b0))

/-- The free list built: every block free, REF = PIN = 0, its link unspecified (R254; log 18). -/
def buildPool (p : Nat) (s : State) : State :=
  let n := (s.pool p).blocks.toNat
  let s := forUpTo n (fun b t => let d := draw 24 t; putBlock p b ⟨0, 0, false, d.1.toNat⟩ d.2) s
  State.modPool p (fun x => { x with free := BitVec.ofNat 24 n, resv := 0 }) s

/-- EN written 1: checked, then the free list builds while BUSY is set (R254). -/
def opPoolEnable (p : Nat) (s : State) : State :=
  let x := s.pool p
  if x.en then s
  else if !x.sound then State.modPool p (fun y => { y with err := true }) s
  else buildPool p (State.modPool p (fun y => { y with err := false, en := true, busy := true }) s)

/-- EN written 0: ignored while a context that is not FREE names the pool (R254). -/
def opPoolDisable (p : Nat) (s : State) : State :=
  if s.sched.ctxs.any (fun e => e.2.st ≠ .free && e.2.pool.toNat = p) then s
  else State.modPool p (fun y => { y with en := false, busy := false }) s

/-- KVPOOL_ENABLE (R254). -/
def execKvpoolEnable (p : PoolNo) (s : State) := performBlk (opPoolEnable p.val) s
/-- KVPOOL_DISABLE (R254). -/
def execKvpoolDisable (p : PoolNo) (s : State) := performBlk (opPoolDisable p.val) s
/-- KVPOOL_BUILD_DONE (R254). -/
def execKvpoolBuildDone (p : PoolNo) (s : State) := perform (State.modPool p.val (fun x => { x with busy := false })) s

end Sys2Proof.Machine
end

