-- ==== Sys2Proof/Machine/Queues.lean ====
section
/-! DEFINITION. Submission and completion queues, doorbells, fetching, posting, and peer command frames (R401 to R406, R417 to R436). -/

namespace Sys2Proof.Machine

/-! ### Enabling and disabling (R401, R424, R427) -/

/-- SIZE 1 to 12 lets EN become 1 (R424, R427). -/
def sizeOk (cfg : Nat) : Bool := decide (1 ≤ bits cfg 27 24) && decide (bits cfg 27 24 ≤ 12)

/-- An SQ's configuration fields as a write gives them (R424). -/
def SqRec.config (q : SqRec) (cfg : Nat) : SqRec :=
  { q with size := BitVec.ofNat 4 (bits cfg 27 24), cq := BitVec.ofNat 6 (bits cfg 21 16), port := BitVec.ofNat 2 (bits cfg 11 10),
           cls := BitVec.ofNat 2 (bits cfg 9 8), source := bit cfg 1 }

/-- A write of CMDQ_SQn_CFG: ignored but for EN while EN = 1; setting EN starts the ring anew (R401, R424, R425). -/
def SqRec.writeCfg (q : SqRec) (cfg : Nat) : SqRec :=
  if q.en then { q with en := bit cfg 0 }
  else
    let q := q.config cfg
    if bit cfg 0 && sizeOk cfg then { q with en := true, head := 0, tail := 0, fetcherr := false, peerIn := [] } else q

/-- A write of CMDQ_SQn_CFG. -/
def opSqCfg (n cfg : Nat) : State → State := State.modSq n (fun q => q.writeCfg cfg)

/-- A CQ's configuration fields as a write gives them (R427). -/
def CqRec.config (q : CqRec) (cfg : Nat) : CqRec :=
  { q with size := BitVec.ofNat 4 (bits cfg 27 24), vector := BitVec.ofNat 7 (bits cfg 22 16), ien := bit cfg 1 }

/-- An enabled SQ names completion queue q (R401). -/
def State.cqNamed (s : State) (q : Nat) : Bool := (List.range 64).any (fun n => (s.sq n).en && (s.sq n).cq.toNat = q)

/-- A write of CMDQ_CQn_CFG or CMDQ_EVQ_CFG (R401, R427). -/
def opCqCfg (q cfg : Nat) (s : State) : State :=
  State.modCq q (fun c =>
    if c.en then { c with en := bit cfg 0 || s.cqNamed q }
    else
      let c := c.config cfg
      if bit cfg 0 && sizeOk cfg then { c with en := true, tail := 0, head := 0, phase := true } else c) s

/-! ### Doorbells (R406, R417, R429) -/

/-- CMDQ_SQn_TAIL (R402, R406); a disabled queue has nothing to publish. -/
def opSqDoorbell (n v : Nat) (s : State) : State :=
  let q := s.sq n
  let i := bits v 11 0
  if !q.en || q.source then s
  else if q.entries ≤ i then State.modSq n (fun q => { q with dberr := true }) s
  else State.modSq n (fun q => { q with tail := BitVec.ofNat 12 i }) s

/-- Whether an index lies from HEAD on up to TAIL (R406). -/
def CqRec.reaches (c : CqRec) (i : Nat) : Bool :=
  let d : Nat → Nat := fun j => (j + c.entries - c.head.toNat) % c.entries
  decide (i < c.entries) && decide (d i ≤ d c.tail.toNat)

/-- CMDQ_CQn_HEAD and CMDQ_EVQ_HEAD (R406, R417). -/
def opCqDoorbell (q v : Nat) (s : State) : State :=
  let c := s.cq q
  let i := bits v 11 0
  if !c.en then s
  else if c.reaches i then State.modCq q (fun c => { c with head := BitVec.ofNat 12 i }) s
  else State.modCq q (fun c => { c with dberr := true }) s

/-! ### Fetching (R402, R403, R406, R436) -/

/-- Entries wait in queue n, and its CQ can take their completions (R405, R406). -/
def State.fetchable (s : State) (n : Nat) : Bool :=
  let q := s.sq n
  let c := s.cq q.cq.toNat
  q.en && !q.fetcherr && q.head ≠ q.tail && !(c.en && c.full)

/-- The queue served next: the first class with entries, round robin by number within it (R402). -/
def State.nextQueue (s : State) : Option Nat :=
  (List.range 4).findSome? (fun k =>
    let xs := (List.range 64).filter (fun n => (s.sq n).cls.toNat = k && s.fetchable n)
    match xs.find? (fun n => decide (tget 0 s.cmdq.rr k ≤ n)) with
    | some n => some n
    | none => xs.head?)

/-- The interpreter fetches after READY, outside a restart and while its domain is up (R413, R422, R563). -/
def State.fetchRuns (s : State) : Bool := s.gctl.ready && !s.island.restarting

/-- A fetched packet enters flight, with the reply it owes (R403, R420). -/
def acceptPacket (n : Nat) (pkt : List Byte) (s : State) : State :=
  let q := s.sq n
  let c : Cmd := { tag := s.cmdq.nextTag, sq := n, pkt := pkt, stage := .waiting, reply := q.peerIn.head? }
  let s := { s with cmdq := { s.cmdq with cmds := s.cmdq.cmds ++ [c], nextTag := s.cmdq.nextTag + 1, rr := tset 0 s.cmdq.rr q.cls.toNat (n + 1) } }
  State.modSq n (fun q => { q with head := BitVec.ofNat 12 ((q.head.toNat + 1) % q.entries), peerIn := q.peerIn.tail }) s

/-- One entry of queue n read by DMA30; a failed or poisoned read sets FETCHERR (R406, R436, R450, R451). -/
def fetchEntry (n : Nat) (s : State) : State :=
  let q := s.sq n
  let a := q.base.toNat + 64 * q.head.toNat
  let cls := q.cls.toNat
  match firmwareAccess 30 a (readAll (dmaInit 30) cls a 64) s with
  | (some d, s) =>
    let s := firmwareDone 30 s
    if poisoned d then State.modSq n (fun q => { q with fetcherr := true }) (ownFault 0x0C03 30 a 0 s)
    else acceptPacket n (plain d) s
  | (none, s) => State.modSq n (fun q => { q with fetcherr := true }) s

/-- COMMAND_FETCH; while 1,024 commands are in flight fetching pauses. A command of no table row ends when its turn comes (R400, R402, R403). -/
def opCommandFetch (s : State) : State :=
  if !s.fetchRuns then s
  else
    let s := if s.interpRuns then refuseUnknown s else s
    if 1024 ≤ s.cmdq.cmds.length then s
    else match s.nextQueue with
      | some n => fetchEntry n s
      | none => s

/-! ### Posting (R404, R405, R414, R420, R436) -/

/-- The completion entry; PHASE is set at posting (R404). -/
def completionEntry (c : Cmd) (status : Byte) (r0 r1 : Word64) (head : Nat) (t : Word64) : List Byte :=
  toLe 2 (c.fld 2 2) ++ toLe 1 c.sq ++ [status] ++ toLe 2 head ++ toLe 2 (if c.boxed then 2 else 0) ++
  toLe 8 r0.toNat ++ toLe 8 r1.toNat ++ toLe 8 t.toNat

/-- The reply frame of a peer's command (R419, R420). -/
def replyFrame (fseq : Word32) (sq : Nat) (entry : List Byte) : List Byte :=
  toLe 4 0x4B434D44 ++ toLe 2 1 ++ [1, 1] ++ toLe 4 fseq.toNat ++ toLe 1 sq ++ List.replicate 3 0 ++ entry

/-- A reply leaves on its port; one to a governor channel's UDP port is rejected by the identifier guard (R353, R420, R521). -/
def sendReply (n : Nat) (dst : PeerAddr) (d : List Byte) (s : State) : State :=
  if (s.port n).link ≠ .up then s
  else match s.guarded true dst.udp.toNat with
    | some c => reportGuard c (0x10 + n) 0xFF s
    | none => emit (.peerReply dst d) (State.modPort n (fun r => { r with txOk := satInc r.txOk }) s)

/-- An entry has been posted: the command leaves flight and its peer gets the reply (R420). -/
def commandPosted (tag : Nat) (entry : List Byte) (s : State) : State :=
  let s' := { s with cmdq := { s.cmdq with cmds := s.cmdq.cmds.filter (fun c => c.tag ≠ tag) } }
  match s.cmd tag with
  | none => s
  | some c => match c.reply with
    | some (dst, fseq) => sendReply (s.sq c.sq).port.toNat dst (replyFrame fseq c.sq entry) s'
    | none => s'

/-- Post the entry of an ended command at its CQ, or keep it for POSTING_REPEAT where DMA31 halts (R404 to R406, R436). -/
def postCompletion (c : Cmd) (s : State) : State :=
  match c.stage with
  | .done status r0 r1 =>
    let q := (s.sq c.sq).cq.toNat
    let e := completionEntry c status r0 r1 (s.sq c.sq).head.toNat s.gctl.time
    let e := withPhase 6 (s.cq q).phase e
    let r := postEntry q e c.noirq s
    if r.1 then commandPosted c.tag e r.2
    else { r.2 with cmdq := { r.2.cmdq with stuck := r.2.cmdq.stuck ++ [{ q := q, entry := e, noirq := c.noirq, cmd := some c.tag }] } }
  | _ => s

/-- CQ q takes entries: enabled, not FULL, and no earlier post of it waits (R405, R436). -/
def State.cqOpen (s : State) (q : Nat) : Bool := (s.cq q).en && !(s.cq q).full && !s.cmdq.stuck.any (fun x => x.q = q)

/-- The entry of a command may be posted: it has ended, and a CANCEL's target is no longer in flight (R404, R411). -/
def State.postable (s : State) (c : Cmd) : Bool :=
  c.ended && match c.after with
    | some t => (s.cmd t).isNone
    | none => true

/-- COMPLETION_POST: the oldest ended command of the queue (R404, R405). -/
def opCompletionPost (q : Nat) (s : State) : State :=
  if !(s.fetchRuns && s.cqOpen q) then s
  else
    let s := if s.interpRuns then refuseUnknown s else s
    match s.cmdq.cmds.find? (fun c => s.postable c && (s.sq c.sq).cq.toNat = q) with
    | some c => postCompletion c s
    | none => s

/-- A kept entry as it is posted now: a command's with the HEAD and the time of its posting, an event's as it happened (R404, R417). -/
def State.keptEntry (s : State) (x : StuckPost) : List Byte :=
  match x.cmd.bind s.cmd with
  | some c => match c.stage with
    | .done st r0 r1 => completionEntry c st r0 r1 (s.sq c.sq).head.toNat s.gctl.time
    | _ => x.entry
  | none => x.entry

/-- One kept post is tried again; its queue disabled, it is given up, and an event that meets a full queue is dropped (R417, R436). -/
def repeatPost (x : StuckPost) (s : State) : State :=
  let keep : State → State := fun t => { t with cmdq := { t.cmdq with stuck := t.cmdq.stuck ++ [x] } }
  let gone : State → State := fun t => match x.cmd with
    | some tag => { t with cmdq := { t.cmdq with cmds := t.cmdq.cmds.filter (fun c => c.tag ≠ tag) } }
    | none => t
  if s.cmdq.stuck.any (fun y => y.q = x.q) then keep s
  else if !(s.cq x.q).en then gone s
  else if x.q = 64 && (s.cq 64).full then dropEvent s
  else
    let e := withPhase (if x.q = 64 then 1 else 6) (s.cq x.q).phase (s.keptEntry x)
    let r := postEntry x.q e x.noirq s
    if !r.1 then keep r.2
    else match x.cmd with
      | some tag => commandPosted tag e r.2
      | none => r.2

/-- POSTING_REPEAT (R436). -/
def opPostingRepeat (s : State) : State :=
  if !s.fetchRuns then s
  else s.cmdq.stuck.foldl (fun t x => repeatPost x t) { s with cmdq := { s.cmdq with stuck := [] } }

/-! ### Peer command frames (R419, R420) -/

/-- The header of a command frame is valid and the payload has its length (R419, R420). -/
def peerFrameOk (d : List Byte) : Bool :=
  field d 0 4 = 0x4B434D44 && field d 4 2 = 1 && field d 7 1 = 0 && decide (1 ≤ field d 6 1) && decide (field d 6 1 ≤ 16) &&
  field d 0x0D 3 = 0 && d.length = 16 + 64 * field d 6 1

/-- Free entries of an SQ. -/
def SqRec.room (q : SqRec) : Nat := q.entries - 1 - (q.tail.toNat + q.entries - q.head.toNat) % q.entries

/-- The named SQ takes the frame's packets (R420). -/
def State.peerQueueOk (s : State) (n : Nat) (d : List Byte) : Bool :=
  let q := s.sq (field d 0x0C 1)
  decide (field d 0x0C 1 < 64) && q.en && q.source && q.port.toNat = n && decide (field d 6 1 ≤ q.room)

/-- Packet i enters the ring under the port's initiator (R28, R420). -/
def enterPacket (n sq : Nat) (src : PeerAddr) (fseq : Word32) (pkt : List Byte) (s : State) : State :=
  let q := s.sq sq
  let s := (writeAll (0xB1 + n) q.cls.toNat (q.base.toNat + 64 * q.tail.toNat) (clean pkt) s).2
  State.modSq sq (fun q => { q with tail := BitVec.ofNat 12 ((q.tail.toNat + 1) % q.entries), peerIn := q.peerIn ++ [(src, fseq)] }) s

/-- A payload arrives at the command port of Ethernet port n (R419, R420). -/
def opPeerFrame (n : Nat) (d : List Byte) (src : PeerAddr) (s : State) : State :=
  if (s.port n).link ≠ .up || s.eth.cmdPort = 0 then s else
  receiveLen n (udpFrame src.ipv6 d.length) (fun s =>
  if !(peerFrameOk d && s.peerQueueOk n d) then { s with cmdq := { s.cmdq with peerDrop := satInc s.cmdq.peerDrop } }
  else if !s.fwMmio (0xB1 + n) true 0x110000 4 then report (faultAt 0x0921 (0xB1 + n) 0x8000110000 0) s
  else
    let fseq := BitVec.ofNat 32 (field d 8 4)
    forUpTo (field d 6 1) (fun i t => enterPacket n (field d 0x0C 1) src fseq (slice d (16 + 64 * i) 64) t) s) s

/-! ### The commands -/

/-- SQ_TAIL_DOORBELL (R406). -/
def execSqTailDoorbell (n : SqNo) (value : Word32) (s : State) := performBlk (opSqDoorbell n.val value.toNat) s
/-- CQ_HEAD_DOORBELL (R406). -/
def execCqHeadDoorbell (n : CqNo) (value : Word32) (s : State) := performBlk (opCqDoorbell n.val value.toNat) s
/-- EVQ_HEAD_DOORBELL (R417). -/
def execEvqHeadDoorbell (value : Word32) (s : State) := performBlk (opCqDoorbell 64 value.toNat) s
/-- SQ_ENABLE: CMDQ_SQn_CFG written with EN = 1 (R401). -/
def execSqEnable (n : SqNo) (cfg : Word32) (s : State) := performBlk (opSqCfg n.val (cfg ||| 1).toNat) s
/-- SQ_DISABLE: CMDQ_SQn_CFG written with EN = 0 (R401). -/
def execSqDisable (n : SqNo) (cfg : Word32) (s : State) := performBlk (opSqCfg n.val (cfg &&& 0xFFFFFFFE).toNat) s
/-- CQ_ENABLE: CMDQ_CQn_CFG or CMDQ_EVQ_CFG written with EN = 1 (R401). -/
def execCqEnable (q : CqOrEvq) (cfg : Word32) (s : State) := performBlk (opCqCfg q.val (cfg ||| 1).toNat) s
/-- CQ_DISABLE: the same with EN = 0 (R401). -/
def execCqDisable (q : CqOrEvq) (cfg : Word32) (s : State) := performBlk (opCqCfg q.val (cfg &&& 0xFFFFFFFE).toNat) s
/-- COMMAND_FETCH (R402). -/
def execCommandFetch (s : State) := perform opCommandFetch s
/-- COMPLETION_POST (R405). -/
def execCompletionPost (q : CqNo) (s : State) := perform (opCompletionPost q.val) s
/-- POSTING_REPEAT (R436). -/
def execPostingRepeat (s : State) := perform opPostingRepeat s
/-- PEER_COMMAND_FRAME (R419, R420). -/
def execPeerCommandFrame (port : EthPort) (frame : List Byte) (src : PeerAddr) (s : State) :=
  performWf (Instr.wf (.peerCommandFrame port frame src)) (opPeerFrame port.val frame src) s

end Sys2Proof.Machine
end

