-- ==== Sys2Proof/Machine/Restart.lean ====
section
/-! DEFINITION. The safe-state restart and the spare map it and start-up build (R292, R294, R295, R339, R340, R422). -/

namespace Sys2Proof.Machine

/-! ### Building the spare map (R38, R292) -/

/-- The Fronds that take part: neither RETIRED nor FAILED (R292). -/
def State.working (s : State) : List Nat := (List.range 144).filter (fun f => (s.fp f).st ≠ .retired && (s.fp f).st ≠ .failed)

/-- Put every Frond of a list in a state, with no FL, nothing resident and no replacement under way. -/
def setFps (st : FpState) (fs : List Nat) (s : State) : State := fs.foldl (fun t f => State.modFp f (fun _ => { st := st }) t) s

/-- The map over the Fronds that passed: FL 0 upward in ascending FP, the rest SPARE; SHORT with fault 0x0120 where they are fewer
than the grade's (R38, R292). -/
def buildMap (ok : List Nat) (s : State) : State :=
  let n := s.gctl.grade.toNat
  let s := setFps .spare ok { s with sched := { s.sched with flMap := [] } }
  let s := refreshFl (forUpTo (min n ok.length) (fun x t => mapFl x (ok.getD x 0) t) s)
  if s.gctl.short then reportCode 0x0120 0 s else s

/-- A fresh epoch whose invalidation has ended (R143, R294). -/
def epochAndInvalidate (f : Nat) (s : State) : State := State.modFrond f epochDone (freshEpoch f s)

/-- A Frond fails its golden sequence before it has an FL: recorded, counted, and RETIRED or FAILED (R292, R293, R328, R358; log 44). -/
def failUnmapped (st : FpState) (f : Nat) (s : State) : State :=
  let s := reportFrond f { code := 0x0118 } s
  setFps st [f] { s with thal := { s.thal with goldenFails := satInc s.thal.goldenFails } }

/-- The fabric comes back: fresh epochs and golden sequences for every working Frond, then the map (R294, R295, R339). -/
def restartFabric (failed : List Nat) (s : State) : State :=
  let ws := s.working
  let s := ws.foldl (fun t f => epochAndInvalidate f t) s
  let s := (ws.filter failed.contains).foldl (fun t f => failUnmapped .retired f t) s
  buildMap (ws.filter (fun f => !failed.contains f)) s

/-- Contexts FREE, runs gone, the hot set empty, pools rebuilt; registrations kept (R224, R254, R288, R340). -/
def restartSched (s : State) : State :=
  let s := { s with sched := { s.sched with ctxs := [], runs := [] } }
  let s := forUpTo 1024 (fun m t => if (t.model m).st = .hot then State.modModel m (fun x => { x with st := .warm }) t else t) s
  forUpTo 4 (fun p t => if (t.pool p).en then buildPool p t else t) s

/-- Authority after the restart: doubt windows cleared, CLEAN 0, nothing armed (R323, R332, R339). -/
def restartAuth (s : State) : State :=
  let s := forUpTo 8 (fun p t => State.modAuth p (fun a => { a with window := 0, winFrame := none, clean := 0, armed := false, decided := none, passed := [], planDue := [] }) t) s
  refreshGolden (forUpTo 48 (fun w t => State.modWdog w (fun x => { x with armed := false }) t) s)

/-- Every command fetched and not completed ends with 0x60, queue by queue in fetch order (R422). -/
def abandonCommands (s : State) : State :=
  let cs := (List.range 64).flatMap (fun n => s.cmdq.cmds.filter (fun c => c.sq = n))
  let cs := cs.map (fun c => { c with stage := .done 0x60 0 0 })
  { s with cmdq := { s.cmdq with cmds := cs, stuck := s.cmdq.stuck.filter (fun x => x.cmd = none) } }

/-- Their entries are posted where their queues have room; the others wait (R405, R422). -/
def postAbandoned (s : State) : State :=
  s.cmdq.cmds.foldl (fun t c => if t.cqOpen (s.sq c.sq).cq.toNat then postCompletion c t else t) s

/-- SAFE_RESTART, then PIPE_STOPPED for every pipeline that ran (R418, R422; log 45). -/
def postRestart (s : State) : State :=
  let ps := s.island.running
  let s := postEvent 1 none none (toLe 1 s.island.safeCount.toNat) s
  ps.foldl (fun t p => postEvent 7 (some p) none (toLe 1 1) t) { s with island := { s.island with running := [], c0Running := [] } }

/-- READY returns (R339, R503). -/
def restartReady (s : State) : State :=
  atReady { s with island := { s.island with restarting := false }, gctl := { s.gctl with ready := true } }

/-- A clock the restart needs is lost: it waits for it (R558). -/
def State.clocksMissing (s : State) : Bool :=
  s.pwr.lostDomains.any (fun d => match d with
    | .noc => true | .loop => true | .prep => true | .mcg _ => true
    | _ => false)

/-- SAFE_RESTART: the restart ends; the Fronds whose golden sequence failed are its operand (R339, R340, R422). -/
def opSafeRestart (failed : List Nat) (s : State) : State :=
  if !s.island.restarting || s.clocksMissing then s
  else postRestart (postAbandoned (abandonCommands (restartReady (restartAuth (restartSched (restartFabric failed s))))))

/-- SAFE_RESTART (R339). -/
def execSafeRestart (failed : List Frond) (s : State) :=
  performWf (Instr.wf (.safeRestart failed)) (opSafeRestart (failed.map Fin.val)) s

end Sys2Proof.Machine
end

