-- ==== Sys2Proof/Machine/Boot.lean ====
section
/-! DEFINITION. Resets, start-up and image verification (R36 to R39, R484, R562, R584 to R596, R619 to R623, 01, 18). -/

namespace Sys2Proof.Machine

/-! ### What a reset leaves (R36, R596, R619, R620) -/

/-- What no reset touches: the product, its fuses and keys, the flash, the levels of its pins and the world outside. A flash write
that a reset cuts off leaves no image (R596). -/
def keptOver (s : State) : State :=
  let c := s.sec
  { pins := { s.pins with faultN := false, slpS3N := true, slpS4N := true },
    gctl := { grade := s.gctl.grade, stream := s.gctl.stream, aq := s.gctl.aq },
    sec := { fuses := c.fuses, sensed := c.sensed, serial := c.serial, seed := c.seed, endorsement := c.endorsement, defects := c.defects,
             trimsFused := c.trimsFused, returned := c.returned, malsureKey := c.malsureKey, flash := c.flash,
             flashSpoiled := c.flashSpoiled || c.flashWrite = .inProgress },
    hostMem := s.hostMem, out := s.out, freeCtr := s.freeCtr, pending := s.pending }

/-- The latch, THAL_FATAL, KILLED, a PEER_KILL drive, RETIRED channels, SEC_BOOT_NEXT, PWR_WAKE_EN and PWR_WAKE_TIMER as well: what
SYSRST_N leaves (R620). -/
def keptOverSys (s : State) : State :=
  let i := s.island
  let r := keptOver s
  { r with
    island := { silent := i.silent, mode := if i.silent then .silent else .standby, fatalMoss := i.fatalMoss,
                fatalHeartbeat := i.fatalHeartbeat, fatalClkloss := i.fatalClkloss, fatalLockstep := i.fatalLockstep },
    twin := { killed := s.twin.killed, killOut := s.twin.killOut },
    mem := { pchs := s.mem.pchs.filterMap (fun e => if e.2.st = .retired then some (e.1, { st := .retired }) else none) },
    sec := { r.sec with bootNext := s.sec.bootNext },
    pwr := { wakeCan := s.pwr.wakeCan, wakeTimerEn := s.pwr.wakeTimerEn, wakeNEn := s.pwr.wakeNEn, wakeTimer := s.pwr.wakeTimer } }

/-! ### Image checks (R588 to R591) -/

/-- A section of a firmware image: 0 THAL, 1 RHIZ, 2 MOSS (R588). -/
def fwSection (d : List Byte) (i : Nat) : List Byte := slice d (field d (0x14 + 8 * i) 4) (field d (0x18 + 8 * i) 4)

/-- Places of the three sections. -/
def fwPlaces (d : List Byte) : List (Nat × Nat) := (List.range 3).map (fun i => (field d (0x14 + 8 * i) 4, field d (0x18 + 8 * i) 4))

/-- Check 1: MAGIC, VERSION, LENGTH, the bounds of the sections and of the vendor block, and sections that do not overlap (R590). -/
def fwHeaderOk (d : List Byte) : Bool :=
  field d 0 4 = 0x5746534B && field d 4 2 = 1 && field d 8 4 = d.length && d.length % 64 = 0 && decide (1024 ≤ d.length) &&
  decide (d.length ≤ 4194304) && (fwPlaces d).all (fun x => x.1 % 64 = 0 && decide (320 ≤ x.1) && decide (x.1 + x.2 ≤ d.length - 128)) &&
  decide (320 ≤ field d 0x2C 4) && decide (field d 0x2C 4 + 128 ≤ d.length - 128) && apart (fwPlaces d)

/-- Check 3: the vendor signature (R589, R590). -/
def vendorOk (key d : List Byte) : Bool :=
  let blk := slice d (field d 0x2C 4) 128
  sigSlot blk = 0xFF && edVerify key (slice d 0x0C 5 ++ fwSection d 0 ++ fwSection d 1) (sigOf blk)

/-- A carried key has the fused digest of its slot (R590). -/
def State.keyDigestOk (s : State) (d : List Byte) (i : Nat) : Bool :=
  match carriedKey d i with
  | none => false
  | some k => shake256 k 32 = toLe 16 (s.fuse (0x102 + 2 * i)) ++ toLe 16 (s.fuse (0x103 + 2 * i))

/-- The first fused, unrevoked slot whose carried key fails check 4 (R590). -/
def State.badSlot (s : State) (d : List Byte) : Option Nat :=
  (List.range 4).find? (fun i => s.slotFused i && !s.slotRevoked i && !s.keyDigestOk d i)

/-- Check 5: the customer signature under the key of CSLOT (R589, R590). -/
def State.customerOk (s : State) (d : List Byte) : Bool :=
  let blk := d.drop (d.length - 128)
  let c := field d 0x11 1
  match s.acceptedKeyOf d c with
  | some k => sigSlot blk = c && edVerify k (d.take (d.length - 128)) (sigOf blk)
  | none => false

/-- The first failing check of R590 and of R591's M-MOSS: code and key slot. -/
def State.checkImage (s : State) (d : List Byte) : Option (Nat × Nat) :=
  if !fwHeaderOk d then some (0x0B02, 0xFF)
  else if field d 0x10 1 < s.rollbackCount then some (0x0B05, 0xFF)
  else if !vendorOk s.sec.malsureKey d then some (0x0B03, 0xFF)
  else match s.badSlot d with
    | some i => some (0x0B04, i)
    | none =>
      if !s.unprovisioned && !s.customerOk d then some (0x0B04, field d 0x11 1)
      else
        let m := fwSection d 2
        if imgHeaderOk m && imgC0 m && s.modelSigned d m && imgRulesOk m then none else some (0x0B08, sigSlot (m.drop (m.length - 128)))

/-- The image the flash holds: the LENGTH bytes from address 0 (R584, R588). -/
def State.flashBytes (s : State) : List Byte := s.sec.flash.take (min 4194304 (field s.sec.flash 8 4))

/-- FLASH_RB: ROLLBACK of the flash image, 0xFF when it is invalid (R608). -/
def State.flashRollback (s : State) : Byte :=
  if s.sec.flashSpoiled || (s.checkImage s.flashBytes).isSome then 0xFF else BitVec.ofNat 8 (field s.flashBytes 0x10 1)

/-! ### Start-up (R36, R37) -/

/-- A step of start-up fails: it stops there, with the first fault code (R37). -/
def bootFail (stage code : Nat) (s : State) : State :=
  { s with gctl := { s.gctl with bootFailed := true, bootStage := BitVec.ofNat 3 stage,
                                 bootFault := if s.gctl.bootFault = 0 then BitVec.ofNat 16 code else s.gctl.bootFault } }

/-- An image fails: PHASE failed, BOOT_STAGE 0 (R590, R604, R605). -/
def imageFail (code slot : Nat) (s : State) : State :=
  bootFail 0 code (reportCode (BitVec.ofNat 16 code) slot { s with sec := { s.sec with phase := .failed } })

/-- The ROM and Thallus accept an image, or start-up stops; then the Rhizome boots from XTAL, and memory training follows
(R36, R590, R591, R623). -/
def bootImage (d : List Byte) (s : State) : State :=
  match s.checkImage d with
  | some x => imageFail x.1 x.2 s
  | none =>
    let s := { s with
      sec := { s.sec with image := d, phase := .verified, rollback := BitVec.ofNat 8 (field d 0x10 1), cslot := BitVec.ofNat 2 (field d 0x11 1) },
      island := { s.island with mossReady := true },
      gctl := { s.gctl with bootStage := 1 },
      twin := { s.twin with link := match s.twin.link with | .down => .training | x => x } }
    if s.pins.xtal then { s with gctl := { s.gctl with bootStage := 2 } } else bootFail 1 0x0807 (reportPwr 0x0807 0 0 s)

/-- The source of the image: SEC_BOOT_NEXT where it names one, else the strap (R584, R606). -/
def State.bootSource (s : State) : BitVec 2 :=
  if s.sec.bootNext = 1 || s.sec.bootNext = 2 then s.sec.bootNext else if s.pins.bootSrc then 1 else 0

/-- The code for a flash that holds no image after a cut-off write is one of 0x0B01 to 0x0B04 (R590, R596; log 8). -/
def spoiledBoot (s : State) : State :=
  let d := draw 2 s
  imageFail (0x0B01 + d.1.toNat) 0xFF d.2

/-- The ROM takes the image from its source (R584, R586, R590). -/
def loadImage (s : State) : State :=
  let s := { s with sec := { s.sec with flashRb := s.flashRollback } }
  if s.sec.source = 1 then { s with sec := { s.sec with phase := .hostWait, staging := [] } }
  else if s.sec.source = 2 then { s with sec := { s.sec with phase := .loading }, twin := { s.twin with link := .training } }
  else if s.sec.flashSpoiled then spoiledBoot s
  else if field s.sec.flash 0 4 ≠ 0x5746534B then imageFail 0x0B01 0xFF s
  else bootImage s.flashBytes s

/-- A reset is released: straps and fuses are sampled, the challenge is drawn, and the ROM runs (R36, R584, R599, R603, R621). -/
def startUp (bootSrc twinRole xtal : Bool) (s : State) : State :=
  let s := { s with pins := { s.pins with bootSrc := bootSrc, twinRole := twinRole, xtal := xtal } }
  let c := draw 256 s
  let s := { c.2 with sec := { c.2.sec with sensed := c.2.sec.fuses, chal := c.1 } }
  loadImage { s with sec := { s.sec with source := s.bootSource } }

/-- PORST_N_RELEASE: start-up begins at the later of the two releases (R619, R620). -/
def opPorstRelease (bootSrc twinRole xtal : Bool) (s : State) : State :=
  if s.pins.porstN then s
  else
    let t := { s with pins := { s.pins with porstN := true } }
    if s.pins.sysrstN then startUp bootSrc twinRole xtal t else t

/-- SYSRST_N_RELEASE (R620). -/
def opSysrstRelease (bootSrc twinRole xtal : Bool) (s : State) : State :=
  if s.pins.sysrstN then s
  else
    let t := { s with pins := { s.pins with sysrstN := true } }
    if s.pins.porstN then startUp bootSrc twinRole xtal t else t

/-- PORST_N_ASSERT (R619). -/
def opPorstAssert (s : State) : State := if !s.pins.porstN then s else
  let t := keptOver s
  { t with pins := { t.pins with porstN := false } }

/-- SYSRST_N_ASSERT: with PORST_N low the level changes and nothing else (R620). -/
def opSysrstAssert (s : State) : State :=
  let low : State → State := fun t => { t with pins := { t.pins with sysrstN := false } }
  if !s.pins.sysrstN then s else if !s.pins.porstN then low s else low (keptOverSys s)

/-- A reset pin's event: hardware acts whatever the device does, and PORST_N clears even the latch (R342, R619). -/
def performPin (f : State → State) (s : State) : Host.Outcome State Fault Refusal := .next (f s)

/-- PUSH_LEN_DOORBELL: HOSTWAIT ends and the staged image is verified (R586, R607). -/
def opPushLen (len : Nat) (s : State) : State :=
  if s.sec.phase ≠ .hostWait then s
  else if len = 0 || decide (4194304 < len) || len % 64 ≠ 0 then imageFail 0x0B02 0xFF s
  else bootImage (treadN 0 s.sec.staging 0 len) s

/-- TWIN_IMAGE_RECEIVED (R584, R586). -/
def opTwinImage (d : List Byte) (s : State) : State :=
  if s.sec.source = 2 && s.sec.phase = .loading && s.twin.link = .up then bootImage d s else s

/-- TWIN_IMAGE_REQUEST: Thallus reads its flash and sends the image (R584). -/
def opTwinRequest (s : State) : State :=
  if s.sec.phase = .verified && s.twin.link = .up then emit (.twinImage s.flashBytes) s else s

/-! ### Memory training (R36, R484) -/

/-- Whether start-up stands at a stage. -/
def State.bootAt (s : State) (stage : Nat) : Bool := s.gctl.bootStage.toNat = stage && !s.gctl.bootFailed && s.sec.phase = .verified

/-- A RETIRED channel takes no part: a spare of its group serves in its place, or its logical channel is LOST (R480, R482). -/
def replaceRetired (p : Nat) (s : State) : State :=
  if (s.pch p).st ≠ .retired then s
  else if isSpareChan p then State.modGroup (p / 36) (fun r => { r with spares := r.spares - 1 }) s
  else match s.lchServed p with
    | none => s
    | some l => match s.spareOf (p / 36) with
      | some sp =>
        State.modGroup (p / 36) (fun r => { r with spares := r.spares - 1 })
          (State.modChmap l (fun m => { m with pch := some (BitVec.ofNat 8 sp) }) (State.modPch sp (fun r => { r with st := .active }) s))
      | none => State.modChmap l (fun m => { m with lost := true }) (chanFault 0x0209 p 0 s)

/-- Every line zero, with zero metadata (R484). -/
def zeroFill (s : State) : State :=
  let m := s.mem
  { s with mem := { m with bytes := [], lines := [], line := 0, passes := 0, chmap := m.chmap.filterMap (fun e =>
      if e.2.lost || e.2.pch.isSome then some (e.1, { lost := e.2.lost, pch := e.2.pch }) else none) } }

/-- MEMORY_TRAINING_DONE: channels that failed record 0x020A and are replaced; then the zero fill (R36, R484). The PL3 voltage is
written before any fabric clock starts (R613). -/
def opTrained (failed : List Nat) (s : State) : State :=
  if !s.bootAt 2 then s
  else
    let s := forUpTo 144 (fun p t => replaceRetired p t) s
    let s := zeroFill (failed.foldl (fun t p => failChannel p 0x020A t) s)
    writeRail 3 (.lowerRail 0) { s with gctl := { s.gctl with bootStage := 3 } }

/-! ### Fabric self-test (R36, R38, R292, R562) -/

/-- DROOP_CALIBRATION_DONE: the quadrant leaves PL3, or start-up stops with 0x0804 (R562). -/
def opCalibrated (q : Nat) (ok : Bool) (s : State) : State :=
  if !s.bootAt 3 || !(s.quad q).forcedCal || decide (3 < s.pwr.rail) then s
  else if !ok || !s.sec.trimsFused then bootFail 3 0x0804 (reportPwr 0x0804 q 3 s)
  else
    let s := State.modQuad q (fun r => { r with forcedCal := false, stbyLock := true }) s
    let s := { s with pwr := { s.pwr with calDone := (List.range 4).all (fun x => !(s.quad x).forcedCal) } }
    advanceLevels s

/-- READY: FAULT_N is released unless the latch, or its held pad, keeps it low (R36, R37, R342, R570). -/
def becomeReady (s : State) : State :=
  atReady { s with gctl := { s.gctl with ready := true }, pins := { s.pins with faultN := !s.island.silent && !s.pwr.holdSaf } }

/-- Spare rows in use by the fuses and the self-test: Frond, bank and how many (R140, R179). -/
def loadRemaps (spared : List (Nat × Nat × Nat)) (s : State) : State :=
  spared.foldl (fun t x => State.modFrond x.1 (fun r => r.modBank x.2.1 (fun b => { b with spares := BitVec.ofNat 5 x.2.2 })) t) s

/-- FABRIC_SELF_TEST_DONE: the Fronds that failed, now or at manufacture, are FAILED; the others have fresh epochs, and those that fail their
golden tile are FAILED too; the map is built over the rest and READY follows (R36, R38, R292, R294, R295, R358). -/
def opSelfTest (failed golden : List Nat) (spared : List (Nat × Nat × Nat)) (s : State) : State :=
  if !s.bootAt 3 || !s.pwr.calDone then s
  else
    let bad := s.sec.defects ++ failed
    let ok := (List.range 144).filter (fun f => !bad.contains f)
    let s := setFps .spare ok { s with sched := { s.sched with fps := [] } }
    let s := ok.foldl (fun t f => epochAndInvalidate f t) (loadRemaps spared s)
    let s := (ok.filter golden.contains).foldl (fun t f => failUnmapped .failed f t) s
    becomeReady (buildMap (ok.filter (fun f => !golden.contains f)) { s with gctl := { s.gctl with bootStage := 4 } })

/-- PORST_N_RELEASE (R36). -/
def execPorstNRelease (bootSrc twinRole xtal : Bool) (s : State) := performPin (opPorstRelease bootSrc twinRole xtal) s
/-- SYSRST_N_RELEASE (R620). -/
def execSysrstNRelease (bootSrc twinRole xtal : Bool) (s : State) := performPin (opSysrstRelease bootSrc twinRole xtal) s
/-- PORST_N_ASSERT (R619). -/
def execPorstNAssert (s : State) := performPin opPorstAssert s
/-- SYSRST_N_ASSERT (R620). -/
def execSysrstNAssert (s : State) := performPin opSysrstAssert s
/-- PUSH_LEN_DOORBELL (R586). -/
def execPushLenDoorbell (len : Word32) (s : State) := performReg (opPushLen len.toNat) s
/-- TWIN_IMAGE_RECEIVED (R586). -/
def execTwinImageReceived (image : List Byte) (s : State) := performWf (Instr.wf (.twinImageReceived image)) (opTwinImage image) s
/-- TWIN_IMAGE_REQUEST (R584). -/
def execTwinImageRequest (s : State) := performSaf opTwinRequest s
/-- MEMORY_TRAINING_DONE (R484). -/
def execMemoryTrainingDone (failed : List PhysChan) (s : State) :=
  performWf (Instr.wf (.memoryTrainingDone failed)) (opTrained (failed.map Fin.val)) s
/-- DROOP_CALIBRATION_DONE (R562). -/
def execDroopCalibrationDone (q : Quad) (ok : Bool) (s : State) := perform (opCalibrated q.val ok) s
/-- FABRIC_SELF_TEST_DONE (R36). -/
def execFabricSelfTestDone (found : SelfTest) (s : State) :=
  performWf (Instr.wf (.fabricSelfTestDone found))
    (opSelfTest (found.failed.map Fin.val) (found.goldenBad.map Fin.val) (found.spared.map (fun x => (x.1.val, x.2.1.val, x.2.2.val)))) s

end Sys2Proof.Machine
end

