-- ==== Sys2Proof/Machine/Kv.lean ====
section
/-! DEFINITION. KVAPPEND, SORUS and the page engine's answers to them (R237 to R249). -/

namespace Sys2Proof.Machine

/-- The started descriptor of an opcode in a slot. -/
def State.running (s : State) (f k op : Nat) : Option QDesc :=
  ((s.frond f).slot k).queue.find? (fun d => d.started && d.op = op)

/-- Set a descriptor's hold. -/
def setHold (f k : Nat) (seq : Word32) (h : Option KvHold) (done : Bool) : State → State :=
  modDesc f k seq (fun d => { d with hold := h, done := done })

/-- Every pin of a hold dropped (R239). -/
def dropPins (h : KvHold) (s : State) : State := h.pages.foldl (fun t x => unpinBlock h.pool x.2 t) s

/-- A page operation's answer: its hold, nothing while a pin has to wait, or the fault that ends the descriptor with its pins dropped
(R239, R252). -/
def pageAnswer (f k : Nat) (d : QDesc) (h : KvHold) (r : Eng (List (Nat × Nat) × State)) (s : State) : State :=
  match engTry r s with
  | .ok (l, t) => setHold f k d.seq (some { h with pages := l, resolved := true }) false t
  | .error (c, t) => if c = 0 then s else failDesc f k c (((s.frond f).slot k).descAddr d.seq) d t

/-- A step of KVAPPEND or SORUS that finds its context no longer RESIDENT or BLOCKED: 0x0142, and nothing is allocated or pinned for
it (R229, R231). -/
def ctxGone (f k : Nat) (d : QDesc) (s : State) : State :=
  failDesc f k 0x0142 (((s.frond f).slot k).descAddr d.seq) d s

/-- The store accesses a started KVAPPEND or SORUS makes now: where a bank is not ON, 0x0131, the pins dropped and the stream
halted (R149, R252). -/
def withBanks (f k : Nat) (d : QDesc) (h : KvHold) (go : State → State) (s : State) : State :=
  match ((s.frond f).seenBy d).lostBank (viewOf s f d).feet with
  | some a => failDesc f k 0x0131 (storeAddr f a) d (dropPins h s)
  | none => go s

/-! ### KVAPPEND (R241) -/

/-- KVAPPEND asks the page engine for its pages. -/
def askAppend (f k : Nat) (d : QDesc) (s : State) : State :=
  let x := appBody (s.frond f) d
  setHold f k d.seq (some ⟨x.c, (s.ctx x.c).pool.toNat, x.hg, (s.ctx x.c).tokens.toNat, [], false, false⟩) false s

/-- KV_PAGE_RESOLVE: the one or two pages the tokens span (R237, R241). -/
def opPageResolve (f k : Nat) (s : State) : State :=
  match s.running f k 0x0E with
  | some d =>
    match d.hold with
    | some h =>
      if h.resolved then s
      else if !s.ctxActive h.ctx then ctxGone f k d s else
      let nt := (appBody (s.frond f) d).nt
      let p0 := h.tokens / 32
      let p1 := (h.tokens + nt - 1) / 32
      pageAnswer f k d h (appendPages h.ctx h.hg (if p0 = p1 then [p0] else [p0, p1]) s) s
    | none => s
  | none => s

/-- Elements of a store row as they travel. -/
def storeElems (r : FrondRec) (h code off n : Nat) : List PByte :=
  (List.range n).flatMap (fun e => let x := r.elem h code (off + e : Nat); (toLe (fmtBytes code) x.1).map (fun b => (b, x.2)))

/-- Address of a page held by a descriptor. -/
def KvHold.addr (h : KvHold) (s : State) (page : Nat) : Nat :=
  (s.pool h.pool).blockAddr (((h.pages.find? (fun x => x.1 = page)).map Prod.snd).getD 0)

/-- Token n of the append written into its page (R230, R241). -/
def appendToken (f k : Nat) (d : QDesc) (x : AppBody) (c : CtxRec) (h : KvHold) (n : Nat) (s : State) : State :=
  let r := (s.frond f).seenBy d
  let t := h.tokens + n
  let a := h.addr s (t / 32)
  let u := t % 32
  let cls := (r.slot k).busClass k
  let put : Nat → List PByte → State → State := fun o b t => (writeAll f cls (a + o) b t).2
  let s := put (u * c.d * c.esize) (storeElems r x.k c.code (x.kOff + n * (r.hnd x.k).stride) c.d) s
  let s := put (c.offV + u * c.d * c.esize) (storeElems r x.v c.code (x.vOff + n * (r.hnd x.v).stride) c.d) s
  if c.scaled then put (c.offVsc + 2 * u) (storeElems r x.sv 2 (x.svOff + n) 1) (put (c.offKsc + 2 * u) (storeElems r x.sk 2 (x.skOff + n) 1) s)
  else s

/-- Mean key and norm of a page's 32 keys as FP32 rows (R242). -/
def digestOf (ks : List (List F32)) (d : Nat) : List (BitVec 16) × F32 :=
  let mu := (List.range d).map (fun x =>
    let col := ks.map (fun r => r.getD x 0)
    toBf16 (fmul ((col.drop 1).foldl fadd (col.headD 0)) 0x3D000000))
  let norm := ks.foldl (fun a r =>
    let sq := r.map (fun y => fmul y y)
    let ss := (sq.drop 1).foldl fadd (sq.headD 0)
    fmax a (if (dec32 ss).isZero then 0 else fmul ss (frsqrt ss))) 0
  (mu, norm)

/-- The keys of a page as stored, each multiplied by its scale, read back from its block (R242). -/
def readKeys (f k a : Nat) (c : CtxRec) (s : State) : List (List F32) × Bool × State :=
  let cls := ((s.frond f).slot k).busClass k
  let kd := readAll f cls a (32 * c.d * c.esize) s
  let sd := if c.scaled then readAll f cls (a + c.offKsc) 64 kd.2 else (some [], kd.2)
  let kb := plain (kd.1.getD [])
  let sb := plain (sd.1.getD [])
  let rows := (List.range 32).map (fun u =>
    let sc : Fl := if c.scaled then decodeFmt 2 (field sb (2 * u) 2) else .fin false 1 0
    (List.range c.d).map (fun x => rne32 ((decodeFmt c.code (field kb ((u * c.d + x) * c.esize) c.esize)).mul sc)))
  (rows, kd.1.isNone || sd.1.isNone || poisoned (kd.1.getD []) || poisoned (sd.1.getD []), sd.2)

/-- The digest of a page an append has filled: written, or DFLAGS 0 (R241, R242). -/
def writeDigest (f k : Nat) (x : AppBody) (c : CtxRec) (a : Nat) (s : State) : State :=
  let cls := ((s.frond f).slot k).busClass k
  if !x.digest then (writeAll f cls (a + c.offDig + 2 * c.d + 4) (clean (toLe 4 0)) s).2
  else
    let r := readKeys f k a c s
    let g := digestOf r.1 c.d
    let b := g.1.flatMap (fun m => toLe 2 m.toNat) ++ toLe 4 g.2.toNat ++ toLe 4 1
    (writeAll f cls (a + c.offDig) (b.map (fun y => (y, r.2.1))) r.2.2).2

/-- The append's writes and digests (R241). -/
def writeAppend (f k : Nat) (d : QDesc) (h : KvHold) (s : State) : State :=
  let x := appBody ((s.frond f).seenBy d) d
  let c := s.ctx h.ctx
  let s := forUpTo x.nt (appendToken f k d x c h) s
  let full := (h.pages.map Prod.fst).filter (fun p => decide (32 * p + 32 ≤ h.tokens + x.nt))
  let s := full.foldl (fun t p => writeDigest f k x c (h.addr t p) t) s
  setHold f k d.seq (some { h with written := true }) false s

/-- KVAPPEND: it asks for its pages, and writes once they are resolved (R240, R241). -/
def opAppend (f k : Nat) (s : State) : State :=
  match s.running f k 0x0E with
  | some d =>
    match d.hold with
    | some h => if h.resolved && !h.written then withBanks f k d h (writeAppend f k d h) s else s
    | none => s
  | none => runOp 0x0E f k (askAppend f k) s

/-- KV_APPEND_COMMIT: the head group's bit and PEND_NT; with every group in, TOKENS and BUCKET (R241). -/
def opAppendCommit (f k : Nat) (s : State) : State :=
  match s.running f k 0x0E with
  | some d =>
    match d.hold with
    | some h =>
      if !h.written || !h.pages.isEmpty then s else
      let nt := (appBody (s.frond f) d).nt
      let s := if s.ctxActive h.ctx then State.modCtx h.ctx (fun c =>
          let app := c.appended ||| BitVec.ofNat 32 (2 ^ h.hg)
          if app.toNat = 2 ^ c.nhg.toNat - 1 then { setTokens (c.tokens.toNat + nt) c with appended := 0, pendNt := 0 }
          else { c with appended := app, pendNt := BitVec.ofNat 6 nt }) s
        else s
      setHold f k d.seq none true s
    | none => s
  | none => s

/-! ### SORUS (R245 to R248) -/

/-- SORUS asks for its walk. -/
def askSorus (f k : Nat) (d : QDesc) (s : State) : State :=
  let x := sorBody (s.frond f) d
  setHold f k d.seq (some ⟨x.c, (s.ctx x.c).pool.toNat, x.hg, 0, [], false, false⟩) false s

/-- SORUS_WALK: the snapshot of TOKENS and a pin on every page below NP (R245). -/
def opSorusWalk (f k : Nat) (s : State) : State :=
  match s.running f k 0x0F with
  | some d =>
    match d.hold with
    | some h =>
      if h.resolved then s
      else if !s.ctxActive h.ctx then ctxGone f k d s else
      let t := (s.ctx h.ctx).tokens.toNat
      pageAnswer f k d { h with tokens := t } (pinPages h.ctx h.hg (List.range (cdiv t 32)) s) s
    | none => s
  | none => s

/-- A candidate's digest: NORM and μ where DFLAGS.VALID is set, with poison (R243). -/
structure Digest where
  valid : Bool
  mu : List F32
  norm : F32
  poison : Bool
deriving DecidableEq, Repr

/-- A page's digest region read (R230). -/
def readDigest (f k a : Nat) (c : CtxRec) (s : State) : Digest × State :=
  let r := readAll f (((s.frond f).slot k).busClass k) (a + c.offDig) (2 * c.d + 8) s
  let b := plain (r.1.getD [])
  ({ valid := bit (field b (2 * c.d + 4) 4) 0, mu := (List.range c.d).map (fun x => ofBf16 (BitVec.ofNat 16 (field b (2 * x) 2))),
     norm := BitVec.ofNat 32 (field b (2 * c.d) 4), poison := poisoned (r.1.getD []) }, r.2)

/-- A sum of exact products in ascending order (R247). -/
def dotF (a b : List F32) : F32 :=
  match (a.zip b).map (fun y => fmul y.1 y.2) with
  | [] => 0
  | p :: ps => ps.foldl fadd p

/-- The score of a digested candidate (R247). -/
def sorusScore (qs : List (List F32)) (g : Digest) (normw : F32) : F32 :=
  let l := qs.map (fun q =>
    let ss := dotF q q
    let qn := if (dec32 ss).isZero then 0 else fmul ss (frsqrt ss)
    fadd (dotF q g.mu) (fmul (fmul qn g.norm) normw))
  (l.drop 1).foldl fmax (l.headD 0)

/-- A candidate with its rank keys: no usable digest, score, page (R246). -/
structure Candidate where
  page : Nat
  plain : Bool
  score : F32
deriving DecidableEq, Repr

/-- Whether a ranks before b (R246). -/
def Candidate.before (a b : Candidate) : Bool :=
  if a.plain then !b.plain || decide (b.page < a.page)
  else if b.plain then false
  else if isNan32 a.score then isNan32 b.score && decide (a.page < b.page)
  else if isNan32 b.score then true
  else if (dec32 b.score).lt (dec32 a.score) then true
  else if (dec32 a.score).lt (dec32 b.score) then false
  else decide (a.page < b.page)

/-- A candidate put at its rank. -/
def rankInsert (c : Candidate) : List Candidate → List Candidate
  | [] => [c]
  | x :: xs => if c.before x then c :: x :: xs else x :: rankInsert c xs

/-- The full pages of a snapshot always selected (R246). -/
def alwaysPages (c : CtxRec) (nf : Nat) : List Nat :=
  (List.range nf).filter (fun p => decide (p < min c.pfx.toNat nf) || decide (nf - c.wrec.toNat ≤ p))

/-- What ranking has found: the candidates in order, whether a scoring row was poisoned, and the first poisoned digest's page. -/
structure Ranking where
  order : List Candidate := []
  query : Bool := false
  digest : Option Nat := none
deriving DecidableEq, Repr

/-- The candidates ranked: digests are read and scored only where a ranking is needed and ALL is clear (R246, R250). -/
def rankPages (f k : Nat) (d : QDesc) (x : SorBody) (c : CtxRec) (h : KvHold) (cand : List Nat) (s : State) : Ranking × State :=
  let r := (s.frond f).seenBy d
  let qs := (List.range x.qr).map (fun i => (List.range c.d).map (fun e =>
    r.val32 x.q x.fq (x.qOff + i * (r.hnd x.q).stride + e : Nat)))
  cand.foldl (fun a p =>
    if x.all then ({ a.1 with order := rankInsert ⟨p, true, 0⟩ a.1.order }, a.2)
    else
      let at_ := h.addr a.2 p
      let g := readDigest f k at_ c a.2
      let y : Candidate := if g.1.valid then ⟨p, false, sorusScore (qs.map (fun q => q.map Prod.fst)) g.1 c.normw⟩ else ⟨p, true, 0⟩
      ({ order := rankInsert y a.1.order, query := qs.any (fun q => q.any Prod.snd),
         digest := a.1.digest.or (if g.1.poison then some (at_ + c.offDig) else none) }, g.2)) ({}, s)

/-- Numbers in ascending order. -/
def insertNat (a : Nat) : List Nat → List Nat
  | [] => [a]
  | x :: xs => if a ≤ x then a :: x :: xs else x :: insertNat a xs

/-- The pages selected, ascending, with the ranking that chose them (R246). -/
def selectPages (f k : Nat) (d : QDesc) (x : SorBody) (c : CtxRec) (h : KvHold) (s : State) : List Nat × Ranking × State :=
  let nf := h.tokens / 32
  let always := alwaysPages c nf
  let cand := (List.range nf).filter (fun p => !always.contains p)
  let part := if h.tokens % 32 = 0 then [] else [nf]
  if cand.length ≤ c.topk.toNat then ((List.range nf) ++ part, {}, s)
  else
    let r := rankPages f k d x c h cand s
    ((always ++ part ++ (r.1.order.take c.topk.toNat).map Candidate.page).foldl (fun a p => insertNat p a) [], r)

/-- Outputs of a selection made from poisoned words are poisoned (R139). -/
def stain (taint : Bool) (l : List (Nat × Bool)) : List (Nat × Bool) := l.map (fun e => (e.1, e.2 || taint))

/-- A part of a page as elements of n bytes; zero where it could not be read. -/
def partElems (b : List PByte) (o n m : Nat) : List (Nat × Bool) :=
  (List.range m).map (fun i =>
    let y := (b.drop (o + i * n)).take n
    (leNat (plain y), poisoned y))

/-- Slot i of the outputs: the page's rows below T, zero elements above and in unused slots (R248). -/
def sorusSlot (f k : Nat) (d : QDesc) (taint : Bool) (x : SorBody) (c : CtxRec) (h : KvHold) (i : Nat) (page : Option Nat)
    (a : Option Nat × State) : Option Nat × State :=
  let s := a.2
  let addr := (page.map (h.addr s)).getD 0
  let rd := match page with
    | some _ => readAll f (((s.frond f).slot k).busClass k) addr c.offDig s
    | none => (some [], s)
  let b := rd.1.getD (List.replicate c.offDig (0, true))
  let live : Nat → Bool := fun u => match page with | some p => decide (32 * p + u < h.tokens) | none => false
  let zero : Nat → List (Nat × Bool) := fun m => List.replicate m (0, false)
  let p := if poisoned b then some (a.1.getD addr) else a.1
  let put : Nat → Nat → Nat → List (Nat × Bool) → FrondRec → FrondRec := fun hd code e l => putElems hd code (e : Nat) (stain taint l)
  (p, State.modFrond f (asSeen d (fun r =>
    let r := forUpTo 32 (fun u t =>
      let row := 32 * i + u
      let t := put x.k c.code (x.kOff + row * (t.hnd x.k).stride)
        (if live u then partElems b (u * c.d * c.esize) c.esize c.d else zero c.d) t
      put x.v c.code (x.vOff + row * (t.hnd x.v).stride)
        (if live u then partElems b (c.offV + u * c.d * c.esize) c.esize c.d else zero c.d) t) r
    let r := if c.scaled then
        forUpTo 32 (fun u t =>
          let sc : Nat → List (Nat × Bool) := fun o => if live u then partElems b (o + 2 * u) 2 1 else zero 1
          put x.sv 2 (x.svOff + 32 * i + u) (sc c.offVsc) (put x.sk 2 (x.skOff + 32 * i + u) (sc c.offKsc) t)) r
      else r
    put x.kp 8 (x.kpOff + i) [(match page with | some q => 32 * q | none => 0xFFFFFFE0, false)] r)) rd.2)

/-- Whether mask bit (row, slot, token) is 1 (R248). -/
def sorusMask (x : SorBody) (sel : List Nat) (t : Nat) (i sl u : Nat) : Bool :=
  match sel[sl]? with
  | none => false
  | some p =>
    let kpos := 32 * p + u
    let qp := (x.qpos0 + i) % 2 ^ 32
    decide (kpos < t) && (!x.causal || decide (kpos ≤ qp)) &&
      (x.window = 0 || decide ((qp + 2 ^ 32 - kpos) % 2 ^ 32 < x.window))

/-- The mask rows written (R248). -/
def sorusMasks (taint : Bool) (x : SorBody) (sel : List Nat) (t : Nat) (r : FrondRec) : FrondRec :=
  if x.mask = 0xFF then r
  else forUpTo x.mr (fun i u =>
    putElems x.mask 0 (x.maskOff + i * (u.hnd x.mask).stride : Nat) ((List.range (4 * x.npmax)).map (fun b =>
      ((List.range 8).foldl (fun a j => a + (if sorusMask x sel t i (b / 4) (b % 4 * 8 + j) then 2 ^ j else 0)) 0, taint))) u) r

/-- SORUS after its walk: pages selected, copied, and the outputs written, all poisoned where the selection came from poisoned words
(R139, R246 to R248). -/
def writeSorus (f k : Nat) (d : QDesc) (h : KvHold) (s : State) : State :=
  let x := sorBody ((s.frond f).seenBy d) d
  let c := s.ctx h.ctx
  let r := selectPages f k d x c h s
  let sel := r.1
  let taint := r.2.1.query || r.2.1.digest.isSome
  let w := forUpTo x.npmax (fun i a => sorusSlot f k d taint x c h i sel[i]? a) (none, r.2.2)
  let s := State.modFrond f (asSeen d (fun t =>
    sorusMasks taint x sel h.tokens (putElems x.kp 8 (x.kpOff + x.npmax : Nat) [(sel.length, taint), (h.tokens, taint)] t))) w.2
  let s := match r.2.1.digest.or w.1 with
    | some a => descPoison f k d a s
    | none => s
  setHold f k d.seq (some { h with written := true }) false s

/-- SORUS: it asks for its walk, and selects and copies once the pages are pinned (R244 to R248). -/
def opSorus (f k : Nat) (s : State) : State :=
  match s.running f k 0x0F with
  | some d =>
    match d.hold with
    | some h => if h.resolved && !h.written then withBanks f k d h (writeSorus f k d h) s else s
    | none => s
  | none => runOp 0x0F f k (askSorus f k) s

/-- KV_UNPIN: the pins of a descriptor whose writes are done; a SORUS is then complete (R239, R241, R248). -/
def opUnpin (f k : Nat) (s : State) : State :=
  let drop : Nat → State → State := fun op s =>
    match s.running f k op with
    | some d =>
      match d.hold with
      | some h =>
        if !h.written then s
        else
          let s := dropPins h s
          if op = 0x0F then setHold f k d.seq none true s else setHold f k d.seq (some { h with pages := [] }) false s
      | none => s
    | none => s
  drop 0x0F (drop 0x0E s)

/-- KVAPPEND (R241). -/
def execKvappend (fp : Frond) (k : Slot) (s : State) := performFab fp.val (opAppend fp.val k.val) s
/-- SORUS (R246). -/
def execSorus (fp : Frond) (k : Slot) (s : State) := performFab fp.val (opSorus fp.val k.val) s
/-- KV_PAGE_RESOLVE (R241). -/
def execKvPageResolve (fp : Frond) (k : Slot) (s : State) := performFab fp.val (opPageResolve fp.val k.val) s
/-- SORUS_WALK (R245). -/
def execSorusWalk (fp : Frond) (k : Slot) (s : State) := performFab fp.val (opSorusWalk fp.val k.val) s
/-- KV_UNPIN (R239). -/
def execKvUnpin (fp : Frond) (k : Slot) (s : State) := performFab fp.val (opUnpin fp.val k.val) s
/-- KV_APPEND_COMMIT (R241). -/
def execKvAppendCommit (fp : Frond) (k : Slot) (s : State) := performFab fp.val (opAppendCommit fp.val k.val) s

end Sys2Proof.Machine
end

