-- ==== Sys2Proof/Machine/Contexts.lean ====
section
/-! DEFINITION. The context commands: create, destroy, fork, trim, and what draining ends in (R224 to R229, R233, R236, R238, R279, R281). -/

namespace Sys2Proof.Machine

/-- The lowest FREE context (R228). -/
def State.freeCtx (s : State) : Option Nat := (List.range 16384).find? (fun c => (s.ctx c).st = .free)

/-- Blocks a class-0 context reserves (R233). -/
def reserveBlocks (nhg maxtok : Nat) : Nat :=
  let n := cdiv maxtok 32
  nhg * n + nhg * cdiv n 512 + 1

/-- The pool meets a reservation: blocks free and not reserved (R233). -/
def State.canReserve (s : State) (p n : Nat) : Bool := decide (n ≤ (s.pool p).free.toNat - (s.pool p).resv.toNat)

/-- A reservation taken. -/
def reserve (p n : Nat) : State → State := State.modPool p (fun x => { x with resv := x.resv + BitVec.ofNat 24 n })

/-! ### Class-0 placement (R38, R281, R291) -/

/-- The class-0 reserved set: mapped Fronds that hold a class-0 shard (R280). -/
def State.reservedSet (s : State) : List Nat := (s.mappedFls.map s.flFp).filter (fun f => (s.fp f).res.any (fun r => r.cls = 0))

/-- Class 1 to 3 work on a Frond whose shard must go is pre-empted first (R281, R296). -/
def clearConflicts (f : Nat) (e : ShardEnt) (s : State) : State :=
  ((s.fp f).res.filter (fun r => !r.disjoint e)).foldl (fun t r =>
    if t.issuing f r.model then
      match ((t.frond f).slot 1).owner with
      | .run n _ => preemptRun n t
      | .load _ _ => abortSlot f 1 t
      | .none => t
    else t) s

/-- Shards placed in ascending index on Fronds that hold no class-0 shard, their loads started and pinned; none where one finds no Frond
or the set would pass C0_LIMIT (R281, R291). -/
def placeClass0 (m : Nat) : List Nat → State → Option State
  | [], s => if s.reservedSet.length ≤ s.sched.c0Limit.toNat then some s else none
  | sh :: rest, s =>
    let e := (s.model m).shards.getD sh ⟨0, 0, 0, 0, 0, 0, 0, 0, 0⟩
    match s.pickFree 0 e with
    | none => none
    | some f => placeClass0 m rest (loadShard m sh f 0 true (clearConflicts f e s))

/-- Every shard of the model is resident and loaded. -/
def State.allHot (s : State) (m : Nat) : Bool :=
  (List.range (s.model m).shards.length).all (fun sh => match s.homeOf m sh with
    | some f => s.hotOn m sh f
    | none => false)

/-- The shards of a class-0 model on their Fronds: pinned already, or placed now; the status where that fails (R281). -/
def class0Shards (m : Nat) (s : State) : Except (Nat × State) State :=
  if s.pinned m then .ok s
  else
    let w := warmModel m s
    match w.1 with
    | some st => .error (st, w.2)
    | none => match placeClass0 m (List.range (w.2.model m).shards.length) w.2 with
      | some t => .ok t
      | none => .error (0x23, w.2)

/-! ### CTX_CREATE (R228, R279, R281) -/

/-- The entry CTX_CREATE makes (R225, R228). -/
def newCtx (c : Cmd) (t : Word64) : CtxRec :=
  { st := .idle, cls := BitVec.ofNat 2 (c.fld 0x18 1), model := BitVec.ofNat 10 (c.fld 0x1A 2), pool := BitVec.ofNat 2 (c.fld 0x19 1),
    nhg := BitVec.ofNat 8 (c.fld 0x1C 1), kvf := BitVec.ofNat 4 (c.fld 0x1D 1), dh := BitVec.ofNat 4 (c.fld 0x1E 1),
    topk := BitVec.ofNat 8 (c.fld 0x1F 1), wrec := BitVec.ofNat 8 (c.fld 0x20 1), pfx := BitVec.ofNat 8 (c.fld 0x21 1),
    maxtok := BitVec.ofNat 32 (c.fld 0x24 4), normw := BitVec.ofNat 32 (c.fld 0x28 4), tag := BitVec.ofNat 64 (c.fld 0x30 8), tState := t }

/-- The checks of CTX_CREATE before anything is placed (R228, R254, R279). -/
def State.createStatus (s : State) (c : Cmd) : Option Nat :=
  let m := s.model (c.fld 0x1A 2)
  let p := s.pool (c.fld 0x19 1)
  if m.st = .free then some 0x40
  else if bit m.flags 0 ≠ (c.fld 0x18 1 = 0 : Bool) then some 0x47
  else if !p.en then some 0x2A
  else if p.busy then some 0x25
  else if p.bfr.toNat * 4096 < (newCtx c 0).pageSize then some 0x02
  else if s.freeCtx = none then some 0x20
  else none

/-- The new context with its reservation and level-1 table; none where the pool cannot give them (R227, R233). -/
def makeCtx (id : Nat) (x : CtxRec) (s : State) : Option State :=
  let n := if x.cls = 0 then reserveBlocks x.nhg.toNat x.maxtok.toNat else 0
  let p := x.pool.toNat
  if x.cls = 0 && !s.canReserve p n then none
  else
    let s := State.modCtx id (fun y => { x with gen := y.gen, reserved := n }) (reserve p n s)
    match allocRoot id s with
    | .ok (_, t) => some t
    | .error _ => none

/-- CTX_CREATE: done at once, or after the last load of a class-0 model's shards (R228, R281). -/
def actCtxCreate (c : Cmd) (s : State) : State :=
  let m := c.fld 0x1A 2
  match s.createStatus c, s.freeCtx with
  | some st, _ => finishCmd c.tag st 0 0 s
  | none, none => finishCmd c.tag 0x20 0 0 s
  | none, some id =>
    match makeCtx id (newCtx c s.gctl.time) s with
    | none => finishCmd c.tag 0x24 0 0 s
    | some t =>
      if c.fld 0x18 1 ≠ 0 then finishCmd c.tag 0 id 0 t
      else match class0Shards m t with
        | .error (st, u) => finishCmd c.tag st 0 0 { s with thal := u.thal, freeCtr := u.freeCtr }
        | .ok u =>
          if u.allHot m then finishCmd c.tag 0 id 0 u
          else State.modCtx id (fun y => { y with createTag := some c.tag }) u

/-! ### CTX_DESTROY and the end of draining (R227, R281) -/

/-- A slot that still serves a run. -/
def State.runOwns (s : State) (n : Nat) : Bool :=
  s.fronds.any (fun e => [e.2.slot0, e.2.slot1].any (fun x => match x.owner with
    | .run k _ => decide (k = n) && x.st ≠ .idle
    | _ => false))

/-- ABORT every slot of a run (R156). -/
def abortRun (n : Nat) (s : State) : State :=
  forUpTo 144 (fun f t => forUpTo 2 (fun k t =>
    match ((t.frond f).slot k).owner with
    | .run m _ => if m = n then abortSlot f k t else t
    | _ => t) t) s

/-- RESULT1 of a run's command that ends at a run of a chain: the run's index (R404). -/
def chainResult (c : Option Cmd) (i : Nat) : Nat := if c.any (fun c => c.op = 0x31) then place i 24 else 0

/-- A run is over before its end: its streams ABORTed, its contexts DRAINING, its command done with a status (R227, R404, R411). -/
def killRun (st n : Nat) (s : State) : State :=
  match s.run n with
  | none => s
  | some r =>
    let s := r.ctxs.foldl (fun t c => if (t.ctx c).st = .resident || (t.ctx c).st = .blocked then setCtxState c .draining t else t) s
    let s := abortRun n s
    let s := State.modRun n (fun r => { r with cmd := none, st := .ended, todo := [], onFp := [] }) s
    match r.cmd with
    | some tag => failCmd tag st (chainResult (s.cmd tag) r.chain) s
    | none => s

/-- A queued run names the context. -/
def State.runQueued (s : State) (c : Nat) : Bool := s.sched.runs.any (fun r => r.st = .queued && r.ctxs.contains c)

/-- RUNNABLE contexts left by a killed run that nothing queued names go back to IDLE. -/
def settleRunnable (cs : List Nat) (s : State) : State :=
  cs.foldl (fun t c => if (t.ctx c).st = .runnable && !t.runQueued c then setCtxState c .idle t else t) s

/-- A frame's run whose context is destroyed ends, its streams never to complete; a frame of classes 1 to 3 is given up (R17, R227; log 23). -/
def loseFrameRun (r : RunRec) (s : State) : State :=
  let xs := s.runStreams r
  let s := abortRun r.num s
  let s := State.modRun r.num (fun y => { y with
    st := .ended, streams := xs, halted := xs.map Prod.fst, todo := [], onFp := [] }) s
  match r.pipe with
  | some (p, k) => abandonFrame p k s
  | none => s

/-- CTX_DESTROY: queued runs fail, streams are ABORTed, every reference is dropped at once, and the context drains (R227, R231). -/
def actCtxDestroy (c : Cmd) (s : State) : State :=
  let id := c.fld 0x18 2
  match (s.ctx id).st with
  | .free => finishCmd c.tag 0x45 0 0 s
  | .draining => finishCmd c.tag 0x46 0 0 s
  | _ =>
    let rs := s.sched.runs.filter (fun r => r.ctxs.contains id && r.pipe = none)
    let s := rs.foldl (fun t r => killRun 0x4A r.num t) s
    let s := settleRunnable ((rs.flatMap (fun r => r.ctxs)).filter (fun x => x ≠ id)) s
    let s := (s.sched.runs.filter (fun r => r.ctxs.contains id && r.pipe.isSome && r.st ≠ .ended)).foldl (fun t r => loseFrameRun r t) s
    let s := State.modCtx id (fun x => { x with destroyed := true, destroyTags := [c.tag] }) (setCtxState id .draining s)
    match engTry (dropData id s) s with
    | .ok (_, t) => t
    | .error (_, t) => t

/-- A slot queue holds an issued descriptor with blocks of the context pinned. -/
def State.ctxHeld (s : State) (c : Nat) : Bool :=
  s.fronds.any (fun e => (e.2.slot0.queue ++ e.2.slot1.queue).any (fun d => d.started && match d.hold with
    | some h => decide (h.ctx = c)
    | none => false))

/-- Every issued descriptor of the context has completed (R227). -/
def State.drained (s : State) (c : Nat) : Bool :=
  !s.ctxHeld c && s.sched.runs.all (fun r => !r.ctxs.contains c || !s.runOwns r.num)

/-- Runs that ended early and hold no slot any more are forgotten. -/
def forgetRuns (s : State) : State :=
  { s with sched := { s.sched with runs := s.sched.runs.filter (fun r => !(r.st = .ended && r.cmd = none && r.pipe = none && !s.runOwns r.num)) } }

/-- The class-0 shards of a model are unpinned and released with its last class-0 context (R281). -/
def dropClass0 (m : Nat) (s : State) : State :=
  if s.sched.ctxs.any (fun e => e.2.st ≠ .free && e.2.cls = 0 && e.2.model.toNat = m) then s
  else refreshModel m (releaseModel m s)

/-- A context's tables released (R227). -/
def releaseTables (c : Nat) (s : State) : State :=
  match engTry (dropTables c s) s with
  | .ok x => x.2
  | .error x => x.2

/-- The entry a context that becomes FREE keeps: zero but for T_STATE and GEN (R225, R227). -/
def freedCtx (t : Word64) (y : CtxRec) : CtxRec := { gen := y.gen, tState := t }

/-- A destroyed context becomes FREE: tables and reservation released, the commands that waited for it done (R227, R281). -/
def endCtx (c : Nat) (s : State) : State :=
  let s := releaseTables c s
  let x := s.ctx c
  let s := State.modPool x.pool.toNat (fun p => { p with resv := p.resv - BitVec.ofNat 24 x.reserved }) s
  let s := State.modCtx c (freedCtx s.gctl.time) s
  let s := { s with sched := { s.sched with runs := s.sched.runs.map (fun r => { r with ctxs := r.ctxs.filter (fun x => x ≠ c) }) } }
  let s := (x.createTag.toList ++ x.destroyTags).foldl (fun t tag => finishCmd tag 0 c 0 t) s
  if x.cls = 0 then dropClass0 x.model.toNat s else s

/-- CONTEXT_DRAINED: FREE where destroyed, RUNNABLE where a run is queued, else IDLE (R227). -/
def opDrained (c : Nat) (s : State) : State :=
  if (s.ctx c).st ≠ .draining || !s.drained c then s
  else
    let s := forgetRuns s
    if (s.ctx c).destroyed then endCtx c s
    else setCtxState c (if s.runQueued c then .runnable else .idle) s

/-! ### CTX_FORK and CTX_TRIM (R229, R236, R238) -/

/-- The child of a fork (R236). -/
def childCtx (c : Nat) (x : CtxRec) (t : Word64) : CtxRec :=
  setTokens x.tokens.toNat { x with
    st := .idle, root := 0, appended := 0, pendNt := 0, parent := BitVec.ofNat 14 c, forked := true, pages := 0, tState := t,
    tag := 0, gen := 0, destroyed := false, reserved := 0, destroyTags := [], createTag := none }

/-- The child's root, tables and shared references. -/
def forkInto (c child : Nat) (s : State) : Eng (Unit × State) := do
  let (ts, s) ← ctxTables c s
  let (_, s) ← allocRoot child s
  engEach (forkTable child) ts s

/-- CTX_FORK (R236). -/
def actCtxFork (c : Cmd) (s : State) : State :=
  let id := c.fld 0x18 2
  let x := s.ctx id
  if x.st = .free then finishCmd c.tag 0x45 0 0 s
  else if x.st ≠ .idle && x.st ≠ .runnable then finishCmd c.tag 0x46 0 0 s
  else match s.freeCtx with
    | none => finishCmd c.tag 0x20 0 0 s
    | some child =>
      let n := if x.cls = 0 then reserveBlocks x.nhg.toNat x.maxtok.toNat else 0
      if x.cls = 0 && !s.canReserve x.pool.toNat n then finishCmd c.tag 0x24 0 0 s
      else
        let y := childCtx id x s.gctl.time
        let t := State.modCtx child (fun z => { y with gen := z.gen, reserved := n }) (reserve x.pool.toNat n s)
        match engTry (forkInto id child t) s with
        | .ok (_, u) => finishCmd c.tag 0 child 0 u
        | .error (code, u) => finishCmd c.tag (if code = 1 then 0x4B else if code = 0x0140 then 0x24 else 0x28) 0 0 u

/-- CTX_TRIM (R238). -/
def actCtxTrim (c : Cmd) (s : State) : State :=
  let id := c.fld 0x18 2
  let n := c.fld 0x1C 4
  let x := s.ctx id
  if x.st = .free then finishCmd c.tag 0x45 0 0 s
  else if x.st ≠ .idle && x.st ≠ .runnable then finishCmd c.tag 0x46 0 0 s
  else if x.tokens.toNat < n then finishCmd c.tag 0x02 0 0 s
  else match engTry (trimPages id n s) s with
    | .ok (_, t) => finishCmd c.tag 0 n 0 (State.modCtx id (setTokens n) t)
    | .error (_, t) => finishCmd c.tag 0x28 0 0 t

/-- CTX_CREATE (R228). -/
def execCtxCreate (tag : Nat) (s : State) := perform (startCmd 0x20 tag actCtxCreate) s
/-- CTX_DESTROY (R227). -/
def execCtxDestroy (tag : Nat) (s : State) := perform (startCmd 0x21 tag actCtxDestroy) s
/-- CTX_FORK (R236). -/
def execCtxFork (tag : Nat) (s : State) := perform (startCmd 0x22 tag actCtxFork) s
/-- CTX_TRIM (R238). -/
def execCtxTrim (tag : Nat) (s : State) := perform (startCmd 0x23 tag actCtxTrim) s
/-- CONTEXT_DRAINED (R227). -/
def execContextDrained (ctx : Ctx) (s : State) := perform (opDrained ctx.val) s

end Sys2Proof.Machine
end

