-- ==== Sys2Proof/Machine/Dma.lean ====
section
/-! DEFINITION. The DMA engine's channels: lists, descriptors, claims, transfers, errors and retries (R434 to R461). -/

namespace Sys2Proof.Machine

/-! ### Descriptors (R439, R440) -/

/-- A DMA descriptor's fields. -/
structure DmaDesc where
  src : Nat
  mode : Nat
  end_ : Bool
  signal : Bool
  fillup : Bool
  irq : Bool
  status : Nat
  sync : Nat
  fence : Bool
  dst : Nat
  handle : Nat
  value : Nat
  len : Nat
  count : Nat
  spitch : Nat
  table : Nat
  dpitch : Nat
  next : Nat
  reserved : Bool
deriving DecidableEq, Repr

/-- The layout of R439. -/
def dmaDesc (d : List Byte) : DmaDesc :=
  let f := field d
  let mode := bits (f 5 1) 1 0
  { src := f 0 5, mode := mode, end_ := bit (f 5 1) 2, signal := bit (f 5 1) 3, fillup := bit (f 5 1) 4, irq := bit (f 5 1) 5,
    status := bits (f 5 1) 7 6, sync := bits (f 6 2) 9 0, fence := bit (f 6 2) 15, dst := f 8 5, handle := bits (f 0xD 3) 7 0,
    value := bits (f 0xD 3) 22 8, len := f 0x10 3, count := f 0x13 3, spitch := f 0x16 3, table := f 0x16 5, dpitch := f 0x19 3,
    next := place (bits (f 0x1C 4) 30 0) 5,
    reserved := bits (f 6 2) 14 10 ≠ 0 || bit (f 0xD 3) 23 || bit (f 0x1C 4) 31 || (mode = 2 && f 0x1B 1 ≠ 0) }

/-- Lines or elements of a descriptor. -/
def DmaDesc.lines (x : DmaDesc) : Nat := if x.mode = 0 then 1 else x.count

/-- Destination of line i (R440). -/
def DmaDesc.dstAt (x : DmaDesc) (i : Nat) : Nat :=
  match x.mode with
  | 0 => x.dst
  | 1 => x.dst + i * x.dpitch
  | _ => x.dst + i * x.len

/-- Source of line i of a linear or 2-D descriptor (R440). -/
def DmaDesc.srcAt (x : DmaDesc) (i : Nat) : Nat := if x.mode = 0 then x.src else x.src + i * x.spitch

/-- n bytes at a in main memory, one Frond store or the outbound window (R440). -/
def dmaRange (a n : Nat) : Bool :=
  match targetRange a n with
  | .main | .frond _ _ | .outbound _ => true
  | _ => false

/-- The Frond whose store an address lies in. -/
def frondOf (a : Nat) : Option Nat :=
  match targetOf a with
  | .frond f _ => some f
  | _ => none

/-- The ranges of R440. -/
def DmaDesc.fieldsOk (x : DmaDesc) : Bool :=
  match x.mode with
  | 0 => decide (1 ≤ x.len) && x.count = 0
  | 1 => decide (1 ≤ x.len) && decide (1 ≤ x.count) && decide (x.len ≤ x.dpitch)
  | 2 => decide (1 ≤ x.len) && decide (x.len ≤ 4096) && decide (1 ≤ x.count) && x.table % 4 = 0
  | _ => false

/-- The addresses a descriptor gives before its index table is read (R440, R441; log 51). -/
def DmaDesc.addrsOk (x : DmaDesc) : Bool :=
  (List.range x.lines).all (fun i => dmaRange (x.dstAt i) x.len && (x.mode = 2 || dmaRange (x.srcAt i) x.len)) &&
  (x.mode ≠ 2 || (dmaRange x.src 1 && dmaRange x.table (4 * x.count) && match targetOf x.table with | .outbound _ => false | _ => true))

/-- A descriptor that is not malformed (R441). -/
def DmaDesc.ok (x : DmaDesc) : Bool :=
  x.fieldsOk && x.status = 0 && !x.reserved && x.addrsOk && (!x.fillup || (frondOf x.dst).isSome)

/-! ### Claims (R445, R446) -/

/-- The destination footprint of a descriptor in the store of Frond f. -/
def DmaDesc.feet (x : DmaDesc) (f : Nat) : List (Nat × Nat) :=
  (List.range x.lines).filterMap (fun i => match targetOf (x.dstAt i) with
    | .frond g o => if g = f then some (o, x.len) else none
    | _ => none)

/-- Claims taken at the start, counted whatever state their bank is in (R445, R446). -/
def takeClaims (x : DmaDesc) (s : State) : Nat × List Nat × State :=
  match frondOf x.dst with
  | none => (0, [], s)
  | some f =>
    let bs := (s.frond f).dmaBanks x.handle (x.feet f)
    (f, bs, addClaims f bs s)

/-- Claims released (R443, R445). -/
def releaseClaims (x : DmaFlight) (s : State) : State := if x.claims = [] then s else dropClaims x.claimFp x.claims s

/-! ### A channel's state -/

/-- The first descriptor in flight changed. -/
def DmaRec.modHead (g : DmaFlight → DmaFlight) (c : DmaRec) : DmaRec :=
  match c.flight with
  | [] => c
  | x :: rest => { c with flight := g x :: rest }

/-- CUR is the oldest descriptor not completed (R458). -/
def DmaRec.setCur (c : DmaRec) : DmaRec :=
  match c.flight, c.nextFetch with
  | x :: _, _ => { c with cur := BitVec.ofNat 40 x.addr }
  | [], some a => { c with cur := BitVec.ofNat 40 a }
  | [], none => c

/-- A software list has ended: pipelines that wait for the channel take it, and their corrupt samples that waited for it end (R437). -/
def giveChannel (n : Nat) (s : State) : State :=
  forUpTo 8 (fun p t =>
    if (t.pipe p).running && (t.pipe p).dmaWanted.contains n && (t.dmac n).st ≠ .running then
      resumeCorrupt p n (State.modDma n (fun c => { c with owner := 1 })
        (State.modPipe p (fun r => { r with dmaTaken := r.dmaTaken ++ [n], dmaWanted := r.dmaWanted.filter (fun m => m ≠ n) }) t))
    else t) s

/-- The channel stops: claims released, nothing more in flight (R442). -/
def stopChannel (n : Nat) (g : DmaRec → DmaRec) (s : State) : State :=
  let fl := (s.dmac n).flight
  let s := fl.foldl (fun t x => releaseClaims x t) s
  giveChannel n (State.modDma n (fun c => g { c with flight := [], nextFetch := none, attempts := 0, retryAddr := none }) s)

/-- The channel halts with a code at a descriptor (R442, R457). -/
def haltChannel (n : Nat) (code : BitVec 16) (at_ : Nat) : State → State :=
  stopChannel n (fun c => { c with st := .halted, fault := code, cur := BitVec.ofNat 40 at_ })

/-- A channel's accesses: its initiator, class and control-class policy (R434). -/
def State.dmaCls (s : State) (n : Nat) : Nat := (s.dmac n).cls.toNat
def controlClass (n : Nat) : Bool := decide (16 ≤ n)

/-- STATUS written into byte 0x05 of a descriptor (R444). -/
def writeDmaStatus (n a status : Nat) (s : State) : State :=
  match (busRead (dmaInit n) (s.dmaCls n) (a + 5) 1 s).1 with
  | some [(b, p)] =>
    (busWrite (dmaInit n) (s.dmaCls n) (a + 5) [(BitVec.ofNat 8 (b.toNat % 64 + place status 6), p)] s).2
  | _ => s

/-- Report a DMA fault (R452). -/
def dmaFault (code : BitVec 16) (n mode a attempts : Nat) (s : State) : State :=
  let k := attemptField attempts s
  report (faultAt code (dmaInit n) a (dmaDetail n mode k.1)) k.2

/-! ### GO, ABORT, RESUME (R442, R456) -/

/-- GO: ignored unless IDLE; a channel PREP owns takes no register write (R435, R442, R449). -/
def opDmaGo (n : Nat) (s : State) : State :=
  let c := s.dmac n
  if c.st ≠ .idle || c.owner = 1 then s
  else State.modDma n (fun c => { c with st := .running, nextFetch := some c.base.toNat, cur := c.base, suppress := false, supFp := 0xFF }) s

/-- ABORT (R442). -/
def opDmaAbort (n : Nat) (s : State) : State :=
  let c := s.dmac n
  if c.owner = 1 then s
  else match c.st with
    | .idle => s
    | .running => stopChannel n (fun c => { c with st := .idle }) s
    | .halted => State.modDma n (fun c => { c with st := .idle, fault := 0 }) s

/-- RESUME: the STATUS of the descriptor at CUR becomes 0 and it starts again; a firmware channel that halted goes on with the Rhizome's
next transfer (R436, R442, R450). -/
def opDmaResume (n : Nat) (s : State) : State :=
  let c := s.dmac n
  if c.st ≠ .halted || c.owner = 1 then s
  else if 28 ≤ n then State.modDma n (fun c => { c with st := .idle, fault := 0 }) s
  else State.modDma n (fun c => { c with st := .running, fault := 0, nextFetch := some c.cur.toNat }) (writeDmaStatus n c.cur.toNat 0 s)

/-! ### The transfer (R440, R443, R447, R451) -/

/-- How a transfer stands: done, stopped by an error response at an address, or by poison that may not go on. -/
inductive DmaEnd where
  | done
  | error (addr : Nat) (write : Bool)
  | poison (addr : Nat)
deriving DecidableEq, Repr

/-- The 64-byte block of the index table that holds the entry at a, as far as the table lies in it: its first byte and its length (R440). -/
def DmaDesc.tableBlock (x : DmaDesc) (a : Nat) : Nat × Nat :=
  let lo := max x.table (a / 64 * 64)
  (lo, min (x.table + 4 * x.count) (a / 64 * 64 + 64) - lo)

/-- Source address of the next byte of a descriptor: index mode reads its table in 64-byte blocks, each once, and adds modulo 2^40 (R440). -/
def lineSource (n : Nat) (x : DmaDesc) (f : DmaFlight) (s : State) : Except DmaGot Nat × DmaFlight × State :=
  if x.mode ≠ 2 then (.ok (x.srcAt f.line + f.off), f, s)
  else
    let a := x.table + 4 * f.line
    let b := x.tableBlock a
    let pick : Nat × List PByte → Except DmaGot Nat := fun t =>
      let e := (t.2.drop (a - t.1)).take 4
      if poisoned e then .error (.badTable a) else .ok ((x.src + leNat (plain e) + f.off) % 2 ^ 40)
    match f.table with
    | some t => if t.1 = b.1 then (pick t, f, s) else
      match busRead (dmaInit n) (s.dmaCls n) b.1 b.2 s with
      | (none, s) => (.error (.refused b.1), f, s)
      | (some d, s) => (pick (b.1, d), { f with table := some (b.1, d) }, s)
    | none =>
      match busRead (dmaInit n) (s.dmaCls n) b.1 b.2 s with
      | (none, s) => (.error (.refused b.1), f, s)
      | (some d, s) => (pick (b.1, d), { f with table := some (b.1, d) }, s)

/-- Bytes of the next chunk from a source address: to the end of the line, and of the source's 64-byte block. -/
def DmaDesc.chunk (x : DmaDesc) (f : DmaFlight) (src : Nat) : Nat := min (x.len - f.off) (toLineEnd src)

/-- The next chunk of a descriptor read; a source that an index table puts into MMIO gets an error response too (R440, R447). -/
def readChunk (n : Nat) (x : DmaDesc) (f : DmaFlight) (s : State) : DmaGot × DmaFlight × State :=
  match lineSource n x f s with
  | (.error g, f, s) => (g, f, s)
  | (.ok src, f, s) =>
    let r := match targetRange src (x.chunk f src) with
      | .mmio _ => (none, s)
      | _ => busRead (dmaInit n) (s.dmaCls n) src (x.chunk f src) s
    match r with
    | (none, s) => (.refused src, f, s)
    | (some d, s) => (.data src d, f, s)

/-- Write a chunk, block by block, to the first error response. -/
def chunkWrite (n a : Nat) (d : List PByte) (s : State) : DmaEnd × State :=
  match writeStop (dmaInit n) (s.dmaCls n) a d s with
  | (none, s) => (.done, s)
  | (some e, s) => (.error e true, s)

/-- The first poison of a descriptor records 0x0C03 (R451). -/
def notePoison (n a : Nat) (x : DmaDesc) (s : State) : State :=
  match (s.dmac n).flight with
  | y :: _ => if y.poisonNoted then s
    else dmaFault 0x0C03 n x.mode a 0 (State.modDma n (DmaRec.modHead (fun y => { y with poisonNoted := true })) s)
  | [] => s

/-- A chunk goes to its destination; poison is recorded, and withheld from the host (R451). -/
def putChunk (n : Nat) (x : DmaDesc) (dst : Nat) (g : DmaGot) (s : State) : DmaEnd × State :=
  match g with
  | .refused a => (.error a false, s)
  | .badTable a => (.poison a, s)
  | .data src d =>
    if poisoned d && (match targetOf dst with | .outbound _ => true | _ => false) then (.poison dst, s)
    else chunkWrite n dst d (if poisoned d then notePoison n src x s else s)

/-- The next chunk of the first descriptor in flight, as read ahead or now; its progress is kept (R443). -/
def moveNext (n : Nat) (x : DmaDesc) (f : DmaFlight) (s : State) : DmaEnd × State :=
  let g := match f.ahead with
    | some g => (g, f, s)
    | none => readChunk n x f s
  let f := { g.2.1 with ahead := none }
  let r := putChunk n x (x.dstAt f.line + f.off) g.1 (State.modDma n (DmaRec.modHead (fun y => { y with table := f.table, ahead := none })) g.2.2)
  match r.1, g.1 with
  | .done, .data _ d =>
    (.done, State.modDma n (DmaRec.modHead (fun y =>
      if x.len ≤ f.off + d.length then { y with line := f.line + 1, off := 0 } else { y with off := f.off + d.length })) r.2)
  | e, _ => (e, r.2)

/-- The rest of the transfer, to its end or the first error (R448). -/
def moveAll (n : Nat) (x : DmaDesc) : Nat → State → DmaEnd × State
  | 0, s => (.done, s)
  | fuel + 1, s =>
    match (s.dmac n).flight with
    | [] => (.done, s)
    | f :: _ =>
      if x.lines ≤ f.line then (.done, s)
      else
        let r := moveNext n x f s
        match r.1 with
        | .done => moveAll n x fuel r.2
        | e => (e, r.2)

/-! ### Fetching (R441, R443) -/

/-- A descriptor starts with its claims; behind another one it reads its first chunk while that one's writes are outstanding
(R443; log 101). -/
def startDescriptor (n a : Nat) (d : List Byte) (s : State) : State :=
  let x := dmaDesc d
  let c := takeClaims x s
  let f : DmaFlight := { addr := a, desc := d, claimFp := c.1, claims := c.2.1 }
  let r := if (s.dmac n).flight = [] then (f, c.2.2) else
    let g := readChunk n x f c.2.2
    ({ g.2.1 with ahead := some g.1 }, g.2.2)
  State.modDma n (fun c => { c with flight := c.flight ++ [r.1], nextFetch := if x.end_ then none else some x.next }.setCur) r.2

/-- DMA channels start nothing during a sleep entry, and nothing while the device sleeps (R565). -/
def State.dmaRuns (s : State) : Bool := s.pwr.phase ≠ .entering && s.pwr.sleep = 0 && !s.island.restarting

/-- DMA_DESCRIPTOR_FETCH: a good descriptor starts; a bad one halts the channel once the one before it has completed (R441 to R443, R447). -/
def opDmaFetch (n : Nat) (s : State) : State :=
  let c := s.dmac n
  match c.nextFetch with
  | none => s
  | some a =>
    if c.st ≠ .running || 2 ≤ c.flight.length || !s.dmaRuns then s
    else
      let r := if a + 32 ≤ 0x1000000000 then busRead (dmaInit n) (s.dmaCls n) a 32 s else (none, s)
      let bad : BitVec 16 → State → State := fun code t =>
        if c.flight ≠ [] then s else haltChannel n code a (dmaFault code n 0 a 0 t)
      match r.1 with
      | none => bad 0x0C05 r.2
      | some d =>
        if poisoned d then bad 0x0C05 r.2
        else
          let x := dmaDesc (plain d)
          if !x.ok then (if c.flight ≠ [] then s else haltChannel n 0x0C04 a (dmaFault 0x0C04 n x.mode a 0 r.2))
          else if x.fence && c.flight ≠ [] then s
          else startDescriptor n a (plain d) r.2

/-! ### Completion and errors (R443, R444, R448 to R450) -/

/-- The first descriptor leaves flight; at END the channel is IDLE (R442). -/
def leaveFlight (n : Nat) (s : State) : State :=
  let s := State.modDma n (fun c => { c with flight := c.flight.tail, attempts := 0, retryAddr := none }.setCur) s
  let c := s.dmac n
  if c.flight = [] && c.nextFetch = none then giveChannel n (State.modDma n (fun c => { c with st := .idle }) s) else s

/-- The completion actions of R443, in order. -/
def completeDma (n : Nat) (f : DmaFlight) (x : DmaDesc) (s : State) : State :=
  let c := s.dmac n
  let fp := frondOf x.dst
  let sup := x.fillup && c.suppress && fp = some c.supFp.toNat
  let s := releaseClaims f s
  let s := match fp with
    | some g => if x.fillup && !sup then fillUpdate g x.handle false x.value s else s
    | none => s
  let s := if x.signal then s.setGsync x.sync (s.gsync x.sync + 1) else s
  let s := writeDmaStatus n f.addr (if sup then 3 else 1) s
  let s := State.modDma n (fun c => { c with doneCount := c.doneCount + 1 }) s
  leaveFlight n (if x.irq then sendMsix c.vector.toNat s else s)

/-- A descriptor is BAD: counted, with SUPPRESS where it carried FILLUP (R449, R460). -/
def DmaRec.noteBad (c : DmaRec) (x : DmaDesc) : DmaRec :=
  let c := { c with bad := satInc c.bad }
  match x.fillup, frondOf x.dst with
  | true, some g => { c with suppress := true, supFp := BitVec.ofNat 8 g }
  | _, _ => c

/-- A data-class descriptor fails: BAD, no fill raise and no signal (R448, R449). -/
def badDma (n : Nat) (f : DmaFlight) (x : DmaDesc) (s : State) : State :=
  let s := releaseClaims f s
  let s := writeDmaStatus n f.addr 2 s
  let s := State.modDma n (fun c => { c.noteBad x with doneCount := c.doneCount + 1 }) s
  leaveFlight n (if x.irq then sendMsix (s.dmac n).vector.toNat s else s)

/-- A control-class descriptor fails for good: BAD, and the channel halts at it (R449 to R451). -/
def haltDma (n : Nat) (code : BitVec 16) (f : DmaFlight) (x : DmaDesc) (s : State) : State :=
  let s := writeDmaStatus n f.addr 2 s
  haltChannel n code f.addr (State.modDma n (fun c => c.noteBad x) s)

/-- A failed attempt of a control-class access: counted, tried again, or 0x0C06 when RETRY is used up (R450). -/
def failedAttempt (n a : Nat) (write : Bool) (f : DmaFlight) (x : DmaDesc) (s : State) : State :=
  let k := (s.dmac n).attempts + 1
  let s := State.modDma n (fun c => { c with retried := satInc c.retried, attempts := k, retryAddr := some (a, write) }) s
  if (s.dmac n).retries < k then haltDma n 0x0C06 f x (dmaFault 0x0C06 n x.mode a k s) else s

/-- An error response to an access of the first descriptor in flight (R448, R450). -/
def dmaError (n a : Nat) (write : Bool) (f : DmaFlight) (x : DmaDesc) (s : State) : State :=
  if controlClass n then failedAttempt n a write f x s
  else badDma n f x (dmaFault (if write then 0x0C02 else 0x0C01) n x.mode a 0 s)

/-- Poison that may not go on: toward the host, or in the index table (R451). -/
def dmaPoison (n a : Nat) (f : DmaFlight) (x : DmaDesc) (s : State) : State :=
  let s := notePoison n a x s
  if controlClass n then haltDma n 0x0C03 f x s else badDma n f x s

/-- What a transfer's end leads to. -/
def settleDma (n : Nat) (f : DmaFlight) (x : DmaDesc) (e : DmaEnd) (s : State) : State :=
  match e with
  | .done => completeDma n f x s
  | .error a w => dmaError n a w f x s
  | .poison a => dmaPoison n a f x s

/-- DMA_DESCRIPTOR_COMPLETE: the rest of the first descriptor's transfer, then its completion (R443). -/
def opDmaComplete (n : Nat) (s : State) : State :=
  let c := s.dmac n
  match c.flight with
  | [] => s
  | f :: _ =>
    if c.st ≠ .running || c.retryAddr.isSome then s
    else
      let x := dmaDesc f.desc
      let r := moveAll n x (x.lines * (x.len / 64 + 2)) s
      settleDma n f x r.1 r.2

/-- DMA_BUS_ERROR: an error response reaches the channel (R447). -/
def opDmaBusError (n : Nat) (write : Bool) (a : Nat) (s : State) : State :=
  let c := s.dmac n
  match c.flight with
  | [] => s
  | f :: _ => if c.st ≠ .running || c.retryAddr.isSome then s else dmaError n a write f (dmaDesc f.desc) s

/-- DMA_RETRY: the access is issued again; the descriptor goes on where it succeeds (R450). -/
def opDmaRetry (n : Nat) (ok : Bool) (s : State) : State :=
  let c := s.dmac n
  match c.flight, c.retryAddr with
  | f :: _, some (a, w) =>
    let x := dmaDesc f.desc
    if c.st ≠ .running then s
    else if !ok then failedAttempt n a w f x s
    else if x.lines ≤ f.line then State.modDma n (fun c => { c with attempts := 0, retryAddr := none }) s
    else
      let r := moveNext n x f s
      match r.1 with
      | .done => State.modDma n (fun c => { c with attempts := 0, retryAddr := none }) r.2
      | .error a w => failedAttempt n a w f x r.2
      | .poison a => dmaPoison n a f x r.2
  | _, _ => s

/-- DMA_GO (R442). -/
def execDmaGo (n : DmaChan) (s : State) := performBlk (opDmaGo n.val) s
/-- DMA_ABORT (R442). -/
def execDmaAbort (n : DmaChan) (s : State) := performBlk (opDmaAbort n.val) s
/-- DMA_RESUME (R450). -/
def execDmaResume (n : DmaChan) (s : State) := performBlk (opDmaResume n.val) s
/-- DMA_DESCRIPTOR_FETCH (R441). -/
def execDmaDescriptorFetch (n : DmaChan) (s : State) := perform (opDmaFetch n.val) s
/-- DMA_DESCRIPTOR_COMPLETE (R443). -/
def execDmaDescriptorComplete (n : DmaChan) (s : State) := perform (opDmaComplete n.val) s
/-- DMA_BUS_ERROR (R447). -/
def execDmaBusError (n : DmaChan) (write : Bool) (addr : Addr) (s : State) :=
  performWf (Instr.wf (.dmaBusError n write addr)) (opDmaBusError n.val write addr) s
/-- DMA_RETRY (R450). -/
def execDmaRetry (n : DmaChan) (ok : Bool) (s : State) := perform (opDmaRetry n.val ok) s

end Sys2Proof.Machine
end

