-- ==== Sys2Proof/Machine/Status.lean ====
section
/-! DEFINITION. The device's status words, NOP, IDENTIFY, GET_STATUS and EVENT_ARM (R40 to R42, R354, R408, R409, R417). -/

namespace Sys2Proof.Machine

/-! ### Status words -/

/-- GCTL_ID (R40). -/
def State.gctlId (s : State) : Nat := place 0x4B26 16 + place 0xB0 8 + s.gctl.grade.toNat

/-- GCTL_FEAT (R41). -/
def State.gctlFeat (s : State) : Nat := place (b2n s.pins.twinRole) 2 + place (b2n s.gctl.stream) 1 + b2n s.gctl.aq

/-- GCTL_STATUS (R42). -/
def State.gctlStatus (s : State) : Nat :=
  let g := s.gctl
  place g.bootFault.toNat 16 + place g.flCount.toNat 8 + place g.bootStage.toNat 4 + place (b2n g.bootFailed) 2 + place (b2n g.short) 1 + b2n g.ready

/-- THAL_STATUS (R354). -/
def State.thalStatus (s : State) : Nat :=
  let i := s.island
  place i.safeCount.toNat 24 + place (b2n s.fwEn) 5 + place (b2n i.restarting) 4 + place (b2n i.silent) 3 + place (b2n i.mossReady) 2 + i.mode.code

/-- STATE of a model (R310). -/
def ModelState.code : ModelState → Nat
  | .free => 0 | .cold => 1 | .warm => 2 | .hot => 3

/-- FWVER of the running image (R588). -/
def State.fwver (s : State) : Nat := field s.sec.image 0x0C 4

/-- Models that are not FREE. -/
def State.modelsRegistered (s : State) : Nat := (s.sched.models.filter (fun e => e.2.st ≠ .free)).length
/-- Contexts that are not FREE. -/
def State.ctxsInUse (s : State) : Nat := (s.sched.ctxs.filter (fun e => e.2.st ≠ .free)).length

/-- The shards of a model that are hot on some Frond (R289). -/
def State.hotShards (s : State) (m : Nat) : Nat :=
  ((List.range (s.model m).shards.length).filter (fun sh => s.sched.fps.any (fun e => e.2.res.any (fun r => r.model = m && r.shard = sh && r.loaded)))).length

/-! ### Records of R409 -/

/-- The device record. -/
def State.deviceRecord (s : State) : List Byte :=
  toLe 4 s.gctlId ++ toLe 4 s.gctlFeat ++ toLe 4 s.gctl.flCount.toNat ++ toLe 4 s.fwver ++ toLe 16 s.sec.serial.toNat ++
  toLe 2 s.modelsRegistered ++ toLe 2 s.ctxsInUse ++ toLe 4 s.rollbackCount ++ List.replicate 88 0

/-- The model record; fields with no meaning in the model's state read 0. -/
def State.modelRecord (s : State) (m : Nat) : List Byte :=
  let x := s.model m
  let up := x.st = .warm || x.st = .hot
  toLe 2 m ++ toLe 1 x.st.code ++ toLe 1 x.flags ++ toLe 2 x.shards.length ++ toLe 2 (s.hotShards m) ++ toLe 8 x.tag.toNat ++
  toLe 4 x.length ++ toLe 4 0 ++ toLe 8 (if up then x.base else 0) ++ slice x.digest 0 32

/-- The status record. -/
def State.statusRecord (s : State) : List Byte :=
  toLe 4 s.gctlStatus ++ toLe 4 s.thalStatus ++
  toLe 2 (s.runningPipes.foldl (fun a p => a + 2 ^ p) 0) ++
  toLe 2 ((List.range 8).foldl (fun a p => a + place (b2n (!(s.auth p).primary)) (2 * p)) 0) ++
  toLe 2 s.ctxsInUse ++ toLe 2 s.modelsRegistered ++ toLe 4 s.cmdq.cmds.length ++
  (List.range 4).flatMap (fun p => toLe 4 (s.pool p).free.toNat) ++ toLe 4 s.cmdq.evqLost.toNat ++ toLe 8 s.gctl.time.toNat ++
  List.replicate 16 0

/-! ### The commands -/

/-- NOP (R408). -/
def actNop (c : Cmd) (s : State) : State := finishCmd c.tag 0 0 0 s

/-- IDENTIFY: the device record, or a registered model's (R409). -/
def actIdentify (c : Cmd) (s : State) : State :=
  if c.fld 0x18 1 = 0 then finishData c.tag 0 (clean s.deviceRecord) 0 0 s
  else if (s.model (c.fld 0x1A 2)).st = .free then finishCmd c.tag 0x40 0 0 s
  else finishData c.tag 0 (clean (s.modelRecord (c.fld 0x1A 2))) 0 0 s

/-- GET_STATUS (R409). -/
def actGetStatus (c : Cmd) (s : State) : State := finishData c.tag 0 (clean s.statusRecord) 0 0 s

/-- EVENT_ARM: the mask is set and the old one returned (R408, R417). -/
def actEventArm (c : Cmd) (s : State) : State :=
  finishCmd c.tag 0 s.cmdq.evqMask.toNat 0 { s with cmdq := { s.cmdq with evqMask := BitVec.ofNat 32 (c.fld 0x18 4) } }

/-- NOP (R408). -/
def execNop (tag : Nat) (s : State) := perform (startCmd 0x01 tag actNop) s
/-- IDENTIFY (R409). -/
def execIdentify (tag : Nat) (s : State) := perform (startCmd 0x02 tag actIdentify) s
/-- GET_STATUS (R409). -/
def execGetStatus (tag : Nat) (s : State) := perform (startCmd 0x03 tag actGetStatus) s
/-- EVENT_ARM (R417). -/
def execEventArm (tag : Nat) (s : State) := perform (startCmd 0x70 tag actEventArm) s

end Sys2Proof.Machine
end

