-- ==== Sys2Proof/Machine/RegsCore.lean ====
section
/-! DEFINITION. Registers of GCTL, LOOP, SCHED and the context table as reads and writes of BAR0 see them (R40 to R50, R89 to R99,
R225, R253 to R259, R304 to R316). -/

namespace Sys2Proof.Machine

/-- A register from its fields: value and low bit. -/
def pack (l : List (Nat × Nat)) : Nat := l.foldl (fun a f => a + place f.1 f.2) 0

/-- The 32-bit word at offset o of a byte list. -/
def wordAt (l : List Byte) (o : Nat) : Nat := field l o 4

/-- The low or high word of a 64-bit quantity. -/
def half (x : Word64) (hi : Bool) : Nat := if hi then bits x.toNat 63 32 else bits x.toNat 31 0

/-- A 64-bit quantity with its low or high word replaced. -/
def setHalf (x : Word64) (hi : Bool) (v : Word32) : Word64 :=
  if hi then BitVec.ofNat 64 (place v.toNat 32 + bits x.toNat 31 0) else BitVec.ofNat 64 (place (bits x.toNat 63 32) 32 + v.toNat)

/-- A counter that only a write of 0 changes (R635). -/
def clearBy {w : Nat} (x : BitVec w) (v : Nat) : BitVec w := if v = 0 then 0 else x

/-- Entry index and offset within it of a table of entries that starts at base; none outside it. -/
def inTable (o base stride n : Nat) : Option (Nat × Nat) :=
  if base ≤ o ∧ o < base + stride * n then some ((o - base) / stride, (o - base) % stride) else none

/-! ### GCTL (R40 to R45, R553) -/

/-- SOURCE (R44). -/
def TimeSource.code : TimeSource → Nat
  | .freeRunning => 0 | .gptp => 1 | .can => 2

/-- GCTL registers. -/
def readGctl (s : State) (o : Nat) : Nat :=
  let g := s.gctl
  match inTable o 0x2100 0x10 4 with
  | some (w, 0) => half (s.obw w).base false
  | some (w, 4) => half (s.obw w).base true
  | some (w, 8) => b2n (s.obw w).en
  | some _ => 0
  | none =>
    if o = 0 then s.gctlId
    else if o = 4 then s.gctlFeat
    else if o = 8 then s.gctlStatus
    else if o = 0x10 then half g.time false
    else if o = 0x14 then half g.time true
    else if o = 0x18 then pack [(b2n g.locked, 0), (b2n (decide (g.slewLeft ≠ 0)), 1), (g.timeSource.code, 2)]
    else if o = 0x20 then g.nocCorr.toNat
    else if o = 0x2000 then pack [(b2n g.pcieUp, 0), (g.pcieSpeed.toNat, 1), (g.pcieWidth.toNat, 4)]
    else 0

/-- An outbound window's registers. -/
def State.modObw (w : Nat) (g : ObWin → ObWin) (s : State) : State :=
  { s with gctl := { s.gctl with obw := tset {} s.gctl.obw w (g (s.obw w)) } }

/-- A write of a GCTL register. BASE is ignored while EN = 1, and its bits [11:0] always (R553). -/
def writeGctl (o : Nat) (v : Word32) (s : State) : State :=
  match inTable o 0x2100 0x10 4 with
  | some (w, 0) => State.modObw w (fun x => if x.en then x else { x with base := setHalf x.base false (v &&& 0xFFFFF000) }) s
  | some (w, 4) => State.modObw w (fun x => if x.en then x else { x with base := setHalf x.base true v }) s
  | some (w, 8) => State.modObw w (fun x => { x with en := v.getLsbD 0 }) s
  | some _ => s
  | none => if o = 0x20 then { s with gctl := { s.gctl with nocCorr := clearBy s.gctl.nocCorr v.toNat } } else s

/-! ### LOOP (R19, R46 to R50, R77, R89 to R99) -/

/-- A bitmap of 18 bytes, by FP (R17). -/
def bitmapBytes (x : BitVec 144) : List Byte := toLe 18 x.toNat

/-- The 128 bytes of a ledger entry (R17). -/
def Ledger.bytes (l : Ledger) : List Byte :=
  toLe 4 l.frame.toNat ++ [l.pipe, l.fclk] ++
  toLe 2 (pack [(b2n l.valid, 0), (b2n l.complete, 1), (b2n l.abandoned, 2), (b2n l.sync, 3), (b2n l.twinPresent, 4)]) ++
  toLe 8 l.tEdge.toNat ++ (l.tStage.flatMap (fun x => toLe 4 x.toNat)) ++ bitmapBytes l.used ++ bitmapBytes l.goldenFail ++
  bitmapBytes l.unverified ++ toLe 2 l.abftCount.toNat ++ toLe 2 l.verdict.toNat ++ [l.authority, l.clean] ++
  toLe 2 l.firstFault.toNat ++ [l.roiAge, l.corrupt] ++ List.replicate 24 0

/-- Frame clock n (R46 to R50). -/
def readFclk (s : State) (n r : Nat) : Nat :=
  let c := s.fclk n
  if r = 0 then pack [(b2n c.en, 0), (b2n c.run, 1), (b2n (s.fclkBound n), 2)]
  else if r = 4 then c.period.toNat
  else if r = 8 then half c.start false
  else if r = 0xC then half c.start true
  else if r = 0x10 then c.frame.toNat
  else if r = 0x18 then half c.edge false
  else if r = 0x1C then half c.edge true
  else 0

/-- Pipeline p (R89, R90). -/
def readPipe (s : State) (p r : Nat) : Nat :=
  let x := s.pipe p
  if r = 0 then
    match x.blob with
    | none => 0
    | some b => pack [(1, 0), (b2n x.running, 1), (b2n b.streaming, 2), (b.fclk, 4), (b.cls, 6), (b.prepMask, 8), (if b.streaming then 0 else b.batch, 16)]
  else if r = 4 then x.ringWritten.toNat
  else 0

/-- Whether a sample of stream i is being received: a CSI-2 sample that is open and not settled (log 100), or a UDP sample in its window (R61, R91). -/
def State.streamOpen (s : State) (i : Nat) : Bool :=
  s.loop.samples.any (fun y => y.stream = i && y.receiving && !y.settled) ||
  match s.boundTo i with
  | some (p, _, c) => c.source = 1 && (match s.udpWindow p c with | some x => !x.settled | none => false)
  | none => false

/-- Stream i (R91 to R94). -/
def readStream (s : State) (i r : Nat) : Nat :=
  let x := s.stream i
  if r = 0 then
    let b := s.boundTo i
    pack [(match b with | some (p, _, _) => p | none => 0, 0), (b2n b.isSome, 3),
          (b2n (s.streamOpen i), 4), (x.lastReason.toNat, 8)]
  else if r = 4 then x.samples.toNat
  else if r = 8 then x.corrupt.toNat
  else if r = 0xC then x.extra.toNat
  else if r = 0x10 then pack [(b2n x.roiBank, 0), (b2n x.roiValid, 1), (b2n x.roiPending, 2), (x.roiAge.toNat, 8)]
  else if r = 0x14 then x.roiTgt.toNat
  else 0

/-- LOOP registers; COMMIT and HOST_SUBMIT_HI are write-only. -/
def readLoop (s : State) (o : Nat) : Nat :=
  match inTable o 0 0x20 4, inTable o 0x1000 0x100 8, inTable o 0x4000 0x40 64, inTable o 0x5000 0x10 12, inTable o 0x6000 0x10 8,
        inTable o 0x10000 0x800 64, inTable o 0x80000 0x2000 8 with
  | some (n, r), _, _, _, _, _, _ => readFclk s n r
  | _, some (p, r), _, _, _, _, _ => readPipe s p r
  | _, _, some (i, r), _, _, _, _ => readStream s i r
  | _, _, _, some (n, r), _, _, _ =>
    if r = 0 then pack [((s.csi n).eccUncorr.toNat, 0), ((s.csi n).eccCorr.toNat, 16)]
    else if r = 4 then (s.csi n).unbound.toNat else 0
  | _, _, _, _, some (u, r), _, _ =>
    let x := s.prep u
    if r = 0 then pack [(b2n x.busy, 0), (b2n x.jpeg, 1), (x.stream.toNat, 2), (x.pipe.toNat, 8)] else 0
  | _, _, _, _, _, some (i, r), _ => if r < 0x200 then (tget 0 (s.stream i).pendingBank (r / 4)).toNat else 0
  | _, _, _, _, _, _, some (p, r) => wordAt (tget {} s.loop.ledger (p * 64 + r / 0x80)).bytes (r % 0x80)
  | _, _, _, _, _, _, _ => if o = 0x7000 then s.loop.submitLo.toNat else 0

/-- START is ignored while EN = 1 (R48). -/
def writeFclkStart (n : Nat) (hi : Bool) (v : Word32) : State → State :=
  State.modFclk n (fun c => if c.en then c else { c with start := setHalf c.start hi v })

/-- A write of frame clock n. -/
def writeFclk (n r : Nat) (v : Word32) (s : State) : State :=
  if r = 0 then (if v.getLsbD 0 then opFclkEnable n s else opFclkDisable n s)
  else if r = 4 then opFclkPeriod n v s
  else if r = 8 then writeFclkStart n false v s
  else if r = 0xC then writeFclkStart n true v s
  else s

/-- A write of a stream's counters. -/
def writeStream (i r : Nat) (v : Word32) (s : State) : State :=
  if r = 4 then State.modStream i (fun x => { x with samples := clearBy x.samples v.toNat }) s
  else if r = 8 then State.modStream i (fun x => { x with corrupt := clearBy x.corrupt v.toNat }) s
  else if r = 0xC then State.modStream i (fun x => { x with extra := clearBy x.extra v.toNat }) s
  else s

/-- A write of a CSI-2 port's counters, each judged on its own (R96, R97, R635). -/
def writeCsi (n r : Nat) (v : Word32) (s : State) : State :=
  if r = 0 then State.modCsi n (fun x => { x with
    eccUncorr := clearBy x.eccUncorr (bits v.toNat 15 0), eccCorr := clearBy x.eccCorr (bits v.toNat 31 16) }) s
  else if r = 4 then State.modCsi n (fun x => { x with unbound := clearBy x.unbound v.toNat }) s
  else s

/-- A write of a LOOP register. -/
def writeLoop (o : Nat) (v : Word32) (s : State) : State :=
  match inTable o 0 0x20 4, inTable o 0x4000 0x40 64, inTable o 0x5000 0x10 12, inTable o 0x10000 0x800 64 with
  | some (n, r), _, _, _ => writeFclk n r v s
  | _, some (i, r), _, _ => writeStream i r v s
  | _, _, some (n, r), _ => writeCsi n r v s
  | _, _, _, some (i, r) =>
    if r < 0x200 then roiWrite i (r / 4) v s else if r = 0x400 then roiCommit i v s else s
  | _, _, _, _ =>
    if o = 0x7000 then { s with loop := { s.loop with submitLo := v } } else if o = 0x7004 then opHostSubmit v s else s

/-! ### SCHED (R253 to R259, R304 to R316) -/

/-- STATE of a physical Frond (R309). -/
def FpState.code : FpState → Nat
  | .mapped => 0 | .spare => 1 | .spareUnverified => 2 | .retired => 3 | .failed => 4

/-- Class-0 shards of model m are pinned. -/
def State.pinnedModel (s : State) (m : Nat) : Bool := s.sched.fps.any (fun e => e.2.res.any (fun r => r.model = m && r.pinned))

/-- Model m (R310 to R312). -/
def readModel (s : State) (m r : Nat) : Nat :=
  let x := s.model m
  if r = 0 then pack [(x.st.code, 0), (b2n (bit x.flags 0), 6), (b2n (s.pinnedModel m), 7), (min 255 (s.hotShards m), 8), (x.shards.length, 16)]
  else if r = 4 then bits x.base 31 0
  else if r = 8 then bits x.base 39 32
  else if r = 0xC then x.syncBase
  else 0

/-- The latency record of pipeline p (R313 to R315). -/
def readC0 (s : State) (p r : Nat) : Nat :=
  let c := s.c0 p
  if r = 0 then c.liso.toNat else if r = 4 then c.h.toNat else if r = 8 then c.frame.toNat else if r = 0xC then c.l.toNat
  else if r = 0x10 then c.bound.toNat
  else if r = 0x14 then pack [(b2n c.valid, 0), (b2n c.exceeded, 1), (b2n c.voidFit, 2), (b2n c.voidFloor, 3), (b2n c.voidDroop, 4), (b2n c.voidSafe, 5), (b2n c.voidMove, 6)]
  else 0

/-- KV pool p (R253 to R258). -/
def readPool (s : State) (p r : Nat) : Nat :=
  let x := s.pool p
  if r = 0 then pack [(b2n x.en, 0), (b2n x.err, 1), (x.bfr.toNat, 4), (b2n x.busy, 31)]
  else if r = 4 then x.base.toNat else if r = 8 then x.blocks.toNat else if r = 0xC then x.metaPfn.toNat
  else if r = 0x10 then x.free.toNat else if r = 0x14 then x.resv.toNat else 0

/-- Logical Frond x (R308). -/
def readFl (s : State) (x : Nat) : Nat :=
  let f := s.flFp x
  let res := if f = 255 then [] else (s.fp f).res
  pack [(f, 0), (b2n (res.any (fun r => r.cls = 0)), 8), (b2n (res.any (fun r => r.cls ≠ 0)), 9)]

/-- SCHED registers. -/
def readSched (s : State) (o : Nat) : Nat :=
  let k := s.sched
  match inTable o 0x1000 4 128, inTable o 0x1200 4 144, inTable o 0x2000 0x10 1024, inTable o 0x6000 0x20 8, inTable o 0x10000 4 1024,
        inTable o 0x70000 0x20 4 with
  | some (x, _), _, _, _, _, _ => readFl s x
  | _, some (f, _), _, _, _, _ => pack [((s.fp f).st.code, 0), ((s.fp f).fl.toNat, 8)]
  | _, _, some (m, r), _, _, _ => readModel s m r
  | _, _, _, some (p, r), _, _ => readC0 s p r
  | _, _, _, _, some (n, _), _ => (s.gsync n).toNat
  | _, _, _, _, _, some (p, r) => readPool s p r
  | _, _, _, _, _, _ =>
    if o = 0 then pack [(k.c0Floor.toNat, 0), (k.c0Limit.toNat, 8), (b2n k.lock, 31)]
    else if o = 4 then k.epoch.toNat
    else if o = 8 then pack [(k.c0Pct.toNat, 0), (k.w1.toNat, 8), (k.w2.toNat, 12), (k.w3.toNat, 16)]
    else if o = 0xC then k.starved.toNat
    else if o = 0x70100 then k.kvCow.toNat
    else 0

/-- LISO and H are ignored while the pipeline runs (R313). -/
def writeC0 (p r : Nat) (v : Word32) (s : State) : State :=
  if (s.pipe p).running then s
  else if r = 0 then State.modC0 p (fun c => { c with liso := v }) s
  else if r = 4 then State.modC0 p (fun c => { c with h := v &&& 0x7FF }) s
  else s

/-- A write of a KV pool: every RW field but EN ignores writes while EN = 1; the write that sets EN sets BFR first (R253, R254). -/
def writePool (p r : Nat) (v : Word32) (s : State) : State :=
  let off := !(s.pool p).en
  let n := v.toNat
  if r = 0 then
    let s := if off then State.modPool p (fun x => { x with bfr := BitVec.ofNat 5 (bits n 8 4) }) s else s
    if bit n 0 then opPoolEnable p s else opPoolDisable p s
  else if !off then s
  else if r = 4 then State.modPool p (fun x => { x with base := BitVec.ofNat 24 n }) s
  else if r = 8 then State.modPool p (fun x => { x with blocks := BitVec.ofNat 24 n }) s
  else if r = 0xC then State.modPool p (fun x => { x with metaPfn := BitVec.ofNat 24 n }) s
  else s

/-- SCHED_CTRL: the RWL fields take the write that sets LOCK (R304, R635). -/
def writeSchedCtrl (n : Nat) (s : State) : State :=
  let k := s.sched
  if k.lock then s
  else { s with sched := { k with c0Floor := BitVec.ofNat 2 (bits n 1 0), c0Limit := BitVec.ofNat 8 (bits n 15 8), lock := bit n 31 } }

/-- SCHED_TOKENS; a C0_PCT above 40 is ignored, the other fields of that write are not (R299, R306; DEDUCED, log 107). -/
def writeSchedTokens (n : Nat) (s : State) : State :=
  let k := s.sched
  if k.lock then s
  else { s with sched := { k with c0Pct := if bits n 5 0 ≤ 40 then BitVec.ofNat 6 (bits n 5 0) else k.c0Pct, w1 := BitVec.ofNat 4 (bits n 11 8),
                                  w2 := BitVec.ofNat 4 (bits n 15 12), w3 := BitVec.ofNat 4 (bits n 19 16) } }

/-- A write of a SCHED register. -/
def writeSched (o : Nat) (v : Word32) (s : State) : State :=
  match inTable o 0x6000 0x20 8, inTable o 0x10000 4 1024, inTable o 0x70000 0x20 4 with
  | some (p, r), _, _ => writeC0 p r v s
  | _, some (n, _), _ => s.setGsync n v
  | _, _, some (p, r) => writePool p r v s
  | _, _, _ =>
    if o = 0 then writeSchedCtrl v.toNat s
    else if o = 8 then writeSchedTokens v.toNat s
    else if o = 0xC then { s with sched := { s.sched with starved := clearBy s.sched.starved v.toNat } }
    else if o = 0x70100 then { s with sched := { s.sched with kvCow := clearBy s.sched.kvCow v.toNat } }
    else s

/-! ### CTXT (R225) -/

/-- STATE of a context (R225). -/
def CtxState.code : CtxState → Nat
  | .free => 0 | .idle => 1 | .runnable => 2 | .blocked => 3 | .resident => 4 | .draining => 5

/-- The sixteen registers of a context's entry; a free entry reads zero but for T_STATE and GEN (R225). -/
def CtxRec.word (x : CtxRec) (r : Nat) : Nat :=
  if r = 0 then pack [(x.st.code, 0), (x.cls.toNat, 8), (x.model.toNat, 16)]
  else if r = 4 then x.tokens.toNat
  else if r = 8 then x.root.toNat
  else if r = 0xC then pack [(x.pool.toNat, 0), (x.nhg.toNat, 8), (x.kvf.toNat, 16), (x.dh.toNat, 20), (x.bucket.toNat, 24)]
  else if r = 0x10 then pack [(x.topk.toNat, 0), (x.wrec.toNat, 8), (x.pfx.toNat, 16),
    (if x.st = .free then 0 else (x.topk.toNat + x.wrec.toNat + x.pfx.toNat + 1) % 256, 24)]
  else if r = 0x14 then x.normw.toNat
  else if r = 0x18 then x.appended.toNat
  else if r = 0x1C then pack [(x.pendNt.toNat, 0), (x.parent.toNat, 16), (b2n x.forked, 31)]
  else if r = 0x20 then x.pages.toNat
  else if r = 0x24 then x.maxtok.toNat
  else if r = 0x28 then half x.tState false
  else if r = 0x2C then half x.tState true
  else if r = 0x30 then half x.tag false
  else if r = 0x34 then half x.tag true
  else if r = 0x3C then x.gen.toNat
  else 0

/-- The CTXT window; writes to it are discarded. -/
def readCtxt (s : State) (o : Nat) : Nat := if o < 0x100000 then (s.ctx (o / 0x40)).word (o % 0x40) else 0

end Sys2Proof.Machine
end

