-- ==== Sys2Proof/Machine/RegsQueue.lean ====
section
/-! DEFINITION. The registers of CMDQ with the queue SRAM and the MSI-X table, and the mailbox window (R401, R406, R415, R423 to R433). -/

namespace Sys2Proof.Machine

/-- Low or high register of a 40-bit address. -/
def half40 (x : BitVec 40) (hi : Bool) : Nat := if hi then bits x.toNat 39 32 else bits x.toNat 31 0

/-- A 40-bit address with a register replaced; the low align bits read 0. -/
def setHalf40 (x : BitVec 40) (hi : Bool) (align : Nat) (v : Word32) : BitVec 40 :=
  if hi then BitVec.ofNat 40 (place (bits v.toNat 7 0) 32 + bits x.toNat 31 0)
  else BitVec.ofNat 40 (place (bits x.toNat 39 32) 32 + v.toNat / 2 ^ align * 2 ^ align)

/-! ### Queues (R423 to R430) -/

/-- SQ n (R423 to R425). -/
def readSq (s : State) (n r : Nat) : Nat :=
  let q := s.sq n
  if r = 0 then half40 q.base false
  else if r = 4 then half40 q.base true
  else if r = 8 then pack [(b2n q.en, 0), (b2n q.source, 1), (q.cls.toNat, 8), (q.port.toNat, 10), (q.cq.toNat, 16), (q.size.toNat, 24)]
  else if r = 0xC then pack [(b2n (decide (q.head ≠ q.tail)), 0), (b2n q.fetcherr, 1), (b2n q.dberr, 2), (q.head.toNat, 16)]
  else 0

/-- CQ q, or the event queue (R426 to R428, R430). -/
def readCq (s : State) (q r : Nat) : Nat :=
  let c := s.cq q
  if r = 0 then half40 c.base false
  else if r = 4 then half40 c.base true
  else if r = 8 then pack [(b2n c.en, 0), (b2n c.ien, 1), (c.vector.toNat, 16), (c.size.toNat, 24)]
  else if r = 0xC then pack [(b2n c.phase, 0), (b2n (c.en && c.full), 1), (b2n c.dberr, 2), (c.tail.toNat, 16)]
  else 0

/-- A write of SQ n: BASE is ignored while EN = 1 (R401). -/
def writeSq (n r : Nat) (v : Word32) (s : State) : State :=
  if r = 0 then State.modSq n (fun q => if q.en then q else { q with base := setHalf40 q.base false 6 v }) s
  else if r = 4 then State.modSq n (fun q => if q.en then q else { q with base := setHalf40 q.base true 6 v }) s
  else if r = 8 then opSqCfg n v.toNat s
  else if r = 0xC then State.modSq n (fun q => { q with dberr := q.dberr && !v.getLsbD 2 }) s
  else s

/-- A write of CQ q or of the event queue. -/
def writeCq (q r : Nat) (v : Word32) (s : State) : State :=
  if r = 0 then State.modCq q (fun c => if c.en then c else { c with base := setHalf40 c.base false 5 v }) s
  else if r = 4 then State.modCq q (fun c => if c.en then c else { c with base := setHalf40 c.base true 5 v }) s
  else if r = 8 then opCqCfg q v.toNat s
  else if r = 0xC then State.modCq q (fun c => { c with dberr := c.dberr && !v.getLsbD 2 }) s
  else s

/-! ### MSI-X (R406; PCI Express 5.0, log 21) -/

/-- The vector control word holds its mask inverted, so that an entry nothing has written reads masked. -/
def msixFlip (o : Nat) (v : Nat) : Nat := if o % 16 = 12 then (if bit v 0 then v - 1 else v + 1) else v

/-- A word of the MSI-X table. -/
def readMsix (s : State) (o : Nat) : Nat := msixFlip o (leNat (treadN 0 s.cmdq.msixTable o 4))

/-- Bits 32k to 32k + 31 of the pending-bit array. -/
def readPba (s : State) (k : Nat) : Nat :=
  pack ((List.range 32).map (fun i => (b2n (tget false s.cmdq.msixPending (32 * k + i)), i)))

/-- A write of the MSI-X table: a pending message leaves when its vector is unmasked. -/
def writeMsix (o : Nat) (v : Word32) (s : State) : State :=
  let w := if o % 16 = 12 then v.toNat % 2 else v.toNat
  let s := { s with cmdq := { s.cmdq with msixTable := twriteN 0 s.cmdq.msixTable o (toLe 4 (msixFlip o w)) } }
  let k := o / 16
  if tget false s.cmdq.msixPending k && !(s.msixEntry k).2.2 then
    sendMsix k { s with cmdq := { s.cmdq with msixPending := tset false s.cmdq.msixPending k false } }
  else s

/-! ### The block -/

/-- CMDQ registers, queue SRAM and MSI-X; the peer command unit reads zero (R419). -/
def readCmdq (s : State) (o : Nat) : Nat :=
  match inTable o 0x1000 0x20 64, inTable o 0x2000 0x20 64, inTable o 0x4000 0x10 1 with
  | some (n, r), _, _ => readSq s n r
  | _, some (n, r), _ => readCq s n r
  | _, _, some (_, r) => readCq s 64 r
  | _, _, _ =>
    if o = 0x4014 then s.cmdq.evqMask.toNat
    else if o = 0x4018 then s.cmdq.evqLost.toNat
    else if o = 0x4020 then s.cmdq.peerDrop.toNat
    else if 0x8000 ≤ o ∧ o < 0x8800 then readMsix s (o - 0x8000)
    else if 0x9000 ≤ o ∧ o < 0x9010 then readPba s ((o - 0x9000) / 4)
    else if 0x40000 ≤ o ∧ o < 0x80000 then leNat (treadN 0 s.cmdq.sram (0x100000 + o) 4)
    else 0

/-- A write of CMDQ. -/
def writeCmdq (o : Nat) (v : Word32) (s : State) : State :=
  match inTable o 0x1000 0x20 64, inTable o 0x2000 0x20 64, inTable o 0x4000 0x10 1, inTable o 0x3000 8 64 with
  | some (n, r), _, _, _ => writeSq n r v s
  | _, some (n, r), _, _ => writeCq n r v s
  | _, _, some (_, r), _ => writeCq 64 r v s
  | _, _, _, some (n, r) => if r = 0 then opSqDoorbell n v.toNat s else opCqDoorbell n v.toNat s
  | _, _, _, _ =>
    if o = 0x4010 then opCqDoorbell 64 v.toNat s
    else if o = 0x4018 then { s with cmdq := { s.cmdq with evqLost := clearBy s.cmdq.evqLost v.toNat } }
    else if o = 0x4020 then { s with cmdq := { s.cmdq with peerDrop := clearBy s.cmdq.peerDrop v.toNat } }
    else if 0x8000 ≤ o ∧ o < 0x8800 then writeMsix (o - 0x8000) v s
    else if 0x40000 ≤ o ∧ o < 0x80000 then putSram (0x100000 + o) (toLe 4 v.toNat) s
    else s

/-- The 4 KiB of mailbox m (R415); writes are discarded. -/
def MboxRec.word (m : MboxRec) (r : Nat) : Nat :=
  if r = 0 then m.seq.toNat
  else if r = 4 then pack [(m.cid.toNat, 0), (m.status.toNat, 16), (m.sq.toNat, 24)]
  else if r = 8 then m.length.toNat
  else if r = 0x10 then half m.time false
  else if r = 0x14 then half m.time true
  else if r = 0x18 then half m.r0 false
  else if r = 0x1C then half m.r0 true
  else if r = 0x20 then half m.r1 false
  else if r = 0x24 then half m.r1 true
  else if 0x40 ≤ r then leNat (treadN 0 m.data (r - 0x40) 4)
  else 0

/-- The mailbox window, of BAR0 and of BAR4 (R415, R433). -/
def readMbox (s : State) (o : Nat) : Nat := if o < 0x10000 then (s.mbox (o / 0x1000)).word (o % 0x1000) else 0

end Sys2Proof.Machine
end

