-- ==== Sys2Proof/Machine/Roce.lean ====
section
/-! DEFINITION. RoCE v2 queue pairs: contexts, doorbells, work requests, completions and retransmission (R524 to R527, R549, R550). -/

namespace Sys2Proof.Machine

/-! ### The loaded context (R525) -/

def QpRec.port (r : QpRec) : Nat := bits (field r.ctx 1 1) 1 0
def QpRec.immSync (r : QpRec) : Bool := bit (field r.ctx 1 1) 3
def QpRec.retry (r : QpRec) : Nat := field r.ctx 2 1
def QpRec.sqSize (r : QpRec) : Nat := 2 ^ bits (field r.ctx 3 1) 3 0
def QpRec.rqSize (r : QpRec) : Nat := 2 ^ bits (field r.ctx 3 1) 7 4
def QpRec.cqSize (r : QpRec) : Nat := 2 ^ field r.ctx 0x1E 1
def QpRec.dqpn (r : QpRec) : Nat := field r.ctx 4 3
def QpRec.init (r : QpRec) : Nat := 0xB1 + r.port
/-- Where its packets go (R525). -/
def QpRec.dest (r : QpRec) : RoceDest :=
  { prio := bits (field r.ctx 1 1) 6 4, ipv6 := bit (field r.ctx 1 1) 2, ip := slice r.ctx 8 16, mac := slice r.ctx 0x18 6 }

/-- Bytes of a full packet (R524, R549). -/
def State.mtu (s : State) : Nat := 1024 * 2 ^ s.eth.roceMtu.toNat

/-- The engine fetches requests: enabled, after READY and outside a restart (R530). -/
def State.roceRuns (s : State) : Bool := s.eth.roceEn && s.gctl.ready && !s.island.restarting

/-- Address of a context. -/
def State.qpcAddr (s : State) (q : Nat) : Nat := s.eth.qpcBase.toNat + 64 * q

/-- A context whose fields are in range, written while STATE is RESET (R525). -/
def qpcOk (d : List Byte) : Bool :=
  let sz := field d 3 1
  field d 0 1 = 0 && decide (1 ≤ field d 2 1) && decide (field d 2 1 ≤ 7) && decide (1 ≤ bits sz 3 0) && decide (bits sz 3 0 ≤ 12) &&
  decide (1 ≤ bits sz 7 4) && decide (bits sz 7 4 ≤ 12) && decide (1 ≤ field d 0x1E 1) && decide (field d 0x1E 1 ≤ 13)

/-- The engine writes STATE (R525). -/
def writeQpState (q : Nat) (code : Byte) (s : State) : State := (busWrite (s.qp q).init 1 (s.qpcAddr q) [(code, false)] s).2

/-- KIND 3: the context is loaded and becomes READY (R525, R550). -/
def opQpLoad (q : Nat) (s : State) : State :=
  if !s.eth.roceEn then s
  else
    let port := bits (tget 0 s.mem.bytes (s.qpcAddr q + 1)).toNat 1 0
    let r := busRead (0xB1 + port) 1 (s.qpcAddr q) 64 s
    match r.1 with
    | none => r.2
    | some d =>
      if poisoned d || !qpcOk (plain d) then r.2
      else
        let d := plain d
        writeQpState q 1 (State.modQp q (fun _ =>
          { loaded := true, st := .ready, ctx := d, sendPsn := BitVec.ofNat 24 (field d 0x38 3), expPsn := BitVec.ofNat 24 (field d 0x3C 3) }) r.2)

/-! ### Completions (R526, R527) -/

/-- A completion entry with PHASE clear (R526). -/
def roceEntry (wrid kind status len imm q : Nat) (t : Word64) : List Byte :=
  toLe 8 wrid ++ toLe 1 kind ++ toLe 1 status ++ [0, 0] ++ toLe 4 len ++ toLe 4 imm ++ toLe 4 q ++ toLe 8 t.toNat

/-- No entry may be written over one not consumed (R405, R526). -/
def QpRec.cqFull (r : QpRec) : Bool := (r.cqTail + 1) % r.cqSize = r.cqHead

/-- Write an entry at the CQ's tail. -/
def postRoce (q : Nat) (e : List Byte) (s : State) : State :=
  let r := s.qp q
  let s := (writeAll r.init 1 (field r.ctx 0x30 8 + 32 * r.cqTail) (clean (withPhase 0x0A r.cqPhase e)) s).2
  State.modQp q (fun r =>
    if r.cqTail + 1 = r.cqSize then { r with cqTail := 0, cqPhase := !r.cqPhase } else { r with cqTail := r.cqTail + 1 }) s

/-- An entry is posted, behind those that wait for room. -/
def addRoce (q : Nat) (e : List Byte) (s : State) : State :=
  if (s.qp q).cqFull || !(s.qp q).cqWait.isEmpty then State.modQp q (fun r => { r with cqWait := r.cqWait ++ [e] }) s
  else postRoce q e s

/-- Post the waiting entries there is room for. -/
def drainRoce (q : Nat) : Nat → State → State
  | 0, s => s
  | n + 1, s => match (s.qp q).cqWait with
    | [] => s
    | e :: rest => if (s.qp q).cqFull then s else drainRoce q n (postRoce q e (State.modQp q (fun r => { r with cqWait := rest }) s))

/-- The entry of a work request: always where it failed, on success where SIGNALLED (R526). -/
def completeWr (q status : Nat) (wr : List Byte) (s : State) : State :=
  if status = 0 && !bit (field wr 1 1) 0 then s
  else addRoce q (roceEntry (field wr 8 8) 0 status (field wr 4 4) 0 q s.gctl.time) s

/-- The QP enters ERROR: 0x0602, STATE written, and every request under way flushed with STATUS 4 (R527). -/
def qpError (q : Nat) (s : State) : State :=
  if (s.qp q).st = .error then s
  else
    let left := (s.qp q).unacked
    let s := State.modQp q (fun r => { r with st := .error, unacked := [] }) s
    let s := writeQpState q 2 (reportEth 0x0602 (s.qp q).port q s)
    left.foldl (fun t x => completeWr q 4 x.wr t) s

/-- A request fails (R527). -/
def failWr (q status : Nat) (wr : List Byte) (s : State) : State := qpError q (completeWr q status wr s)

/-! ### Sending (R524, R526) -/

/-- A packet leaves on QP q's port, while its link is UP; the identifier guard watches its UDP port too (R353, R516). -/
def sendRoce (q : Nat) (p : RocePkt) (s : State) : State :=
  let n := (s.qp q).port
  if (s.port n).link ≠ .up then s
  else match s.guarded true 4791 with
    | some c => let r := draw 8 s; reportGuard c (0x10 + n) r.1.toNat r.2
    | none => emit (.roce n (s.qp q).dest p) (State.modPort n (fun r => { r with txOk := satInc r.txOk }) s)

/-- A packet with nothing but its operation, destination and number. -/
def rocePkt (op dqpn : Nat) (psn : BitVec 24) : RocePkt :=
  { opcode := BitVec.ofNat 8 op, qpn := BitVec.ofNat 24 dqpn, psn := psn, ackReq := false, va := 0, rkey := 0, dmaLen := 0, imm := 0,
    syndrome := 0, payload := [], ecnMarked := false }

/-- Operation code of packet i of n of a message; base is SEND's 0 or WRITE's 6 (InfiniBand RC; log 48). -/
def msgOpcode (base : Nat) (imm : Bool) (i n : Nat) : Nat :=
  if n = 1 then base + (if imm then 5 else 4)
  else if i = 0 then base
  else if i + 1 = n then base + (if imm then 3 else 2)
  else base + 1

/-- Packets of a message of len bytes. -/
def pktCount (len mtu : Nat) : Nat := max 1 (cdiv len mtu)

/-- The packets of a request, its data given. -/
def wrPackets (r : QpRec) (mtu : Nat) (x : RoceReq) (d : List Byte) : List RocePkt :=
  let wr := x.wr
  let op := field wr 0 1
  let len := field wr 4 4
  let reth : RocePkt → RocePkt := fun p =>
    { p with va := BitVec.ofNat 64 (field wr 0x18 8), rkey := BitVec.ofNat 32 (field wr 0x20 4), dmaLen := BitVec.ofNat 32 len }
  if op = 2 then [{ reth (rocePkt 0x0C r.dqpn x.psn) with ackReq := true }]
  else
    (List.range x.pkts).map (fun i =>
      let last := i + 1 = x.pkts
      let imm := op = 1 || op = 4
      let p := rocePkt (msgOpcode (if op ≤ 1 then 6 else 0) imm i x.pkts) r.dqpn (x.psn + BitVec.ofNat 24 i)
      let p := if op ≤ 1 && i = 0 then reth p else p
      { p with ackReq := last, imm := if imm && last then BitVec.ofNat 32 (field wr 0x24 4) else 0, payload := (d.drop (i * mtu)).take mtu })

/-- The local data of a request: main memory or a Frond store, whole and unpoisoned, or none; a READ sends none (R526, R527). -/
def wrData (r : QpRec) (wr : List Byte) (s : State) : Option (List Byte) × State :=
  let a := field wr 0x10 8
  let n := field wr 4 4
  if n = 0 then (some [], s)
  else match targetRange a n with
    | .main | .frond _ _ =>
      if field wr 0 1 = 2 then (some [], s) else
      let x := readAll r.init 1 a n s
      (match x.1 with
        | some d => (if poisoned d then none else some (plain d), x.2)
        | none => (none, x.2))
    | _ => (none, s)

/-- Send a request, or fail it locally with STATUS 3. -/
def transmitWr (q : Nat) (x : RoceReq) (s : State) : State :=
  let d := wrData (s.qp q) x.wr s
  match d.1 with
  | none => failWr q 3 x.wr (State.modQp q (fun r => { r with unacked := r.unacked.filter (fun y => y ≠ x) }) d.2)
  | some d' => (wrPackets (s.qp q) s.mtu x d').foldl (fun t p => sendRoce q p t) d.2

/-- A work request's own fields (R526; log 48). -/
def wrOk (wr : List Byte) : Bool := decide (field wr 0 1 ≤ 4) && decide (field wr 4 4 ≤ 16777216)

/-- A fetched request starts: flushed on a QP in ERROR, held by FENCE behind an earlier READ (R526, R527). -/
def startWr (q : Nat) (wr : List Byte) (s : State) : State :=
  let r := s.qp q
  let next := State.modQp q (fun r => { r with sqHead := (r.sqHead + 1) % r.sqSize })
  if r.st = .error then completeWr q 4 wr (next s)
  else if !wrOk wr then failWr q 3 wr (next s)
  else if bit (field wr 1 1) 1 && r.unacked.any (fun x => field x.wr 0 1 = 2) then s
  else
    let x : RoceReq := { wr := wr, psn := r.sendPsn, pkts := pktCount (field wr 4 4) s.mtu }
    transmitWr q x (State.modQp q (fun r => { r with unacked := r.unacked ++ [x], sendPsn := r.sendPsn + BitVec.ofNat 24 x.pkts }) (next s))

/-- A request that cannot be read: it fails with STATUS 3 and the ring moves on (R527). -/
def badWr (q : Nat) (s : State) : State :=
  failWr q 3 (slice [] 0 64) (State.modQp q (fun r => { r with sqHead := (r.sqHead + 1) % r.sqSize }) s)

/-- ROCE_WORK_REQUEST (R526). -/
def opRoceRequest (q : Nat) (s : State) : State :=
  let r := s.qp q
  if !(s.roceRuns && r.loaded && r.sqHead ≠ r.sqTail && (s.port r.port).link = .up) then s
  else
    let d := readAll r.init 1 (field r.ctx 0x20 8 + 64 * r.sqHead) 64 s
    match d.1 with
    | some d' => if poisoned d' then badWr q d.2 else startWr q (plain d') d.2
    | none => badWr q d.2

/-- The repeats made so far for what is waited for: an acknowledgement, or a receive entry after an RNR NAK (R524). -/
def QpRec.repeats (r : QpRec) : Nat := if r.rnr then r.rnrRetries else r.retries

/-- One more repeat of that kind. -/
def QpRec.repeated (r : QpRec) : QpRec :=
  if r.rnr then { r with rnr := false, rnrRetries := r.rnrRetries + 1 } else { r with retries := r.retries + 1 }

/-- Go-back-N 100 µs after a loss or an RNR NAK, RETRY times each; then STATUS 1 (R524, R526). -/
def opRoceTimeout (q : Nat) (s : State) : State :=
  let r := s.qp q
  match r.unacked with
  | [] => s
  | x :: rest =>
    if r.st ≠ .ready || !s.roceRuns then s
    else if r.retry ≤ r.repeats then failWr q 1 x.wr (State.modQp q (fun r => { r with unacked := rest }) s)
    else r.unacked.foldl (fun t y => if (t.qp q).st = .ready then transmitWr q y t else t) (State.modQp q QpRec.repeated s)

/-- 5 % of line rate every 55 µs (R524). -/
def opRateRecovery (q : Nat) : State → State := State.modQp q (fun r => { r with rate := min 1000000 (r.rate + 50000) })

/-! ### Doorbells (R550) -/

/-- A new ring index; one outside the ring is not taken (log 48). -/
def opQpDoorbell (kind q i : Nat) (s : State) : State :=
  let r := s.qp q
  if !r.loaded then s
  else match kind with
    | 0 => if i < r.sqSize then State.modQp q (fun r => { r with sqTail := i }) s else s
    | 1 => if i < r.rqSize then State.modQp q (fun r => { r with rqTail := i }) s else s
    | _ => if i < r.cqSize then drainRoce q r.cqWait.length (State.modQp q (fun r => { r with cqHead := i }) s) else s

/-- QP_SQ_DOORBELL (R550). -/
def execQpSqDoorbell (qpn : Qpn) (idx : BitVec 16) (s : State) := performBar (opQpDoorbell 0 qpn.val (bits idx.toNat 12 0)) s
/-- QP_RQ_DOORBELL (R550). -/
def execQpRqDoorbell (qpn : Qpn) (idx : BitVec 16) (s : State) := performBar (opQpDoorbell 1 qpn.val (bits idx.toNat 12 0)) s
/-- QP_CQ_DOORBELL (R550). -/
def execQpCqDoorbell (qpn : Qpn) (idx : BitVec 16) (s : State) := performBar (opQpDoorbell 2 qpn.val (bits idx.toNat 12 0)) s
/-- QP_LOAD_CONTEXT (R525). -/
def execQpLoadContext (qpn : Qpn) (s : State) := performBar (opQpLoad qpn.val) s
/-- ROCE_WORK_REQUEST (R526). -/
def execRoceWorkRequest (qpn : Qpn) (s : State) := perform (opRoceRequest qpn.val) s
/-- ROCE_ACK_TIMEOUT (R524). -/
def execRoceAckTimeout (qpn : Qpn) (s : State) := perform (opRoceTimeout qpn.val) s
/-- ROCE_RATE_RECOVERY (R524). -/
def execRoceRateRecovery (qpn : Qpn) (s : State) := perform (opRateRecovery qpn.val) s

end Sys2Proof.Machine
end

