-- ==== Sys2Proof/Machine/RegsEth.lean ====
section
/-! DEFINITION. The registers of the twin block and of the Ethernet block (R509 to R514, R520, R539 to R551). -/

namespace Sys2Proof.Machine

/-- LINK (R509, R540). -/
def LinkState.code : LinkState → Nat
  | .down => 0 | .training => 1 | .up => 2

/-! ### TWIN (R509 to R514) -/

/-- Pipeline p's twin registers. -/
def readTwinPipe (s : State) (p r : Nat) : Nat :=
  let x := s.twinPipe p
  if r = 0 then half40 x.digBase false else if r = 4 then half40 x.digBase true else if r = 8 then x.digLen.toNat
  else if r = 0xC then x.last.toNat else if r = 0x10 then x.frame.toNat else if r = 0x14 then x.mismatch.toNat
  else if r = 0x18 then x.skipped.toNat else 0

/-- TWIN_STAT (R509). -/
def State.twinStat (s : State) : Nat :=
  let t := s.twin
  pack [(t.link.code, 0), (t.peerMode.toNat, 2), (b2n t.peerAlive, 4), (b2n (!s.pins.peerFaultN), 5), (b2n t.killOut, 6),
        (b2n t.killed, 7), (t.spared.toNat, 8), (b2n t.armed, 11)]

/-- TWIN registers. -/
def readTwin (s : State) (o : Nat) : Nat :=
  let t := s.twin
  match inTable o 0x100 0x20 8 with
  | some (p, r) => readTwinPipe s p r
  | none =>
    if o = 0 then s.twinStat
    else if o = 4 then pack [(t.digwait.toNat, 0), (b2n t.lock, 31)]
    else if o = 8 then t.hbRx.toNat
    else if o = 0xC then t.crcErr.toNat
    else if o = 0x10 then t.shadow.toNat
    else 0

/-- A write of pipeline p's twin registers: the region is closed while the pipeline runs, a length above 65,536 is not taken (R512). -/
def writeTwinPipe (p r : Nat) (v : Word32) (s : State) : State :=
  let shut := (s.pipe p).running
  if r = 0 then (if shut then s else State.modTwinPipe p (fun x => { x with digBase := setHalf40 x.digBase false 0 v }) s)
  else if r = 4 then (if shut then s else State.modTwinPipe p (fun x => { x with digBase := setHalf40 x.digBase true 0 v }) s)
  else if r = 8 then
    if shut || decide (65536 < v.toNat % 131072) then s else State.modTwinPipe p (fun x => { x with digLen := BitVec.ofNat 17 v.toNat }) s
  else if r = 0x14 then State.modTwinPipe p (fun x => { x with mismatch := clearBy x.mismatch v.toNat }) s
  else if r = 0x18 then State.modTwinPipe p (fun x => { x with skipped := clearBy x.skipped v.toNat }) s
  else s

/-- A write of TWIN. -/
def writeTwin (o : Nat) (v : Word32) (s : State) : State :=
  let t := s.twin
  match inTable o 0x100 0x20 8 with
  | some (p, r) => writeTwinPipe p r v s
  | none =>
    if o = 4 then
      if t.lock then s else { s with twin := { t with digwait := BitVec.ofNat 16 v.toNat, lock := v.getLsbD 31 } }
    else if o = 0xC then { s with twin := { t with crcErr := clearBy t.crcErr v.toNat } }
    else if o = 0x10 then { s with twin := { t with shadow := clearBy t.shadow v.toNat } }
    else s

/-! ### Ports (R539 to R545) -/

/-- STATE of a transmit stream (R545). -/
def TxState.code : TxState → Nat
  | .idle => 0 | .pending => 1 | .sent => 2 | .withdrawn => 3 | .rejected => 4

/-- A word of a transmit stream (R545). -/
def TxRec.word (x : TxRec) (r : Nat) : Nat :=
  if r < 0x1C then x.tmplField r 4
  else if r = 0x1C then x.tmplField r 2
  else if 0x40 ≤ r ∧ r < 0x140 then leNat (treadN 0 x.payload (r - 0x40) 4)
  else if r = 0x1FC then x.st.code
  else 0

/-- A byte of the template; IPV6 is one bit (R545). -/
def TxRec.setTmpl (x : TxRec) (o : Nat) (b : Byte) : TxRec :=
  { x with tmpl := tset (tmplReset o) x.tmpl o (if o = 0x1D then b &&& 1 else b) }

/-- A write of a transmit stream's template or payload, discarded while PENDING (R520). -/
def TxRec.write (r : Nat) (v : Word32) (x : TxRec) : TxRec :=
  if x.st = .pending then x
  else if r ≤ 0x1C then
    (List.range (if r = 0x1C then 2 else 4)).foldl (fun y i => y.setTmpl (r + i) (BitVec.ofNat 8 (v.toNat / 256 ^ i))) x
  else if 0x40 ≤ r ∧ r < 0x140 then { x with payload := twriteN 0 x.payload (r - 0x40) (toLe 4 v.toNat) }
  else x

/-- Replace the word at index i of a wide register. -/
def setWordOf {w : Nat} (x : BitVec w) (i : Nat) (v : Word32) : BitVec w :=
  BitVec.ofNat w (x.toNat - place (bits x.toNat (32 * i + 31) (32 * i)) (32 * i) + place v.toNat (32 * i))

/-- Port n's registers. -/
def readPort (s : State) (n o : Nat) : Nat :=
  let x := s.port n
  match inTable o 0x1000 4 256, inTable o 0x2000 0x200 16 with
  | some (e, _), _ => (tget 0xFF000000 x.gcl e).toNat
  | _, some (i, r) => (x.txs i).word r
  | _, _ =>
    if o = 0 then pack [(x.rate.toNat, 0), (x.fec.toNat, 2), (x.pfc.toNat, 8), (x.maxFrame.toNat, 16), (b2n x.en, 31)]
    else if o = 4 then pack [(x.link.code, 0), (x.stRate.toNat, 4), (x.stFec.toNat, 6)]
    else if o = 8 then bits x.mac.toNat 31 0
    else if o = 0xC then bits x.mac.toNat 47 32
    else if o = 0x10 then x.ip4.toNat
    else if 0x14 ≤ o ∧ o < 0x24 then bits x.ip6.toNat (8 * (o - 0x14) + 31) (8 * (o - 0x14))
    else if o = 0x40 then x.rxOk.toNat
    else if o = 0x44 then x.rxBad.toNat
    else if o = 0x48 then x.rxOther.toNat
    else if o = 0x4C then x.rxUnbound.toNat
    else if o = 0x50 then x.txOk.toNat
    else if o = 0x54 then x.fecCorr.toNat
    else if o = 0x58 then x.fecUncorr.toNat
    else if o = 0x80 then pack [(x.gateLen.toNat, 0), (b2n x.gateOper, 29), (b2n x.gatePending, 30), (b2n x.gatePending, 31)]
    else if o = 0x84 then half x.gateBase false
    else if o = 0x88 then half x.gateBase true
    else 0

/-- A write of port n's addresses, counters and gate (R541 to R543). -/
def writePortReg (n o : Nat) (v : Word32) (s : State) : State :=
  let mod := State.modPort n
  let k := v.toNat
  if o = 0 then opEthCfg n k s
  else if o = 8 then mod (fun x => { x with mac := BitVec.ofNat 48 (place (bits x.mac.toNat 47 32) 32 + k) }) s
  else if o = 0xC then mod (fun x => { x with mac := BitVec.ofNat 48 (place (k % 65536) 32 + bits x.mac.toNat 31 0) }) s
  else if o = 0x10 then mod (fun x => { x with ip4 := v }) s
  else if 0x14 ≤ o ∧ o < 0x24 then mod (fun x => { x with ip6 := setWordOf x.ip6 ((o - 0x14) / 4) v }) s
  else if o = 0x40 then mod (fun x => { x with rxOk := clearBy x.rxOk k }) s
  else if o = 0x44 then mod (fun x => { x with rxBad := clearBy x.rxBad k }) s
  else if o = 0x48 then mod (fun x => { x with rxOther := clearBy x.rxOther k }) s
  else if o = 0x4C then mod (fun x => { x with rxUnbound := clearBy x.rxUnbound k }) s
  else if o = 0x50 then mod (fun x => { x with txOk := clearBy x.txOk k }) s
  else if o = 0x54 then mod (fun x => { x with fecCorr := clearBy x.fecCorr k }) s
  else if o = 0x58 then mod (fun x => { x with fecUncorr := clearBy x.fecUncorr k }) s
  else if o = 0x80 then
    let s := mod (fun x => { x with gateLen := BitVec.ofNat 9 k }) s
    if bit k 31 then opGateCommit n s else s
  else if o = 0x84 then mod (fun x => { x with gateBase := setHalf x.gateBase false v }) s
  else if o = 0x88 then mod (fun x => { x with gateBase := setHalf x.gateBase true v }) s
  else s

/-- A write of port n. -/
def writePort (n o : Nat) (v : Word32) (s : State) : State :=
  match inTable o 0x1000 4 256, inTable o 0x2000 0x200 16 with
  | some (e, _), _ => State.modPort n (fun x => { x with gcl := tset 0xFF000000 x.gcl e v }) s
  | _, some (i, r) => if r = 0x1F8 then opEthSend n i (bits v.toNat 8 0) s else State.modTx n i (TxRec.write r v) s
  | _, _ => writePortReg n o v s

/-! ### Shared registers (R546 to R551) -/

/-- Key k (R551). -/
def readMkey (s : State) (k r : Nat) : Nat :=
  let x := s.mkey k
  if r = 0 then half40 x.base false else if r = 4 then half40 x.base true else if r = 8 then x.len.toNat
  else if r = 0xC then pack [(b2n x.en, 0), (b2n x.rd, 1), (b2n x.wr, 2), (x.tag.toNat, 8)] else 0

/-- ETH registers shared by the ports. -/
def readEthShared (s : State) (o : Nat) : Nat :=
  let e := s.eth
  match inTable o 0 4 32, inTable o 0x1000 0x10 256 with
  | some (f, _), _ => (tget 0 e.flows f).toNat
  | _, some (k, r) => readMkey s k r
  | _, _ =>
    if o = 0x100 then e.cmdPort.toNat
    else if o = 0x104 then pack [(e.ptpDomain.toNat, 8), (e.ptpPriority.toNat, 16), (e.ptpPorts.toNat, 24), (b2n e.ptpGmcap, 29), (b2n e.ptpDisc, 30), (b2n e.ptpEn, 31)]
    else if o = 0x108 then pack [(b2n e.ptpGm, 0), (e.ptpSlave.toNat, 4)]
    else if o = 0x200 then half40 e.qpcBase false
    else if o = 0x204 then half40 e.qpcBase true
    else if o = 0x208 then pack [(e.roceMtu.toNat, 12), (b2n e.roceEn, 31)]
    else 0

/-- ETH registers. -/
def readEth (s : State) (o : Nat) : Nat :=
  match inTable o 0 0x10000 4 with
  | some (n, r) => readPort s n r
  | none => if 0x40000 ≤ o ∧ o < 0x50000 then readEthShared s (o - 0x40000) else 0

/-- A key replaced. -/
def State.modMkey (k : Nat) (g : MkeyRec → MkeyRec) (s : State) : State :=
  { s with eth := { s.eth with mkeys := tset {} s.eth.mkeys k (g (s.mkey k)) } }

/-- A write of key k: BASE and LEN are ignored while EN = 1 (R551). -/
def MkeyRec.write (r : Nat) (v : Word32) (x : MkeyRec) : MkeyRec :=
  if r = 0 then (if x.en then x else { x with base := setHalf40 x.base false 0 v })
  else if r = 4 then (if x.en then x else { x with base := setHalf40 x.base true 0 v })
  else if r = 8 then (if x.en then x else { x with len := v })
  else if r = 0xC then { x with en := v.getLsbD 0, rd := v.getLsbD 1, wr := v.getLsbD 2, tag := BitVec.ofNat 24 (v.toNat / 256) }
  else x

/-- ETH_PTP_CFG: setting DISC is ignored while a CAN controller has it; only a capable device with gPTP enabled is grandmaster
(R523, R548). -/
def writePtpCfg (n : Nat) (s : State) : State :=
  let free := (List.range 8).all (fun m => !(s.canc m).disc)
  { s with eth := { s.eth with
    ptpEn := bit n 31, ptpDisc := bit n 30 && (s.eth.ptpDisc || free), ptpGmcap := bit n 29, ptpPorts := BitVec.ofNat 4 (n / 2 ^ 24),
    ptpGm := s.eth.ptpGm && bit n 31 && bit n 29, ptpPriority := BitVec.ofNat 8 (n / 2 ^ 16), ptpDomain := BitVec.ofNat 8 (n / 256) } }

/-- The QP doorbell (R550). -/
def writeQpDb (n : Nat) (s : State) : State :=
  let q := bits n 25 16
  if bits n 31 30 = 3 then opQpLoad q s else opQpDoorbell (bits n 31 30) q (bits n 12 0) s

/-- A write of a shared ETH register. -/
def writeEthShared (o : Nat) (v : Word32) (s : State) : State :=
  let e := s.eth
  match inTable o 0 4 32, inTable o 0x1000 0x10 256 with
  | some (f, _), _ => { s with eth := { e with flows := tset 0 e.flows f (v &&& 0x8F3FFFFF) } }
  | _, some (k, r) => State.modMkey k (MkeyRec.write r v) s
  | _, _ =>
    if o = 0x100 then { s with eth := { e with cmdPort := BitVec.ofNat 16 v.toNat } }
    else if o = 0x104 then writePtpCfg v.toNat s
    else if o = 0x200 then (if e.roceEn then s else { s with eth := { e with qpcBase := setHalf40 e.qpcBase false 6 v } })
    else if o = 0x204 then (if e.roceEn then s else { s with eth := { e with qpcBase := setHalf40 e.qpcBase true 6 v } })
    else if o = 0x208 then { s with eth := { e with roceMtu := BitVec.ofNat 2 (v.toNat / 4096), roceEn := v.getLsbD 31 } }
    else if o = 0x20C then writeQpDb v.toNat s
    else s

/-- A write of ETH. -/
def writeEth (o : Nat) (v : Word32) (s : State) : State :=
  match inTable o 0 0x10000 4 with
  | some (n, r) => writePort n r v s
  | none => if 0x40000 ≤ o ∧ o < 0x50000 then writeEthShared (o - 0x40000) v s else s

end Sys2Proof.Machine
end

