-- ==== Sys2Proof/Machine/RegsFrond.lean ====
section
/-! DEFINITION. The registers of a Frond's window (R142, R155, R170 to R182). -/

namespace Sys2Proof.Machine

/-- STATE of a slot (R177). -/
def SlotState.code : SlotState → Nat
  | .idle => 0 | .running => 1 | .halted => 2

/-- STATE of a bank (R179). -/
def BankState.code : BankState → Nat
  | .on => 0 | .fencing => 1 | .off => 2 | .ret => 3

/-- A slot's registers (R174 to R178); CTRL reads 0. -/
def SlotRec.word (x : SlotRec) (r : Nat) : Nat :=
  if r = 0 then bits x.base.toNat 31 0
  else if r = 4 then bits x.base.toNat 39 32
  else if r = 8 then x.seqReg.toNat
  else if r = 0x10 then pack [(x.st.code, 0), (x.cls.toNat, 2), (if x.st = .halted then x.faultCode.toNat else 0, 16)]
  else if r = 0x14 then x.doneSeq.toNat
  else 0

/-- A bank's register (R179). -/
def BankRec.word (b : BankRec) : Nat :=
  pack [(b.inbound.toNat, 0), (b.claims.toNat, 12), (b.st.code, 24), (b.spares.toNat, 26), (b2n b.abandoned, 31)]

/-- A codebook slot's register (R182). -/
def CbRec.word (c : CbRec) : Nat := pack [(c.size.toNat, 0), (c.efmt.toNat, 4), (b2n c.valid, 8), (c.epoch.toNat, 20)]

/-- FRND_STATUS (R170). -/
def State.frndStatus (s : State) (f : Nat) : Nat :=
  let r := s.frond f
  pack [(b2n (r.slot0.executing || r.slot1.executing || r.golden.running), 0), (b2n r.epochBusy, 1), (b2n (s.fillStalled f 0 || s.fillStalled f 1), 2),
        (b2n (r.slot0.st = .running && r.slot1.st = .running), 3), ((s.fp f).fl.toNat, 8), (r.lastFault.toNat, 16)]

/-- Registers of Frond f's window; a handle entry reads as committed. -/
def readFrnd (s : State) (f o : Nat) : Nat :=
  let r := s.frond f
  match inTable o 0x40 0x20 2, inTable o 0x200 4 32, inTable o 0x400 4 64, inTable o 0x1000 0x10 256, inTable o 0x2000 4 16 with
  | some (k, i), _, _, _, _ => (r.slot k).word i
  | _, some (b, _), _, _, _ => (r.bank b).word
  | _, _, some (n, _), _, _ => (tget 0 r.sync n).toNat
  | _, _, _, some (h, i), _ =>
    let x := r.handle h
    half (if i < 8 then x.w0 else x.w1) (decide (i % 8 = 4))
  | _, _, _, _, some (i, _) => (r.cb i).word
  | _, _, _, _, _ =>
    if o = 0 then s.frndStatus f
    else if o = 4 then r.epoch.toNat
    else if o = 8 then r.corr.toNat
    else if o = 0xC then r.uncorr.toNat
    else 0

/-- A write of slot k: BASE drops [5:0]; CTRL aborts or starts (R156, R174 to R176). -/
def writeSlot (f k r : Nat) (v : Word32) (s : State) : State :=
  let n := v.toNat
  if r = 0 then State.modSlot f k (fun x => { x with base := BitVec.ofNat 40 (place (bits x.base.toNat 39 32) 32 + n / 64 * 64) }) s
  else if r = 4 then State.modSlot f k (fun x => { x with base := BitVec.ofNat 40 (place (bits n 7 0) 32 + bits x.base.toNat 31 0) }) s
  else if r = 8 then State.modSlot f k (fun x => { x with seqReg := v }) s
  else if r = 0xC then
    let s := if bit n 1 then abortSlot f k s else s
    if bit n 0 then slotGo f k s else s
  else s

/-- A write of Frond f's RW and WO registers, which only 0xA0 and 0xC0 make (R142, R155, R173). -/
def writeFrndOwn (f o : Nat) (v : Word32) (s : State) : State :=
  match inTable o 0x40 0x20 2, inTable o 0x400 4 64, inTable o 0x1000 0x10 256 with
  | some (k, r), _, _ => writeSlot f k r v s
  | _, some (n, _), _ => State.modFrond f (fun r => { r with sync := tset 0 r.sync n v }) s
  | _, _, some (h, r) => State.modFrond f (fun x => x.modHandle h (HandleRec.write (r / 4) v)) s
  | _, _, _ =>
    if o = 4 then writeEpoch f (BitVec.ofNat 12 v.toNat) s
    else if o = 8 then State.modFrond f (fun r => { r with corr := clearBy r.corr v.toNat }) s
    else if o = 0xC then State.modFrond f (fun r => { r with uncorr := clearBy r.uncorr v.toNat }) s
    else if o = 0x10 then opFrndFill f v.toNat s
    else s

/-- A write of Frond f's window by an initiator; ABANDONED is W1C and takes any initiator's write (R179). -/
def writeFrnd (init f o : Nat) (v : Word32) (s : State) : State :=
  match inTable o 0x200 4 32 with
  | some (b, _) => if v.getLsbD 31 then State.modFrond f (FrondRec.modBank b (fun x => { x with abandoned := false })) s else s
  | none => if init = 0xA0 || init = 0xC0 then writeFrndOwn f o v s else s

end Sys2Proof.Machine
end

