-- ==== Sys2Proof/Machine/RegsMem.lean ====
section
/-! DEFINITION. The registers of the DMA engine and of the memory controllers (R435, R454 to R461, R486 to R493). -/

namespace Sys2Proof.Machine

/-! ### DMA (R435, R454 to R461) -/

/-- STATE of a channel (R457). -/
def DmaState.code : DmaState → Nat
  | .idle => 0 | .running => 1 | .halted => 2

/-- OWNER of channel n: the last four are firmware's (R435). -/
def State.dmaOwner (s : State) (n : Nat) : Nat := if 28 ≤ n then 2 else (s.dmac n).owner.toNat

/-- Channel n. -/
def readDmaCh (s : State) (n r : Nat) : Nat :=
  let c := s.dmac n
  if r = 0 then half40 c.base false
  else if r = 4 then half40 c.base true
  else if r = 8 then pack [(c.cls.toNat, 8), (c.vector.toNat, 16), (c.retry.toNat, 24)]
  else if r = 0x10 then pack [(c.st.code, 0), (c.flight.length, 2), (b2n c.suppress, 4), (b2n (decide (16 ≤ n)), 5), (s.dmaOwner n, 6),
    (c.supFp.toNat, 8), (if c.st = .halted then c.fault.toNat else 0, 16)]
  else if r = 0x14 then half40 c.cur false
  else if r = 0x18 then half40 c.cur true
  else if r = 0x1C then c.doneCount.toNat
  else if r = 0x20 then c.bad.toNat
  else if r = 0x24 then c.retried.toNat
  else 0

/-- DMA registers. -/
def readDma (s : State) (o : Nat) : Nat :=
  match inTable o 0 0x40 32 with
  | some (n, r) => readDmaCh s n r
  | none => if o = 0x1000 then pack ((List.range 32).map (fun n => (b2n ((s.dmac n).st = .running), n))) else 0

/-- Whether an initiator's register writes of channel n are accepted (R435). -/
def State.dmaTakes (s : State) (init n : Nat) : Bool :=
  match s.dmaOwner n with
  | 0 => true
  | 1 => false
  | _ => init = 0xA0

/-- CTRL: an abort acts before a resume, and both before GO. -/
def writeDmaCtrl (n v : Nat) (s : State) : State :=
  let s := if bit v 1 then opDmaAbort n s else s
  let s := if bit v 2 then opDmaResume n s else s
  if bit v 0 then opDmaGo n s else s

/-- A write of channel n by an initiator; CFG only when IDLE (R455). -/
def writeDmaCh (init n r : Nat) (v : Word32) (s : State) : State :=
  let x := v.toNat
  if !s.dmaTakes init n then s
  else if r = 0 then State.modDma n (fun c => { c with base := setHalf40 c.base false 5 v }) s
  else if r = 4 then State.modDma n (fun c => { c with base := setHalf40 c.base true 5 v }) s
  else if r = 8 then State.modDma n (fun c => if c.st = .idle then
    { c with cls := BitVec.ofNat 2 (x / 256), vector := BitVec.ofNat 7 (x / 65536), retry := BitVec.ofNat 3 (x / 16777216) } else c) s
  else if r = 0xC then writeDmaCtrl n x s
  else if r = 0x20 then State.modDma n (fun c => { c with bad := clearBy c.bad x }) s
  else if r = 0x24 then State.modDma n (fun c => { c with retried := clearBy c.retried x }) s
  else s

/-- A write of the DMA block. -/
def writeDma (init o : Nat) (v : Word32) (s : State) : State :=
  match inTable o 0 0x40 32 with
  | some (n, r) => writeDmaCh init n r v s
  | none => s

/-! ### MEMC (R486 to R493) -/

/-- STATE of a physical channel (R492). -/
def ChanState.code : ChanState → Nat
  | .active => 0 | .spare => 1 | .migrating => 2 | .retired => 3 | .failed => 4

/-- Group g (R489, R490). -/
def readGroup (s : State) (g r : Nat) : Nat :=
  let x := s.group g
  if r = 0 then pack [(x.spares.toNat, 0), (x.migBlocks * 100 / chanBlocks, 8), (x.migTo.toNat, 16), (x.migFrom.toNat, 24)]
  else if r = 4 then pack [(x.c0Resv.toNat, 0), (x.c0Used.toNat, 16)]
  else 0

/-- Physical channel p (R492, R493). -/
def readPch (s : State) (p r : Nat) : Nat :=
  let x := s.pch p
  if r = 0 then pack [(x.st.code, 0), (x.sprows.toNat, 8)] else if r = 4 then x.corr.toNat else if r = 8 then x.uncorr.toNat
  else if r = 0xC then x.replay.toNat else 0

/-- MEMC registers; MIGRATE is write-only. -/
def readMemc (s : State) (o : Nat) : Nat :=
  let m := s.mem
  match inTable o 0x100 0x10 4, inTable o 0x1000 4 128, inTable o 0x2000 0x10 144 with
  | some (g, r), _, _ => readGroup s g r
  | _, some (l, _), _ => pack [(s.mappedPch l, 0), (b2n (s.chmap l).lost, 8)]
  | _, _, some (p, r) => readPch s p r
  | _, _, _ =>
    if o = 0 then pack [(m.scrubPeriod.toNat, 0), (m.rowThresh.toNat, 8), (m.chThresh.toNat, 16)]
    else if o = 4 then pack [(m.line.toNat, 0), (m.passes.toNat, 23)]
    else 0

/-- A write of a channel's counters. -/
def writePch (p r : Nat) (v : Word32) (s : State) : State :=
  if r = 4 then State.modPch p (fun x => { x with corr := clearBy x.corr v.toNat }) s
  else if r = 8 then State.modPch p (fun x => { x with uncorr := clearBy x.uncorr v.toNat }) s
  else if r = 0xC then State.modPch p (fun x => { x with replay := clearBy x.replay v.toNat }) s
  else s

/-- A write of MEMC. -/
def writeMemc (o : Nat) (v : Word32) (s : State) : State :=
  let n := v.toNat
  match inTable o 0x2000 0x10 144 with
  | some (p, r) => writePch p r v s
  | none =>
    if o = 0 then { s with mem := { s.mem with
      scrubPeriod := BitVec.ofNat 8 n, rowThresh := BitVec.ofNat 8 (n / 256), chThresh := BitVec.ofNat 16 (n / 65536) } }
    else if o = 8 then opMigrate v s
    else s

end Sys2Proof.Machine
end

