-- ==== Sys2Proof/Machine/RegsCan.lean ====
section
/-! DEFINITION. THAL's read-only view, and the registers and message memory of a CAN controller (R343, R354 to R369, R373, R374, R377,
R386, R389 to R398). -/

namespace Sys2Proof.Machine

/-! ### THAL (R354 to R369) -/

/-- The largest FEED_AGE of the pipelines' last runs (R359). -/
def State.mossFeedAge (s : State) : Nat := s.thal.moss.foldl (fun a e => max a e.2.runAge.toNat) 0

/-- Words of a sensed fuse word. -/
def State.fuseWord (s : State) (w r : Nat) : Nat := bits (s.fuse w) (8 * r + 31) (8 * r)

/-- Authority of pipeline p (R360, R361). -/
def readAuth (s : State) (p r : Nat) : Nat :=
  let a := s.auth p
  if r = 0 then pack [(b2n (!a.primary), 0), (b2n a.armed, 2), (a.clean.toNat, 16), (((List.range 8).filter (fun i => a.window.getLsbD i)).length, 24)]
  else if r = 4 then a.frame.toNat
  else if r = 8 then a.window.toNat
  else 0

/-- Watchdog w (R362, R363). -/
def readWdog (s : State) (w r : Nat) : Nat :=
  let x := s.wdog w
  if r = 0 then x.openNs.toNat else if r = 4 then x.closeNs.toNat
  else if r = 8 then pack [(x.last.toNat, 0), (b2n x.armed, 2), (b2n x.expired, 3)] else 0

/-- Governor channel c (R364, R365). -/
def readGov (s : State) (c r : Nat) : Nat :=
  let g := s.gov c
  if r = 0 then g.passed.toNat else if r = 4 then g.rejected.toNat
  else if r = 8 then pack [(g.lastCheck.toNat, 0), (g.lastField.toNat, 8), (b2n g.lastSource, 16)] else 0

/-- THAL registers. -/
def readThal (s : State) (o : Nat) : Nat :=
  let i := s.island
  let t := s.thal
  match inTable o 0x100 0x10 8, inTable o 0x400 0x10 48, inTable o 0x1000 0x10 16, inTable o 0x1800 0x80 16, inTable o 0x2000 0x10 64,
        inTable o 0x2400 0x10 32, inTable o 0x8000 0x20 1024 with
  | some (p, r), _, _, _, _, _, _ => readAuth s p r
  | _, some (w, r), _, _, _, _, _ => readWdog s w r
  | _, _, some (c, r), _, _, _, _ => readGov s c r
  | _, _, _, some (c, r), _, _, _ => wordAt (s.govBytes c) r
  | _, _, _, _, some (k, r), _, _ => s.fuseWord (0x110 + k) r
  | _, _, _, _, _, some (k, r), _ => s.fuseWord (0x150 + k) r
  | _, _, _, _, _, _, some (k, r) =>
    let x := tget { valid := false } t.flog k
    if x.valid then wordAt x.bytes r else 0
  | _, _, _, _, _, _, _ =>
    if o = 0 then s.thalStatus
    else if o = 4 then s.nClean
    else if o = 8 then pack [(b2n i.fatalLockstep, 0), (b2n i.fatalClkloss, 1), (b2n i.fatalHeartbeat, 2), (b2n i.fatalMoss, 3)]
    else if o = 0x10 then pack [(if t.goldenInternal then 0 else t.goldenFclk.toNat, 0), (b2n t.goldenInternal, 2)]
    else if o = 0x14 then t.goldenFails.toNat
    else if o = 0x20 then pack [(t.mossStopped.toNat, 0), (s.mossFeedAge, 8), (t.mossRunUs.toNat, 16)]
    else if o = 0x4000 then t.flogWr.toNat
    else if o = 0x4004 then t.flogLost.toNat
    else 0

/-! ### CAN controllers (R374, R389 to R398) -/

/-- STATE of a controller (R390). -/
def CanState.code : CanState → Nat
  | .init => 0 | .integrating => 1 | .active => 2 | .passive => 3 | .busoff => 4 | .recovering => 5

/-- STATE of an object (R376). -/
def ObjState.code : ObjState → Nat
  | .idle => 0 | .held => 1 | .pending => 2 | .sent => 3 | .aborted => 4 | .withdrawn => 5 | .rejected => 6 | .missed => 7

/-- A word of an object (R374). -/
def ObjRec.word (x : ObjRec) (act : Bool) (r : Nat) : Nat :=
  if r = 0 then pack [(x.st.code, 0), (b2n act, 3)]
  else if r = 4 then x.id.toNat
  else if r = 8 then pack [(x.dlc.toNat, 0), (x.flags.toNat, 8)]
  else if r = 0xC then x.mark.toNat
  else if r = 0x10 then half x.time false
  else if r = 0x14 then half x.time true
  else if 0x20 ≤ r ∧ r < 0x60 then leNat (treadN 0 x.data (r - 0x20) 4)
  else 0

/-- Bits of the objects 32k to 32k + 31 that are HELD or PENDING (R377). -/
def CanRec.pend (r : CanRec) (k : Nat) : Nat :=
  pack ((List.range 32).map (fun i => (b2n ((r.obj (32 * k + i)).st = .held || (r.obj (32 * k + i)).st = .pending), i)))

/-- A controller's registers (R389 to R398). -/
def readCan (s : State) (m o : Nat) : Nat :=
  let r := s.canc m
  match inTable o 0x8000 0x80 128, inTable o 0x40 4 12 with
  | some (i, w), _ => (r.obj i).word (s.canAct m i) w
  | _, some (k, _) => r.pend (k % 4)
  | _, _ =>
    if o = 0 then pack [(b2n r.initBit, 0), (b2n r.lom, 1), (b2n r.rom, 2), (b2n r.boauto, 3), (b2n (r.st = .recovering), 4)]
    else if o = 4 then pack [(r.st.code, 0), (b2n r.cfgerr, 3), (r.rec_.toNat, 8), (r.tec.toNat, 16)]
    else if o = 0x10 then r.nbt.toNat
    else if o = 0x14 then r.dbt.toNat
    else if o = 0x18 then r.tdc.toNat
    else if o = 0x20 then pack [(r.rxFirst.toNat, 0), (r.rxCount.toNat, 8)]
    else if o = 0x24 then r.rxPut.toNat
    else if o = 0x28 then r.rxGet.toNat
    else if o = 0x2C then r.rxLost.toNat
    else if o = 0x80 then pack [(r.role.toNat, 0), (b2n r.disc, 2), (b2n r.refIde, 3)]
    else if o = 0x84 then r.ttRef.toNat
    else if o = 0x88 then r.ttCycle.toNat
    else if o = 0x8C then r.ttTimeout.toNat
    else if o = 0x90 then r.ttWin.toNat
    else if o = 0x94 then pack [(b2n r.sync, 0), (b2n r.master, 1), (r.cycles.toNat, 16)]
    else 0

/-- A write of a word of an object: discarded while it is HELD or PENDING; STAT is the controller's (R374, R377). -/
def ObjRec.write (r : Nat) (v : Word32) (x : ObjRec) : ObjRec :=
  let n := v.toNat
  if x.st = .held || x.st = .pending then x
  else if r = 4 then { x with id := v &&& 0x7FFFFFFF }
  else if r = 8 then { x with dlc := BitVec.ofNat 4 n, flags := BitVec.ofNat 6 (n / 256) }
  else if r = 0xC then { x with mark := v }
  else if r = 0x10 then { x with time := setHalf x.time false v }
  else if r = 0x14 then { x with time := setHalf x.time true v }
  else if 0x20 ≤ r ∧ r < 0x60 then { x with data := twriteN 0 x.data (r - 0x20) (toLe 4 n) }
  else x

/-- A register of the configuration, open only in the INIT state (R373). -/
def writeCanCfg (m : Nat) (g : CanRec → CanRec) (s : State) : State :=
  if (s.canc m).st = .init then State.modCan m g s else s

/-- Whether a write may set DISC: no other controller and not the PTP engine has it, and on CAN6 and CAN7 only Thallus sets it (R386,
R523). -/
def State.canDiscFree (s : State) (init m : Nat) : Bool :=
  !s.eth.ptpDisc && (List.range 8).all (fun k => k = m || !(s.canc k).disc) && (decide (m < 6) || init = 0xC0)

/-- CTRL: the modes only in the INIT state, BOAUTO and BOREC out of BUSOFF, INIT (R372, R373, R389). -/
def writeCanCtrl (m n : Nat) (s : State) : State :=
  let s := writeCanCfg m (fun r => { r with lom := bit n 1, rom := bit n 2 }) s
  let s := State.modCan m (fun r => { r with boauto := bit n 3 }) s
  let s := if bit n 3 || bit n 4 then opBorec m s else s
  if bit n 0 then (if (s.canc m).st = .init then s else opCanEnterInit m false s) else opCanLeaveInit m s

/-- SOURCE follows a disciplining slave's configuration (R386). -/
def sourceFollows (m : Nat) (was : Bool) (s : State) : State :=
  if (s.canc m).disciplines then { s with gctl := { s.gctl with timeSource := .can } }
  else if was && s.gctl.timeSource = .can then timeFree s else s

/-- TTCFG; a write that would set DISC where another source has it leaves the field 0 (R386, R396). -/
def writeTtcfg (init m n : Nat) (s : State) : State :=
  let ok := s.canDiscFree init m
  sourceFollows m (s.canc m).disciplines
    (writeCanCfg m (fun r => { r with role := BitVec.ofNat 2 n, disc := bit n 2 && (ok || r.disc), refIde := bit n 3 }) s)

/-- A write of a controller's register or message memory. -/
def writeCan (init m o : Nat) (v : Word32) (s : State) : State :=
  let n := v.toNat
  match inTable o 0x8000 0x80 128, inTable o 0x40 4 4, inTable o 0x50 4 4 with
  | some (i, w), _, _ => State.modObj m i (ObjRec.write w v) s
  | _, some (k, _), _ => opTxreq m k v s
  | _, _, some (k, _) => opTxabort m k v s
  | _, _, _ =>
    if o = 0 then writeCanCtrl m n s
    else if o = 0x10 then writeCanCfg m (fun r => { r with nbt := v &&& 0x7F7FFFFF }) s
    else if o = 0x14 then writeCanCfg m (fun r => { r with dbt := v &&& 0x0F0F1F1F }) s
    else if o = 0x18 then writeCanCfg m (fun r => { r with tdc := v &&& 0x00007F01 }) s
    else if o = 0x20 then opCanRxcfg m v s
    else if o = 0x28 then opCanRxGet m v s
    else if o = 0x2C then State.modCan m (fun r => { r with rxLost := clearBy r.rxLost n }) s
    else if o = 0x80 then writeTtcfg init m n s
    else if o = 0x84 then writeCanCfg m (fun r => { r with ttRef := v &&& 0x1FFFFFFF }) s
    else if o = 0x88 then writeCanCfg m (fun r => { r with ttCycle := v }) s
    else if o = 0x8C then writeCanCfg m (fun r => { r with ttTimeout := v }) s
    else if o = 0x90 then writeCanCfg m (fun r => { r with ttWin := v }) s
    else s

end Sys2Proof.Machine
end

