-- ==== Sys2Proof/Machine/Security.lean ====
section
/-! DEFINITION. Firmware updates, fuses, attestation and the unlock (R594 to R603, 18). -/

namespace Sys2Proof.Machine

/-! ### FW_WRITE (R436, R594 to R596) -/

/-- The device with its fuses as they stand now (R594). -/
def State.withCurrentFuses (s : State) : State := { s with sec := { s.sec with sensed := s.sec.fuses } }

/-- Status of a failed image check (R594). -/
def fwStatus (code : Nat) : Nat := if code = 0x0B05 then 0x65 else 0x66

/-- FW_WRITE: read through DMA29, checked, and the flash write begins (R594). -/
def actFwWrite (c : Cmd) (s : State) : State :=
  if s.sec.flashWrite = .inProgress then finishCmd c.tag 0x25 0 0 s
  else
    let r := readImage 29 (c.fld 0x20 8) (c.fld 0x18 4) s
    match r.1 with
    | none => finishCmd c.tag 0x28 0 0 r.2
    | some d => match r.2.withCurrentFuses.checkImage d with
      | some x => finishCmd c.tag (fwStatus x.1) 0 0 r.2
      | none => { r.2 with sec := { r.2.sec with flashWrite := .inProgress, flashImage := d, flashCmd := some c.tag } }

/-- FW_FLASH_WRITE_DONE: erased, programmed and read back; a mismatch ends the command with 0x28 (R594, R595, R608). -/
def opFlashDone (ok : Bool) (s : State) : State :=
  if s.sec.flashWrite ≠ .inProgress then s
  else
    let d := s.sec.flashImage
    let tag := s.sec.flashCmd
    let sec := { s.sec with flashWrite := if ok then .written else .failed, flashImage := [], flashCmd := none, flashSpoiled := !ok,
                            flash := if ok then d else [], flashRb := if ok then BitVec.ofNat 8 (field d 0x10 1) else 0xFF }
    let s := { s with sec := sec }
    match tag with
    | some t => match s.cmd t with
      | some c => if c.stage = .started then finishCmd t (if ok then 0 else 0x28) (c.fld 0x18 4) 0 s else s
      | none => s
    | none => s

/-! ### FUSE_PROGRAM (R597 to R600) -/

/-- A fuse word as blown so far. -/
def State.blown (s : State) (w : Nat) : Nat := (tget 0 s.sec.fuses w).toNat

/-- A field of CFG that takes DATA only while none of its bits is blown (R597). -/
def onceField (old data hi lo : Nat) : Bool := bits data hi lo = 0 || bits old hi lo = 0

/-- Word 0x101: contiguous from bit 0, and not above the running image's or the flash image's ROLLBACK (R600). -/
def State.rollbackOk (s : State) (v : Nat) : Bool :=
  (List.range 129).any (fun n => v = 2 ^ n - 1 && decide (n ≤ s.sec.rollback.toNat) && decide (n ≤ s.sec.flashRb.toNat))

/-- Whether the customer rule of a word allows the blow (R597, R598, R600). -/
def State.fuseAllowed (s : State) (w data : Nat) : Bool :=
  let old := s.blown w
  decide (0x100 ≤ w) && decide (w ≤ 0x1BF) && (w = 0x101 || !bit (s.blown 0x100) 9) &&
  (if w = 0x100 then onceField old data 3 0 && onceField old data 31 16 && onceField old data 47 32
   else if w = 0x101 then s.rollbackOk (old ||| data)
   else if 0x10A ≤ w ∧ w ≤ 0x10F then true
   else old = 0)

/-- The bits of a word that exist: CFG has none above bit 47 and none at 10 to 15 (R8, R597). -/
def fuseBits (w data : Nat) : Nat := if w = 0x100 then data &&& 0xFFFFFFFF03FF else data

/-- Key slot of a digest word, 0xFF for another (R597, R604). -/
def slotOfWord (w : Nat) : Nat := if 0x102 ≤ w ∧ w ≤ 0x109 then (w - 0x102) / 2 else 0xFF

/-- FUSE_PROGRAM; bad holds the bits that do not read back blown (R599). -/
def actFuse (bad : BitVec 128) (c : Cmd) (s : State) : State :=
  let w := c.fld 0x18 2
  let data := fuseBits w (c.fld 0x20 16)
  if !s.fuseAllowed w data then finishCmd c.tag 0x64 0 0 s
  else
    let new := (tget 0 s.sec.fuses w) ||| (BitVec.ofNat 128 data &&& ~~~bad)
    let s := { s with sec := { s.sec with fuses := tset 0 s.sec.fuses w new } }
    if BitVec.ofNat 128 data &&& ~~~new = 0 then finishCmd c.tag 0 w 0 s
    else finishCmd c.tag 0x64 0 0 (reportCode 0x0B06 (slotOfWord w) s)

/-! ### Identity and attestation (R601, R602) -/

/-- LIFECYCLE (R598, R602). -/
def State.lifecycle (s : State) : Nat := if s.sec.returned then 2 else if s.unprovisioned then 0 else 1

/-- The identity private key (R601). -/
def State.identityKey (s : State) : List Byte := shake256 (toLe 32 s.sec.seed.toNat ++ toLe 1 (b2n s.sec.returned)) 57

/-- SLOTS: fused and revoked (R602). -/
def State.slotByte (s : State) : Nat :=
  (List.range 4).foldl (fun a i => a + place (b2n (s.slotFused i)) i + place (b2n (s.slotRevoked i)) (4 + i)) 0

/-- What M_MODELS measures: ID and digest of every registered model, ascending (R602). -/
def State.modelDigests (s : State) : List Byte :=
  (s.sched.models.filter (fun e => e.2.st ≠ .free)).flatMap (fun e => toLe 2 e.1 ++ slice e.2.digest 0 32)

/-- Bytes 0x000 to 0x06F of the report and the measurements after them (R602). -/
def State.reportBody (s : State) (nonce : List Byte) : List Byte :=
  let img := s.sec.image
  toLe 4 0x5454534B ++ toLe 2 1 ++ toLe 2 528 ++ toLe 16 s.sec.serial.toNat ++ toLe 4 s.fwver ++ [s.sec.rollback] ++
  toLe 1 s.rollbackCount ++ toLe 1 s.lifecycle ++
  toLe 1 (b2n s.fwEn + 2 * b2n (bit (s.fuse 0x100) 9) + place s.sec.source.toNat 2) ++ toLe 1 s.slotByte ++ [0, 0, 0] ++
  toLe 4 s.gctlId ++ toLe 8 s.gctl.time.toNat ++ nonce ++ shake256 img 32 ++ shake256 (fwSection img 2) 32 ++
  shake256 ((List.range 192).flatMap (fun i => toLe 16 (s.fuse (0x100 + i)))) 32 ++ shake256 s.modelDigests 32

/-- The 528-byte report (R602). -/
def State.attestation (s : State) (nonce : List Byte) : List Byte :=
  let zeros := fun n => List.replicate n (0 : Byte)
  let body := s.reportBody nonce ++ edPublic s.identityKey ++ zeros 7 ++
    (if s.sec.returned then zeros 114 else slice s.sec.endorsement 0 114) ++ zeros 14
  body ++ edSign s.identityKey body ++ zeros 14

/-- ATTEST (R602). -/
def actAttest (c : Cmd) (s : State) : State :=
  finishData c.tag 0 (clean (s.attestation (slice c.pkt 0x18 32))) 528 0 s

/-! ### Unlock (R603) -/

/-- The message an unlock token signs. -/
def State.unlockMessage (s : State) : List Byte := toLe 16 s.sec.serial.toNat ++ toLe 32 s.sec.chal.toNat ++ toLe 4 0x4B4C4E55

/-- The token as written, 114 bytes (R609). -/
def State.unlockToken (s : State) : List Byte := ((treadN 0 s.sec.token 0 29).flatMap (fun w => toLe 4 w.toNat)).take 114

/-- UNLOCK: with a good token and no pipeline running, the customer's digests and REVOKE bits are blown, then RETURNED, and
initiator 0xFF is enabled; else 0x0B07 (R603). -/
def opUnlock (s : State) : State :=
  if !s.runningPipes.isEmpty || !edVerify s.sec.malsureKey s.unlockMessage s.unlockToken then reportCode 0x0B07 0xFF s
  else
    let f := forUpTo 8 (fun i t => tset 0 t (0x102 + i) (BitVec.allOnes 128)) s.sec.fuses
    { s with sec := { s.sec with fuses := tset 0 f 0x100 (tget 0 f 0x100 ||| 0xF0), returned := true } }

/-- FW_WRITE (R594). -/
def execFwWrite (tag : Nat) (s : State) := perform (startCmd 0x61 tag actFwWrite) s
/-- FW_FLASH_WRITE_DONE (R594). -/
def execFwFlashWriteDone (ok : Bool) (s : State) := performSaf (opFlashDone ok) s
/-- FUSE_PROGRAM (R599). -/
def execFuseProgram (tag : Nat) (bad : BitVec 128) (s : State) := perform (startCmd 0x62 tag (actFuse bad)) s
/-- ATTEST (R602). -/
def execAttest (tag : Nat) (s : State) := perform (startCmd 0x60 tag actAttest) s
/-- UNLOCK (R603). -/
def execUnlock (s : State) := performReg opUnlock s

end Sys2Proof.Machine
end

