-- ==== Sys2Proof/Machine/Sleep.lean ====
section
/-! DEFINITION. Sleep states: request, entry, wake events, exit, pad hold (R413, R563 to R570, R614, 17). -/

namespace Sys2Proof.Machine

/-! ### Request (R413, R564, R565) -/

/-- The runs in flight are pre-empted, to restart after wake (R296, R565). -/
def yieldRuns (s : State) : State :=
  (s.sched.runs.filter (fun r => r.st = .dispatched)).foldl (fun t r => preemptRun r.num t) s

/-- SET_SLEEP: vetoed while VEH_MOTION is high or a pipeline runs, else entry starts; S3 and S4 complete before it (R413, R564, R565). -/
def actSetSleep (motion : Bool) (c : Cmd) (s : State) : State :=
  let k := c.fld 0x18 1
  let s := { s with pins := { s.pins with vehMotion := motion } }
  if motion || !s.runningPipes.isEmpty then finishCmd c.tag 0x61 0 0 s
  else
    let s := { s with pwr := { s.pwr with phase := .entering, sleepTo := BitVec.ofNat 3 k, sleepCmd := some c.tag, wakeCause := 0, wakeSeen := false } }
    yieldRuns (if k < 3 then s else finishCmd c.tag 0 k 0 s)

/-! ### Entry (R565) -/

/-- Every run has yielded, every DMA channel stands at a descriptor boundary, and a completion posted before entry is out (R413, R565). -/
def State.quiesced (s : State) : Bool :=
  s.sched.runs.all (fun r => r.st ≠ .dispatched) &&
  s.fronds.all (fun e => !e.2.slot0.aborting && !e.2.slot1.aborting && !e.2.slot0.executing && !e.2.slot1.executing) &&
  s.dma.all (fun e => e.2.st ≠ .running || e.2.flight = []) &&
  (decide (s.pwr.sleepTo.toNat < 3) || (match s.pwr.sleepCmd with
    | some tag => (s.cmd tag).isNone
    | none => true))

/-- A bank moves toward RET: FENCING, and out of it at once where nothing holds it (R150, R565). -/
def fenceBank (now : Word64) (b : BankRec) : BankRec :=
  let x := fenceResolve (bankTo .ret now b)
  { x with moving := false }

/-- Every ON bank of every Frond moves toward RET (R565). -/
def fenceAll (s : State) : State :=
  forUpTo 144 (fun f t => State.modFrond f (fun r => forUpTo 32 (fun b x => x.modBank b (fenceBank t.gctl.time)) r) t) s

/-- No bank is ON or still fenced. -/
def State.banksDown (s : State) : Bool :=
  (List.range 144).all (fun f => (List.range 32).all (fun b => !((s.frond f).bank b).serves))

/-- The fabric is power-gated (R563). -/
def gateFabric (s : State) : State := forUpTo 4 (fun q t => State.modQuad q (fun r => { r with powered := false, stretching := false }) t) s

/-- READY 0 and FAULT_N low (R565). -/
def fallReady (s : State) : State :=
  { s with gctl := { s.gctl with ready := false }, pins := { s.pins with faultN := false, slpS3N := false }, twin := { s.twin with armed := false } }

/-- The links of the domains that go down in S3 (R516, R537, R563). -/
def dropLinks (s : State) : State :=
  forUpTo 4 (fun n t => if (t.port n).link = .up then linkLost n .training t else t) (opPcieReset s)

/-- Only AON keeps its state in S4: what resets keep, the wake registers and causes, and the source and fuses of the last reset
(R563, R568, R584, R599, R603). -/
def loseAll (s : State) : State :=
  let t := keptOverSys s
  { t with sec := { t.sec with source := s.sec.source, chal := s.sec.chal },
           pwr := { t.pwr with wakeCause := s.pwr.wakeCause, wakeSeen := s.pwr.wakeSeen, holdSoc := true, holdSaf := true },
           pins := { t.pins with slpS3N := false, slpS4N := false } }

/-- The domains of the state go down (R565, R569, R570). -/
def domainsDown (k : Nat) (s : State) : State :=
  match k with
  | 1 => s
  | 2 => gateFabric s
  | 3 =>
    let s := dropLinks (fallReady (gateFabric s))
    { s with mem := { s.mem with selfRefresh := true }, pwr := { s.pwr with holdSoc := true } }
  | _ => loseAll s

/-- Entry is complete; an exit begins at once where a wake event came during it (R566, R567, R614). -/
def asleepNow (k : Nat) (s : State) : State :=
  { s with pwr := { s.pwr with sleep := BitVec.ofNat 3 k, sleepTo := 0, sleepCmd := none, aonNs := 0,
                               phase := if s.pwr.wakeSeen then .waking else .steady, wakeSeen := false },
           pins := if s.pwr.wakeSeen then { s.pins with slpS3N := true, slpS4N := true } else s.pins }

/-- SLEEP_ENTRY_COMPLETE: with everything drained, the banks fenced and the domains down; a bank that is still fenced, or whose
fence was abandoned, is tried again (R565). -/
def opSleepEntry (s : State) : State :=
  if s.pwr.phase ≠ .entering || !s.quiesced then s
  else
    let k := s.pwr.sleepTo.toNat
    let s := if k < 2 then s else fenceAll s
    if decide (2 ≤ k) && !s.banksDown then s
    else
      let tag := s.pwr.sleepCmd
      let s := asleepNow k (domainsDown k s)
      match tag with
      | some c => if k < 3 then finishCmd c 0 k 0 s else s
      | none => s

/-! ### Exit (R152, R294, R295, R567, R568) -/

/-- A Frond with a bank that was OFF gets a fresh epoch, and if mapped a golden sequence before any descriptor (R294, R295). -/
def refreshFrond (f : Nat) (s : State) : State :=
  if (List.range 32).all (fun b => ((s.frond f).bank b).st ≠ .off) then s
  else
    let s := epochAndInvalidate f s
    if (s.fp f).st = .mapped then State.modGolden f (fun g => { g with clockReq := true, forced := true }) s else s

/-- A bank in RET returns to ON, contents as before (R152, R568). -/
def bankBack (b : BankRec) : BankRec := if b.st = .ret then { b with st := .on, target := .on, moving := false } else b

/-- The fabric's power, banks and epochs (R568). -/
def restoreFabric (s : State) : State :=
  let s := forUpTo 4 (fun q t => State.modQuad q (fun r => { r with powered := true }) t) s
  forUpTo 144 (fun f t => refreshFrond f (State.modFrond f (fun r => forUpTo 32 (fun b x => x.modBank b bankBack) r) t)) s

/-- AON ticks in the sleep (R568). -/
def Pwr.aonTicks (p : Pwr) : Nat := p.aonNs * 32768 / 1000000000

/-- Ticks × 30,517.578125 ns, rounded to 2 ns; a tie may go either way (R568; log 8). -/
def sleptNs (s : State) : Nat × State :=
  let x := s.pwr.aonTicks * 1000000000
  let half := x / 65536
  if x % 65536 < 32768 then (2 * half, s)
  else if 32768 < x % 65536 then (2 * half + 2, s)
  else let d := draw 1 s; (2 * half + 2 * d.1.toNat, d.2)

/-- After S3 the timebase resumes, unlocked, and main memory leaves self-refresh (R568). -/
def resumeTime (s : State) : State :=
  let d := sleptNs s
  let s := d.2
  { s with gctl := { s.gctl with time := s.gctl.time + BitVec.ofNat 64 d.1, locked := false }, mem := { s.mem with selfRefresh := false } }

/-- The device is in S0 again. -/
def awake (s : State) : State :=
  { s with pwr := { s.pwr with sleep := 0, phase := .steady, aonNs := 0 }, pins := { s.pins with slpS3N := true, slpS4N := true } }

/-- SLEEP_EXIT_COMPLETE: the domains return; after S4 the device starts up as after a reset (R568). -/
def opSleepExit (s : State) : State :=
  if s.pwr.phase ≠ .waking then s
  else match s.pwr.sleep.toNat with
    | 1 => advanceLevels (awake s)
    | 2 => advanceLevels (awake (restoreFabric s))
    | 3 => advanceLevels (becomeReady (awake (resumeTime (restoreFabric s))))
    | _ => loadImage (awake s)

/-! ### Wake events and pad hold (R566, R570, R581) -/

/-- VEH_MOTION_RISE: the pad's level, and a wake event (R564, R566). -/
def opMotionRise (s : State) : State := wakeEvent 0 { s with pins := { s.pins with vehMotion := true } }

/-- WAKE_TIMER_EXPIRY: PWR_WAKE_TIMER ticks after entry completed (R566, R579). -/
def opWakeTimer (s : State) : State :=
  if s.pwr.sleep ≠ 0 && s.pwr.wakeTimer ≠ 0 && decide (s.pwr.wakeTimer.toNat ≤ s.pwr.aonTicks) then wakeEvent 3 s else s

/-- CAN_FRAME_RECEIVE: the controller takes the frame, and one on CAN6 or CAN7 is a wake event in S3 (R375, R566). -/
def opCanFrame (m : Nat) (f : CanFrame) (age : Word32) (s : State) : State :=
  let s := opCanReceive m f age s
  if 6 ≤ m then wakeEvent 4 s else s

/-- PAD_HOLD_RELEASE: the SAF bit only from Thallus; FAULT_N then shows what Thallus drives (R37, R570, R581, R585). -/
def opPadRelease (init v : Nat) (s : State) : State :=
  let saf := s.pwr.holdSaf && bit v 0 && init = 0xC0
  if init ≠ 0xC0 && !s.barUp then s else
  { s with pwr := { s.pwr with holdSoc := s.pwr.holdSoc && !bit v 1, holdSaf := s.pwr.holdSaf && !saf },
           pins := { s.pins with faultN := if saf then (s.gctl.ready || s.island.restarting) && !s.island.silent else s.pins.faultN } }

/-- SET_SLEEP (R413, R564). -/
def execSetSleep (tag : Nat) (motion : Bool) (s : State) := perform (startCmd 0x50 tag (actSetSleep motion)) s
/-- SLEEP_ENTRY_COMPLETE (R565). -/
def execSleepEntryComplete (s : State) := performSaf opSleepEntry s
/-- SLEEP_EXIT_COMPLETE (R568). -/
def execSleepExitComplete (s : State) := performAon opSleepExit s
/-- VEH_MOTION_RISE (R566). -/
def execVehMotionRise (s : State) := performAon opMotionRise s
/-- WAKE_N_LOW (R566). -/
def execWakeNLow (s : State) := performAon (wakeEvent 2) s
/-- WAKE_TIMER_EXPIRY (R566). -/
def execWakeTimerExpiry (s : State) := performAon opWakeTimer s
/-- CAN_FRAME_RECEIVE (R375). -/
def execCanFrameReceive (m : CanNo) (frame : CanFrame) (age : Word32) (s : State) :=
  if Instr.wf (.canFrameReceive m frame age) then performCan m.val (opCanFrame m.val frame age) s else .refused .illFormed
/-- PAD_HOLD_RELEASE (R581). -/
def execPadHoldRelease (init : Initiator) (value : Word32) (s : State) := performSaf (fun t => wakeEvent 1 (opPadRelease init.toNat value.toNat t)) s

end Sys2Proof.Machine
end

