-- ==== Sys2Proof/Machine/RegsPwr.lean ====
section
/-! DEFINITION. The registers of the power and security blocks (R572 to R583, R605 to R610). -/

namespace Sys2Proof.Machine

/-! ### PWR (R572 to R583) -/

/-- PHASE (R573). -/
def SleepPhase.code : SleepPhase → Nat
  | .steady => 0 | .entering => 1 | .waking => 2

/-- Quadrant q (R574 to R576). -/
def readQuad (s : State) (q r : Nat) : Nat :=
  let x := s.quad q
  if r = 0 then pack [(x.level.toNat, 0), (x.target.toNat, 4), (b2n x.forcedTherm, 8), (b2n x.forcedCal, 9), (b2n x.pll, 10), (b2n x.stbyLock, 11)]
  else if r = 4 then x.stretch.toNat
  else if r = 8 then x.temp.toNat
  else 0

/-- PWR registers. -/
def readPwr (s : State) (o : Nat) : Nat :=
  let p := s.pwr
  match inTable o 0x10 0x10 4, inTable o 0x100 4 8 with
  | some (q, r), _ => readQuad s q r
  | _, some (i, _) => pack [((s.droop i).qlast.toNat, 0), ((s.droop i).count.toNat, 16)]
  | _, _ =>
    if o = 0 then pack [(b2n p.lock, 31)]
    else if o = 4 then pack [(p.sleep.toNat, 0), (p.phase.code, 4), (b2n s.pins.vehMotion, 6), (b2n p.calDone, 7), (p.wakeCause.toNat, 16)]
    else if o = 0x200 then pack [(3, 0), (b2n p.wakeNEn, 2), (b2n p.wakeTimerEn, 3), (b2n p.wakeCan, 4)]
    else if o = 0x204 then p.wakeTimer.toNat
    else if o = 0x208 then pack [(b2n p.holdSaf, 0), (b2n p.holdSoc, 1)]
    else if o = 0x300 then pack [(p.addr.toNat, 0), (p.exp.toNat, 16), (p.settle.toNat, 24)]
    else if o = 0x304 then pack [(p.throttle.toNat, 0), (p.hyst.toNat, 8)]
    else 0

/-- A write of PWR by an initiator; RWL fields lock with PWR_CTRL.LOCK (R572, R577 to R583). -/
def writePwr (init o : Nat) (v : Word32) (s : State) : State :=
  let p := s.pwr
  let n := v.toNat
  match inTable o 0x100 4 8 with
  | some (i, _) => State.modDroop i (fun d => { d with count := clearBy d.count (bits n 31 16) }) s
  | none =>
    if o = 0 then { s with pwr := { p with lock := p.lock || bit n 31 } }
    else if o = 0x200 then { s with pwr := { p with wakeNEn := bit n 2, wakeTimerEn := bit n 3, wakeCan := bit n 4 } }
    else if o = 0x204 then { s with pwr := { p with wakeTimer := v } }
    else if o = 0x20C then opPadRelease init n s
    else if p.lock then s
    else if o = 0x300 then { s with pwr := { p with addr := BitVec.ofNat 7 n, exp := BitVec.ofNat 5 (n / 65536), settle := BitVec.ofNat 8 (n / 2 ^ 24) } }
    else if o = 0x304 then { s with pwr := { p with throttle := BitVec.ofNat 8 n, hyst := BitVec.ofNat 8 (n / 256) } }
    else s

/-! ### SEC (R605 to R610) -/

/-- PHASE (R605). -/
def BootPhase.code : BootPhase → Nat
  | .loading => 0 | .hostWait => 1 | .verified => 2 | .failed => 3

/-- WRITE (R608). -/
def FlashWrite.code : FlashWrite → Nat
  | .none => 0 | .inProgress => 1 | .written => 2 | .failed => 3

/-- SEC registers; PUSH_LEN, TOKEN and CTRL are write-only. -/
def readSec (s : State) (o : Nat) : Nat :=
  let x := s.sec
  match inTable o 0x100 4 8, inTable o 0x10000 0x10 448 with
  | some (k, _), _ => bits x.chal.toNat (32 * k + 31) (32 * k)
  | _, some (w, r) => s.fuseWord w r
  | _, _ =>
    if o = 0 then pack [(x.source.toNat, 0), (x.phase.code, 4), (x.cslot.toNat, 8), (s.lifecycle, 10), (x.rollback.toNat, 16)]
    else if o = 4 then x.bootNext.toNat
    else if o = 0x10 then pack [(x.flashWrite.code, 0), (x.flashRb.toNat, 16)]
    else 0

/-- A write of SEC. -/
def writeSec (o : Nat) (v : Word32) (s : State) : State :=
  match inTable o 0x200 4 29 with
  | some (k, _) => { s with sec := { s.sec with token := tset 0 s.sec.token k v } }
  | none =>
    if o = 4 then { s with sec := { s.sec with bootNext := BitVec.ofNat 2 v.toNat } }
    else if o = 8 then opPushLen v.toNat s
    else if o = 0x280 then (if v.getLsbD 0 then opUnlock s else s)
    else s

end Sys2Proof.Machine
end

