-- ==== Sys2Proof/Machine/Mmio.lean ====
section
/-! DEFINITION. The register space as a whole and the NOC: BAR0 reads and writes by width, firewall and block, REGISTER_WRITE and
NOC_TRANSACTION (R9, R10, R26 to R33, R340, R348, R349, R585). -/

namespace Sys2Proof.Machine

/-! ### BAR0 (R9, R27) -/

/-- The blocks of BAR0 (R27). -/
inductive Block where
  | gctl | cmdq | mbox | loop | sched | dma | memc | pwr | can (m : Nat) | eth | thal | sec | twin | frnd (f : Nat) | ctxt | none
deriving DecidableEq, Repr

/-- The block of a BAR0 offset, and the offset in the block; FRND's and CAN's windows are 64 KiB each (R27). -/
def blockOf (off : Nat) : Block × Nat :=
  let o := off % 0x100000
  match off / 0x100000 with
  | 0 => (.gctl, o)
  | 1 => (.cmdq, o)
  | 2 => (.mbox, o)
  | 3 => (.loop, o)
  | 4 => (.sched, o)
  | 5 => (.dma, o)
  | 6 => (.memc, o)
  | 7 => (.pwr, o)
  | 8 => if o < 0x60000 then (.can (o / 0x10000), o % 0x10000) else (.none, o)
  | 9 => (.eth, o)
  | 10 => (.thal, o)
  | 11 => (.sec, o)
  | 12 => (.twin, o)
  | 32 => (.ctxt, o)
  | _ => if 0x1000000 ≤ off ∧ off < 0x1900000 then (.frnd ((off - 0x1000000) / 0x10000), off % 0x10000) else (.none, o)

/-- An offset of Thallus's own space, which only 0xC0 and 0xC1 reach: CAN6 and CAN7 (11; DESIGN CHOICE, log 109: the spec gives no addresses,
so they follow CAN5's). -/
def ownSpace (init off : Nat) : Bool := (init = 0xC0 || init = 0xC1) && decide (0x860000 ≤ off) && decide (off < 0x880000)

/-- The block an initiator's access reaches. -/
def blockFor (init off : Nat) : Block × Nat := if ownSpace init off then (.can (off / 0x10000 - 0x80), off % 0x10000) else blockOf off

/-- Blocks whose accesses complete as in R9 during a safe-state restart (R340). -/
def Block.restarts : Block → Bool
  | .loop => true | .sched => true | .cmdq => true | .mbox => true | .dma => true | .can m => decide (m < 6) | .frnd _ => true | .ctxt => true
  | _ => false

/-- A block answers: only GCTL and SEC, and Thallus's own, before the Rhizome runs, and not the restarting ones during a restart
(R340, R585). -/
def State.answers (s : State) (b : Block) : Bool :=
  (decide (2 ≤ s.gctl.bootStage.toNat) || b = .gctl || b = .sec || b = .can 6 || b = .can 7) && !(s.island.restarting && b.restarts)

/-- A 32-bit register of a block. -/
def readBlock (s : State) : Block → Nat → Nat
  | .gctl, o => readGctl s o
  | .cmdq, o => readCmdq s o
  | .mbox, o => readMbox s o
  | .loop, o => readLoop s o
  | .sched, o => readSched s o
  | .dma, o => readDma s o
  | .memc, o => readMemc s o
  | .pwr, o => readPwr s o
  | .can m, o => readCan s m o
  | .eth, o => readEth s o
  | .thal, o => readThal s o
  | .sec, o => readSec s o
  | .twin, o => readTwin s o
  | .frnd f, o => readFrnd s f o
  | .ctxt, o => readCtxt s o
  | .none, _ => 0

/-- A write of a 32-bit register of a block; THAL, MBOX and CTXT discard writes (R27, R224, R415). -/
def writeBlock (init : Nat) (v : Word32) (s : State) : Block → Nat → State
  | .gctl, o => writeGctl o v s
  | .cmdq, o => writeCmdq o v s
  | .mbox, _ => s
  | .loop, o => writeLoop o v s
  | .sched, o => writeSched o v s
  | .dma, o => writeDma init o v s
  | .memc, o => writeMemc o v s
  | .pwr, o => writePwr init o v s
  | .can m, o => writeCan init m o v s
  | .eth, o => writeEth o v s
  | .thal, _ => s
  | .sec, o => writeSec o v s
  | .twin, o => writeTwin o v s
  | .frnd f, o => writeFrnd init f o v s
  | .ctxt, _ => s
  | .none, _ => s

/-- The register of a block at an offset that is a multiple of 4; 0 where the block does not answer. -/
def blockWord (s : State) (b : Block × Nat) : Nat := if s.answers b.1 then readBlock s b.1 b.2 else 0

/-- The register at a BAR0 offset that is a multiple of 4. -/
def mmioWord (s : State) (off : Nat) : Nat := blockWord s (blockOf off)

/-- Write the register at a BAR0 offset that is a multiple of 4. -/
def mmioPut (init off : Nat) (v : Word32) (s : State) : State :=
  let b := blockFor init off
  if s.answers b.1 then writeBlock init v s b.1 b.2 else s

/-- A naturally aligned 32-bit or 64-bit access (R9). -/
def mmioAligned (off n : Nat) : Bool := (n = 4 || n = 8) && off % n = 0

/-- What an access reads: zeros where it is not aligned (R9). -/
def mmioRead (init : Nat) (s : State) (off n : Nat) : List Byte :=
  if mmioAligned off n then
    (toLe 4 (blockWord s (blockFor init off)) ++ toLe 4 (blockWord s (blockFor init (off + 4)))).take n
  else List.replicate n 0

/-- What an access writes: nothing where it is not aligned, the low word first in 64 bits (R9). -/
def mmioWrite (init off : Nat) (d : List Byte) (s : State) : State :=
  if !mmioAligned off d.length then s
  else
    let s := mmioPut init off (BitVec.ofNat 32 (field d 0 4)) s
    if d.length = 8 then mmioPut init (off + 4) (BitVec.ofNat 32 (field d 4 4)) s else s

/-- An aligned access the MMIO firewall denies; any other is not judged, nor Thallus's own space, which its regions do not cover
(R9, R348). -/
def State.mmioDenied (s : State) (init : Nat) (write : Bool) (off n : Nat) : Bool :=
  mmioAligned off n && !ownSpace init off && !s.fwMmio init write off n

/-- An MMIO write; false is the error response of a denied NOC initiator, while the host's completes (R349). A host write of BAR0
wakes the device in S1 and S2 (R566). -/
def mmioBusWrite (init off : Nat) (d : List Byte) (s : State) : Bool × State :=
  let r : Bool × State :=
    if s.mmioDenied init true off d.length then (init = 0xB0, reportFwMmio init (0x8000000000 + off) s) else (true, mmioWrite init off d s)
  (r.1, if init = 0xB0 then wakeEvent 1 r.2 else r.2)

/-- An MMIO read; none is the error response of a denied NOC initiator, while the host reads zeros (R349). -/
def mmioBusRead (init off n : Nat) (s : State) : Option (List Byte) × State :=
  if s.mmioDenied init false off n then
    (if init = 0xB0 then some (List.replicate n 0) else none, reportFwMmio init (0x8000000000 + off) s)
  else (some (mmioRead init s off n), s)

/-! ### NOC transactions (R26, R349) -/

/-- Symbol errors that sit in the words of a Frond store before the transaction reads them (log 10). -/
def placeStoreErrs (f : Nat) (l : List (Fin 262144 × List SymErr)) : State → State :=
  State.modFrond f (fun r => l.foldl (fun x e => { x with errs := tset [] x.errs e.1.val e.2 }) r)

/-- The answer of a read that is served at once. -/
def nocReply (x : NocAccess) (r : Option (List PByte) × State) : State := flitReply x.init x.vc.val x.addr x.flitErrs r

/-- A read transaction; one of the outbound window waits for its completion. -/
def nocRead (x : NocAccess) (n : Nat) (s : State) : State :=
  let i := x.init.toNat
  match targetRange x.addr n with
  | .mmio off => let r := mmioBusRead i off n s; nocReply x (r.1.map clean, r.2)
  | .outbound _ =>
    if s.fwMem i false x.addr n then outboundRequest x n s else nocReply x (none, reportFwMem i x.addr s)
  | .frond f _ => nocReply x (busRead i x.vc.val x.addr n (placeStoreErrs f x.storeErrs s))
  | _ => nocReply x (busRead i x.vc.val x.addr n s)

/-- A write's error response. -/
def nocDone (x : NocAccess) (r : Bool × State) : State := if r.1 then r.2 else emit (.readReply x.init none false) r.2

/-- A write transaction: its payload as the flits deliver it. -/
def nocWrite (x : NocAccess) (d : List Byte) (s : State) : State :=
  let i := x.init.toNat
  let f := flits i x.vc.val x.addr (d.length / 64 + 1) (clean d) x.flitErrs s
  match targetRange x.addr d.length with
  | .mmio off => nocDone x (mmioBusWrite i off (plain f.1) f.2)
  | .unmapped => nocDone x (busWrite i x.vc.val x.addr (clean d) s)
  | .frond k _ => nocDone x (busWrite i x.vc.val x.addr f.1 (placeStoreErrs k x.storeErrs f.2))
  | _ => nocDone x (busWrite i x.vc.val x.addr f.1 f.2)

/-- The host's access of BAR4: the mailboxes as they stand in BAR0, read-only; a denial as R349 (R415, R433, R535). -/
def bar4Access (x : NocAccess) (s : State) : State :=
  let off := 0x200000 + x.addr
  let i := x.init.toNat
  match x.acc with
  | .read n => let r := mmioBusRead i off n s; nocReply x (r.1.map clean, r.2)
  | .write d =>
    let t := (flits i x.vc.val x.addr (d.length / 64 + 1) (clean d) x.flitErrs s).2
    if s.mmioDenied i true off d.length then reportFwMmio i (0x8000000000 + off) t else t

/-- NOC_TRANSACTION: nothing where the identifier is never issued, nor from a host whose link is down (R26, R28). -/
def opNoc (x : NocAccess) (s : State) : State :=
  if !s.initIssued x.init.toNat || (x.init = 0xB0 && !s.gctl.pcieUp) then s
  else if x.bar4 then bar4Access x s
  else match x.acc with
    | .read n => nocRead x n s
    | .write d => nocWrite x d s

/-- Bytes of a register write as it arrives (R9). -/
def widthBytes : AccessWidth → Nat
  | .w8 => 1 | .w16 => 2 | .w32 => 4 | .w64 => 8

/-- REGISTER_WRITE (R9, R10, R349). -/
def opRegisterWrite (init : Initiator) (off : Nat) (w : AccessWidth) (v : Word64) (s : State) : State :=
  if !s.initIssued init.toNat || (init = 0xB0 && !s.gctl.pcieUp) then s
  else
    let r := mmioBusWrite init.toNat off (toLe (widthBytes w) v.toNat) s
    if r.1 then r.2 else emit (.readReply init none false) r.2

/-- NOC_TRANSACTION (R26). -/
def execNocTransaction (x : NocAccess) (s : State) := performWf (Instr.wf (.nocTransaction x)) (opNoc x) s
/-- REGISTER_WRITE (R10). -/
def execRegisterWrite (init : Initiator) (off : Nat) (width : AccessWidth) (value : Word64) (s : State) :=
  (if ownSpace init.toNat off then performWfSaf else performWf) (Instr.wf (.registerWrite init off width value))
    (opRegisterWrite init off width value) s

end Sys2Proof.Machine
end

