-- ==== Sys2Proof/Machine/Opt.lean ====
section
/-! DEFINITION. The optimiser step (R262 to R273). -/

namespace Sys2Proof.Machine

/-- 2^x as FP32 arithmetic takes it in a product. -/
def pow2 (x : Int) : Fl := .fin false 1 x

/-- A value times an exact factor, rounded once. -/
def scale32 (a : Fl) (p : Fl) : F32 := rne32 (a.mul p)

/-- The factor an E8M0 scale stands for as 2^(s - 127), NaN for 0xFF; neg for its inverse (R266, R269). -/
def scalePow (neg : Bool) (b : Nat) : Fl := if b = 0xFF then .nan else pow2 (if neg then 127 - (b : Int) else (b : Int) - 127)

/-- What an element's update gives: weight, first and second moment, and the poison of each (R269, R272). -/
structure OptElem where
  w1 : F32
  m1 : F32
  v1 : F32
  pw : Bool
  pm : Bool
  pv : Bool
deriving DecidableEq, Repr

/-- The computation of R269 over decoded operands. -/
def optCompute (hy : List F32) (w g m v : F32) : F32 × F32 × F32 :=
  let h : Nat → F32 := fun i => hy.getD i 0
  let m1 := ffma (h 2) m (fmul (h 3) g)
  let v1 := ffma (h 4) v (fmul (h 5) (fmul g g))
  let mh := fmul m1 (h 7)
  let vh := fmul v1 (h 8)
  let sq := if (dec32 vh).isZero then 0 else fmul vh (frsqrt vh)
  let u := fmul mh (frcp (fadd sq (h 6)))
  let w1 := fsub w (fmul (h 0) (fadd u (fmul (h 1) w)))
  (w1, m1, v1)

/-- A stored moment decoded: codebook entry times its block's scale, +0.0 under FIRST (R266, R271). -/
def optMoment (r : FrondRec) (x : OptBody) (h slot sh : Nat) (off : Nat) (row col : Nat) : F32 × Bool :=
  if x.first then (0, false) else
  let e := r.decoded h 7 slot (x.off + row * (r.hnd h).stride + col : Nat)
  let sc := r.elem sh 9 (off + row * (r.hnd sh).stride + col / 32 : Nat)
  (scale32 (decodeFmt (r.cb slot).efmt.toNat e.1) (scalePow false sc.1), e.2 || sc.2)

/-- Element (row, col) (R267, R269). -/
def optElem (r : FrondRec) (x : OptBody) (parPoison : Bool) (row col : Nat) : OptElem :=
  let w := r.val32 x.w 2 (x.off + row * (r.hnd x.w).stride + col : Nat)
  let gq := r.val x.g 5 0 (x.off + row * (r.hnd x.g).stride + col : Nat)
  let gs := r.elem x.gs 9 (x.gsOff + row / 32 * (r.hnd x.gs).stride + col : Nat)
  let g := fmul (scale32 gq.1 (scalePow true gs.1)) (x.hyper.getD 9 0)
  let m := optMoment r x x.m x.slotM x.ms x.msOff row col
  let v := optMoment r x x.v x.slotV x.vs x.vsOff row col
  let y := optCompute x.hyper w.1 g m.1 v.1
  let p := gq.2 || gs.2 || parPoison
  ⟨y.1, y.2.1, y.2.2, p || w.2 || m.2 || v.2, p || m.2, p || v.2⟩

/-- The block scale exponent: the smallest e with amax ≤ CMAX · 2^e, clamped (R270). -/
def blockExp (amax cmax : Fl) : Int :=
  match amax with
  | .fin _ m _ => if m = 0 then -127 else
      ((List.range 255).map (fun (i : Nat) => (i : Int) - 127)).find? (fun e => amax.le (cmax.mul (pow2 e))) |>.getD 127
  | _ => 127

/-- Entry i is better than entry j for y: strictly nearer (R263). -/
def nearestEntry (es : List Fl) (dist : Fl → Fl) : Nat :=
  (es.zipIdx.foldl (fun (b : Nat × Fl) e =>
    if e.2 = 0 then (0, dist e.1) else if (dist e.1).lt b.2 then (e.2, dist e.1) else b) (0, .nan)).1

/-- The index a value encodes to (R263). -/
def encodeEntry (es : List Fl) (y : Fl) : Nat :=
  match y with
  | .nan => nearestEntry es Fl.abs
  | .inf false => (es.zipIdx.foldl (fun (b : Nat × Fl) e => if e.2 = 0 then (0, e.1) else if b.2.lt e.1 then (e.2, e.1) else b) (0, .nan)).1
  | .inf true => (es.zipIdx.foldl (fun (b : Nat × Fl) e => if e.2 = 0 then (0, e.1) else if e.1.lt b.2 then (e.2, e.1) else b) (0, .nan)).1
  | v => nearestEntry es (fun e => (e.sub v).abs)

/-- A block of new moments written: its scale, then its indices (R270). -/
def putMoments (h slot sh : Nat) (elemOff scaleOff : Nat) (l : List (F32 × Bool)) (r : FrondRec) : FrondRec :=
  let es := (List.range 256).map (r.cbEntry slot)
  let amax := (l.map (fun y => fabs32 y.1)).foldl fmax 0
  let e := blockExp (dec32 amax) (r.cmax slot)
  let p := l.any Prod.snd
  let r := putElems sh 9 (scaleOff : Nat) [((e + 127).toNat, p)] r
  putElems h 7 (elemOff : Nat) (l.map (fun y => (encodeEntry es (dec32 (scale32 (dec32 y.1) (pow2 (-e)))), y.2))) r

/-- One block of 32 columns: read and computed from the rows as the descriptor found them, since each element and block is read before
it is written, and written (R266, R270, R272). -/
def optBlock (x : OptBody) (parPoison : Bool) (r : FrondRec) (row blk : Nat) (t : FrondRec) : FrondRec :=
  let c0 := 32 * blk
  let n := min 32 (x.cols - c0)
  let l := (List.range n).map (fun j => optElem r x parPoison row (c0 + j))
  let w := l.zipIdx.map (fun y => (encodeFmt 2 (pickRounding x.hashed x.seed x.tid (x.baseIdx + row * x.ntot + c0 + y.2)) (dec32 y.1.w1), y.1.pw))
  let st : Nat → Nat := fun h => (r.hnd h).stride
  let t := putElems x.w 2 (x.off + row * st x.w + c0 : Nat) w t
  let t := putMoments x.m x.slotM x.ms (x.off + row * st x.m + c0) (x.msOff + row * st x.ms + blk) (l.map (fun y => (y.m1, y.pm))) t
  putMoments x.v x.slotV x.vs (x.off + row * st x.v + c0) (x.vsOff + row * st x.vs + blk) (l.map (fun y => (y.v1, y.pv))) t

/-- OPTSTEP (R267 to R273). -/
def actOptstep (f : Nat) (d : QDesc) (s : State) : State :=
  let r := s.frond f
  let x := optBody r d
  let pp := (r.firstPoison [byteFoot x.par x.parOff 64]).isSome
  State.modFrond f (fun t => forUpTo x.rows (fun i u => forUpTo (cdiv x.cols 32) (fun b v => optBlock x pp r i b v) u) t) s

/-- OPTSTEP (R269). -/
def execOptstep (fp : Frond) (k : Slot) (s : State) := performFab fp.val (runOp 0x0D fp.val k.val (actOptstep fp.val)) s

end Sys2Proof.Machine
end

