-- ==== Sys2Proof/Machine/PipeCmds.lean ====
section
/-! DEFINITION. PIPE_CONFIG, PIPE_START, PIPE_STOP and ROI_SEED (R80, R86 to R90, R98, R323, R330, R357, R412, R437). -/

namespace Sys2Proof.Machine

/-! ### PIPE_CONFIG (R86 to R88) -/

/-- PREP units in the mask belong to the pipeline, and no others (R64, R98). -/
def ownUnits (p mask : Nat) (s : State) : State :=
  forUpTo 8 (fun u t => State.modPrep u (fun r =>
    if bit mask u then { r with pipe := BitVec.ofNat 4 p } else if r.pipe.toNat = p then { r with pipe := 0xF } else r) t) s

/-- An accepted blob (R86, R90, R98). -/
def acceptBlob (p : Nat) (b : PipeBlob) (s : State) : State :=
  ownUnits p b.prepMask (State.modPipe p (fun r => { r with blob := some b, ringWritten := 0 }) s)

/-- PIPE_CONFIG's own checks and its action (R88). -/
def actPipeConfig (c : Cmd) (s : State) : State :=
  let p := c.fld 0x18 1
  let len := c.fld 0x1C 4
  if (s.pipe p).running then finishCmd c.tag 0x25 0 0 s
  else
    let r := readNamed c (c.fld 0x20 8) len s
    match r.1 with
    | none => finishCmd c.tag 0x28 0 0 r.2
    | some d => match r.2.checkBlob p d len with
      | some st => finishCmd c.tag st 0 0 r.2
      | none => finishCmd c.tag 0 p 0 (acceptBlob p (parseBlob r.2.gctl.stream d) r.2)

/-! ### PIPE_START (R412) -/

/-- A start block's fields. -/
def parseStart (d : List Byte) : StartBlock :=
  { windows := (List.range 6).map (fun i => (field d (8 * i) 4, field d (8 * i + 4) 4)), feed := field d 0x30 8,
    ctxs := (List.range (min 16 (field d 0x38 1))).map (fun i => field d (0x40 + 2 * i) 2) }

/-- Step 5: the block's fields, and the blob's period-dependent ones against the PERIOD in force (R412). -/
def startFieldsOk (d : List Byte) (x : StartBlock) (b : PipeBlob) (period : Nat) : Bool :=
  field d 0x39 7 = 0 && leNat (slice d 0x60 32) = 0 && decide (1 ≤ field d 0x38 1) && decide (field d 0x38 1 ≤ 16) &&
  (b.cls = 0 || (x.feed = 0 && x.windows.all (fun w => w.1 = 0 && w.2 = 0))) && decide (b.ingestDl < period) &&
  b.streams.all (fun c => streamPeriodOk c period)

/-- Step 6: the windows of a class-0 pipeline (R330). -/
def windowsOk (ws : List (Nat × Nat)) (period : Nat) : Bool :=
  ws.all (fun w => decide (w.1 ≤ w.2)) && (List.range 5).all (fun i => decide ((ws.getD i (0, 0)).2 ≤ (ws.getD (i + 1) (0, 0)).2)) &&
  decide ((ws.getD 5 (0, 0)).2 ≤ period)

/-- Step 7: each context exists, is IDLE and has the pipeline's class. -/
def State.startCtxStatus (s : State) (cls : Nat) (xs : List Nat) : Option Nat :=
  xs.findSome? (fun x =>
    if decide (16384 ≤ x) || (s.ctx x).st = .free then some 0x45
    else if (s.ctx x).st ≠ .idle then some 0x46
    else if (s.ctx x).cls.toNat ≠ cls then some 0x47 else none)

/-- Watchdogs armed with the windows (R330, R362, R363). -/
def armWdogs (p : Nat) (ws : List (Nat × Nat)) (s : State) : State :=
  forUpTo 6 (fun i t => State.modWdog (wdogNo p i) (fun w => { w with
    openNs := BitVec.ofNat 32 (ws.getD i (0, 0)).1, closeNs := BitVec.ofNat 32 (ws.getD i (0, 0)).2,
    expired := false, armed := true, last := 0, lateFor := [], expiredFor := [] }) t) s

/-- The channels a blob names: taken at once, or when the software list they run ends (R437). -/
def takeChannels (p : Nat) (b : PipeBlob) (s : State) : State :=
  let ns := (b.streams.filter (fun c => c.kind ≠ 1 && c.outDest = 1)).foldl (fun l c => addNew l c.dmaCh) []
  ns.foldl (fun t n =>
    if (t.dmac n).owner = 1 || (t.dmac n).st ≠ .running then
      State.modDma n (fun r => { r with owner := 1 }) (State.modPipe p (fun r => { r with dmaTaken := r.dmaTaken ++ [n] }) t)
    else State.modPipe p (fun r => { r with dmaWanted := r.dmaWanted ++ [n] }) t) s

/-- The class-0 side of a start: watchdogs, MOSS until CLEAN is shown, no latency record, Moss with no feed (R315, R323, R330, R335, R360). -/
def startClass0 (p : Nat) (b : PipeBlob) (x : StartBlock) (s : State) : State :=
  let s := setAuthority p false (s.auth p).frame (armWdogs p x.windows s)
  let s := State.modAuth p (fun a => { a with clean := 0, armed := true, decided := none, passed := [], planDue := [] }) s
  let s := State.modC0 p (fun c => { liso := c.liso, h := c.h }) s
  State.modMoss p (fun m => { m with
    fclk := b.fclk, feed := none, feedAge := 0xFF, doneFrame := none, envelope := none,
    payloads := [], payloadFrame := none, submitDue := false, dueChans := [] }) s

/-- The pipeline runs from the next edge of its clock (R80, R357, R412, R437). -/
def startPipeline (p : Nat) (b : PipeBlob) (x : StartBlock) (s : State) : State :=
  let first := BitVec.ofNat 32 (s.fclk b.fclk).next
  let s := { s with loop := { s.loop with samples := s.loop.samples.filter (fun y => y.pipe ≠ p) } }
  let s := b.streams.foldl (fun t c => State.modStream c.stream (fun r =>
    { roiClear r with ignoring := false }) t) s
  let s := State.modPipe p (fun r => { r with
    running := true, start := x, firstFrame := first, cur := none, last := none, stopping := false, stopTags := [] }) s
  let s := takeChannels p b s
  refreshGolden (if b.cls = 0 then startClass0 p b x s else s)

/-- PIPE_START's own checks and its action (R412). -/
def actPipeStart (c : Cmd) (s : State) : State :=
  let p := c.fld 0x18 1
  match (s.pipe p).blob with
  | none => finishCmd c.tag 0x2A 0 0 s
  | some b =>
    let k := s.fclk b.fclk
    if (s.pipe p).running then finishCmd c.tag 0x25 0 0 s
    else if !k.en then finishCmd c.tag 0x2B 0 0 s
    else
      let r := readNamed c (c.fld 0x20 8) 128 s
      match r.1 with
      | none => finishCmd c.tag 0x28 0 0 r.2
      | some d =>
        let x := parseStart d
        if !startFieldsOk d x b k.inForce.toNat then finishCmd c.tag 0x02 0 0 r.2
        else if b.cls = 0 && !windowsOk x.windows k.inForce.toNat then finishCmd c.tag 0x63 0 0 r.2
        else match r.2.startCtxStatus b.cls x.ctxs with
          | some st => finishCmd c.tag st 0 0 r.2
          | none => finishCmd c.tag 0 ((r.2.fclk b.fclk).next % 2 ^ 32) 0 (startPipeline p b x r.2)

/-! ### PIPE_STOP (R412) -/

/-- RESULT0 of PIPE_STOP: the last frame, all ones for none. -/
def lastFrameResult (k : Option Word32) : Nat := match k with | some x => x.toNat | none => 2 ^ 64 - 1

/-- PIPE_STOP: nothing where the pipeline does not run; at once before its first edge or between frames; else with the frame under way. -/
def actPipeStop (c : Cmd) (s : State) : State :=
  let p := c.fld 0x18 1
  let r := s.pipe p
  if !r.running then finishCmd c.tag 0 (lastFrameResult r.last) 0 s
  else
    let s := State.modPipe p (fun r => { r with stopping := true, stopTags := r.stopTags ++ [c.tag] }) s
    if (s.openFrames p).isEmpty then endPipeline p r.cur s else s

/-! ### ROI_SEED (R77, R80) -/

/-- ROI_SEED writes all 32 entries and commits. -/
def actRoiSeed (c : Cmd) (s : State) : State :=
  let st := c.fld 0x18 1
  match s.boundTo st with
  | none => finishCmd c.tag 0x02 0 0 s
  | some (_, _, x) =>
    if x.kind = 1 then finishCmd c.tag 0x02 0 0 s
    else
      let r := readNamed c (c.fld 0x20 8) 512 s
      match r.1 with
      | none => finishCmd c.tag 0x28 0 0 r.2
      | some d =>
        let s := forUpTo 128 (fun w t => roiWrite st w (BitVec.ofNat 32 (field d (4 * w) 4)) t) r.2
        finishCmd c.tag 0 st 0 (roiCommit st (BitVec.ofNat 32 (c.fld 0x1C 4)) s)

/-- PIPE_CONFIG (R88). -/
def execPipeConfig (tag : Nat) (s : State) := perform (startCmd 0x40 tag actPipeConfig) s
/-- PIPE_START (R412). -/
def execPipeStart (tag : Nat) (s : State) := perform (startCmd 0x41 tag actPipeStart) s
/-- PIPE_STOP (R412). -/
def execPipeStop (tag : Nat) (s : State) := perform (startCmd 0x42 tag actPipeStop) s
/-- ROI_SEED (R80). -/
def execRoiSeed (tag : Nat) (s : State) := perform (startCmd 0x43 tag actRoiSeed) s

end Sys2Proof.Machine
end

