-- ==== Sys2Proof/Machine/Pool.lean ====
section
/-! DEFINITION. Pooling and channel argmax on the vector unit (R192 to R196). -/

namespace Sys2Proof.Machine

/-- The taps of a window as FP32 in ascending order, none where in padding. -/
def poolTaps (r : FrondRec) (x : PoolBody) (oy ox c : Nat) : List (Option (F32 × Bool)) :=
  let xh := r.hnd x.x
  (List.range (x.geo.kh * x.geo.kw)).map (fun t =>
    if x.geo.inside xh oy ox t then some (r.val32 x.x x.fx (x.geo.elem xh x.iy0 oy ox t c)) else none)

/-- A mean: the sum from the first value, times the rounded reciprocal of the count, whose first 80 places
decide the rounding (R193). -/
def poolMean (l : List F32) (n : Nat) : F32 :=
  match l with
  | [] => 0
  | v :: vs => fmul (vs.foldl fadd v) (rne32 (.fin false (2 ^ 80 / n) (-80)))

/-- One output value, a NaN in the window giving NaN in every mode (R193). -/
def poolValue (mode : Nat) (taps : List (Option (F32 × Bool))) : F32 :=
  let present := taps.filterMap (fun t => t.map Prod.fst)
  if present.any isNan32 then nan32
  else match mode with
    | 0 => (match present with | [] => negInf32 | v :: vs => vs.foldl fmax v)
    | 1 => poolMean (taps.map (fun t => (t.map Prod.fst).getD 0)) taps.length
    | _ => poolMean present present.length

/-- POOL (R192 to R194). -/
def actPool (f : Nat) (d : QDesc) (s : State) : State :=
  let x := poolBody d
  let r := s.frond f
  let yh := r.hnd x.y
  let out := (List.range x.nrow).flatMap (fun a => (List.range x.npos).map (fun b =>
    let vals := (List.range x.nc).map (fun c =>
      let t := poolTaps r x (x.oy + a) (x.ox + b) (x.c0 + c)
      (encodeFmt x.fy .nearest (dec32 (poolValue x.mode t)), t.any (fun y => match y with | some z => z.2 | none => false)))
    (((x.oy + a : Nat) - (x.oyb : Int)) * yh.stride + ((x.ox + b) * yh.cp + x.c0 : Nat), vals)))
  State.modFrond f (fun r => out.foldl (fun t y => putElems x.y x.fy y.1 y.2 t) r) s

/-- Channel c replaces the winner: a NaN where the winner is none, or a strictly greater value (R196). -/
def argBeats (w c : Fl) : Bool := (w ≠ .nan && c = .nan) || w.lt c

/-- The winning channel and its value among the values of a position (R196). -/
def argWinner (l : List Fl) : Nat × Fl :=
  l.zipIdx.foldl (fun w c => if c.2 = 0 then (0, c.1) else if argBeats w.2 c.1 then (c.2, c.1) else w) (0, .nan)

/-- ARGMAX (R195, R196). -/
def actArgmax (f : Nat) (d : QDesc) (s : State) : State :=
  let x := argBody d
  let r := s.frond f
  let xh := r.hnd x.x
  let out := (List.range x.npos).map (fun p =>
    let vals := (List.range xh.dim0).map (fun c => r.val x.x x.fx 0 (x.elem xh p + c : Nat))
    let w := argWinner (vals.map Prod.fst)
    (w.1 + place (b2n (w.2 = .nan)) 16, vals.any Prod.snd))
  State.modFrond f (fun r => putElems x.y 8 (x.yOff : Nat) out r) s

/-- POOL (R192). -/
def execPool (fp : Frond) (k : Slot) (s : State) := performFab fp.val (runOp 5 fp.val k.val (actPool fp.val)) s
/-- ARGMAX (R195). -/
def execArgmax (fp : Frond) (k : Slot) (s : State) := performFab fp.val (runOp 6 fp.val k.val (actArgmax fp.val)) s

end Sys2Proof.Machine
end

