-- ==== Sys2Proof/Machine/RocePkt.lean ====
section
/-! DEFINITION. RoCE v2 packets that arrive: keyed WRITE and READ, SEND, acknowledgements, READ data and congestion notices
(R524 to R530; operation codes and syndromes of the InfiniBand reliable connection, log 48). -/

namespace Sys2Proof.Machine

/-! ### Device memory under the engine's initiator (R524, R528) -/

/-- A write of any length in blocks of at most 64 bytes, registers included; true when every one was acknowledged. -/
def engineWrite (init : Nat) : Nat → Nat → List Byte → State → Bool × State
  | 0, _, _, s => (true, s)
  | fuel + 1, a, d, s =>
    if d = [] then (true, s)
    else
      let k := toLineEnd a
      let x := d.take k
      let r : Bool × State := match targetRange a x.length with
        | .mmio off => mmioBusWrite init off x s
        | _ => busWrite init 1 a (clean x) s
      let rest := engineWrite init fuel (a + k) (d.drop k) r.2
      (r.1 && rest.1, rest.2)

/-- A read of any length in blocks of at most 64 bytes; none for an error response. -/
def engineRead (init : Nat) : Nat → Nat → Nat → State → Option (List PByte) × State
  | 0, _, _, s => (some [], s)
  | fuel + 1, a, n, s =>
    if n = 0 then (some [], s)
    else
      let k := min n (toLineEnd a)
      let r : Option (List PByte) × State := match targetRange a k with
        | .mmio off => let x := mmioBusRead init off k s; (x.1.map clean, x.2)
        | _ => busRead init 1 a k s
      let rest := engineRead init fuel (a + k) (n - k) r.2
      (match r.1, rest.1 with | some d, some e => some (d ++ e) | _, _ => none, rest.2)

/-! ### Answers -/

/-- Syndromes of an acknowledge packet (InfiniBand; log 48). -/
def synAck : Byte := 0x1F
def synRnr : Byte := 0x20
def synSequence : Byte := 0x60
def synInvalid : Byte := 0x61
def synAccess : Byte := 0x62
def synOperation : Byte := 0x63

/-- An acknowledge packet of QP q. -/
def sendAck (q : Nat) (psn : BitVec 24) (syn : Byte) (s : State) : State :=
  sendRoce q { rocePkt 0x11 (s.qp q).dqpn psn with syndrome := syn } s

/-- A packet is refused: nothing of it is taken and any message under way is given up. -/
def refuse (q : Nat) (p : RocePkt) (syn : Byte) (s : State) : State :=
  sendAck q p.psn syn (State.modQp q (fun r => { r with writeLeft := 0, recvOffset := 0 }) s)

/-- A request packet is taken: n packet numbers are used up, and it is acknowledged where asked and at a message's end. -/
def takePkt (q n : Nat) (p : RocePkt) (ends : Bool) (s : State) : State :=
  let s := State.modQp q (fun r => { r with expPsn := p.psn + BitVec.ofNat 24 n, nakSent := false }) s
  if p.ackReq || ends then sendAck q p.psn synAck s else s

/-! ### Keys (R528) -/

/-- The key a packet names grants the range (R528). -/
def State.keyGrants (s : State) (rkey : Word32) (write : Bool) (a n : Nat) : Bool :=
  let k := s.mkey (bits rkey.toNat 7 0)
  k.en && k.tag.toNat = bits rkey.toNat 31 8 && (if write then k.wr else k.rd) &&
  decide (k.base.toNat ≤ a) && decide (a + n ≤ k.base.toNat + k.len.toNat)

/-- The firewall allows the range; a register access of another width or alignment than R9's is not judged (R9, R349). -/
def State.engineAllowed (s : State) (init : Nat) (write : Bool) (a n : Nat) : Bool :=
  n = 0 || match targetRange a n with
    | .mmio off => !s.mmioDenied init write off n
    | .unmapped => true
    | _ => s.fwMem init write a n

/-- The record of a firewall denial (R349, R528). -/
def reportDenied (init a n : Nat) : State → State :=
  match targetRange a n with
  | .mmio _ => reportFwMmio init a
  | _ => reportFwMem init a

/-- An access a key or the firewall refuses: its record and a remote-access NAK; otherwise f (R528). -/
def keyed (q : Nat) (p : RocePkt) (write : Bool) (a n : Nat) (f : State → State) (s : State) : State :=
  let r := s.qp q
  if !s.keyGrants p.rkey write a n then refuse q p synAccess (reportEth 0x0603 r.port q s)
  else if !s.engineAllowed r.init write a n then refuse q p synAccess (reportDenied r.init a n s)
  else f s

/-! ### Receive entries (R526 to R529) -/

/-- The entry at the receive queue's head: ADDR and LEN (R526). -/
def recvEntry (q : Nat) (s : State) : Option (Nat × Nat) × State :=
  let r := s.qp q
  let d := readAll r.init 1 (field r.ctx 0x28 8 + 16 * r.rqHead) 16 s
  (match d.1 with
    | some b => if poisoned b then none else some (field (plain b) 0 8, field (plain b) 8 4)
    | none => none, d.2)

/-- A receive entry is used up and its completion posted (R526, R529). -/
def takeEntry (q kind len imm : Nat) (s : State) : State :=
  addRoce q (roceEntry 0 kind 0 len imm q s.gctl.time)
    (State.modQp q (fun r => { r with rqHead := (r.rqHead + 1) % r.rqSize, recvOffset := 0 }) s)

/-- A local access of a receive fails: STATUS 3 and ERROR (R527). -/
def recvFails (q kind : Nat) (p : RocePkt) (s : State) : State :=
  let s := sendAck q p.psn synOperation s
  qpError q (addRoce q (roceEntry 0 kind 3 0 0 q s.gctl.time) s)

/-- A packet of a SEND: its payload follows what the entry already holds; the last completes the entry (R528). -/
def onSend (q : Nat) (p : RocePkt) (starts ends imm : Bool) (s : State) : State :=
  let r := s.qp q
  if starts ≠ decide (r.recvOffset = 0) || r.writeLeft ≠ 0 then refuse q p synInvalid s
  else if r.rqHead = r.rqTail then refuse q p synRnr s
  else
    let e := recvEntry q s
    match e.1 with
    | none => recvFails q 1 p e.2
    | some (a, n) =>
      if n < r.recvOffset + p.payload.length then refuse q p synInvalid e.2
      else
        let w := engineWrite r.init (p.payload.length / 64 + 2) (a + r.recvOffset) p.payload e.2
        if !w.1 then recvFails q 1 p w.2
        else
          let len := r.recvOffset + p.payload.length
          let s := if ends then takeEntry q 1 len (if imm then p.imm.toNat else 0) w.2
            else State.modQp q (fun r => { r with recvOffset := len }) w.2
          takePkt q 1 p ends s

/-! ### WRITE and READ (R528, R529) -/

/-- The end of a WRITE_IMM: the global counter of IMMSYNC after every byte's acknowledgement, else a receive entry (R529). -/
def onImm (q len : Nat) (p : RocePkt) (s : State) : State :=
  if (s.qp q).immSync then
    let n := bits p.imm.toNat 9 0
    s.setGsync n (s.gsync n + 1)
  else takeEntry q 2 len p.imm.toNat s

/-- Whether a WRITE_IMM's immediate can be taken now: none where it can, else the NAK (R529). -/
def immRefused (r : QpRec) (p : RocePkt) : Option Byte :=
  if r.immSync then (if bits p.imm.toNat 31 10 = 0 then none else some synInvalid)
  else if r.rqHead = r.rqTail then some synRnr else none

/-- The bytes of a WRITE packet, at va with left bytes of the message to come, len in all. -/
def writePkt (q va left len : Nat) (p : RocePkt) (ends imm : Bool) (s : State) : State :=
  let r := s.qp q
  let n := p.payload.length
  if left < n || (ends && left ≠ n) || (!ends && left = n) then refuse q p synInvalid s
  else match (if ends && imm then immRefused r p else none) with
    | some syn => refuse q p syn s
    | none =>
      let w := engineWrite r.init (n / 64 + 2) va p.payload s
      if !w.1 then refuse q p synAccess w.2
      else
        let s := State.modQp q (fun r => { r with writeVa := va + n, writeLeft := left - n, writeLen := len }) w.2
        takePkt q 1 p ends (if ends && imm then onImm q len p s else s)

/-- A packet of a WRITE: the first carries the key and the range (R528). -/
def onWrite (q : Nat) (p : RocePkt) (starts ends imm : Bool) (s : State) : State :=
  let r := s.qp q
  if starts ≠ decide (r.writeLeft = 0) || r.recvOffset ≠ 0 then refuse q p synInvalid s
  else if starts then
    let n := p.dmaLen.toNat
    keyed q p true p.va.toNat n (writePkt q p.va.toNat n n p ends imm) s
  else writePkt q r.writeVa r.writeLeft r.writeLen p ends imm s

/-- Operation code of packet i of n of a READ's data (InfiniBand; log 48). -/
def readOpcode (i n : Nat) : Nat := if n = 1 then 0x10 else if i = 0 then 0x0D else if i + 1 = n then 0x0F else 0x0E

/-- The data of a READ goes back, unless it is poisoned or missing (R527, R528). -/
def readBack (q : Nat) (p : RocePkt) (s : State) : State :=
  let r := s.qp q
  let n := p.dmaLen.toNat
  let d := engineRead r.init (n / 64 + 2) p.va.toNat n s
  match d.1 with
  | none => refuse q p synAccess d.2
  | some b =>
    if poisoned b then refuse q p synAccess d.2
    else
      let k := pktCount n s.mtu
      let s' := State.modQp q (fun r => { r with expPsn := if r.expPsn = p.psn then p.psn + BitVec.ofNat 24 k else r.expPsn, nakSent := false }) d.2
      (List.range k).foldl (fun t i =>
        sendRoce q { rocePkt (readOpcode i k) r.dqpn (p.psn + BitVec.ofNat 24 i) with payload := ((plain b).drop (i * s.mtu)).take s.mtu, syndrome := synAck } t) s'

/-- A request packet in its place (R524, R528). -/
def onRequest (q : Nat) (p : RocePkt) (s : State) : State :=
  match p.opcode.toNat with
  | 0 => onSend q p true false false s
  | 1 => onSend q p false false false s
  | 2 => onSend q p false true false s
  | 3 => onSend q p false true true s
  | 4 => onSend q p true true false s
  | 5 => onSend q p true true true s
  | 6 => onWrite q p true false false s
  | 7 => onWrite q p false false false s
  | 8 => onWrite q p false true false s
  | 9 => onWrite q p false true true s
  | 0x0A => onWrite q p true true false s
  | 0x0B => onWrite q p true true true s
  | 0x0C => keyed q p false p.va.toNat p.dmaLen.toNat (readBack q p) s
  | _ => refuse q p synInvalid s

/-- A request: RNR NAK during a restart; in order, repeated, or out of order (R524, R530). -/
def requestPkt (q : Nat) (p : RocePkt) (s : State) : State :=
  let r := s.qp q
  let ahead := (p.psn - r.expPsn).toNat
  if s.island.restarting then sendAck q p.psn synRnr s
  else if ahead = 0 then onRequest q p s
  else if 2 ^ 23 ≤ ahead then
    if p.opcode = 0x0C then keyed q p false p.va.toNat p.dmaLen.toNat (readBack q p) s else sendAck q (r.expPsn - 1) synAck s
  else if r.nakSent then s
  else sendAck q r.expPsn synSequence (State.modQp q (fun r => { r with nakSent := true }) s)

/-! ### Acknowledgements and READ data (R524, R526, R527) -/

/-- Packet number x lies at or before y. -/
def psnLe (x y : BitVec 24) : Bool := decide ((y - x).toNat < 2 ^ 23)

/-- The last packet number of a request. -/
def RoceReq.lastPsn (x : RoceReq) : BitVec 24 := x.psn + BitVec.ofNat 24 (x.pkts - 1)

/-- The requests from the oldest on that end at or before a packet number are complete; a READ is only with its data. -/
def ackUpTo (q : Nat) : Nat → BitVec 24 → State → State
  | 0, _, s => s
  | n + 1, psn, s => match (s.qp q).unacked with
    | [] => s
    | x :: rest =>
      if psnLe x.lastPsn psn && field x.wr 0 1 ≠ 2 then
        ackUpTo q n psn (completeWr q 0 x.wr (State.modQp q (fun r => { r with unacked := rest, retries := 0, rnr := false, rnrRetries := 0 }) s))
      else s

/-- An acknowledge packet: requests complete; an RNR NAK asks for a repeat; a NAK other than that and a sequence error fails its
request (R524, R527). -/
def onAck (q : Nat) (p : RocePkt) (s : State) : State :=
  let n := (s.qp q).unacked.length
  let k := p.syndrome.toNat
  if bits k 6 5 = 0 then ackUpTo q n p.psn s
  else
    let s := ackUpTo q n (p.psn - 1) s
    if bits k 6 5 = 1 then State.modQp q (fun r => { r with rnr := !r.unacked.isEmpty }) s
    else if bits k 6 5 ≠ 3 || bits k 4 0 = 0 then s
    else match (s.qp q).unacked with
      | [] => s
      | x :: rest => failWr q (if bits k 4 0 = 1 then 5 else 2) x.wr (State.modQp q (fun r => { r with unacked := rest }) s)

/-- A packet of the oldest READ's data: written where the request says; STATUS 3 where that fails (R526, R527). -/
def onReadData (q : Nat) (p : RocePkt) (s : State) : State :=
  let s := ackUpTo q (s.qp q).unacked.length (p.psn - 1) s
  match (s.qp q).unacked with
  | [] => s
  | x :: rest =>
    let len := field x.wr 4 4
    let n := p.payload.length
    if field x.wr 0 1 ≠ 2 || p.psn ≠ x.psn + BitVec.ofNat 24 (x.got / s.mtu) || n ≠ min s.mtu (len - x.got) then s
    else
      let w := engineWrite (s.qp q).init (n / 64 + 2) (field x.wr 0x10 8 + x.got) p.payload s
      let put : List RoceReq → State → State := fun l => State.modQp q (fun r => { r with unacked := l, retries := 0, rnr := false, rnrRetries := 0 })
      if !w.1 then failWr q 3 x.wr (put rest w.2)
      else if x.got + n = len then completeWr q 0 x.wr (put rest w.2)
      else put ({ x with got := x.got + n } :: rest) w.2

/-! ### ROCE_PACKET -/

/-- A packet for a loaded QP of the port that is READY; a CE mark is answered with a CNP first (R524). -/
def qpPacket (n : Nat) (p : RocePkt) (s : State) : State :=
  let q := p.qpn.toNat
  let r := s.qp q
  if 1024 ≤ q || !r.loaded || r.st ≠ .ready || r.port ≠ n then s
  else if p.opcode = 0x81 then State.modQp q (fun r => { r with rate := r.rate / 2 }) s
  else
    let s := if p.ecnMarked then emit (.cnp n r.dest r.dqpn) (State.modPort n (fun r => { r with txOk := satInc r.txOk }) s) else s
    let op := p.opcode.toNat
    if op = 0x11 then onAck q p s
    else if 0x0D ≤ op ∧ op ≤ 0x10 then onReadData q p s
    else requestPkt q p s

/-- ROCE_PACKET: nothing with the engine disabled (R519, R524, R549). -/
def opRocePacket (n : Nat) (p : RocePkt) : State → State := receiveLen n (udpFrame false (p.payload.length + 16)) (fun s => if s.eth.roceEn then qpPacket n p s else s)

/-- ROCE_PACKET (R524, R528). -/
def execRocePacket (n : EthPort) (pkt : RocePkt) (s : State) := performWf (Instr.wf (.rocePacket n pkt)) (opRocePacket n.val pkt) s

end Sys2Proof.Machine
end

