-- ==== Sys2Proof/Machine/Runs.lean ====
section
/-! DEFINITION. Runs: RUN and RUN_CHAIN, dispatch, completion, CANCEL, and the end of a shard's load (R227, R285, R288 to R291, R296, R298, R410, R411). -/

namespace Sys2Proof.Machine

/-! ### One run's parameters and checks (R285, R402, R410) -/

/-- What a RUN packet names. -/
structure RunParams where
  model : Nat
  ctxs : List Nat
  rsrc : Nat
deriving DecidableEq, Repr

/-- The parameters of a packet, its context list read from memory where NCTX > 8; none for a read error. -/
def runParams (c : Cmd) (pkt : List Byte) (s : State) : Option RunParams × State :=
  let n := field pkt 0x18 1
  let mk : List Byte → Nat → RunParams := fun d o =>
    ⟨field pkt 0x1A 2, (List.range n).map (fun i => field d (o + 2 * i) 2), field pkt 0x38 8⟩
  if n ≤ 8 then (some (mk pkt 0x20), s)
  else
    let r := readNamed c (field pkt 0x30 8) (2 * n) s
    (r.1.map (fun d => mk d 0), r.2)

/-- A context listed in a running pipeline (R410). -/
def State.inPipeline (s : State) (x : Nat) : Bool := s.runningPipes.any (fun p => (s.pipe p).start.ctxs.contains x)

/-- The status of a run's checks, in a queue of class q (R402, R410). -/
def State.runStatus (s : State) (q : Nat) (r : RunParams) : Option Nat :=
  let m := s.model r.model
  if r.ctxs.any (fun x => decide (16384 ≤ x)) then some 0x02
  else if r.ctxs.any (s.classBarred q) then some 0x07
  else if m.st = .free then some 0x40
  else match r.ctxs.findSome? (fun x =>
      let y := s.ctx x
      if y.st = .free then some 0x45
      else if (y.st ≠ .idle && y.st ≠ .runnable) || s.inPipeline x then some 0x46
      else if y.model.toNat ≠ r.model then some 0x4D else none) with
    | some st => some st
    | none =>
      let bs := r.ctxs.map (fun x => (s.ctx x).bucket.toNat)
      if bs.any (fun b => b ≠ bs.headD 0) then some 0x4D
      else if (m.streamsFor (bs.headD 0)).isNone then some 0x48 else none

/-- A checked run queued: its IDLE contexts become RUNNABLE (R227). -/
def queueRun (tag i : Nat) (r : RunParams) (s : State) : State :=
  let x : RunRec := { num := s.sched.nextRun, cmd := some tag, cls := (s.ctx (r.ctxs.headD 0)).cls.toNat, model := r.model, ctxs := r.ctxs, rsrc := r.rsrc, chain := i }
  let s := { s with sched := { s.sched with runs := s.sched.runs ++ [x], nextRun := s.sched.nextRun + 1 } }
  r.ctxs.foldl (fun t c => if (t.ctx c).st = .idle then setCtxState c .runnable t else t) s

/-- One run of a command reached: its checks, a COLD model warmed, and its place in the queue; the status where it fails (R288, R410). -/
def reachRun (c : Cmd) (pkt : List Byte) (i : Nat) (s : State) : Option Nat × State :=
  let r := runParams c pkt s
  match r.1 with
  | none => (some 0x28, r.2)
  | some x => match r.2.runStatus (r.2.sq c.sq).cls.toNat x with
    | some st => (some st, r.2)
    | none =>
      let w := warmModel x.model r.2
      match w.1 with
      | some st => (some st, w.2)
      | none => (none, queueRun c.tag i x w.2)

/-- RUN (R410). -/
def actRun (c : Cmd) (s : State) : State :=
  let r := reachRun c c.pkt 0 s
  match r.1 with
  | some st => finishCmd c.tag st 0 0 r.2
  | none => r.2

/-- The steps 2, 3 and 5 of R400 for one element of a chain, of which only PARAM is read (R410). -/
def chainElemStatus (c : Cmd) (pkt : List Byte) : Option Nat :=
  if !(reservedZero pkt (paramBytes 0x30) && runFieldsOk pkt) then some 0x02
  else if !runAddrsOk pkt c.rlen then some 0x03 else none

/-- Run i of a chain is reached; a malformed or refused element ends the chain with its status (R410). -/
def reachChain (c : Cmd) (i : Nat) (s : State) : State :=
  let bad : Nat → State → State := fun st t => if i = 0 then finishCmd c.tag st 0 0 t else failCmd c.tag st (place i 24) t
  let r := readNamed c (c.fld 0x20 8 + 64 * i) 64 s
  match r.1 with
  | none => bad 0x28 r.2
  | some d => match chainElemStatus c d with
    | some st => bad st r.2
    | none =>
      let q := reachRun c d i r.2
      match q.1 with
      | some st => bad st q.2
      | none => q.2

/-- RUN_CHAIN (R410). -/
def actRunChain (c : Cmd) (s : State) : State := reachChain c 0 s

/-! ### Completion (R227, R404, R410) -/

/-- The contexts of a finished run: RUNNABLE where another is queued, else IDLE (R227). -/
def settleCtxs (cs : List Nat) (s : State) : State :=
  cs.foldl (fun t c =>
    if (t.ctx c).st = .resident || (t.ctx c).st = .blocked then setCtxState c (if t.runQueued c then .runnable else .idle) t
    else if (t.ctx c).st = .runnable && !t.runQueued c then setCtxState c .idle t
    else t) s

/-- A run leaves the list. -/
def dropRun (n : Nat) (s : State) : State := { s with sched := { s.sched with runs := s.sched.runs.filter (fun r => r.num ≠ n) } }

/-- RLEN bytes from RSRC, none for an error response (R410). -/
def runResult (c : Cmd) (rsrc : Nat) (s : State) : Option (List PByte) × State :=
  if c.rlen = 0 || (c.rbuf = 0 && !c.mbox) then (some [], s) else readAll 0xA0 (s.sq c.sq).cls.toNat rsrc c.rlen s

/-- RESULT0 of a finished RUN or RUN_CHAIN (R408). -/
def runResult0 (c : Cmd) (r : RunRec) : Nat := if c.op = 0x30 then r.model + place r.ctxs.length 16 else c.fld 0x18 1

/-- A command's run has ended: the next of its chain, its result and completion, or 0x49 with the first fault (R404, R410). -/
def finishRun (r : RunRec) (tag : Nat) (s : State) : State :=
  let s := settleCtxs r.ctxs (dropRun r.num s)
  match s.cmd tag with
  | none => s
  | some c => match r.fault with
    | some (code, fp) => failCmd tag 0x49 (code + place fp 16 + place (if c.op = 0x31 then r.chain else 0) 24) s
    | none =>
      if c.op = 0x31 && decide (r.chain + 1 < c.fld 0x18 1) then reachChain c (r.chain + 1) s
      else
        let d := runResult c r.rsrc s
        match d.1 with
        | none => failCmd tag 0x28 (chainResult (some c) r.chain) d.2
        | some b => finishData tag 0 b (runResult0 c r) 0 d.2

/-- RUN_COMPLETE: every stream has ended or halted; the others of a halted run are ABORTed first (R410). -/
def opRunComplete (n : Nat) (s : State) : State :=
  match s.run n with
  | none => s
  | some r =>
    if !(r.st = .ended || r.fault.isSome) then s
    else
      let s := abortRun n s
      if s.runOwns n then s
      else match r.pipe, r.cmd with
        | some _, _ => settleCtxs r.ctxs (State.modRun n (fun x => { x with st := .ended, onFp := [], ctxs := [] }) s)
        | none, some tag => finishRun r tag s
        | none, none => dropRun n s

/-! ### Dispatch (R290, R291, R293, R296) -/

/-- A shard's stream goes on its slot: the run's, and the shard's use noted (R290, R291). -/
def dispatchShard (n sh f : Nat) (s : State) : State :=
  match s.run n with
  | none => s
  | some r =>
    let idx := ((r.streams.find? (fun x => x.1 = sh)).map Prod.snd).getD 0
    let u := s.sched.useCount + 1
    let s := { s with sched := { s.sched with useCount := u } }
    let s := State.modFp f (fun x => { x with res := x.res.map (fun y => if y.model = r.model && y.shard = sh then { y with lastUse := u } else y) }) s
    let s := State.modRun n (fun x => { x with todo := x.todo.filter (fun y => y ≠ sh), onFp := x.onFp ++ [(sh, f)] }) s
    startStream r.model idx f (if r.cls = 0 then 0 else 1) r.cls (.run n sh) s

/-- What trying to place a run's shards has done so far: something, found no Frond for one, or stopped. -/
structure Placing where
  s : State
  moved : Bool := false
  wanted : Bool := false

/-- The slot of a class on a Frond takes a stream now. -/
def State.slotFree (s : State) (f k : Nat) : Bool := ((s.frond f).slot k).st = .idle && (s.fp f).st = .mapped

/-- One shard of a run: its stream where it is hot, its load where a Frond is free or a victim's is (R289 to R291). -/
def tryShard (n : Nat) (r : RunRec) (p : Placing) (sh : Nat) : Placing :=
  let s := p.s
  let k := if r.cls = 0 then 0 else 1
  match s.homeOf r.model sh with
  | some f =>
    if s.hotOn r.model sh f && s.slotFree f k then { p with s := dispatchShard n sh f s, moved := true } else p
  | none =>
    if r.cls = 0 || p.wanted then p
    else
      let e := (s.model r.model).shards.getD sh ⟨0, 0, 0, 0, 0, 0, 0, 0, 0⟩
      match s.pickFree r.cls e with
      | some f => { p with s := loadShard r.model sh f r.cls false s, moved := true }
      | none => match s.victim r.cls e with
        | some (f, v) => { p with s := loadShard r.model sh f r.cls false (releaseShard f v.model v.shard s), moved := true }
        | none => { p with wanted := true }

/-- A run may be dispatched or go on being placed: contexts RUNNABLE, no earlier run of them open, and no class-0 work while a
retired Frond's class-0 shards load (R227, R293). -/
def State.mayPlace (s : State) (r : RunRec) : Bool :=
  let fresh := s.sched.fps.any (fun e => e.2.replaceRes.any (fun y => y.cls = 0) || e.2.res.any (fun y => y.cls = 0 && !y.loaded &&
    !s.sched.ctxs.any (fun c => c.2.createTag.isSome && c.2.model.toNat = y.model)))
  !(r.cls = 0 && fresh) && match r.st with
  | .queued => (r.cmd.isSome || r.pipe.isSome) && !r.ctxs.isEmpty && r.ctxs.all (fun c => (s.ctx c).st = .runnable) &&
      (s.sched.runs.takeWhile (fun x => x.num ≠ r.num)).all (fun x => x.st = .ended || x.ctxs.all (fun c => !r.ctxs.contains c))
  | .dispatched => !r.todo.isEmpty && r.fault.isNone
  | .ended => false

/-- A queued run's streams chosen for the BUCKET its contexts share, its model warm; the status where that fails (R251, R285, R288, R410). -/
def chooseStreams (r : RunRec) (s : State) : Option Nat × State :=
  let w := warmModel r.model s
  match w.1 with
  | some st => (some st, w.2)
  | none =>
    let b := (w.2.ctx (r.ctxs.headD 0)).bucket
    if r.ctxs.any (fun c => (w.2.ctx c).bucket ≠ b) then (some 0x4D, w.2) else
    match (w.2.model r.model).streamsFor b.toNat with
    | none => (some 0x48, w.2)
    | some xs => (none, State.modRun r.num (fun y => { y with streams := xs, todo := xs.map Prod.fst }) w.2)

/-- A run that got a stream onto a Frond is dispatched: its contexts RESIDENT (R227). -/
def markDispatched (n : Nat) (s : State) : State :=
  match s.run n with
  | none => s
  | some r =>
    if r.st = .queued && !r.onFp.isEmpty then
      r.ctxs.foldl (fun t c => setCtxState c .resident t)
        (State.modRun n (fun x => { x with st := .dispatched, dispatchedAt := s.sched.useCount }) s)
    else s

/-- A run that cannot be dispatched, or go on being placed, ends its command with a status (R285, R288). -/
def refuseRun (r : RunRec) (st : Nat) (s : State) : State :=
  match r.cmd with
  | some tag =>
    if r.st = .dispatched then killRun st r.num s
    else failCmd tag st (chainResult (s.cmd tag) r.chain) (settleCtxs r.ctxs (dropRun r.num s))
  | none => s

/-- Try to place one run's shards, in index order, with its model in main memory (R288, R291). -/
def tryRun (r : RunRec) (s : State) : Placing :=
  let go : RunRec → State → Placing := fun x t =>
    let p := x.todo.foldl (tryShard x.num x) { s := t }
    { p with s := markDispatched x.num p.s }
  let c := if r.st = .queued then chooseStreams r s else warmModel r.model s
  match c.1, c.2.run r.num with
  | none, some x => go x c.2
  | some st, _ => { s := refuseRun r st c.2, moved := r.cmd.isSome }
  | none, none => { s := s }

/-- The youngest dispatched run of the highest class above k (R296). -/
def State.preemptable (s : State) (k : Nat) : Option RunRec :=
  (s.sched.runs.filter (fun r => r.st = .dispatched && r.cls ≠ 0 && decide (k < r.cls))).foldl (fun a r => match a with
    | none => some r
    | some b => if b.cls < r.cls || (b.cls = r.cls && b.dispatchedAt < r.dispatchedAt) then some r else some b) none

/-- Runs to try, class by class, each class in queue order (R278). -/
def State.tryOrder (s : State) : List RunRec :=
  (List.range 4).flatMap (fun k => s.sched.runs.filter (fun r => r.cls = k && s.mayPlace r))

/-- The first run that gets somewhere; else the runs that wanted a Frond and found none. -/
def firstPlaced : List RunRec → State → Option State × List RunRec
  | [], _ => (none, [])
  | r :: rs, s =>
    let p := tryRun r s
    if p.moved then (some p.s, [])
    else
      let q := firstPlaced rs s
      (q.1, if p.wanted then r :: q.2 else q.2)

/-- The resident context R298 evicts: BLOCKED, of the highest class but 0, blocked longest, the lowest ID. -/
def State.starveVictim (s : State) : Option Nat :=
  ((s.sched.ctxs.filter (fun e => e.2.st = .blocked && e.2.cls ≠ 0)).foldl (fun a e => match a with
    | none => some e
    | some b => if b.2.cls < e.2.cls || (b.2.cls = e.2.cls && e.2.tState < b.2.tState) then some e else some b) none).map Prod.fst

/-- A RUNNABLE run finds no Frond while every resident context is BLOCKED: the one picked is evicted, and its run with it (R227, R298). -/
def starve (r : RunRec) (s : State) : State :=
  let res := s.sched.ctxs.filter (fun e => e.2.st = .resident || e.2.st = .blocked)
  if res.isEmpty || res.any (fun e => e.2.st = .resident) then s
  else match s.starveVictim with
    | some c => (s.sched.runs.filter (fun x => x.st = .dispatched && x.ctxs.contains c)).foldl (fun t x => preemptRun x.num t) s
    | none =>
      let due := match s.sched.starvedAt with | some t => decide (t.toNat + 10000000 ≤ s.gctl.time.toNat) | none => true
      if !due then s
      else
        let s := { s with sched := { s.sched with starved := satInc s.sched.starved, starvedAt := some s.gctl.time } }
        postEvent 2 none none (toLe 2 (r.ctxs.headD 0)) s

/-- Of the runs that found no Frond and no victim the first that can pre-empt does, once no earlier ABORT of slot 1 is still under way
(R296); else R298 for the first that is RUNNABLE. -/
def noPlace (rs : List RunRec) (s : State) : State :=
  if s.fronds.any (fun e => e.2.slot1.aborting) then s
  else match rs.findSome? (fun r => s.preemptable r.cls), rs.find? (fun r => r.st = .queued) with
    | some v, _ => preemptRun v.num s
    | none, some r => starve r s
    | none, none => s

/-- A resident shard that is not hot and whose load stream does not run: the load starts (again) (R289). -/
def restartLoads (s : State) : State :=
  forUpTo 144 (fun f t => (t.fp f).res.foldl (fun u r =>
    let k := if r.cls = 0 then 0 else 1
    if !r.loaded && u.slotFree f k && ((u.frond f).slot k).owner ≠ .load r.model r.shard then runLoad r.model r.shard f k r.cls u
    else u) t) s

/-- RUN_DISPATCH: one placement decision (R278, R290, R291, R296, R298). -/
def opRunDispatch (s : State) : State :=
  if !s.interpRuns then s
  else
    let s := restartLoads s
    let p := firstPlaced s.tryOrder s
    match p.1, p.2 with
    | some t, _ => t
    | none, rs => noPlace rs s

/-! ### CANCEL (R411) -/

/-- The oldest RUN or RUN_CHAIN in flight of a queue and CID: one whose completion has not been posted. -/
def State.cancelTarget (s : State) (sq cid : Nat) : Option Cmd :=
  s.cmdq.cmds.find? (fun d => d.sq = sq && d.fld 2 2 = cid && (d.op = 0x30 || d.op = 0x31))

/-- A cancelled command ends with 0x4A; RESULT1 stays what its runs have made it (R404, R411). -/
def cancelCmd (d : Cmd) (s : State) : State :=
  match (s.cmd d.tag).map Cmd.stage with
  | some (.done _ _ r1) => failCmd d.tag 0x4A r1.toNat s
  | _ => failCmd d.tag 0x4A 0 s

/-- CANCEL: the target completes with 0x4A, then CANCEL with 0x00, whose entry follows the target's. -/
def actCancel (c : Cmd) (s : State) : State :=
  match s.cancelTarget (c.fld 0x18 1) (c.fld 0x1A 2) with
  | none => finishCmd c.tag 0x4C 0 0 s
  | some d =>
    let rs := s.sched.runs.filter (fun r => r.cmd = some d.tag)
    let s := rs.foldl (fun t r => killRun 0x4A r.num t) s
    let s := settleRunnable (rs.flatMap (fun r => r.ctxs)) s
    State.modCmd c.tag (fun x => { x with after := some d.tag }) (finishCmd c.tag 0 0 0 (cancelCmd d s))

/-! ### The end of a load (R281, R289, R293) -/

/-- CTX_CREATEs whose model is now wholly hot are done (R281). -/
def finishCreates (m : Nat) (s : State) : State :=
  if !s.allHot m then s
  else (s.sched.ctxs.filter (fun e => e.2.createTag.isSome && e.2.model.toNat = m)).foldl (fun t e =>
    State.modCtx e.1 (fun y => { y with createTag := none }) (match e.2.createTag with
      | some tag => finishCmd tag 0 e.1 0 t
      | none => t)) s

/-- A class-0 load halted under a CTX_CREATE: the command ends with 0x49 and the context is taken back (log 36). -/
def failCreates (m : Nat) (s : State) : State :=
  (s.sched.ctxs.filter (fun e => e.2.createTag.isSome && e.2.model.toNat = m)).foldl (fun t e =>
    let t := match e.2.createTag with | some tag => finishCmd tag 0x49 0 0 t | none => t
    endCtx e.1 (State.modCtx e.1 (fun y => { y with createTag := none, destroyed := true }) t)) s

/-- A load stream that halted: the runs that need the shard end with its fault (R410). -/
def loadHalted (m sh f code : Nat) (s : State) : State :=
  let s := (s.sched.runs.filter (fun r => r.cls ≠ 0 && r.model = m && r.st ≠ .ended && (r.todo.contains sh))).foldl (fun t r =>
    shardHalted r.num sh code f t) s
  failCreates m s

/-- SHARD_LOAD_DONE: the load stream's END has completed and the shard is hot; a halted one leaves it cold (R289). -/
def opShardLoadDone (f k : Nat) (s : State) : State :=
  let x := (s.frond f).slot k
  match x.owner with
  | .load m sh =>
    if x.st = .idle then
      let s := State.modFp f (fun y => { y with res := y.res.map (fun r => if r.model = m && r.shard = sh then { r with loaded := true } else r) }) s
      finishCreates m (refreshModel m (State.modSlot f k (fun y => { y with owner := .none }) s))
    else if x.st = .halted then
      let s := abortSlot f k s
      let s := if k = 0 then s else releaseShard f m sh s
      loadHalted m sh f x.faultCode.toNat s
    else s
  | _ => s

/-- RUN (R410). -/
def execRun (tag : Nat) (s : State) := perform (startCmd 0x30 tag actRun) s
/-- RUN_CHAIN (R410). -/
def execRunChain (tag : Nat) (s : State) := perform (startCmd 0x31 tag actRunChain) s
/-- CANCEL (R411). -/
def execCancel (tag : Nat) (s : State) := perform (startCmd 0x32 tag actCancel) s
/-- RUN_DISPATCH (R291). -/
def execRunDispatch (s : State) := perform opRunDispatch s
/-- RUN_COMPLETE (R410). -/
def execRunComplete (run : Nat) (s : State) := perform (opRunComplete run) s
/-- SHARD_LOAD_DONE (R289). -/
def execShardLoadDone (fp : Frond) (slot : Fin 2) (s : State) := performFab fp.val (opShardLoadDone fp.val slot.val) s

end Sys2Proof.Machine
end

