-- ==== Sys2Proof/Machine/Span.lean ====
section
/-! DEFINITION. The span timer of a slot (R157). -/

namespace Sys2Proof.Machine

/-- A span stop of slot 1: nothing more is issued, executing descriptors end with their pins dropped, banks empty, IDLE, and 0x011A unless it follows an
ABORT; the run is pre-empted (R156, R157). -/
def spanStop (f : Nat) (s : State) : State :=
  let x := (s.frond f).slot1
  let seq := match x.queue with | d :: _ => d.seq | [] => x.doneSeq
  let s := if x.aborting then s else reportFrond f (descRecord s f 1 0x011A 0 seq) s
  let s := x.queue.foldl (fun t d => match d.hold with | some h => dropPins h t | none => t) s
  let s := idleSlot f 1 s
  match x.owner with
  | .run n _ => preemptRun n s
  | _ => s

/-- SPAN_TIMER_EXPIRY: slot 1 stopped SPAN_MAX after a yield request, slot 0's span recorded once (R157). -/
def opSpanTimer (f k : Nat) (s : State) : State :=
  let r := s.frond f
  let x := r.slot k
  if x.st ≠ .running then s
  else if k = 1 then (if r.yieldAsked && (r.spanOpen 1 || x.aborting) then spanStop f s else s)
  else if !r.spanOpen 0 || x.spanNoted then s
  else
    let seq := match x.queue with | d :: _ => d.seq | [] => x.doneSeq
    State.modSlot f 0 (fun x => { x with spanNoted := true }) (reportFrond f (descRecord s f 0 0x011A 0 seq) s)

/-- SPAN_TIMER_EXPIRY (R157). -/
def execSpanTimerExpiry (fp : Frond) (k : Slot) (s : State) := performFab fp.val (opSpanTimer fp.val k.val) s

end Sys2Proof.Machine
end

