-- ==== Sys2Proof/Machine/Xfer.lean ====
section
/-! DEFINITION. LOADM, MOVE, CBLOAD, WAIT and SIGNAL (R162 to R168, R227). -/

namespace Sys2Proof.Machine

/-! ### LOADM (R164, R166) -/

/-- What a transfer has met so far: the first failing address, and the first poisoned one. -/
structure XferFault where
  err : Option Nat := none
  poison : Option Nat := none
deriving DecidableEq, Repr

/-- One line of a LOADM: filled, or written poisoned where a part of it got an error response (R166). -/
def loadLine (f k : Nat) (x : XferBody) (i : Nat) (a : XferFault × State) : XferFault × State :=
  let src := x.addr + i * x.farPitch
  let r := readBlocks f (((a.2.frond f).slot k).busClass k) (x.len / 64 + 2) src x.len a.2
  let dst := ((a.2.frond f).hnd x.h).base * 512 + x.nearByte + i * x.nearPitch
  match r.1.find? (fun b => b.2.2.isNone) with
  | some b =>
    let d := freeBytes x.len r.2
    ({ a.1 with err := a.1.err.or (some b.1) }, State.modFrond f (storeWrite dst (d.1.map (fun y => (y, true)))) d.2)
  | none =>
    let p := (r.1.find? (fun b => poisoned (b.2.2.getD []))).map (fun b => b.1)
    ({ a.1 with poison := a.1.poison.or p },
      State.modFrond f (storeWrite dst (r.1.flatMap (fun b => b.2.2.getD []))) r.2)

/-- Poisoned data met by a transfer (R139, R166). -/
def xferPoison (f k : Nat) (d : QDesc) (p : Option Nat) (s : State) : State :=
  match p with
  | none => s
  | some a => descPoison f k d a s

/-- LOADM (R164, R166). -/
def actLoadm (f k : Nat) (d : QDesc) (s : State) : State :=
  let x := xferBody true d
  let r := forUpTo x.lines (loadLine f k x) ({}, s)
  let s := xferPoison f k d r.1.poison r.2
  match r.1.err with
  | some a => failDesc f k 0x0117 a d s
  | none => s

/-! ### MOVE (R167) -/

/-- A row of CB4 elements as bytes; the spare half of a last byte keeps what follows in the destination (R108). -/
def packHalves : List (Nat × Bool) → Nat × Bool → List PByte
  | [], _ => []
  | [a], o => [(BitVec.ofNat 8 (a.1 + 16 * o.1), a.2)]
  | a :: b :: l, o => (BitVec.ofNat 8 (a.1 + 16 * b.1), a.2 || b.2) :: packHalves l o

/-- A destination row written. -/
def moveRow (h code : Nat) (e : Nat) (l : List (Nat × Bool)) (r : FrondRec) : FrondRec :=
  if code = 6 then storeWrite ((r.hnd h).base * 512 + e / 2) (packHalves l (r.elem h 6 (e + l.length : Nat))) r
  else putElems h code e l r

/-- MOVE: the source elements, transposed where asked, to the destination's rows (R167). -/
def actMove (f : Nat) (d : QDesc) (s : State) : State :=
  let x := moveBody d
  let r := s.frond f
  let c := (r.hnd x.sh).fmt
  let src : Nat → Nat → Nat × Bool := fun i j => r.elem x.sh c (x.sOff + i * (r.hnd x.sh).stride + j * x.estride : Nat)
  let rows := if x.trans then x.cols else x.rows
  let cols := if x.trans then x.rows else x.cols
  State.modFrond f (fun t => forUpTo rows (fun i u =>
    moveRow x.dh c (x.dOff + i * (r.hnd x.dh).stride) ((List.range cols).map (fun j => if x.trans then src j i else src i j)) u) t) s

/-! ### CBLOAD (R168) -/

/-- CBLOAD: the slot's entries, size, entry format and epoch (R117, R168). -/
def actCbload (f : Nat) (d : QDesc) (s : State) : State :=
  let x := cbBody d
  State.modFrond f (fun r =>
    let l := (List.range x.entries).map (fun i => r.elem x.h x.efmt (x.off + i : Nat))
    let es := twriteN 0 [] 0 (l.map (fun e => BitVec.ofNat 16 e.1))
    let c : CbRec := ⟨r.epoch, true, BitVec.ofNat 4 x.efmt, BitVec.ofNat 4 x.size, es, twriteN false [] 0 (l.map Prod.snd)⟩
    r.modCb x.slot (fun _ => c)) s

/-! ### WAIT and SIGNAL (R162, R163) -/

/-- The counter a WAIT or SIGNAL of Frond f names. -/
def State.counter (s : State) (f : Nat) (x : SyncBody) : Word32 := if x.glob then s.gsync x.ctr else tget 0 (s.frond f).sync x.ctr

/-- A WAIT's condition (R162). -/
def State.waitMet (s : State) (f : Nat) (x : SyncBody) : Bool := decide (0 ≤ (s.counter f x - x.value).toInt)

/-- A stream stalled on a WAIT for a global counter. -/
def State.stalledGlobal (s : State) (f k : Nat) : Bool :=
  match ((s.frond f).slot k).queue with
  | d :: _ => d.op = 0x0B && !d.started && (syncBody d).glob && !s.waitMet f (syncBody d)
  | [] => false

/-- The run behind a slot. -/
def State.runBehind (s : State) (f k : Nat) : Option RunRec :=
  match ((s.frond f).slot k).owner with
  | .run n _ => s.run n
  | _ => none

/-- Contexts of a run go BLOCKED when every stream of it stalls on a WAIT for a global counter (R227). -/
def blockRun (f k : Nat) (s : State) : State :=
  match s.runBehind f k with
  | none => s
  | some r =>
    let kk := if r.cls = 0 then 0 else 1
    if r.todo.isEmpty && r.onFp.all (fun x => s.stalledGlobal x.2 kk) then
      r.ctxs.foldl (fun t c => if (t.ctx c).st = .resident then setCtxState c .blocked t else t) s
    else s

/-- A WAIT of the run completes: its contexts are RESIDENT again (R227). -/
def unblockRun (f k : Nat) (s : State) : State :=
  match s.runBehind f k with
  | none => s
  | some r => r.ctxs.foldl (fun t c => if (t.ctx c).st = .blocked then setCtxState c .resident t else t) s

/-- WAIT: it starts, and so can complete, once its condition holds (R162). -/
def opWait (f k : Nat) (s : State) : State :=
  match s.ready f k 0x0B with
  | none => s
  | some d =>
    if (viewWait d).fields && !s.waitMet f (syncBody d) then blockRun f k s
    else runOp 0x0B f k (fun _ t => unblockRun f k t) s

/-- SIGNAL: ADD or SET of a global counter, or of a local one on its own Frond or another (R162, R163). -/
def actSignal (f : Nat) (d : QDesc) (s : State) : State :=
  let x := syncBody d
  let next : Word32 → Word32 := fun v => if x.op = 0 then v + x.value else x.value
  if x.glob then State.setGsync x.ctr (next (s.gsync x.ctr)) s
  else
    let g := if x.dest = 0xFF then f else x.dest
    State.modFrond g (fun r => { r with sync := tset 0 r.sync x.ctr (next (tget 0 r.sync x.ctr)) }) s

/-- LOADM (R164). -/
def execLoadm (fp : Frond) (k : Slot) (s : State) := performFab fp.val (runOp 7 fp.val k.val (actLoadm fp.val k.val)) s
/-- MOVE (R167). -/
def execMove (fp : Frond) (k : Slot) (s : State) := performFab fp.val (runOp 9 fp.val k.val (actMove fp.val)) s
/-- CBLOAD (R168). -/
def execCbload (fp : Frond) (k : Slot) (s : State) := performFab fp.val (runOp 0x0A fp.val k.val (actCbload fp.val)) s
/-- WAIT (R162). -/
def execWait (fp : Frond) (k : Slot) (s : State) := performFab fp.val (opWait fp.val k.val) s
/-- SIGNAL (R162). -/
def execSignal (fp : Frond) (k : Slot) (s : State) := performFab fp.val (runOp 0x0C fp.val k.val (actSignal fp.val)) s

end Sys2Proof.Machine
end

