-- ==== Sys2Proof/Machine/Storem.lean ====
section
/-! DEFINITION. STOREM: a Frond's rows to main memory, a Frond store, the outbound window or MMIO (R165, R166). -/

namespace Sys2Proof.Machine

/-- Bytes of a MMIO write of STOREM (R165), and of a store word (R138). -/
def mmioUnit : Nat := 8
def storeUnit : Nat := 32

/-- One write of a STOREM's initiator, with poisoned words of the source withheld from MMIO and host memory (R166): such a target
takes the data in pieces of n bytes, each issued only where it holds no poison. True when every write issued was acknowledged. -/
def storePieces (n f cls : Nat) : Nat → Nat → List PByte → State → Bool × State
  | 0, _, _, s => (true, s)
  | fuel + 1, a, d, s =>
    if d = [] then (true, s)
    else
      let x := d.take n
      let r : Bool × State :=
        if poisoned x then (true, s)
        else match targetRange a x.length with
          | .mmio off => mmioBusWrite f off (plain x) s
          | _ => busWrite f cls a x s
      let rest := storePieces n f cls fuel (a + n) (d.drop n) r.2
      (r.1 && rest.1, rest.2)

/-- A block of at most 64 bytes: whole to memory and stores, in 64-bit writes to MMIO, by words to the host where poisoned (R29, R165, R166). -/
def storeBlock (f cls a : Nat) (d : List PByte) (s : State) : Bool × State :=
  match targetRange a d.length with
  | .mmio _ => storePieces mmioUnit f cls (d.length / mmioUnit + 1) a d s
  | .outbound _ => if poisoned d then storePieces storeUnit f cls (d.length / storeUnit + 1) a d s else busWrite f cls a d s
  | _ => busWrite f cls a d s

/-- The blocks of a line in order; the first that got an error response. -/
def storeBlocks (f cls : Nat) : Nat → Nat → List PByte → State → Option Nat × State
  | 0, _, _, s => (none, s)
  | fuel + 1, a, d, s =>
    if d = [] then (none, s)
    else
      let k := toLineEnd a
      let r := storeBlock f cls a (d.take k) s
      let rest := storeBlocks f cls fuel (a + k) (d.drop k) r.2
      (if r.1 then rest.1 else some a, rest.2)

/-- One line of a STOREM. -/
def storemLine (f k : Nat) (x : XferBody) (i : Nat) (a : Option Nat × State) : Option Nat × State :=
  let r := a.2.frond f
  let d := r.storeMarked ((r.hnd x.h).base * 512 + x.nearByte + i * x.nearPitch) x.len
  let w := storeBlocks f ((r.slot k).busClass k) (x.len / 64 + 2) (x.addr + i * x.farPitch) d a.2
  (a.1.or w.1, w.2)

/-- STOREM: an error response records 0x0117 and halts the stream (R165, R166). -/
def actStorem (f k : Nat) (d : QDesc) (s : State) : State :=
  let x := xferBody false d
  let r := forUpTo x.lines (storemLine f k x) (none, s)
  match r.1 with
  | some a => failDesc f k 0x0117 a d r.2
  | none => r.2

/-- STOREM (R165). -/
def execStorem (fp : Frond) (k : Slot) (s : State) := performFab fp.val (runOp 8 fp.val k.val (actStorem fp.val k.val)) s

end Sys2Proof.Machine
end

