-- ==== Sys2Proof/Machine/Vec.lean ====
section
/-! DEFINITION. The vector unit: VEC microprograms and their loading (R124 to R130). -/

namespace Sys2Proof.Machine

/-- A vector descriptor under way: the unit, the Frond whose store it reads and writes, whether it ended as malformed (R125), and
whether its program came from a poisoned word (R139). -/
structure VecRun where
  u : VecUnit
  r : FrondRec
  bad : Bool
  taint : Bool
deriving DecidableEq, Repr

/-- Where an instruction stands: its row, chunk, and whether the section is PASS0 or PASS1. -/
structure VecPos where
  row : Nat
  chunk : Nat
  pass : Bool
deriving DecidableEq, Repr

/-- Lane l of vector register v, with its poison. -/
def VecUnit.lane (u : VecUnit) (v l : Nat) : F32 × Bool := (tget 0 u.regs (64 * v + l), tget false u.poison (64 * v + l))
/-- The 64 lanes of register v. -/
def VecUnit.reg (u : VecUnit) (v : Nat) : List (F32 × Bool) := (List.range 64).map (u.lane v)
/-- Register v written, 64 lanes. -/
def VecUnit.setReg (u : VecUnit) (v : Nat) (l : List (F32 × Bool)) : VecUnit :=
  { u with regs := twriteN 0 u.regs (64 * v) (l.map Prod.fst), poison := twriteN false u.poison (64 * v) (l.map Prod.snd) }

/-- The fields VD, VA, VB, VC of an instruction (R126). -/
def insnVd (w : Word32) : Nat := bits w.toNat 25 22
def insnVa (w : Word32) : Nat := bits w.toNat 21 18
def insnVb (w : Word32) : Nat := bits w.toNat 17 14
def insnVc (w : Word32) : Nat := bits w.toNat 13 10

/-- The lane-by-lane operations: opcode, va, vb, vc (R126 to R128). -/
def laneOp (op : Nat) (a b c : F32) : F32 :=
  match op with
  | 0x03 => fadd a b
  | 0x04 => fsub a b
  | 0x05 => fmul a b
  | 0x06 => ffma a b c
  | 0x07 => fmax a b
  | 0x08 => fmin a b
  | 0x09 => fabs32 a
  | 0x0A => fneg32 a
  | 0x0B => if (dec32 a).lt (dec32 b) then one32 else 0
  | 0x0C => if (dec32 c).isZero then b else a
  | 0x0D => frint a
  | 0x0E => a
  | 0x14 => fexp2 a
  | 0x15 => flog2 a
  | 0x16 => frsqrt a
  | 0x17 => frcp a
  | 0x18 => ftrig false a
  | 0x19 => ftrig true a
  | _ => 0

/-- Whether an opcode reads vb, and whether it reads vc. -/
def readsVb (op : Nat) : Bool := (3 ≤ op && op ≤ 8) || op = 0x0B || op = 0x0C
def readsVc (op : Nat) : Bool := op = 6 || op = 0x0C

/-- The lanes an LD fills (R125): its columns from the store, the inactive ones +0.0 or -∞. -/
def VecBody.load (x : VecBody) (r : FrondRec) (i : Nat) (p : VecPos) : List (F32 × Bool) :=
  let h := x.x.getD i 0
  let base := if x.rowFlag.getD i false then 0 else x.off + p.row * (r.hnd h).stride
  (List.range 64).map (fun l =>
    let col := 64 * p.chunk + l
    if col < x.cols then r.val32 h (x.fx.getD i 0) (base + col : Nat) else (if x.padNeg then negInf32 else 0, false))

/-- An ST: the active lanes converted and written (R112, R125, R130). -/
def VecBody.store (x : VecBody) (r : FrondRec) (p : VecPos) (l : List (F32 × Bool)) : FrondRec :=
  let col0 := 64 * p.chunk
  putElems x.y x.fy (x.off + p.row * (r.hnd x.y).stride + col0 : Nat)
    ((l.take (x.cols - col0)).zipIdx.map (fun e =>
      (encodeFmt x.fy (pickRounding x.hashed x.seed x.tid (x.baseIdx + p.row * x.cols + col0 + e.2)) (dec32 e.1.1), e.1.2))) r

/-- One instruction (R126). An LD or ST outside PASS0 and PASS1, or an LD of an input that does not exist, ends the descriptor.
DESIGN CHOICE (log 113): a field an opcode does not use must be 0 and no response is stated where it is not; it is ignored. -/
def vecInsn (x : VecBody) (p : VecPos) (w : Word32) (a : VecRun) : VecRun :=
  if a.bad then a else
  let op := insnOp w
  let u := a.u
  let stain : List (F32 × Bool) → List (F32 × Bool) := fun l => l.map (fun y => (y.1, y.2 || a.taint))
  let set : List (F32 × Bool) → VecRun := fun l => { a with u := u.setReg (insnVd w) (stain l) }
  let va := u.reg (insnVa w)
  match op with
  | 0x00 => a
  | 0x01 => if !p.pass || insnImm w % 4 = 3 then { a with bad := true } else set (x.load a.r (insnImm w % 4) p)
  | 0x02 => if !p.pass then { a with bad := true } else { a with r := x.store a.r p (stain va) }
  | 0x0F => set (List.replicate 64 (tget 0 u.consts (insnImm w % 16), tget false u.constPoison (insnImm w % 16)))
  | 0x10 => set (List.replicate 64 (tget 0 u.scalars (insnImm w % 4), false))
  | 0x11 => set ((List.range 64).map (fun l => (rne32 (.ofInt (64 * p.chunk + l : Nat)), false)))
  | 0x12 => set (List.replicate 64 (redSum (va.map Prod.fst), va.any Prod.snd))
  | 0x13 => set (List.replicate 64 (redMax (va.map Prod.fst), va.any Prod.snd))
  | _ =>
    let vb := u.reg (insnVb w)
    let vc := u.reg (insnVc w)
    set ((List.range 64).map (fun l =>
      let y := va.getD l (0, false)
      let z := vb.getD l (0, false)
      let q := vc.getD l (0, false)
      (laneOp op y.1 z.1 q.1, y.2 || (readsVb op && z.2) || (readsVc op && q.2))))

/-- A section: straight through to its END; with none it ends the descriptor as malformed (R125; log 30). -/
def vecSection (x : VecBody) (e : Nat) (p : VecPos) (a : VecRun) : VecRun :=
  if a.bad then a else
  match a.u.sect e with
  | none => { a with bad := true }
  | some l => l.foldl (fun b w => vecInsn x p w b) a

/-- One row: INIT, PASS0 for each chunk, with TWO_PASS also MID and PASS1, then FINI (R125). Outside the passes the chunk number of
LANEID is free (log 8). -/
def vecRow (x : VecBody) (free row : Nat) (a : VecRun) : VecRun :=
  let n := cdiv x.cols 64
  let out : VecPos := ⟨row, free, false⟩
  let a := vecSection x x.eInit out a
  let a := forUpTo n (fun c b => vecSection x x.ePass0 ⟨row, c, true⟩ b) a
  let a := if x.twoPass then
      forUpTo n (fun c b => vecSection x x.ePass1 ⟨row, c, true⟩ b) (vecSection x x.eMid out a)
    else a
  vecSection x x.eFini out a

/-- A section's instructions, its END among them, came from a poisoned word. -/
def VecUnit.sectPoison (u : VecUnit) (e : Nat) : Bool :=
  match u.sect e with
  | some l => (List.range (l.length + 1)).any (fun i => tget false u.progPoison (e + i))
  | none => false

/-- A VEC whose program was loaded from poisoned words: what it computes derives from them (R139). -/
def VecBody.tainted (x : VecBody) (u : VecUnit) : Bool :=
  ([x.eInit, x.ePass0, x.eFini] ++ (if x.twoPass then [x.eMid, x.ePass1] else [])).any u.sectPoison

/-- VEC (R125). -/
def actVec (f k : Nat) (d : QDesc) (s : State) : State :=
  let x := vecBody d
  let fr := draw 14 s
  let s := fr.2
  let r := s.frond f
  let u := { r.vec with scalars := twriteN 0 [] 0 x.scal }
  let a := forUpTo x.rows (vecRow x fr.1.toNat) ⟨u, r, false, x.tainted u⟩
  let s := State.modFrond f (fun _ => { a.r with vec := a.u }) s
  if a.bad then failDesc f k 0x0112 (((s.frond f).slot k).descAddr d.seq) d s else s

/-- PLOAD: instructions from FIRST, constants from k0, vector registers +0.0, and with each what poison its words had (R124, R129, R139). -/
def actPload (f : Nat) (d : QDesc) (s : State) : State :=
  State.modFrond f (fun r =>
    let h := (vecBody d).x.getD 0 0
    let bytes : Nat → List PByte := fun o => r.storeMarked ((r.hnd h).base * 512 + o) 4
    let head := poisoned (bytes 0)
    let w : Nat → Word32 × Bool := fun o => (BitVec.ofNat 32 (leNat (plain (bytes o))), head || poisoned (bytes o))
    let prog := (List.range (r.hfield h 0 2)).map (fun i => w (0x50 + 4 * i))
    let cs := (List.range (r.hfield h 3 1)).map (fun i => w (0x10 + 4 * i))
    let at_ := r.hfield h 2 1
    { r with vec := { r.vec with
        regs := [], poison := [],
        prog := twriteN 0 r.vec.prog at_ (prog.map Prod.fst), progPoison := twriteN false r.vec.progPoison at_ (prog.map Prod.snd),
        consts := twriteN 0 r.vec.consts 0 (cs.map Prod.fst), constPoison := twriteN false r.vec.constPoison 0 (cs.map Prod.snd) } }) s

/-- The two uses of opcode 0x04, told apart by PLOAD (R129, R130). -/
def runVec (pload : Bool) (f k : Nat) (act : QDesc → State → State) (s : State) : State :=
  match s.ready f k 4 with
  | some d => if (vecBody d).pload = pload then runOp 4 f k act s else s
  | none => s

/-- VEC (R130). -/
def execVec (fp : Frond) (k : Slot) (s : State) := performFab fp.val (runVec false fp.val k.val (actVec fp.val k.val)) s
/-- VEC with PLOAD (R129). -/
def execVecPload (fp : Frond) (k : Slot) (s : State) := performFab fp.val (runVec true fp.val k.val (actPload fp.val)) s

end Sys2Proof.Machine
end

