-- ==== Sys2Proof/Machine/Dispatch.lean ====
section
/-! DEFINITION. One arm per command: the meaning it calls, or its rejection by name. -/

namespace Sys2Proof.Machine

def exec (i : Instr) (s : State) : Host.Outcome State Fault Refusal :=
  match i with
  | .porstNRelease bootSrc twinRole xtal => Sys2Proof.Machine.execPorstNRelease bootSrc twinRole xtal s
  | .sysrstNRelease bootSrc twinRole xtal => Sys2Proof.Machine.execSysrstNRelease bootSrc twinRole xtal s
  | .memoryTrainingDone failed => Sys2Proof.Machine.execMemoryTrainingDone failed s
  | .fabricSelfTestDone found => Sys2Proof.Machine.execFabricSelfTestDone found s
  | .droopCalibrationDone q ok => Sys2Proof.Machine.execDroopCalibrationDone q ok s
  | .pushLenDoorbell len => Sys2Proof.Machine.execPushLenDoorbell len s
  | .fclkEnable n => Sys2Proof.Machine.execFclkEnable n s
  | .fclkDisable n => Sys2Proof.Machine.execFclkDisable n s
  | .fclkPeriodWrite n period => Sys2Proof.Machine.execFclkPeriodWrite n period s
  | .fclkEdge n => Sys2Proof.Machine.execFclkEdge n s
  | .goldenClockEdge => Sys2Proof.Machine.execGoldenClockEdge s
  | .goldenDeadline => Sys2Proof.Machine.execGoldenDeadline s
  | .golden fp => Sys2Proof.Machine.execGolden fp s
  | .goldenResult fp pass => Sys2Proof.Machine.execGoldenResult fp pass s
  | .csiFrameStart port vc ecc => Sys2Proof.Machine.execCsiFrameStart port vc ecc s
  | .csiLongPacket port vc dt payload crcOk ecc => Sys2Proof.Machine.execCsiLongPacket port vc dt payload crcOk ecc s
  | .csiFrameEnd port vc ecc => Sys2Proof.Machine.execCsiFrameEnd port vc ecc s
  | .ingestDeadline p => Sys2Proof.Machine.execIngestDeadline p s
  | .udpIngestPayload port dport payload => Sys2Proof.Machine.execUdpIngestPayload port dport payload s
  | .udpWindowClose st => Sys2Proof.Machine.execUdpWindowClose st s
  | .hostSubmit hi => Sys2Proof.Machine.execHostSubmit hi s
  | .roiWindowWrite st word value => Sys2Proof.Machine.execRoiWindowWrite st word value s
  | .roiCommit st target => Sys2Proof.Machine.execRoiCommit st target s
  | .prepJobDispatch p => Sys2Proof.Machine.execPrepJobDispatch p s
  | .prepJobDone u => Sys2Proof.Machine.execPrepJobDone u s
  | .slotGo fp k => Sys2Proof.Machine.execSlotGo fp k s
  | .slotAbort fp k => Sys2Proof.Machine.execSlotAbort fp k s
  | .descriptorFetch fp k => Sys2Proof.Machine.execDescriptorFetch fp k s
  | .descriptorComplete fp k seq => Sys2Proof.Machine.execDescriptorComplete fp k seq s
  | .spanTimerExpiry fp k => Sys2Proof.Machine.execSpanTimerExpiry fp k s
  | .matmul fp k upset => Sys2Proof.Machine.execMatmul fp k upset s
  | .convtap fp k upset => Sys2Proof.Machine.execConvtap fp k upset s
  | .attn fp k upset => Sys2Proof.Machine.execAttn fp k upset s
  | .vec fp k => Sys2Proof.Machine.execVec fp k s
  | .vecPload fp k => Sys2Proof.Machine.execVecPload fp k s
  | .pool fp k => Sys2Proof.Machine.execPool fp k s
  | .argmax fp k => Sys2Proof.Machine.execArgmax fp k s
  | .loadm fp k => Sys2Proof.Machine.execLoadm fp k s
  | .storem fp k => Sys2Proof.Machine.execStorem fp k s
  | .move fp k => Sys2Proof.Machine.execMove fp k s
  | .cbload fp k => Sys2Proof.Machine.execCbload fp k s
  | .wait fp k => Sys2Proof.Machine.execWait fp k s
  | .signal fp k => Sys2Proof.Machine.execSignal fp k s
  | .optstep fp k => Sys2Proof.Machine.execOptstep fp k s
  | .kvappend fp k => Sys2Proof.Machine.execKvappend fp k s
  | .sorus fp k => Sys2Proof.Machine.execSorus fp k s
  | .bankpwr fp k => Sys2Proof.Machine.execBankpwr fp k s
  | .bankFenceResolve fp b => Sys2Proof.Machine.execBankFenceResolve fp b s
  | .bankFenceAbandon fp b => Sys2Proof.Machine.execBankFenceAbandon fp b s
  | .bankTransitionDone fp b => Sys2Proof.Machine.execBankTransitionDone fp b s
  | .storeCorrectionWriteback fp => Sys2Proof.Machine.execStoreCorrectionWriteback fp s
  | .frndEpochWrite fp epoch => Sys2Proof.Machine.execFrndEpochWrite fp epoch s
  | .frndFill fp value => Sys2Proof.Machine.execFrndFill fp value s
  | .fillRaise fp h value => Sys2Proof.Machine.execFillRaise fp h value s
  | .handleEntryWrite fp h word value => Sys2Proof.Machine.execHandleEntryWrite fp h word value s
  | .nocTransaction x => Sys2Proof.Machine.execNocTransaction x s
  | .registerWrite init off width value => Sys2Proof.Machine.execRegisterWrite init off width value s
  | .modelRegister tag => Sys2Proof.Machine.execModelRegister tag s
  | .modelWarm tag => Sys2Proof.Machine.execModelWarm tag s
  | .modelEvict tag => Sys2Proof.Machine.execModelEvict tag s
  | .modelRetire tag => Sys2Proof.Machine.execModelRetire tag s
  | .shardLoadDone fp slot => Sys2Proof.Machine.execShardLoadDone fp slot s
  | .ctxCreate tag => Sys2Proof.Machine.execCtxCreate tag s
  | .ctxDestroy tag => Sys2Proof.Machine.execCtxDestroy tag s
  | .ctxFork tag => Sys2Proof.Machine.execCtxFork tag s
  | .ctxTrim tag => Sys2Proof.Machine.execCtxTrim tag s
  | .contextDrained ctx => Sys2Proof.Machine.execContextDrained ctx s
  | .run tag => Sys2Proof.Machine.execRun tag s
  | .runChain tag => Sys2Proof.Machine.execRunChain tag s
  | .runDispatch => Sys2Proof.Machine.execRunDispatch s
  | .runComplete run => Sys2Proof.Machine.execRunComplete run s
  | .cancel tag => Sys2Proof.Machine.execCancel tag s
  | .kvPageResolve fp k => Sys2Proof.Machine.execKvPageResolve fp k s
  | .sorusWalk fp k => Sys2Proof.Machine.execSorusWalk fp k s
  | .kvUnpin fp k => Sys2Proof.Machine.execKvUnpin fp k s
  | .kvAppendCommit fp k => Sys2Proof.Machine.execKvAppendCommit fp k s
  | .kvpoolEnable p => Sys2Proof.Machine.execKvpoolEnable p s
  | .kvpoolDisable p => Sys2Proof.Machine.execKvpoolDisable p s
  | .kvpoolBuildDone p => Sys2Proof.Machine.execKvpoolBuildDone p s
  | .pipeConfig tag => Sys2Proof.Machine.execPipeConfig tag s
  | .pipeStart tag => Sys2Proof.Machine.execPipeStart tag s
  | .pipeStop tag => Sys2Proof.Machine.execPipeStop tag s
  | .roiSeed tag => Sys2Proof.Machine.execRoiSeed tag s
  | .nop tag => Sys2Proof.Machine.execNop tag s
  | .identify tag => Sys2Proof.Machine.execIdentify tag s
  | .getStatus tag => Sys2Proof.Machine.execGetStatus tag s
  | .setSleep tag motion => Sys2Proof.Machine.execSetSleep tag motion s
  | .setPlevel tag => Sys2Proof.Machine.execSetPlevel tag s
  | .attest tag => Sys2Proof.Machine.execAttest tag s
  | .fwWrite tag => Sys2Proof.Machine.execFwWrite tag s
  | .fwFlashWriteDone ok => Sys2Proof.Machine.execFwFlashWriteDone ok s
  | .fuseProgram tag bad => Sys2Proof.Machine.execFuseProgram tag bad s
  | .eventArm tag => Sys2Proof.Machine.execEventArm tag s
  | .sqTailDoorbell n value => Sys2Proof.Machine.execSqTailDoorbell n value s
  | .cqHeadDoorbell n value => Sys2Proof.Machine.execCqHeadDoorbell n value s
  | .evqHeadDoorbell value => Sys2Proof.Machine.execEvqHeadDoorbell value s
  | .sqEnable n cfg => Sys2Proof.Machine.execSqEnable n cfg s
  | .sqDisable n cfg => Sys2Proof.Machine.execSqDisable n cfg s
  | .cqEnable q cfg => Sys2Proof.Machine.execCqEnable q cfg s
  | .cqDisable q cfg => Sys2Proof.Machine.execCqDisable q cfg s
  | .commandFetch => Sys2Proof.Machine.execCommandFetch s
  | .completionPost q => Sys2Proof.Machine.execCompletionPost q s
  | .peerCommandFrame port frame src => Sys2Proof.Machine.execPeerCommandFrame port frame src s
  | .wdogClose p stage => Sys2Proof.Machine.execWdogClose p stage s
  | .wdogExpiry p stage => Sys2Proof.Machine.execWdogExpiry p stage s
  | .checkComplete p plan => Sys2Proof.Machine.execCheckComplete p plan s
  | .safeRestart failed => Sys2Proof.Machine.execSafeRestart failed s
  | .mossRunStart p => Sys2Proof.Machine.execMossRunStart p s
  | .mossRunEnd p payloads envelope us => Sys2Proof.Machine.execMossRunEnd p payloads envelope us s
  | .mossOverrun p => Sys2Proof.Machine.execMossOverrun p s
  | .lockstep => Sys2Proof.Machine.execLockstep s
  | .clkloss => Sys2Proof.Machine.execClkloss s
  | .heartbeat => Sys2Proof.Machine.execHeartbeat s
  | .heartbeatService => Sys2Proof.Machine.execHeartbeatService s
  | .vddSafUndervoltage => Sys2Proof.Machine.execVddSafUndervoltage s
  | .faultRecord queueFull => Sys2Proof.Machine.execFaultRecord queueFull s
  | .canLeaveInit m => Sys2Proof.Machine.execCanLeaveInit m s
  | .canEnterInit m => Sys2Proof.Machine.execCanEnterInit m s
  | .borec m => Sys2Proof.Machine.execBorec m s
  | .canIntegrationDone m => Sys2Proof.Machine.execCanIntegrationDone m s
  | .canRecoveryDone m => Sys2Proof.Machine.execCanRecoveryDone m s
  | .canBusError m kind => Sys2Proof.Machine.execCanBusError m kind s
  | .canFrameReceive m frame age => Sys2Proof.Machine.execCanFrameReceive m frame age s
  | .txreq m word bits => Sys2Proof.Machine.execTxreq m word bits s
  | .txabort m word bits => Sys2Proof.Machine.execTxabort m word bits s
  | .canRxGet m value => Sys2Proof.Machine.execCanRxGet m value s
  | .canRxcfgWrite m value => Sys2Proof.Machine.execCanRxcfgWrite m value s
  | .canSubmit m o => Sys2Proof.Machine.execCanSubmit m o s
  | .canArbitration m => Sys2Proof.Machine.execCanArbitration m s
  | .canTxDone m ok => Sys2Proof.Machine.execCanTxDone m ok s
  | .canReferenceSend m => Sys2Proof.Machine.execCanReferenceSend m s
  | .canSyncTimeout m => Sys2Proof.Machine.execCanSyncTimeout m s
  | .canTtMissed m o => Sys2Proof.Machine.execCanTtMissed m o s
  | .ethPortEnable n cfg => Sys2Proof.Machine.execEthPortEnable n cfg s
  | .ethLinkUp n rate fec => Sys2Proof.Machine.execEthLinkUp n rate fec s
  | .ethLinkDown n => Sys2Proof.Machine.execEthLinkDown n s
  | .ethTxSend n ts len => Sys2Proof.Machine.execEthTxSend n ts len s
  | .ethTxDone n ts => Sys2Proof.Machine.execEthTxDone n ts s
  | .ethGateCommit n => Sys2Proof.Machine.execEthGateCommit n s
  | .ethGateSwitch n => Sys2Proof.Machine.execEthGateSwitch n s
  | .ethGateInterval n => Sys2Proof.Machine.execEthGateInterval n s
  | .gptpMessage n msg => Sys2Proof.Machine.execGptpMessage n msg s
  | .gptpSyncTimeout => Sys2Proof.Machine.execGptpSyncTimeout s
  | .qpSqDoorbell qpn idx => Sys2Proof.Machine.execQpSqDoorbell qpn idx s
  | .qpRqDoorbell qpn idx => Sys2Proof.Machine.execQpRqDoorbell qpn idx s
  | .qpCqDoorbell qpn idx => Sys2Proof.Machine.execQpCqDoorbell qpn idx s
  | .qpLoadContext qpn => Sys2Proof.Machine.execQpLoadContext qpn s
  | .roceWorkRequest qpn => Sys2Proof.Machine.execRoceWorkRequest qpn s
  | .rocePacket n pkt => Sys2Proof.Machine.execRocePacket n pkt s
  | .roceAckTimeout qpn => Sys2Proof.Machine.execRoceAckTimeout qpn s
  | .roceRateRecovery qpn => Sys2Proof.Machine.execRoceRateRecovery qpn s
  | .bar2Access off acc => Sys2Proof.Machine.execBar2Access off acc s
  | .pcieCompletion tag kind => Sys2Proof.Machine.execPcieCompletion tag kind s
  | .pcieCompletionTimeout tag => Sys2Proof.Machine.execPcieCompletionTimeout tag s
  | .pcieLinkReset => Sys2Proof.Machine.execPcieLinkReset s
  | .dmaGo n => Sys2Proof.Machine.execDmaGo n s
  | .dmaAbort n => Sys2Proof.Machine.execDmaAbort n s
  | .dmaResume n => Sys2Proof.Machine.execDmaResume n s
  | .dmaDescriptorFetch n => Sys2Proof.Machine.execDmaDescriptorFetch n s
  | .dmaDescriptorComplete n => Sys2Proof.Machine.execDmaDescriptorComplete n s
  | .dmaBusError n write addr => Sys2Proof.Machine.execDmaBusError n write addr s
  | .dmaRetry n ok => Sys2Proof.Machine.execDmaRetry n ok s
  | .memRead init cls addr errs => Sys2Proof.Machine.execMemRead init cls addr errs s
  | .memWrite init cls addr data poison errs => Sys2Proof.Machine.execMemWrite init cls addr data poison errs s
  | .memChannelRetrain pch ok => Sys2Proof.Machine.execMemChannelRetrain pch ok s
  | .sparePoisonFillDone lch => Sys2Proof.Machine.execSparePoisonFillDone lch s
  | .scrubStep errs => Sys2Proof.Machine.execScrubStep errs s
  | .rowSpareDone pch row => Sys2Proof.Machine.execRowSpareDone pch row s
  | .migrateRequest value => Sys2Proof.Machine.execMigrateRequest value s
  | .migrationBlockCopy g => Sys2Proof.Machine.execMigrationBlockCopy g s
  | .tokenPeriod g => Sys2Proof.Machine.execTokenPeriod g s
  | .twinLinkUp spared => Sys2Proof.Machine.execTwinLinkUp spared s
  | .twinLaneLoss lanes => Sys2Proof.Machine.execTwinLaneLoss lanes s
  | .twinTrainRetry ok spared => Sys2Proof.Machine.execTwinTrainRetry ok spared s
  | .heartbeatSend => Sys2Proof.Machine.execHeartbeatSend s
  | .heartbeatReceive hb => Sys2Proof.Machine.execHeartbeatReceive hb s
  | .heartbeatLoss => Sys2Proof.Machine.execHeartbeatLoss s
  | .digestComputeDone p => Sys2Proof.Machine.execDigestComputeDone p s
  | .digestResend p => Sys2Proof.Machine.execDigestResend p s
  | .digestReceive p frame roiAge corrupt digest good => Sys2Proof.Machine.execDigestReceive p frame roiAge corrupt digest good s
  | .digwaitExpiry p => Sys2Proof.Machine.execDigwaitExpiry p s
  | .peerFaultNHigh => Sys2Proof.Machine.execPeerFaultNHigh s
  | .peerFaultNLow => Sys2Proof.Machine.execPeerFaultNLow s
  | .takeoverWaitExpiry => Sys2Proof.Machine.execTakeoverWaitExpiry s
  | .peerKill => Sys2Proof.Machine.execPeerKill s
  | .pmicWriteDone ack => Sys2Proof.Machine.execPmicWriteDone ack s
  | .pmicRetry ack => Sys2Proof.Machine.execPmicRetry ack s
  | .pmicSettleExpiry => Sys2Proof.Machine.execPmicSettleExpiry s
  | .pllLock q b => Sys2Proof.Machine.execPllLock q b s
  | .pllLockLost q => Sys2Proof.Machine.execPllLockLost q s
  | .pllRelockRetry q b ok => Sys2Proof.Machine.execPllRelockRetry q b ok s
  | .domainClockLoss d => Sys2Proof.Machine.execDomainClockLoss d s
  | .mcgClockWaitExpiry g => Sys2Proof.Machine.execMcgClockWaitExpiry g s
  | .thermalForceStep q temp => Sys2Proof.Machine.execThermalForceStep q temp s
  | .thermalLiftStep q temp => Sys2Proof.Machine.execThermalLiftStep q temp s
  | .droopDetect q fcycles => Sys2Proof.Machine.execDroopDetect q fcycles s
  | .droopRecover q => Sys2Proof.Machine.execDroopRecover q s
  | .sleepEntryComplete => Sys2Proof.Machine.execSleepEntryComplete s
  | .vehMotionRise => Sys2Proof.Machine.execVehMotionRise s
  | .wakeNLow => Sys2Proof.Machine.execWakeNLow s
  | .wakeTimerExpiry => Sys2Proof.Machine.execWakeTimerExpiry s
  | .sleepExitComplete => Sys2Proof.Machine.execSleepExitComplete s
  | .padHoldRelease init value => Sys2Proof.Machine.execPadHoldRelease init value s
  | .unlock => Sys2Proof.Machine.execUnlock s
  | .rhizomeLockstepMismatch => Sys2Proof.Machine.execRhizomeLockstepMismatch s
  | .domainClockReturn d => Sys2Proof.Machine.execDomainClockReturn d s
  | .pcieLinkUp width speed => Sys2Proof.Machine.execPcieLinkUp width speed s
  | .twinImageRequest => Sys2Proof.Machine.execTwinImageRequest s
  | .twinImageReceived image => Sys2Proof.Machine.execTwinImageReceived image s
  | .arpRequest n ipv6 target sender senderMac => Sys2Proof.Machine.execArpRequest n ipv6 target sender senderMac s
  | .ethRxDiscard n reason => Sys2Proof.Machine.execEthRxDiscard n reason s
  | .gptpSyncInterval n => Sys2Proof.Machine.execGptpSyncInterval n s
  | .imuTransfer ok sample => Sys2Proof.Machine.execImuTransfer ok sample s
  | .epochInvalidationDone fp => Sys2Proof.Machine.execEpochInvalidationDone fp s
  | .postingRepeat => Sys2Proof.Machine.execPostingRepeat s
  | .porstNAssert => Sys2Proof.Machine.execPorstNAssert s
  | .sysrstNAssert => Sys2Proof.Machine.execSysrstNAssert s
  | .vddSafRestored => Sys2Proof.Machine.execVddSafRestored s

end Sys2Proof.Machine
end

