-- ==== Sys2Proof/Machine/Tick.lean ====
section
/-! DEFINITION. The timebase (R13, R558, 01, 17). -/

namespace Sys2Proof.Machine

/-- A correction is slewed at 500 ppm: 2 ns in every 2,000 ticks of 2 ns, so the timebase never steps and never runs back (R13; log 3). -/
def slewTick (g : Gctl) : Gctl :=
  if g.slewLeft = 0 then g
  else if g.slewWait + 1 < 2000 then { g with slewWait := g.slewWait + 1 }
  else if g.slewLeft > 0 then { g with slewWait := 0, slewLeft := g.slewLeft - min 2 g.slewLeft, time := g.time + 2 }
  else { g with slewWait := 0, slewLeft := g.slewLeft + min 2 (-g.slewLeft), time := g.time - 2 }

/-- 2 ns pass in a sleep state (R566, R568; log 3). -/
def sleepTick (p : Pwr) : Pwr := if p.sleep = 0 then p else { p with aonNs := p.aonNs + 2 }

/-- The timebase counts 2 ns (R13). It stands still while the device is held in reset and while its domain is down in S3 and S4 (R563). -/
def tick (s : State) : State :=
  if !s.pins.porstN || !s.pins.sysrstN then s
  else if 3 ≤ s.pwr.sleep.toNat then { s with pwr := sleepTick s.pwr }
  else { s with gctl := { slewTick s.gctl with time := (slewTick s.gctl).time + 2 }, pwr := sleepTick s.pwr }

end Sys2Proof.Machine
end

