-- ==== Sys2Proof/Safety.lean ====
section
/-! DEFINITION. The terms the statements use: when a domain of the device runs, what it means that a command completes, and the
safety condition of the fail-silent latch. -/

namespace Sys2Proof

open Machine

/-! ### When a command's domain runs -/

/-- No reset pin holds the device and it is in neither S3 nor S4: every domain but the fabric can act (R563, R619, R620). -/
abbrev Runs (s : State) : Prop := s.held = false ∧ s.asleep 3 = false

/-- The SAF domain runs: it does in S3 too (R563). -/
abbrev RunsSaf (s : State) : Prop := s.held = false ∧ s.asleep 4 = false

/-- The AON domain runs: it does in every sleep state (R563). -/
abbrev RunsAon (s : State) : Prop := s.held = false

/-- Frond f's quadrant has its clock (R557, R563). -/
abbrev RunsFab (s : State) (f : Nat) : Prop := s.held = false ∧ s.fabOff f = false

/-- The domain of CAN controller m runs: CAN0 to CAN5 in CAN, CAN6 and CAN7 in SAF (R22, R558). -/
abbrev RunsCan (s : State) (m : Nat) : Prop :=
  s.held = false ∧ (if m < 6 then s.asleep 3 = false ∧ s.pwr.lostDomains.contains .can = false else s.asleep 4 = false)

/-! ### Writes of registers that do nothing before the Rhizome runs or during a restart (R340, R585) -/

/-- A write of a register of LOOP, SCHED, CMDQ, DMA, FRND or CTXT, which the safe state resets (R340). -/
def blkWrite : Instr → Bool
  | .dmaGo _ => true | .dmaAbort _ => true | .dmaResume _ => true | .fclkEnable _ => true | .fclkDisable _ => true | .fclkPeriodWrite _ _ => true
  | .frndEpochWrite _ _ => true | .frndFill _ _ => true | .handleEntryWrite _ _ _ _ => true | .hostSubmit _ => true | .roiWindowWrite _ _ _ => true
  | .roiCommit _ _ => true | .kvpoolEnable _ => true | .kvpoolDisable _ => true | .sqTailDoorbell _ _ => true | .cqHeadDoorbell _ _ => true
  | .evqHeadDoorbell _ => true | .sqEnable _ _ => true | .sqDisable _ _ => true | .cqEnable _ _ => true | .cqDisable _ _ => true
  | .slotGo _ _ => true | .slotAbort _ _ => true | _ => false

/-- A write of a register of ETH or MEMC, which answers once the Rhizome runs (R585). -/
def barWrite : Instr → Bool
  | .ethPortEnable _ _ => true | .ethGateCommit _ => true | .ethTxSend _ _ _ => true | .migrateRequest _ => true | .qpSqDoorbell _ _ => true
  | .qpRqDoorbell _ _ => true | .qpCqDoorbell _ _ => true | _ => false

/-- The controller whose register a command writes. -/
def canWrite : Instr → Option CanNo
  | .canLeaveInit m => some m | .canEnterInit x => some x.can | .borec m => some m | .txreq m _ _ => some m | .txabort m _ _ => some m
  | .canRxGet m _ => some m | .canRxcfgWrite m _ => some m | _ => none

/-! ### Completion -/

/-- The command completes and its effect turns s into t: the next state is t, with the latch kept where it is or has become
set (R342). -/
def Completes (c : Instr) (s t : State) : Prop := exec c s = .next (keepLatch s t)

/-- A command that is a write of a register completes: in S1 and S2 it has also woken the device (R566). -/
def CompletesReg (c : Instr) (s t : State) : Prop := Completes c s (wakeEvent 1 t)

/-- The register of CAN controller m answers a write: of CAN0 to CAN5 once the Rhizome runs and outside a restart (R340, R585). -/
abbrev CanUp (s : State) (m : CanNo) : Prop := m.val < 6 → s.blocksUp = true

/-- The same of a register of a CAN controller; a write of Thallus's own CAN6 and CAN7 wakes nothing (R387, R566). -/
def CompletesCan (m : CanNo) (c : Instr) (s t : State) : Prop := Completes c s (if m.val < 6 then wakeEvent 1 t else t)

/-- Descriptor d of an opcode may start on slot k of Frond f, and no fault and no fill mark holds it (R159 to R161). -/
abbrev Starts (s : State) (f k op : Nat) (d : QDesc) : Prop := s.ready f k op = some d ∧ s.judge f k d = .go

/-- Command `tag` is in flight with an opcode, may start now, and no check of R400 refuses it. -/
abbrev CmdStarts (s : State) (op tag : Nat) (c : Cmd) : Prop :=
  s.cmd tag = some c ∧ c.op = op ∧ s.startable c = true ∧ s.checkPacket c = none

/-! ### Safety -/

/-- While the fail-silent latch is set the governor's mode is SILENT and FAULT_N is low (R342). -/
abbrev LatchHolds (s : State) : Prop := s.island.silent = true → s.island.mode = .silent ∧ s.pins.faultN = false

/-- The byte stores of the state are in canonical form. -/
abbrev StoresCanonical (s : State) : Prop :=
  Memory.wf s.mem.bytes = true ∧ Memory.wf s.hostMem = true ∧ Memory.wf s.cmdq.sram = true

end Sys2Proof
end

