-- ==== Sys2Proof/Certificates/Slice0/Obligations.lean ====
section
/-! DEFINITION. The statements for the provers. In each, `Completes c s t` says that `exec c s` is the next state t, with the latch
of R342 kept, and `CompletesReg` that the write of a register has also woken the device (R566). What each says in words is
its `statement` in OBLIGATIONS.json. -/

open Sys2Proof Sys2Proof.Machine

/-- SET_SLEEP, entry, wake events, exit and the held pads (R413, R564, R565, R566, R567, R568, R570, R581, R585). -/
def Obligations.SleepStates : Prop :=
  (∀ (s : State) (tag : Nat) (c : Cmd) (motion : Bool), Runs s → CmdStarts s 0x50 tag c →
    (motion = true ∨ s.runningPipes ≠ [] → ∃ t, exec (.setSleep tag motion) s = .next t ∧ t.pwr.phase = s.pwr.phase ∧
      t.pins.vehMotion = motion ∧ t = keepLatch s (finishCmd tag 0x61 0 0 { takeCmd c s with pins := { s.pins with vehMotion := motion } })) ∧
    (motion = false → s.runningPipes = [] → s.sched.runs = [] → ∃ t, exec (.setSleep tag motion) s = .next t ∧
      t.pwr.phase = .entering ∧ t.pwr.sleepTo = BitVec.ofNat 3 (c.fld 0x18 1) ∧ t.pwr.sleepCmd = some tag)) ∧
  (∀ s : State, RunsSaf s →
    (s.pwr.phase ≠ .entering ∨ s.quiesced = false → Completes .sleepEntryComplete s s) ∧
    (s.pwr.phase = .entering → s.quiesced = true → s.pwr.sleepTo = 1 → s.pwr.sleepCmd = none →
      Completes .sleepEntryComplete s (asleepNow 1 s)) ∧
    (s.pwr.phase = .entering → s.quiesced = true → s.pwr.sleepTo = 2 → s.pwr.sleepCmd = none → (fenceAll s).banksDown = true →
      ∃ t, exec .sleepEntryComplete s = .next t ∧ t.pwr.sleep = 2 ∧ ∀ q : Quad, (t.quad q).powered = false)) ∧
  (∀ s : State, RunsAon s →
    (s.pwr.phase = .steady → s.pwr.sleep = 0 → Completes .wakeNLow s s ∧ Completes .wakeTimerExpiry s s ∧ Completes .sleepExitComplete s s ∧
      ∃ t, exec .vehMotionRise s = .next t ∧ t.pins.vehMotion = true ∧ t.pwr = s.pwr) ∧
    (s.pwr.phase = .steady → s.pwr.sleep ≠ 0 →
      (∃ t, exec .vehMotionRise s = .next t ∧ t.pwr.phase = .waking ∧ t.pwr.wakeCause.getLsbD 0 = true) ∧
      (s.pwr.wakeNEn = true → ∃ t, exec .wakeNLow s = .next t ∧ t.pwr.phase = .waking ∧ t.pwr.wakeCause.getLsbD 2 = true) ∧
      (s.pwr.wakeNEn = false → Completes .wakeNLow s s) ∧
      (s.pwr.wakeTimerEn = true → s.pwr.wakeTimer ≠ 0 → s.pwr.wakeTimer.toNat ≤ s.pwr.aonTicks →
        ∃ t, exec .wakeTimerExpiry s = .next t ∧ t.pwr.phase = .waking ∧ t.pwr.wakeCause.getLsbD 3 = true) ∧
      (s.pwr.aonTicks < s.pwr.wakeTimer.toNat → Completes .wakeTimerExpiry s s)) ∧
    (s.pwr.phase = .entering → s.pwr.sleepTo ≠ 0 → ∃ t, exec .vehMotionRise s = .next t ∧ t.pwr.phase = .entering ∧ t.pwr.wakeSeen = true) ∧
    (s.pwr.phase = .waking → s.pwr.sleep = 1 → ∃ t, exec .sleepExitComplete s = .next t ∧ t.pwr.sleep = 0 ∧ t.pwr.phase = .steady ∧
      t.pins.slpS3N = true ∧ t.pins.slpS4N = true) ∧
    (s.pwr.phase = .waking → s.pwr.sleep = 4 → Completes .sleepExitComplete s (loadImage (awake s)))) ∧
  (∀ (s : State) (init : Initiator) (v : Word32), RunsSaf s → init ≠ 0xC0 → s.barUp = false → CompletesReg (.padHoldRelease init v) s s) ∧
  (∀ (s : State) (init : Initiator) (v : Word32), RunsSaf s → init = 0xC0 ∨ s.barUp = true → ∃ t, exec (.padHoldRelease init v) s = .next t ∧
    t.pwr.holdSoc = (s.pwr.holdSoc && !v.getLsbD 1) ∧
    t.pwr.holdSaf = (s.pwr.holdSaf && !(v.getLsbD 0 && init = 0xC0)))

/-- The reset pins and start-up (R36, R484, R562, R584, R586, R590, R619, R620). -/
def Obligations.ResetAndStartUp : Prop :=
  (∀ (s : State) (b r x : Bool),
    (s.pins.porstN = true → exec (.porstNRelease b r x) s = .next s) ∧ (s.pins.sysrstN = true → exec (.sysrstNRelease b r x) s = .next s) ∧
    (s.pins.porstN = false → s.pins.sysrstN = true →
      exec (.porstNRelease b r x) s = .next (startUp b r x { s with pins := { s.pins with porstN := true } })) ∧
    (s.pins.porstN = true → s.pins.sysrstN = false →
      exec (.sysrstNRelease b r x) s = .next (startUp b r x { s with pins := { s.pins with sysrstN := true } })) ∧
    (s.pins.porstN = false → s.pins.sysrstN = false →
      exec (.porstNRelease b r x) s = .next { s with pins := { s.pins with porstN := true } } ∧
      exec (.sysrstNRelease b r x) s = .next { s with pins := { s.pins with sysrstN := true } }) ∧
    (s.pins.porstN = false → exec .porstNAssert s = .next s) ∧ (s.pins.sysrstN = false → exec .sysrstNAssert s = .next s) ∧
    (s.pins.porstN = true → ∃ t, exec .porstNAssert s = .next t ∧ t.pins.porstN = false ∧ t.island = State.reset.island ∧
      t.pins.faultN = false ∧ t.sec.fuses = s.sec.fuses ∧ t.sec.flash = s.sec.flash ∧ t.fronds = [] ∧ t.mem = State.reset.mem ∧
      t.can = [] ∧ t.dma = [] ∧ t.cmdq = State.reset.cmdq ∧ t.eth = State.reset.eth ∧ t.loop = State.reset.loop ∧ t.sched = State.reset.sched ∧
      t.thal = State.reset.thal ∧ t.twin = State.reset.twin ∧ t.pwr = State.reset.pwr) ∧
    (s.pins.porstN = true → s.pins.sysrstN = true → ∃ t, exec .sysrstNAssert s = .next t ∧ t.pins.sysrstN = false ∧
      t.island.silent = s.island.silent ∧ t.pins.faultN = false ∧ t.sec.fuses = s.sec.fuses ∧ t.sec.bootNext = s.sec.bootNext ∧
      t.twin.killed = s.twin.killed ∧ t.fronds = [] ∧ t.can = [])) ∧
  (∀ (s : State) (b r x : Bool), let t := startUp b r x s
    t.sec.sensed = s.sec.fuses ∧
    ((if s.sec.bootNext = 1 ∨ s.sec.bootNext = 2 then s.sec.bootNext else if b then 1 else 0) = 1 → t.sec.phase = .hostWait) ∧
    (s.sec.bootNext = 0 → b = false → s.sec.flashSpoiled = false → field s.sec.flash 0 4 ≠ 0x5746534B →
      t.sec.phase = .failed ∧ t.gctl.bootFailed = true ∧ t.gctl.bootStage = 0)) ∧
  (∀ s : State, Runs s →
    (∀ n : Word32, (s.sec.phase ≠ .hostWait → CompletesReg (.pushLenDoorbell n) s s) ∧
      (s.sec.phase = .hostWait → n = 0 ∨ 4194304 < n.toNat ∨ n.toNat % 64 ≠ 0 → ∃ t f, exec (.pushLenDoorbell n) s = .next t ∧
        t.sec.phase = .failed ∧ f.code = 0x0B02 ∧ t.thal.inFlight = s.thal.inFlight ++ [f]) ∧
      (s.sec.phase = .hostWait → n ≠ 0 → n.toNat ≤ 4194304 → n.toNat % 64 = 0 → s.checkImage (treadN 0 s.sec.staging 0 n.toNat) = none →
        s.pins.xtal = true → ∃ t, exec (.pushLenDoorbell n) s = .next t ∧ t.sec.phase = .verified ∧ t.gctl.bootStage = 2 ∧
          t.sec.image = treadN 0 s.sec.staging 0 n.toNat)) ∧
    (∀ d : List Byte, d.length ≤ 4194304 →
      (s.sec.source ≠ 2 ∨ s.sec.phase ≠ .loading ∨ s.twin.link ≠ .up → Completes (.twinImageReceived d) s s) ∧
      (s.sec.source = 2 → s.sec.phase = .loading → s.twin.link = .up → Completes (.twinImageReceived d) s (bootImage d s))) ∧
    (s.sec.phase = .verified → s.twin.link = .up → Completes .twinImageRequest s (emit (.twinImage s.flashBytes) s)) ∧
    (s.twin.link ≠ .up → Completes .twinImageRequest s s) ∧
    (∀ failed : List PhysChan, failed.Nodup →
      (s.bootAt 2 = false → Completes (.memoryTrainingDone failed) s s) ∧
      (s.bootAt 2 = true → ∃ t, exec (.memoryTrainingDone failed) s = .next t ∧ t.gctl.bootStage = 3 ∧ t.mem.bytes = [] ∧ t.mem.lines = [])) ∧
    (∀ (q : Quad) (ok : Bool), s.bootAt 3 = true → (s.quad q).forcedCal = true → s.pwr.rail ≤ 3 →
      (ok = false → ∃ t, exec (.droopCalibrationDone q ok) s = .next t ∧ t.gctl.bootFailed = true ∧ (t.quad q).forcedCal = true) ∧
      (ok = true → s.sec.trimsFused = true → ∃ t, exec (.droopCalibrationDone q ok) s = .next t ∧ (t.quad q).forcedCal = false)) ∧
    (∀ x : SelfTest, (x.failed ++ x.goldenBad).Nodup →
      (s.bootAt 3 = false ∨ s.pwr.calDone = false → Completes (.fabricSelfTestDone x) s s) ∧
      (s.bootAt 3 = true → s.pwr.calDone = true → ∃ t, exec (.fabricSelfTestDone x) s = .next t ∧ t.gctl.ready = true ∧
        t.gctl.bootStage = 4 ∧ ∀ f : Frond, f ∈ x.failed ∨ f ∈ x.goldenBad → (t.fp f).st = .failed)))

/-- Firmware writes, fuses, attestation and the unlock (R594, R595, R597, R599, R600, R602, R603). -/
def Obligations.FusesAndFlash : Prop :=
  (∀ (s : State) (tag : Nat) (c : Cmd), Runs s → let u := takeCmd c s
    (CmdStarts s 0x61 tag c →
      (s.sec.flashWrite = .inProgress → Completes (.fwWrite tag) s (finishCmd tag 0x25 0 0 u)) ∧
      (s.sec.flashWrite ≠ .inProgress → ∀ d t, readImage 29 (c.fld 0x20 8) (c.fld 0x18 4) u = (d, t) →
        (d = none → Completes (.fwWrite tag) s (finishCmd tag 0x28 0 0 t)) ∧
        (∀ b x, d = some b → t.withCurrentFuses.checkImage b = some x →
          Completes (.fwWrite tag) s (finishCmd tag (if x.1 = 0x0B05 then 0x65 else 0x66) 0 0 t)) ∧
        (∀ b, d = some b → t.withCurrentFuses.checkImage b = none → Completes (.fwWrite tag) s
          { t with sec := { t.sec with flashWrite := .inProgress, flashImage := b, flashCmd := some tag } }))) ∧
    (∀ bad : BitVec 128, CmdStarts s 0x62 tag c → let w := c.fld 0x18 2
      let data := BitVec.ofNat 128 (fuseBits w (c.fld 0x20 16))
      (s.fuseAllowed w data.toNat = false → ∃ t, exec (.fuseProgram tag bad) s = .next t ∧ t.sec = s.sec ∧
        t = keepLatch s (finishCmd tag 0x64 0 0 u)) ∧
      (s.fuseAllowed w data.toNat = true → ∃ t, exec (.fuseProgram tag bad) s = .next t ∧
        tget 0 t.sec.fuses w = tget 0 s.sec.fuses w ||| (data &&& ~~~bad) ∧
        (∀ v, v ≠ w → tget 0 t.sec.fuses v = tget 0 s.sec.fuses v) ∧ t.sec.sensed = s.sec.sensed)) ∧
    (CmdStarts s 0x60 tag c → Completes (.attest tag) s
      (finishData tag 0 (clean (u.attestation (slice c.pkt 0x18 32))) 528 0 u) ∧ (u.attestation (slice c.pkt 0x18 32)).length = 528)) ∧
  (∀ (s : State) (ok : Bool), RunsSaf s →
    (s.sec.flashWrite ≠ .inProgress → Completes (.fwFlashWriteDone ok) s s) ∧
    (s.sec.flashWrite = .inProgress → ∃ t, exec (.fwFlashWriteDone ok) s = .next t ∧
      t.sec.flash = (if ok then s.sec.flashImage else []) ∧ t.sec.flashSpoiled = !ok ∧
      t.sec.flashWrite = (if ok then .written else .failed) ∧ t.sec.fuses = s.sec.fuses)) ∧
  (∀ s : State, Runs s →
    (s.runningPipes ≠ [] ∨ edVerify s.sec.malsureKey s.unlockMessage s.unlockToken = false → ∃ t f, exec .unlock s = .next t ∧
      t.sec = s.sec ∧ f.code = 0x0B07 ∧ t.thal.inFlight = s.thal.inFlight ++ [f]) ∧
    (s.runningPipes = [] → edVerify s.sec.malsureKey s.unlockMessage s.unlockToken = true → ∃ t, exec .unlock s = .next t ∧
      t.sec.returned = true ∧ (∀ i : Fin 8, tget 0 t.sec.fuses (0x102 + i.val) = BitVec.allOnes 128) ∧
      tget 0 t.sec.fuses 0x100 = tget 0 s.sec.fuses 0x100 ||| 0xF0))

/-- SET_PLEVEL, the rail and the PLLs (R302, R555, R556, R557). -/
def Obligations.PerformanceLevels : Prop :=
  (∀ (s : State) (tag : Nat) (c : Cmd), Runs s → CmdStarts s 0x51 tag c →
    (s.sched.c0Floor.toNat < c.fld 0x19 1 → s.class0Pipes ≠ [] → Completes (.setPlevel tag) s (finishCmd tag 0x62 0 0 (takeCmd c s))) ∧
    (c.fld 0x19 1 ≤ s.sched.c0Floor.toNat → Completes (.setPlevel tag) s (actSetPlevel c (takeCmd c s)))) ∧
  (∀ s : State, RunsSaf s →
    (s.pwr.pmicFailed = true → ∀ a, Completes (.pmicWriteDone a) s s) ∧
    (s.pwr.pmicFailed = false → ∀ a, Completes (.pmicRetry a) s s) ∧
    (∀ q l, s.pwr.step = some (.rail q l) →
      (s.pwr.pmicFailed = false → Completes (.pmicWriteDone true) s
        { s with pwr := { s.pwr with rail := s.pwr.railWanted, pmicFailed := false, step := some (.settle q l s.safNow) } }) ∧
      (s.pwr.pmicFailed = false → ∃ t r, exec (.pmicWriteDone false) s = .next t ∧ t.pwr.pmicFailed = true ∧ t.pwr.rail = s.pwr.rail ∧
        r.code = 0x0806 ∧ t.thal.inFlight = s.thal.inFlight ++ [r]) ∧
      (s.pwr.pmicFailed = true → ∃ t, exec (.pmicRetry true) s = .next t ∧ t.pwr.rail = s.pwr.railWanted ∧ t.pwr.step = some (.settle q l s.safNow) ∧
        t.out = s.out ++ [.pmbus s.pwr.addr.toNat s.pwr.exp.toNat (levelMv s.pwr.railWanted)])) ∧
    (∀ q l since, s.pwr.step = some (.settle q l since) →
      (since + 10000 * max 1 s.pwr.settle.toNat ≤ s.safNow → Completes .pmicSettleExpiry s (startLock q l s)) ∧
      (s.safNow < since + 10000 * max 1 s.pwr.settle.toNat → Completes .pmicSettleExpiry s s)) ∧
    (s.pwr.step = none → Completes .pmicSettleExpiry s s ∧ ∀ a, Completes (.pmicWriteDone a) s s)) ∧
  (∀ (s : State) (q : Quad), Runs s → let r := s.quad q
    (∀ b, b = r.pll ∨ r.clockStopped = true → Completes (.pllLock q b) s s) ∧
    (r.clockStopped = false → s.pwr.step = none →
      Completes (.pllLock q (!r.pll)) s (State.modQuad q (fun r => { r with stbyLock := true }) s)) ∧
    (∀ l, r.clockStopped = false → s.pwr.step = some (.lock q l) → Completes (.pllLock q (!r.pll)) s (switchLevel q l s)) ∧
    (r.clockStopped = true → Completes (.pllLockLost q) s s) ∧
    (r.clockStopped = false → r.stbyLock = true → ∃ t f, exec (.pllLockLost q) s = .next t ∧ (t.quad q).pll = !r.pll ∧
      (t.quad q).stbyLock = false ∧ f.code = 0x0801 ∧ t.thal.inFlight = s.thal.inFlight ++ [f]) ∧
    (r.clockStopped = false → r.stbyLock = false → ∃ t f l, exec (.pllLockLost q) s = .next t ∧ (t.quad q).clockStopped = true ∧
      t.island.safeCount = satInc s.island.safeCount ∧ f.code = 0x0802 ∧ f.safe = true ∧ t.thal.inFlight = s.thal.inFlight ++ f :: l) ∧
    (∀ b, Completes (.pllRelockRetry q b false) s s) ∧
    (∀ b, r.clockStopped = true → Completes (.pllRelockRetry q b true) s
      (advanceLevels (State.modQuad q (fun r => { r with clockStopped := false, pll := b, stbyLock := false }) s))))

/-- Clocks of the other domains, thermal forcing and droop (R558, R559, R560). -/
def Obligations.ClocksThermalDroop : Prop :=
  (∀ (s : State) (d : ClockDomain), RunsSaf s →
    (silentDomain d = true ∨ s.pwr.lostDomains.contains d = true → Completes (.domainClockLoss d) s s) ∧
    (s.pwr.lostDomains.contains d = false → Completes (.domainClockReturn d) s s) ∧
    (s.pwr.lostDomains.contains d = false → d ∈ [ClockDomain.noc, .loop, .prep] → ∃ t f l, exec (.domainClockLoss d) s = .next t ∧
      t.island.safeCount = satInc s.island.safeCount ∧ f.code = 0x0807 ∧ f.safe = true ∧ t.thal.inFlight = s.thal.inFlight ++ f :: l) ∧
    (s.pwr.lostDomains.contains d = false → d = .can → ∃ t f, exec (.domainClockLoss d) s = .next t ∧
      (∀ m, m < 6 → (t.canc m).st = .init) ∧ t.pwr.lostDomains = s.pwr.lostDomains ++ [.can] ∧
      f.code = 0x0809 ∧ t.thal.inFlight = s.thal.inFlight ++ [f]) ∧
    (s.pwr.lostDomains.contains d = false → d = .time → ∃ t f, exec (.domainClockLoss d) s = .next t ∧ t.gctl.locked = false ∧
      f.code = 0x080A ∧ t.thal.inFlight = s.thal.inFlight ++ [f]) ∧
    (∀ g, s.pwr.lostDomains.contains d = false → d = .mcg g → ∃ t f l, exec (.domainClockLoss d) s = .next t ∧
      (t.group g).clockLost = true ∧ f.code = 0x0808 ∧ f.safe = true ∧ t.thal.inFlight = s.thal.inFlight ++ f :: l) ∧
    (s.pwr.lostDomains.contains d = false → d = .saf → ∃ t, exec (.domainClockLoss d) s = .next t ∧
      t.island.silent = true ∧ t.island.fatalClkloss = true ∧ t.pins.faultN = false) ∧
    (s.pwr.lostDomains.contains d = true → (∀ g, d ≠ .mcg g) → Completes (.domainClockReturn d) s
      { s with pwr := { s.pwr with lostDomains := s.pwr.lostDomains.filter (fun x => x ≠ d) } }) ∧
    (∀ g, s.pwr.lostDomains.contains d = true → d = .mcg g → (s.group g).held = [] → ∃ t, exec (.domainClockReturn d) s = .next t ∧
      (t.group g).clockLost = false ∧ t.pwr.lostDomains.contains d = false)) ∧
  (∀ (s : State) (q : Quad), Runs s → let r := s.quad q
    (∀ temp : BitVec 16,
      (temp.toInt < 8 * (s.pwr.throttle.toNat : Int) ∨ 3 ≤ r.want →
        Completes (.thermalForceStep q temp) s (takeTemp q temp s)) ∧
      (8 * (s.pwr.throttle.toNat : Int) ≤ temp.toInt → r.want < 3 → ∃ f, f.code = 0x0805 ∧
        Completes (.thermalForceStep q temp) s (advanceLevels (report f (State.modQuad q (fun x =>
          { x with thermCap := r.want + 1 }) (takeTemp q temp s))))) ∧
      (8 * ((s.pwr.throttle.toNat : Int) - s.pwr.hyst.toNat) ≤ temp.toInt ∨ r.thermCap = 0 →
        Completes (.thermalLiftStep q temp) s (takeTemp q temp s)) ∧
      (∀ t, temp.toInt < 8 * ((s.pwr.throttle.toNat : Int) - s.pwr.hyst.toNat) → r.coolSince = some t → r.thermCap ≠ 0 →
        t.toNat + 10000000 ≤ s.gctl.time.toNat → Completes (.thermalLiftStep q temp) s (advanceLevels (State.modQuad q (fun x =>
          { x with thermCap := if r.thermCap - 1 ≤ r.target.toNat then 0 else r.thermCap - 1, coolSince := some s.gctl.time })
          (takeTemp q temp s))))) ∧
    (∀ n : Nat, n < 2 ^ 32 →
      (r.powered = false ∨ r.clockStopped = true → Completes (.droopDetect q n) s s) ∧
      (r.powered = true → r.clockStopped = false → ∃ t, exec (.droopDetect q n) s = .next t ∧ (t.quad q).stretching = true ∧
        (t.quad q).stretch = r.stretch + BitVec.ofNat 32 n)) ∧
    Completes (.droopRecover q) s (State.modQuad q (fun r => { r with stretching := false }) s))

/-- BAR2, outbound completions and the link (R33, R532, R534, R535, R537, R552, R586). -/
def Obligations.PcieEndpoint : Prop :=
  ∀ (s : State), Runs s →
    (∀ (off : Nat) (a : BusAcc), a.wf = true →
      (s.gctl.pcieUp = false → Completes (.bar2Access off a) s s) ∧
      (s.gctl.pcieUp = true → 0x1000000000 < off + a.len → Completes (.bar2Access off a) s (emit .unsupportedRequest s))) ∧
    (∀ (off n : Nat), s.gctl.pcieUp = true → 1 ≤ n → n ≤ 4096 → off + n ≤ 0x1000000000 →
      (s.sec.phase ≠ .hostWait → s.gctl.bootStage.toNat < 3 → Completes (.bar2Access off (.read n)) s
        (emit (.readReply 0xB0 (some (List.replicate n 0)) false) s)) ∧
      (s.sec.phase = .hostWait → off + n ≤ 0x400000 → Completes (.bar2Access off (.read n)) s
        (emit (.readReply 0xB0 (some (treadN 0 s.sec.staging off n)) false) s)) ∧
      (∀ b t, s.sec.phase ≠ .hostWait → 3 ≤ s.gctl.bootStage.toNat → readBlocks 0xB0 3 (n / 64 + 2) off n s = (b, t) →
        (poisoned (b.flatMap bar2Data) = false → Completes (.bar2Access off (.read n)) s
          (emit (.readReply 0xB0 (some (plain (b.flatMap bar2Data))) false) t)) ∧
        (poisoned (b.flatMap bar2Data) = true → Completes (.bar2Access off (.read n)) s
          (report (faultAt 0x0703 0xB0 off 0) (emit (.readReply 0xB0 (some (plain (b.flatMap bar2Data))) true) t))))) ∧
    (∀ (off : Nat) (d : List Byte), s.gctl.pcieUp = true → 1 ≤ d.length → d.length ≤ 4096 → off + d.length ≤ 0x1000000000 →
      (s.sec.phase ≠ .hostWait → s.gctl.bootStage.toNat < 3 → Completes (.bar2Access off (.write d)) s s) ∧
      (s.sec.phase = .hostWait → off + d.length ≤ 0x400000 → Completes (.bar2Access off (.write d)) s
        { s with sec := { s.sec with staging := twriteN 0 s.sec.staging off d } }) ∧
      (s.sec.phase ≠ .hostWait → 3 ≤ s.gctl.bootStage.toNat →
        (∀ t, writeAll 0xB0 3 off (clean d) s = (true, t) → Completes (.bar2Access off (.write d)) s t) ∧
        (∀ t, writeAll 0xB0 3 off (clean d) s = (false, t) → Completes (.bar2Access off (.write d)) s (hostRefused off d.length t)))) ∧
    (∀ tag, s.outReq tag = none →
      (tag < s.gctl.obNextTag → (∀ k, Completes (.pcieCompletion tag k) s s) ∧ Completes (.pcieCompletionTimeout tag) s s) ∧
      (s.gctl.obNextTag ≤ tag → (∀ k, Completes (.pcieCompletion tag k) s (awaitAnswer tag k s)) ∧
        Completes (.pcieCompletionTimeout tag) s (awaitAnswer tag .ur s))) ∧
    (∀ tag q, s.outReq tag = some q → let u := dropReq tag s
      let failed := failReq 0x0704 q u
      (q.flitErrs = [] → ∀ d, Completes (.pcieCompletion tag (.data d)) s (emit (.readReply q.init (some (slice d 0 q.len)) false) u)) ∧
      (∀ d, Completes (.pcieCompletion tag (.data d)) s
        (flitReply q.init q.cls q.addr q.flitErrs (some (clean (slice d 0 q.len)), u))) ∧
      (∀ d, ∃ f, f.code = 0x0705 ∧ Completes (.pcieCompletion tag (.poisoned d)) s
        (flitReply q.init q.cls q.addr q.flitErrs (some ((slice d 0 q.len).map (fun b => (b, true))), report f u))) ∧
      Completes (.pcieCompletion tag .ur) s failed ∧ Completes (.pcieCompletion tag .ca) s failed ∧
      Completes (.pcieCompletionTimeout tag) s failed) ∧
    (∃ t, exec .pcieLinkReset s = .next t ∧ t.gctl.pcieUp = false ∧ t.gctl.obReqs = [] ∧ t.mem = s.mem ∧
      ∃ l, t.thal.inFlight = s.thal.inFlight ++ l ∧ l.length = s.gctl.obReqs.length ∧ ∀ r ∈ l, r.code = 0x0701) ∧
    (∀ (w : BitVec 4) (v : BitVec 3),
      (s.pwr.lostDomains.contains .pcie = false → w.toNat ∈ [1, 2, 4, 8] → 1 ≤ v.toNat → v.toNat ≤ 5 →
        Completes (.pcieLinkUp w v) s { s with gctl := { s.gctl with pcieUp := true, pcieWidth := w, pcieSpeed := v } }) ∧
      (s.pwr.lostDomains.contains .pcie = true ∨ w.toNat ∉ [1, 2, 4, 8] ∨ v = 0 ∨ 5 < v.toNat → Completes (.pcieLinkUp w v) s s))

/-- DMA channels: GO, ABORT, RESUME, fetching, completing, errors and retries (R437, R440, R441, R442, R443, R447, R448, R449, R450, R456). -/
def Obligations.DmaChannels : Prop :=
  ∀ (s : State) (n : DmaChan), Runs s → let c := s.dmac n
    (s.blocksUp = true → c.owner ≠ 1 →
      (c.st = .idle → CompletesReg (.dmaGo n) s (State.modDma n (fun c =>
        { c with st := .running, nextFetch := some c.base.toNat, cur := c.base, suppress := false, supFp := 0xFF }) s)) ∧
      (c.st ≠ .idle → CompletesReg (.dmaGo n) s s) ∧
      (c.st = .idle → CompletesReg (.dmaAbort n) s s) ∧
      (c.st = .halted → CompletesReg (.dmaAbort n) s (State.modDma n (fun c => { c with st := .idle, fault := 0 }) s)) ∧
      (c.st = .running → CompletesReg (.dmaAbort n) s (stopChannel n (fun c => { c with st := .idle }) s)) ∧
      (c.st ≠ .halted → CompletesReg (.dmaResume n) s s) ∧
      (c.st = .halted → 28 ≤ n.val → CompletesReg (.dmaResume n) s (State.modDma n (fun c => { c with st := .idle, fault := 0 }) s)) ∧
      (c.st = .halted → n.val < 28 → CompletesReg (.dmaResume n) s (State.modDma n (fun c =>
        { c with st := .running, fault := 0, nextFetch := some c.cur.toNat }) (writeDmaStatus n c.cur.toNat 0 s)))) ∧
    (c.owner = 1 → CompletesReg (.dmaGo n) s s ∧ CompletesReg (.dmaAbort n) s s ∧ CompletesReg (.dmaResume n) s s) ∧
    (c.nextFetch = none → Completes (.dmaDescriptorFetch n) s s) ∧
    (∀ a b t, c.nextFetch = some a → c.st = .running → c.flight.length < 2 → s.dmaRuns = true → a + 32 ≤ 0x1000000000 →
      busRead (dmaInit n) c.cls.toNat a 32 s = (some b, t) → poisoned b = false → let x := dmaDesc (plain b)
      (x.ok = true → (x.fence = false ∨ c.flight = []) → Completes (.dmaDescriptorFetch n) s (startDescriptor n a (plain b) t)) ∧
      (x.ok = true → x.fence = true → c.flight ≠ [] → Completes (.dmaDescriptorFetch n) s s) ∧
      (x.ok = false → c.flight = [] → Completes (.dmaDescriptorFetch n) s (haltChannel n 0x0C04 a (dmaFault 0x0C04 n x.mode a 0 t))) ∧
      (x.ok = false → c.flight = [] → (∀ p : Pipe, (t.pipe p).dmaWanted.contains n.val = false) → ∃ u f, exec (.dmaDescriptorFetch n) s = .next u ∧ (u.dmac n).st = .halted ∧
        (u.dmac n).fault = 0x0C04 ∧ (u.dmac n).cur = BitVec.ofNat 40 a ∧ f.code = 0x0C04 ∧ u.thal.inFlight = t.thal.inFlight ++ [f])) ∧
    (c.flight = [] → Completes (.dmaDescriptorComplete n) s s ∧ (∀ ok, Completes (.dmaRetry n ok) s s) ∧
      ∀ (w : Bool) (a : Addr), a < 2 ^ 40 → Completes (.dmaBusError n w a) s s) ∧
    (∀ f rest, c.flight = f :: rest → c.st = .running → c.retryAddr = none → let x := dmaDesc f.desc
      (∀ t, moveAll n x (x.lines * (x.len / 64 + 2)) s = (.done, t) → Completes (.dmaDescriptorComplete n) s (completeDma n f x t)) ∧
      (∀ (w : Bool) (a : Addr), a < 2 ^ 40 →
        (n.val < 16 → Completes (.dmaBusError n w a) s
          (badDma n f x (dmaFault (if w then 0x0C02 else 0x0C01) n x.mode a 0 s))) ∧
        (16 ≤ n.val → c.attempts < c.retries → ∃ t, exec (.dmaBusError n w a) s = .next t ∧ (t.dmac n).st = .running ∧
          (t.dmac n).attempts = c.attempts + 1 ∧ (t.dmac n).retryAddr = some (a, w) ∧ t.thal.inFlight = s.thal.inFlight))) ∧
    (∀ f rest a w, c.flight = f :: rest → c.st = .running → c.retryAddr = some (a, w) →
      (c.attempts < c.retries → ∃ t, exec (.dmaRetry n false) s = .next t ∧ (t.dmac n).attempts = c.attempts + 1 ∧
        (t.dmac n).retried = satInc c.retried) ∧
      ((dmaDesc f.desc).lines ≤ f.line → Completes (.dmaRetry n true) s
        (State.modDma n (fun c => { c with attempts := 0, retryAddr := none }) s)))

/-- NOC transactions and register writes (R9, R10, R26, R33, R348, R349, R415, R433, R566). -/
def Obligations.TransactionsAndRegisters : Prop :=
  (∀ (s : State) (x : NocAccess), Runs s → x.wf = true →
    (s.initIssued x.init.toNat = false ∨ (x.init = 0xB0 ∧ s.gctl.pcieUp = false) → Completes (.nocTransaction x) s s) ∧
    (s.initIssued x.init.toNat = true → (x.init = 0xB0 → s.gctl.pcieUp = true) → x.bar4 = true → x.flitErrs = [] →
      (∀ n, x.acc = .read n → s.mmioDenied x.init.toNat false (0x200000 + x.addr) n = false →
        Completes (.nocTransaction x) s (emit (.readReply x.init (some (mmioRead x.init.toNat s (0x200000 + x.addr) n)) false) s)) ∧
      (∀ d, x.acc = .write d → s.mmioDenied x.init.toNat true (0x200000 + x.addr) d.length = false → Completes (.nocTransaction x) s s)) ∧
    (s.initIssued x.init.toNat = true → (x.init = 0xB0 → s.gctl.pcieUp = true) → x.bar4 = false →
      (∀ n, x.acc = .read n → x.flitErrs = [] → (targetRange x.addr n = .main ∨ targetRange x.addr n = .unmapped) →
        (∀ d t, busRead x.init.toNat x.vc x.addr n s = (some d, t) →
          Completes (.nocTransaction x) s (emit (.readReply x.init (some (plain d)) (poisoned d)) t)) ∧
        (∀ t, busRead x.init.toNat x.vc x.addr n s = (none, t) → Completes (.nocTransaction x) s (emit (.readReply x.init none false) t))) ∧
      (∀ n f o d t, x.acc = .read n → x.flitErrs = [] → targetRange x.addr n = .frond f o →
        busRead x.init.toNat x.vc x.addr n (placeStoreErrs f x.storeErrs s) = (some d, t) →
        Completes (.nocTransaction x) s (emit (.readReply x.init (some (plain d)) (poisoned d)) t)) ∧
      (∀ n o, x.acc = .read n → x.flitErrs = [] → targetRange x.addr n = .mmio o → s.mmioDenied x.init.toNat false o n = false →
        Completes (.nocTransaction x) s (emit (.readReply x.init (some (mmioRead x.init.toNat s o n)) false) s)) ∧
      (∀ d, x.acc = .write d → (targetRange x.addr d.length = .main ∨ targetRange x.addr d.length = .unmapped) → x.flitErrs = [] →
        (∀ t, busWrite x.init.toNat x.vc x.addr (clean d) s = (true, t) → Completes (.nocTransaction x) s t) ∧
        (∀ t, busWrite x.init.toNat x.vc x.addr (clean d) s = (false, t) →
          Completes (.nocTransaction x) s (emit (.readReply x.init none false) t))) ∧
      (∀ d e, x.acc = .write d → targetRange x.addr d.length = .main → d.length ≤ 64 → x.flitErrs = [[e]] →
        ∀ t, busWrite x.init.toNat x.vc x.addr (clean d) { s with gctl := { s.gctl with nocCorr := satInc s.gctl.nocCorr } } = (true, t) →
          Completes (.nocTransaction x) s t) ∧
      (∀ d e1 e2, x.acc = .write d → targetRange x.addr d.length = .main → d.length ≤ 64 → x.flitErrs = [[e1, e2]] →
        class0Read x.init.toNat x.vc = false → s.fwMem x.init.toNat true x.addr d.length = true →
        (∀ i ∈ linesOf x.addr d.length, s.lineLost i = false ∧ s.lineStopped i = false) →
        ∃ t r, exec (.nocTransaction x) s = .next t ∧ r.code = 0x0301 ∧ t.thal.inFlight = s.thal.inFlight ++ [r] ∧
          ∀ i ∈ linesOf x.addr d.length, (t.lineMeta i).poison = true) ∧
      (∀ d, x.acc = .write d → targetRange x.addr d.length = .main → x.flitErrs = [] → s.fwMem x.init.toNat true x.addr d.length = false →
        ∃ t r, exec (.nocTransaction x) s = .next t ∧ r.code = 0x0920 ∧ t.thal.inFlight = s.thal.inFlight ++ [r] ∧ t.mem = s.mem ∧
          t.out = s.out ++ [.readReply x.init none false]) ∧
      (∀ d, x.acc = .write d → targetRange x.addr d.length = .unmapped → x.flitErrs = [] →
        ∃ t r, exec (.nocTransaction x) s = .next t ∧ r.code = 0x0302 ∧ t.thal.inFlight = s.thal.inFlight ++ [r] ∧ t.mem = s.mem))) ∧
  (∀ (s : State) (init : Initiator) (off : Nat) (w : AccessWidth) (v : Word64), Runs s → off < 0x4000000 →
    let n := widthBytes w
    let host : State → State := fun t => if init = 0xB0 then wakeEvent 1 t else t
    (s.initIssued init.toNat = false ∨ (init = 0xB0 ∧ s.gctl.pcieUp = false) → Completes (.registerWrite init off w v) s s) ∧
    (s.initIssued init.toNat = true → (init = 0xB0 → s.gctl.pcieUp = true) →
      (mmioAligned off n = false → Completes (.registerWrite init off w v) s (host s)) ∧
      (s.mmioDenied init.toNat true off n = false →
        (w = .w32 → off % 4 = 0 → Completes (.registerWrite init off w v) s (host (mmioPut init.toNat off (v.setWidth 32) s))) ∧
        (w = .w64 → off % 8 = 0 → Completes (.registerWrite init off w v) s (host
          (mmioPut init.toNat (off + 4) ((v >>> 32).setWidth 32) (mmioPut init.toNat off (v.setWidth 32) s)))) ∧
        ((0xA00000 ≤ off ∧ off < 0xB00000) ∨ (0x200000 ≤ off ∧ off < 0x300000) ∨ (0x2000000 ≤ off ∧ off < 0x2100000) →
          Completes (.registerWrite init off w v) s (host s))) ∧
      (s.mmioDenied init.toNat true off n = true →
        (init ≠ 0xB0 → ∃ t r, exec (.registerWrite init off w v) s = .next t ∧ r.code = 0x0921 ∧
          t.thal.inFlight = s.thal.inFlight ++ [r] ∧ t.out = s.out ++ [.readReply init none false]) ∧
        (init = 0xB0 → ∃ t r, exec (.registerWrite init off w v) s = .next t ∧ r.code = 0x0921 ∧
          t.thal.inFlight = s.thal.inFlight ++ [r] ∧ t.out = s.out))))

/-- RoCE doorbells, contexts, requests and packets (R524, R525, R526, R527, R528, R530, R550). -/
def Obligations.RoceQueuePairs : Prop :=
  ∀ (s : State), Runs s →
    (∀ (q : Qpn) (i : BitVec 16), let r := s.qp q
      let k := bits i.toNat 12 0
      (s.barUp = true → r.loaded = false → CompletesReg (.qpSqDoorbell q i) s s ∧ CompletesReg (.qpRqDoorbell q i) s s ∧ CompletesReg (.qpCqDoorbell q i) s s) ∧
      (s.barUp = true → r.loaded = true →
        (k < r.sqSize → CompletesReg (.qpSqDoorbell q i) s (State.modQp q (fun r => { r with sqTail := k }) s)) ∧
        (r.sqSize ≤ k → CompletesReg (.qpSqDoorbell q i) s s) ∧
        (k < r.rqSize → CompletesReg (.qpRqDoorbell q i) s (State.modQp q (fun r => { r with rqTail := k }) s)) ∧
        (r.rqSize ≤ k → CompletesReg (.qpRqDoorbell q i) s s) ∧
        (k < r.cqSize → r.cqWait = [] → CompletesReg (.qpCqDoorbell q i) s (State.modQp q (fun r => { r with cqHead := k }) s)) ∧
        (r.cqSize ≤ k → CompletesReg (.qpCqDoorbell q i) s s))) ∧
    (∀ q : Qpn, s.barUp = false ∨ s.eth.roceEn = false → CompletesReg (.qpLoadContext q) s s) ∧
    (∀ (q : Qpn) (b : List PByte) (t : State), s.barUp = true → s.eth.roceEn = true →
      busRead (0xB1 + bits (tget 0 s.mem.bytes (s.qpcAddr q + 1)).toNat 1 0) 1 (s.qpcAddr q) 64 s = (some b, t) →
      poisoned b = false → qpcOk (plain b) = true →
      ∃ u, exec (.qpLoadContext q) s = .next u ∧ (u.qp q).st = .ready ∧ (u.qp q).loaded = true ∧ (u.qp q).ctx = plain b ∧
        (u.qp q).sendPsn.toNat = field (plain b) 0x38 3 ∧ (u.qp q).expPsn.toNat = field (plain b) 0x3C 3) ∧
    (∀ q : Qpn, let r := s.qp q
      (r.sqHead = r.sqTail → Completes (.roceWorkRequest q) s s) ∧
      (∀ b t, s.roceRuns = true → r.loaded = true → r.sqHead ≠ r.sqTail → (s.port r.port).link = .up →
        readAll r.init 1 (field r.ctx 0x20 8 + 64 * r.sqHead) 64 s = (some b, t) → poisoned b = false → t.qp q = r →
        (r.st = .error → Completes (.roceWorkRequest q) s
          (completeWr q 4 (plain b) (State.modQp q (fun r => { r with sqHead := (r.sqHead + 1) % r.sqSize }) t))) ∧
        (r.st ≠ .error → wrOk (plain b) = true → r.unacked = [] →
          let x : RoceReq := { wr := plain b, psn := r.sendPsn, pkts := pktCount (field (plain b) 4 4) t.mtu }
          Completes (.roceWorkRequest q) s (transmitWr q x (State.modQp q (fun r =>
            { r with sqHead := (r.sqHead + 1) % r.sqSize, unacked := [x], sendPsn := r.sendPsn + BitVec.ofNat 24 x.pkts }) t)))) ∧
      (r.unacked = [] → Completes (.roceAckTimeout q) s s) ∧
      (∀ x rest, r.unacked = x :: rest → r.st = .ready → s.roceRuns = true →
        r.retry ≤ (if r.rnr then r.rnrRetries else r.retries) →
        Completes (.roceAckTimeout q) s (failWr q 1 x.wr (State.modQp q (fun r => { r with unacked := rest }) s))) ∧
      (∀ x, r.unacked = [x] → r.st = .ready → s.roceRuns = true → r.rnr = true → r.rnrRetries < r.retry →
        Completes (.roceAckTimeout q) s
          (transmitWr q x (State.modQp q (fun r => { r with rnr := false, rnrRetries := r.rnrRetries + 1 }) s))) ∧
      (∀ x, r.unacked = [x] → r.st = .ready → s.roceRuns = true → r.rnr = false → r.retries < r.retry →
        Completes (.roceAckTimeout q) s (transmitWr q x (State.modQp q (fun r => { r with retries := r.retries + 1 }) s))) ∧
      Completes (.roceRateRecovery q) s (State.modQp q (fun r => { r with rate := min 1000000 (r.rate + 50000) }) s)) ∧
    (∀ (n : EthPort) (p : RocePkt), p.payload.length ≤ 4096 → p.payload.length + 62 ≤ (s.port n).maxFrame.toNat →
      64 ≤ (s.port n).maxFrame.toNat → let q := p.qpn.toNat
      let r := s.qp q
      let u := State.modPort n (fun r => { r with rxOk := satInc r.rxOk }) s
      ((s.port n).link ≠ .up → Completes (.rocePacket n p) s s) ∧
      ((s.port n).link = .up → (s.eth.roceEn = false ∨ 1024 ≤ q ∨ r.loaded = false ∨ r.st ≠ .ready ∨ r.port ≠ n) →
        Completes (.rocePacket n p) s u) ∧
      ((s.port n).link = .up → s.eth.roceEn = true → q < 1024 → r.loaded = true → r.st = .ready → r.port = n →
        (p.opcode = 0x81 → Completes (.rocePacket n p) s (State.modQp q (fun r => { r with rate := r.rate / 2 }) u)) ∧
        (p.opcode.toNat ≤ 0x0C → p.ecnMarked = false → s.island.restarting = true →
          Completes (.rocePacket n p) s (sendAck q p.psn synRnr u)) ∧
        (p.opcode = 0x0A → p.ecnMarked = false → s.island.restarting = false → p.psn = r.expPsn → r.writeLeft = 0 → r.recvOffset = 0 →
          s.keyGrants p.rkey true p.va.toNat p.dmaLen.toNat = false → s.guarded true 4791 = none →
          ∃ t f, exec (.rocePacket n p) s = .next t ∧ t.mem = s.mem ∧ t.fronds = s.fronds ∧ f.code = 0x0603 ∧
            t.thal.inFlight = s.thal.inFlight ++ [f] ∧
            t.out = s.out ++ [.roce n r.dest { rocePkt 0x11 r.dqpn p.psn with syndrome := synAccess }])))

/-- Ports, links, received frames and transmit streams (R516, R517, R518, R519, R520, R521, R539, R542). -/
def Obligations.EthernetPorts : Prop :=
  ∀ (s : State) (n : EthPort), Runs s → let r := s.port n
    (∀ cfg : Word32, s.barUp = true → r.en = false → cfg.getLsbD 31 = true → ∃ t, exec (.ethPortEnable n cfg) s = .next t ∧
      (t.port n).en = true ∧ (t.port n).link = .training ∧ (t.port n).maxFrame.toNat = bits cfg.toNat 29 16 ∧
      (t.port n).pfc.toNat = bits cfg.toNat 15 8 ∧ (t.port n).rate.toNat = bits cfg.toNat 1 0) ∧
    (∀ cfg : Word32, s.barUp = true → r.en = true → cfg.getLsbD 31 = true → CompletesReg (.ethPortEnable n cfg) s s) ∧
    (∀ cfg : Word32, s.barUp = true → r.en = true → cfg.getLsbD 31 = false → ∃ t, exec (.ethPortEnable n cfg) s = .next t ∧
      (t.port n).en = false ∧ (t.port n).link = .down) ∧
    (∀ rate fec : BitVec 2,
      (r.link = .training → rate ≠ 3 → (r.rate = 3 ∨ r.rate = rate) → fec = fecFor rate.toNat (r.fec = 1) → s.pwr.holdSoc = false → s.ethStopped n = false →
        Completes (.ethLinkUp n rate fec) s (State.modPort n (fun r => { r with link := .up, stRate := rate, stFec := fec }) s)) ∧
      (r.link ≠ .training ∨ rate = 3 ∨ s.pwr.holdSoc = true ∨ s.ethStopped n = true → Completes (.ethLinkUp n rate fec) s s)) ∧
    (r.link ≠ .up → Completes (.ethLinkDown n) s s) ∧
    (r.link = .up → (∀ i : TxStream, (r.txs i).st ≠ .pending) → ∃ t f, exec (.ethLinkDown n) s = .next t ∧
      (t.port n) = { r with link := .training } ∧ f.code = 0x0601 ∧ t.thal.inFlight = s.thal.inFlight ++ [f]) ∧
    (∀ why, r.link ≠ .up → Completes (.ethRxDiscard n why) s s) ∧
    (∀ why, r.link = .up → why ≠ .noClass →
      Completes (.ethRxDiscard n why) s (State.modPort n (fun r => { r with rxBad := satInc r.rxBad }) s)) ∧
    (r.link = .up → Completes (.ethRxDiscard n .noClass) s (State.modPort n (fun r =>
      { r with rxOk := satInc r.rxOk, rxOther := satInc r.rxOther }) s)) ∧
    (∀ (v6 : Bool) (target sender : BitVec 128) (mac : BitVec 48), r.link = .up →
      let own := if v6 then r.ip6 else r.ip4.setWidth 128
      (target = own → own ≠ 0 → ∃ t, exec (.arpRequest n v6 target sender mac) s = .next t ∧
        t.out = s.out ++ [.arpReply n v6 target sender mac] ∧ (t.port n).txOk = satInc r.txOk) ∧
      (target ≠ own → ∃ t, exec (.arpRequest n v6 target sender mac) s = .next t ∧ t.out = s.out ∧
        (t.port n).rxOther = satInc r.rxOther)) ∧
    (∀ (i : TxStream) (v : Word32), let len := bits v.toNat 8 0
      let x := r.txs i
      (s.barUp = true → x.st = .pending ∨ len = 0 ∨ 256 < len → CompletesReg (.ethTxSend n i v) s s) ∧
      (s.barUp = true → x.st ≠ .pending → 1 ≤ len → len ≤ 256 → s.ethOutput n i = none →
        (s.guarded true x.dport = none → CompletesReg (.ethTxSend n i v) s
          (State.modTx n i (fun x => { x with st := .pending, len := BitVec.ofNat 9 len }) s)) ∧
        (∀ c, s.guarded true x.dport = some c → CompletesReg (.ethTxSend n i v) s
          (reportGuard c (0x10 + n) i (State.modTx n i (fun x => { x with st := .rejected, len := BitVec.ofNat 9 len }) s)))) ∧
      (x.st ≠ .pending ∨ r.link ≠ .up ∨ r.gateOpen x.prio = false → Completes (.ethTxDone n i) s s) ∧
      (x.st = .pending → r.link = .up → r.gateOpen x.prio = true → s.ethOutput n i = none →
        ∃ t, exec (.ethTxDone n i) s = .next t ∧ ((t.port n).txs i).st = .sent ∧ (t.port n).txOk = satInc r.txOk ∧
          t.out = s.out ++ [.ethFrame n x.prio x.header (treadN 0 x.payload 0 x.len.toNat)]))

/-- Gate control lists and gPTP (R13, R522, R523). -/
def Obligations.GatesAndTime : Prop :=
  ∀ (s : State) (n : EthPort), Runs s → let r := s.port n
    (s.barUp = true → CompletesReg (.ethGateCommit n) s (State.modPort n (fun r => { r with gatePending := true, commitBase := r.gateBase }) s)) ∧
    (r.gatePending = false ∨ r.switchNow s.gctl.time.toNat = false → Completes (.ethGateSwitch n) s s) ∧
    (r.gatePending = true → r.switchNow s.gctl.time.toNat = true → ∃ t, exec (.ethGateSwitch n) s = .next t ∧
      (t.port n).operTab = r.gcl ∧ (t.port n).gcl = r.operTab ∧ (t.port n).operLen = r.gateLen ∧ (t.port n).operEntry = 0 ∧
      (t.port n).gatePending = false) ∧
    (let iv := gateInterval (tget 0xFF000000 r.operTab r.operEntry);
      (r.operLen = 0 ∨ s.gctl.time.toNat < r.operAt.toNat + iv → Completes (.ethGateInterval n) s s) ∧
      (r.operLen ≠ 0 → r.operAt.toNat + iv ≤ s.gctl.time.toNat → Completes (.ethGateInterval n) s (State.modPort n (fun r =>
        { r with operAt := r.operAt + BitVec.ofNat 64 iv, operEntry := (r.operEntry + 1) % r.operLen.toNat }) s))) ∧
    (s.gptpOn n = false → (∀ msg, r.link ≠ .up → Completes (.gptpMessage n msg) s s) ∧ Completes (.gptpSyncInterval n) s s ∧
      (∀ msg, r.link = .up → Completes (.gptpMessage n msg) s (State.modPort n (fun r => { r with rxOk := satInc r.rxOk }) s))) ∧
    (s.gptpOn n = true → let u := State.modPort n (fun r => { r with rxOk := satInc r.rxOk }) s
      Completes (.gptpMessage n .pdelay) s (emit (.gptp n false s.gctl.time) { u with eth := { u.eth with ptpRate := u.eth.ptpRate ||| BitVec.ofNat 4 (2 ^ n.val) } }) ∧
      (∀ p i st dom, dom ≠ s.eth.ptpDomain → Completes (.gptpMessage n (.announce p i st dom)) s u) ∧
      (∀ dom t, dom ≠ s.eth.ptpDomain → Completes (.gptpMessage n (.sync dom t)) s u) ∧
      (∀ p i st, s.eth.ptpGmcap = false → s.eth.ptpBest = none → Completes (.gptpMessage n (.announce p i st s.eth.ptpDomain)) s
        { u with eth := { u.eth with ptpBest := some (p, i, n), ptpSlave := BitVec.ofNat 4 n, ptpGm := false } }) ∧
      (∀ t, s.eth.ptpSlave.toNat ≠ n → Completes (.gptpMessage n (.sync s.eth.ptpDomain t)) s u) ∧
      (∀ t, s.eth.ptpSlave.toNat = n → s.eth.ptpRate.getLsbD n = true → s.eth.ptpDisc = true →
        Completes (.gptpMessage n (.sync s.eth.ptpDomain t)) s
          (timeCorrect .gptp (t - s.gctl.time).toInt { u with eth := { u.eth with ptpLastSync := some s.gctl.time } })) ∧
      (s.eth.ptpGm = true → Completes (.gptpSyncInterval n) s (emit (.gptp n true s.gctl.time) s))) ∧
    (s.eth.ptpLastSync = none → Completes .gptpSyncTimeout s s) ∧
    (s.eth.ptpLastSync ≠ none → s.gctl.timeSource = .gptp → s.gctl.locked = true →
      ∃ t f, exec .gptpSyncTimeout s = .next t ∧ t.gctl.locked = false ∧ t.gctl.timeSource = .freeRunning ∧ t.eth.ptpBest = none ∧
        f.code = 0x0604 ∧ t.thal.inFlight = s.thal.inFlight ++ [f])

/-- The twin link: training, lane loss and retry (R494, R495, R570, R515, R558). -/
def Obligations.TwinLink : Prop :=
  ∀ (s : State) (spared : BitVec 3), RunsSaf s → s.twin.roleSet = true →
    (s.twin.link ≠ .training ∨ s.twinTrains = false → Completes (.twinLinkUp spared) s s) ∧
    (s.twin.link = .training → s.twinTrains = true → s.twin.spared = 7 → 4 ≤ spared.toNat →
      Completes (.twinLinkUp spared) s { s with twin := { s.twin with link := .up, spared := 7, lostLanes := 0 } }) ∧
    (s.twin.link = .training → s.twinTrains = true → s.twin.spared = 7 → spared.toNat < 4 →
      Completes (.twinLinkUp spared) s { s with twin := { s.twin with
        link := .up, spared := spared, lostLanes := BitVec.ofNat 5 (2 ^ spared.toNat) } }) ∧
    (s.twin.link = .training → s.twinTrains = true → s.twin.spared.toNat < 4 →
      Completes (.twinLinkUp spared) s { s with twin := { s.twin with
        link := .up, lostLanes := BitVec.ofNat 5 (2 ^ s.twin.spared.toNat) } }) ∧
    (s.twin.link = .down → s.twinTrains = true → 4 ≤ spared.toNat →
      Completes (.twinTrainRetry true spared) s { s with twin := { s.twin with link := .up, spared := 7, lostLanes := 0 } }) ∧
    Completes (.twinTrainRetry false spared) s s ∧
    (∀ l : Fin 5, s.twin.link = .up → s.twin.lostLanes = 0 → l.val < 4 →
      Completes (.twinLaneLoss (BitVec.ofNat 5 (2 ^ l.val))) s (reportTwin 0x0A04 l { s with twin := { s.twin with
        lostLanes := BitVec.ofNat 5 (2 ^ l.val), link := .training, spared := BitVec.ofNat 3 l } })) ∧
    (s.twin.link = .up → s.twin.lostLanes = 0 →
      Completes (.twinLaneLoss 16) s { s with twin := { s.twin with lostLanes := 16 } }) ∧
    (∀ l m : Fin 5, s.twin.link = .up → s.twin.lostLanes = BitVec.ofNat 5 (2 ^ m.val) → l ≠ m →
      Completes (.twinLaneLoss (BitVec.ofNat 5 (2 ^ l.val))) s
        (reportTwin 0x0A05 l { s with twin := { s.twin with link := .down, spared := 7, lostLanes := 0 } }))

/-- Heartbeats of the twin link (R342, R496, R498, R499, R511). -/
def Obligations.TwinHeartbeats : Prop :=
  ∀ (s : State), RunsSaf s → s.twin.roleSet = true →
    (s.twin.link = .up → s.island.silent = false → s.island.inReset = false →
      Completes .heartbeatSend s (emit (.twinHeartbeat s.twin.sendSeq s.heartbeatPayload)
        { s with twin := { s.twin with sendSeq := s.twin.sendSeq + 1 } })) ∧
    (s.twin.link ≠ .up ∨ s.island.silent = true → Completes .heartbeatSend s s) ∧
    (∀ hb, (Instr.heartbeatReceive hb).wf = true →
      (s.twin.link ≠ .up → Completes (.heartbeatReceive hb) s s) ∧
      (s.twin.link = .up → hb.crcOk = false →
        Completes (.heartbeatReceive hb) s { s with twin := { s.twin with crcErr := satInc s.twin.crcErr } }) ∧
      (s.twin.link = .up → hb.crcOk = true →
        Completes (.heartbeatReceive hb) s { s with twin := { s.twin with
          hbRx := s.twin.hbRx + 1, peerAlive := true, peerMode := hb.mode, hbTime := s.safNow, hbRunMask := hb.runMask, hbFrames := hb.frames } })) ∧
    (s.twin.peerAlive = true → s.twin.hbTime + 300000 ≤ s.safNow →
      Completes .heartbeatLoss s (endWaits (reportTwin 0x0A03 0 { s with twin := { s.twin with peerAlive := false } }))) ∧
    (s.twin.peerAlive = false ∨ s.safNow < s.twin.hbTime + 300000 → Completes .heartbeatLoss s s)

/-- Digests and the twin wait (R496, R505, R506, R510). -/
def Obligations.TwinDigests : Prop :=
  ∀ (s : State) (p : Pipe),
    (Runs s → ∀ l d t, (s.pipe p).running = true → (s.pipe p).cls = 0 → (s.twinPipe p).digLen ≠ 0 → s.digestFrame p = some l →
      readAll 0xD0 0 (s.twinPipe p).digBase.toNat (s.twinPipe p).digLen.toNat s = (d, t) →
      (∀ b, d = some b → poisoned b = false →
        let h := shake256 (toLe 4 l.frame.toNat ++ toLe 1 p ++ plain b) 32
        Completes (.digestComputeDone p) s (judgeTwin p (sendDigest p l h
          (State.modTwinPipe p (fun t => { t with local_ := (l.frame, h) :: t.local_, resendDue := true }) t)))) ∧
      ((d = none ∨ ∃ b, d = some b ∧ poisoned b = true) →
        Completes (.digestComputeDone p) s (judgeTwin p (State.modTwinPipe p (fun t => { t with localFailed := l.frame :: t.localFailed }) t)))) ∧
    (RunsSaf s → ∀ own rest, (s.twinPipe p).local_ = own :: rest → (s.twinPipe p).resendDue = true →
      Completes (.digestResend p) s (sendDigest p (s.ledgerAt p own.1) own.2
        (State.modTwinPipe p (fun t => { t with resendDue := false }) s))) ∧
    (RunsSaf s → (s.twinPipe p).resendDue = false → Completes (.digestResend p) s s) ∧
    (RunsSaf s → ∀ frame age cor dg,
      (s.twin.link ≠ .up → Completes (.digestReceive p frame age cor dg true) s s) ∧
      (s.twin.link = .up → Completes (.digestReceive p frame age cor dg false) s { s with twin := { s.twin with crcErr := satInc s.twin.crcErr } }) ∧
      (s.twin.link = .up → s.digestLate p frame = true → Completes (.digestReceive p frame age cor dg true) s s) ∧
      (s.twin.link = .up → s.digestLate p frame = false → Completes (.digestReceive p frame age cor dg true) s
        (judgeTwin p (State.modTwinPipe p (fun t => { t with held := t.held ++ [(frame, age, cor, toLe 32 dg.toNat)] }) s)))) ∧
    (RunsSaf s → ∀ ls, ls = (s.plannedFrames p).filter (fun l =>
        decide (l.tEdge.toNat + (l.tStage.getD 3 0).toNat + 1000 * max 1 s.twin.digwait.toNat ≤ s.gctl.time.toNat)) →
      (ls ≠ [] → Completes (.digwaitExpiry p) s (judgeTwin p
        (State.modTwinPipe p (fun t => { t with waitOver := ls.map (fun l => l.frame) ++ t.waitOver }) s))) ∧
      (ls = [] → Completes (.digwaitExpiry p) s s))

/-- Takeover, PEER_FAULT_N and PEER_KILL (R342, R501, R503, R504). -/
def Obligations.TwinTakeover : Prop :=
  ∀ (s : State), RunsSaf s → s.twin.roleSet = true → s.runningPipes = [] →
    (∃ t, exec .peerFaultNHigh s = .next t ∧ t.pins.peerFaultN = true ∧ t.twin.lowSamples = 0 ∧
      (s.fit = true → s.island.mode = .standby → t.twin.armed = true)) ∧
    (∃ t, exec .peerFaultNLow s = .next t ∧ t.pins.peerFaultN = false ∧ t.twin.peerAlive = s.twin.peerAlive) ∧
    (s.fit = true → s.island.mode = .standby → s.twin.armed = true → 1 ≤ s.twin.lowSamples →
      ∃ t, exec .peerFaultNLow s = .next t ∧ t.island.mode = .active ∧ t.twin.killOut = true ∧ t.twin.armed = false ∧
        ∃ r l, r.code = 0x0A07 ∧ t.thal.inFlight = s.thal.inFlight ++ r :: l) ∧
    (s.twin.lowSamples = 0 → s.fit = true → ∃ t, exec .peerFaultNLow s = .next t ∧ t.island = s.island ∧ t.twin.killOut = s.twin.killOut) ∧
    (s.fit = true → s.island.mode = .standby → s.twin.armed = false → s.pins.peerFaultN = false →
      max s.twin.readyAt s.twin.lowSince + 400000000 ≤ s.safNow →
      ∃ t, exec .takeoverWaitExpiry s = .next t ∧ t.island.mode = .active ∧ t.twin.killOut = true) ∧
    (s.safNow < max s.twin.readyAt s.twin.lowSince + 400000000 → Completes .takeoverWaitExpiry s s) ∧
    (s.twin.killOut = false → s.twin.killed = false →
      ∃ t r, exec .peerKill s = .next t ∧ t.twin.killed = true ∧ t.island.silent = true ∧ t.island.mode = .silent ∧ t.pins.faultN = false ∧
        r.code = 0x0A06 ∧ ∃ l, t.thal.inFlight = s.thal.inFlight ++ l ∧ r ∈ l) ∧
    (s.twin.killOut = true → Completes .peerKill s s)

/-- Reads and writes of main memory, and what they leave unchanged (R28, R463, R467, R471, R474, R475, R476, R479, R481, R482, R558). -/
def Obligations.MemoryAccess : Prop :=
  ∀ (s : State) (init : Initiator) (cls : Fin 4) (a : Addr) (errs : LineErrs), Runs s → let i := a / 64
    let w := rsEncode (s.memBytes (i * 64) 64 ++ [metaByte (s.lineMeta i)])
    let repeats := (errs.link.filter (fun e => !linkOk w e)).length
    let waits : Option (List Byte × Bool) → State := fun x =>
      State.modGroup (lchOf a / 32) (fun r => { r with held := r.held ++ [⟨init.toNat, cls.val, a, x, errs.syms, errs.link⟩] }) s
    ((Instr.memRead init cls a errs).wf = true →
      (s.initIssued init.toNat = false → Completes (.memRead init cls a errs) s s) ∧
      (s.initIssued init.toNat = true → s.lineWaits i = true → Completes (.memRead init cls a errs) s (waits none)) ∧
      (s.initIssued init.toNat = true → s.lineWaits i = false → s.lineLost i = true → class0Read init.toNat cls = false →
        ∃ t, exec (.memRead init cls a errs) s = .next t ∧ t.mem.bytes = s.mem.bytes ∧
        .readReply init (some (s.memBytes a 64)) true ∈ t.out) ∧
      (s.initIssued init.toNat = true → s.lineWaits i = false → s.lineLost i = false → (s.lineMeta i).poison = false →
        class0Read init.toNat cls = false →
        (errs.syms = [] → ∃ t, exec (.memRead init cls a errs) s = .next t ∧ t.mem.bytes = s.mem.bytes ∧
          t.out = s.out ++ [.readReply init (some (s.memBytes a 64)) false] ∧ t.thal.inFlight = s.thal.inFlight ∧
          (t.pch (s.servingPch a)).retrained = false ∧ (t.pch (s.servingPch a)).replay = satAdd (s.pch (s.servingPch a)).replay repeats) ∧
        (errs.syms.length = 1 → ∃ t, exec (.memRead init cls a errs) s = .next t ∧
          (∀ b, tget 0 t.mem.bytes b = tget 0 s.mem.bytes b) ∧
          t.out = s.out ++ [.readReply init (some (s.memBytes a 64)) false] ∧
          (t.pch (s.servingPch a)).corr = satInc (s.pch (s.servingPch a)).corr) ∧
        (errs.syms.length = 2 → ∃ t d f l, exec (.memRead init cls a errs) s = .next t ∧
          t.out = s.out ++ [.readReply init (some d) true] ∧ (t.lineMeta i).poison = true ∧
          f.code = 0x0201 ∧ f ∈ l ∧ t.thal.inFlight = s.thal.inFlight ++ l ∧
          ∀ b, b < a ∨ a + 64 ≤ b → tget 0 t.mem.bytes b = tget 0 s.mem.bytes b))) ∧
    (∀ (d : List Byte) (p : Bool), (Instr.memWrite init cls a d p errs).wf = true →
      (s.initIssued init.toNat = false → Completes (.memWrite init cls a d p errs) s s) ∧
      (s.initIssued init.toNat = true → s.lineWaits i = true → Completes (.memWrite init cls a d p errs) s (waits (some (d, p)))) ∧
      (s.initIssued init.toNat = true → s.lineWaits i = false → s.lineLost i = true →
        ∃ t, exec (.memWrite init cls a d p errs) s = .next t ∧ t.mem.bytes = s.mem.bytes ∧ t.out = s.out ++ [.readReply init none false]) ∧
      (s.initIssued init.toNat = true → s.lineWaits i = false → s.lineLost i = false →
        ∃ t, exec (.memWrite init cls a d p errs) s = .next t ∧
        treadN 0 t.mem.bytes a d.length = d ∧ (t.lineMeta i).wss = true ∧ (p = true → (t.lineMeta i).poison = true) ∧
        (d.length = 64 → (t.lineMeta i).poison = p ∧ t.thal.inFlight = s.thal.inFlight) ∧
        (d.length < 64 → errs.syms = [] → (t.lineMeta i).poison = (p || (s.lineMeta i).poison)) ∧
        (d.length = 64 ∨ errs.syms = [] → ∀ b, b < a ∨ a + d.length ≤ b → tget 0 t.mem.bytes b = tget 0 s.mem.bytes b) ∧
        ∀ b, b < i * 64 ∨ i * 64 + 64 ≤ b → tget 0 t.mem.bytes b = tget 0 s.mem.bytes b))

/-- Channel retraining, sparing, scrubbing, migration and token periods (R468, R478, R479, R480, R481, R482, R483, R487, R558). -/
def Obligations.MemoryMaintenance : Prop :=
  ∀ (s : State), Runs s →
    (∀ (p : PhysChan), (s.pch p).st ≠ .failed →
      ((s.pch p).retrained = false → ∃ t r, exec (.memChannelRetrain p true) s = .next t ∧ (t.pch p).retrained = true ∧
        (t.pch p).replay = satAdd (s.pch p).replay 3 ∧ r.code = 0x0203 ∧ t.thal.inFlight = s.thal.inFlight ++ [r]) ∧
      ((s.pch p).retrained = false → (s.group (p.val / 36)).migFrom = 0xFF → ∃ t r x l, exec (.memChannelRetrain p false) s = .next t ∧
        (t.pch p).st = .failed ∧ r.code = 0x0203 ∧ x.code = 0x0204 ∧ t.thal.inFlight = s.thal.inFlight ++ r :: x :: l) ∧
      ((s.pch p).retrained = true → (s.group (p.val / 36)).migFrom = 0xFF → ∀ ok, ∃ t x l, exec (.memChannelRetrain p ok) s = .next t ∧
        (t.pch p).st = .failed ∧ x.code = 0x0204 ∧ t.thal.inFlight = s.thal.inFlight ++ x :: l)) ∧
    (∀ l : LogChan,
      Completes (.sparePoisonFillDone l) s (serveHeld (l.val / 32) (State.modChmap l (fun m => { m with filling := false }) s)) ∧
      ((s.group (l.val / 32)).held = [] → ∃ t, exec (.sparePoisonFillDone l) s = .next t ∧ (t.chmap l).filling = false)) ∧
    (∀ errs, (Instr.scrubStep errs).wf = true →
      (s.mem.scrubPeriod = 0 ∨ s.gctl.bootStage ≠ 4 ∨ s.mem.selfRefresh = true → Completes (.scrubStep errs) s s) ∧
      (s.mem.scrubPeriod ≠ 0 → s.gctl.bootStage = 4 → s.mem.selfRefresh = false →
        ∃ t, exec (.scrubStep errs) s = .next t ∧ t.mem.line = s.mem.line + 1 ∧
          t.mem.passes = (if s.mem.line = 0x7FFFFF then s.mem.passes + 1 else s.mem.passes))) ∧
    (∀ (p : PhysChan) (x : RowCopy), (Instr.rowSpareDone p x).wf = true →
      ((s.pch p).sparing.contains x.row = false → Completes (.rowSpareDone p x) s s) ∧
      ((s.pch p).sparing.contains x.row = true → ∃ u r, Completes (.rowSpareDone p x) s (serveHeld (p.val / 36) u) ∧
        x.row ∈ (u.pch p).sparedRows ∧ x.row ∉ (u.pch p).sparing ∧ (u.pch p).sprows = (s.pch p).sprows + 1 ∧ r.code = 0x0205 ∧
        u.thal.inFlight = s.thal.inFlight ++ [r] ∧
        ∀ b, s.lchServed p ≠ some (lchOf b) ∨ rowOf b ≠ x.row → tget 0 u.mem.bytes b = tget 0 s.mem.bytes b)) ∧
    (s.barUp = true → ∀ v : Word32, (v.getLsbD 7 = false → CompletesReg (.migrateRequest v) s s) ∧
      (v.getLsbD 7 = true → let l := bits v.toNat 6 0
        let g := l / 32
        (s.chmap l).lost = false → (s.group g).migFrom = 0xFF → (s.group g).waiting = [] →
        (s.spareOf g = none → ∃ t r, exec (.migrateRequest v) s = .next t ∧ t.mem = s.mem ∧ r.code = 0x0209 ∧
          t.thal.inFlight = s.thal.inFlight ++ [r]) ∧
        (∀ sp, s.spareOf g = some sp → ∃ t r, exec (.migrateRequest v) s = .next t ∧ (t.group g).migTo.toNat = sp ∧
          (t.group g).migFrom = BitVec.ofNat 8 (s.mappedPch l) ∧ (t.group g).migBlocks = 0 ∧ (t.pch (s.mappedPch l)).st = .migrating ∧
          r.code = 0x0207 ∧ t.thal.inFlight = s.thal.inFlight ++ [r]))) ∧
    (∀ x : GroupCopy, (Instr.migrationBlockCopy x).wf = true → let g := x.group
      let r := s.group g
      (r.migFrom = 0xFF ∨ s.mem.selfRefresh = true → Completes (.migrationBlockCopy x) s s) ∧
      (r.migFrom ≠ 0xFF → s.mem.selfRefresh = false → r.migBlocks + 1 < chanBlocks →
        Completes (.migrationBlockCopy x) s (State.modGroup g (fun r => { r with migBlocks := r.migBlocks + 1 }) (copyBlock r x.errs s))) ∧
      (r.migFrom ≠ 0xFF → s.mem.selfRefresh = false → chanBlocks ≤ r.migBlocks + 1 → r.waiting = [] → r.migFrom ≠ r.migTo → x.errs = [] →
        ∃ t f, exec (.migrationBlockCopy x) s = .next t ∧ (t.chmap r.migLch).pch = some r.migTo ∧ (t.pch r.migTo.toNat).st = .active ∧
          (t.pch r.migFrom.toNat).st = .retired ∧ (t.group g).migFrom = 0xFF ∧ f.code = 0x0208 ∧ t.thal.inFlight = s.thal.inFlight ++ [f])) ∧
    (∀ g : Group, let r := s.group g
      (r.clockLost = false ∨ r.held = [] → Completes (.mcgClockWaitExpiry g) s s) ∧
      (r.clockLost = true → r.held ≠ [] → ∃ t, exec (.mcgClockWaitExpiry g) s = .next t ∧ (t.group g).held = [] ∧
        t.out = s.out ++ r.held.map (fun x => .readReply (BitVec.ofNat 8 x.init) none false)) ∧
      (∃ t, exec (.tokenPeriod g) s = .next t ∧ (t.group g).c0Now = 0 ∧ (t.group g).c0Used.toNat = min r.c0Now 65535 ∧
        (t.group g).c0Resv = BitVec.ofNat 16 (5390 * s.sched.c0Pct.toNat / 100)))

/-- Enabling, disabling and ringing the command and completion queues (R401, R406, R417, R424, R427). -/
def Obligations.CommandQueues : Prop :=
  ∀ (s : State), Runs s → s.blocksUp = true →
    (∀ (n : SqNo) (cfg : Word32), (s.sq n).en = false → let c := (cfg ||| 1).toNat
      (sizeOk c = true → CompletesReg (.sqEnable n cfg) s (State.modSq n (fun q =>
        { q.config c with en := true, head := 0, tail := 0, fetcherr := false, peerIn := [] }) s)) ∧
      (sizeOk c = false → CompletesReg (.sqEnable n cfg) s (State.modSq n (fun q => q.config c) s))) ∧
    (∀ (n : SqNo) (cfg : Word32), (s.sq n).en = true →
      CompletesReg (.sqDisable n cfg) s (State.modSq n (fun q => { q with en := false }) s) ∧
      CompletesReg (.sqEnable n cfg) s (State.modSq n (fun q => { q with en := true }) s)) ∧
    (∀ (q : CqOrEvq) (cfg : Word32), (s.cq q).en = false → let c := (cfg ||| 1).toNat
      (sizeOk c = true → CompletesReg (.cqEnable q cfg) s (State.modCq q (fun x =>
        { x.config c with en := true, tail := 0, head := 0, phase := true }) s)) ∧
      (sizeOk c = false → CompletesReg (.cqEnable q cfg) s (State.modCq q (fun x => x.config c) s))) ∧
    (∀ (q : CqOrEvq) (cfg : Word32), (s.cq q).en = true →
      (s.cqNamed q = true → CompletesReg (.cqDisable q cfg) s (State.modCq q (fun x => { x with en := true }) s)) ∧
      (s.cqNamed q = false → CompletesReg (.cqDisable q cfg) s (State.modCq q (fun x => { x with en := false }) s))) ∧
    (∀ (n : SqNo) (v : Word32), (s.sq n).en = true → (s.sq n).source = false →
      (bits v.toNat 11 0 < (s.sq n).entries →
        CompletesReg (.sqTailDoorbell n v) s (State.modSq n (fun q => { q with tail := BitVec.ofNat 12 (bits v.toNat 11 0) }) s)) ∧
      ((s.sq n).entries ≤ bits v.toNat 11 0 →
        CompletesReg (.sqTailDoorbell n v) s (State.modSq n (fun q => { q with dberr := true }) s))) ∧
    (∀ (n : CqNo) (v : Word32), (s.cq n).en = true →
      ((s.cq n).reaches (bits v.toNat 11 0) = true →
        CompletesReg (.cqHeadDoorbell n v) s (State.modCq n (fun q => { q with head := BitVec.ofNat 12 (bits v.toNat 11 0) }) s)) ∧
      ((s.cq n).reaches (bits v.toNat 11 0) = false →
        CompletesReg (.cqHeadDoorbell n v) s (State.modCq n (fun q => { q with dberr := true }) s))) ∧
    (∀ v : Word32, (s.cq 64).en = true →
      ((s.cq 64).reaches (bits v.toNat 11 0) = true →
        CompletesReg (.evqHeadDoorbell v) s (State.modCq 64 (fun q => { q with head := BitVec.ofNat 12 (bits v.toNat 11 0) }) s)) ∧
      ((s.cq 64).reaches (bits v.toNat 11 0) = false →
        CompletesReg (.evqHeadDoorbell v) s (State.modCq 64 (fun q => { q with dberr := true }) s)))

/-- Fetching commands, posting completions, and command frames of a peer (R402, R403, R404, R405, R406, R411, R419, R420, R436). -/
def Obligations.FetchAndPost : Prop :=
  ∀ (s : State), Runs s →
    (s.fetchRuns = false → Completes .commandFetch s s ∧ Completes .postingRepeat s s ∧ ∀ q : CqNo, Completes (.completionPost q) s s) ∧
    (s.fetchRuns = true → (∀ c ∈ s.cmdq.cmds, knownOp c.op = true) →
      (1024 ≤ s.cmdq.cmds.length → Completes .commandFetch s s) ∧
      (s.cmdq.cmds.length < 1024 → s.nextQueue = none → Completes .commandFetch s s) ∧
      (s.cmdq.cmds.length < 1024 → ∀ (n : SqNo) (b : List PByte) (t : State), s.nextQueue = some n.val →
        let q := s.sq n
        readAll 0x9F q.cls.toNat (q.base.toNat + 64 * q.head.toNat) 64 s = (some b, t) →
        (poisoned b = false → Completes .commandFetch s (acceptPacket n (plain b) (firmwareDone 30 t)) ∧
          ((acceptPacket n (plain b) (firmwareDone 30 t)).sq n).head = BitVec.ofNat 12 (((t.sq n).head.toNat + 1) % (t.sq n).entries)) ∧
        (poisoned b = true → ∃ u, exec .commandFetch s = .next u ∧ (u.sq n).fetcherr = true))) ∧
    (∀ (q : CqNo) (c : Cmd) (st : Byte) (r0 r1 : Word64) (u : State),
      s.fetchRuns = true → (∀ c ∈ s.cmdq.cmds, knownOp c.op = true) → s.cqOpen q = true →
      s.cmdq.cmds.find? (fun c => s.postable c && (s.sq c.sq).cq.toNat = q.val) = some c → c.stage = .done st r0 r1 → c.reply = none →
      s.cmd c.tag = some c →
      let x := s.cq q
      let e := withPhase 6 x.phase (completionEntry c st r0 r1 (s.sq c.sq).head.toNat s.gctl.time)
      busWrite 0x9F (s.dmac 31).cls.toNat (x.base.toNat + 32 * x.tail.toNat) (clean e) s = (true, u) →
      ∃ t, exec (.completionPost q) s = .next t ∧ c ∉ t.cmdq.cmds ∧ t.cq q = (u.cq q).advance ∧ t.mem = u.mem) ∧
    (∀ (q : CqNo), s.fetchRuns = true → s.cqOpen q = false → Completes (.completionPost q) s s) ∧
    (∀ x : StuckPost, s.fetchRuns = true → s.cmdq.stuck = [x] →
      Completes .postingRepeat s (repeatPost x { s with cmdq := { s.cmdq with stuck := [] } })) ∧
    (∀ (n : EthPort) (d : List Byte) (src : PeerAddr), (Instr.peerCommandFrame n d src).wf = true →
      (((s.port n).link ≠ .up ∨ s.eth.cmdPort = 0) → Completes (.peerCommandFrame n d src) s s) ∧
      ((s.port n).link = .up → s.eth.cmdPort ≠ 0 → (s.port n).maxFrame.toNat < max 64 (d.length + if src.ipv6 then 66 else 46) →
        Completes (.peerCommandFrame n d src) s (State.modPort n (fun r => { r with rxBad := satInc r.rxBad }) s)) ∧
      (max 64 (d.length + if src.ipv6 then 66 else 46) ≤ (s.port n).maxFrame.toNat →
      ((s.port n).link = .up → s.eth.cmdPort ≠ 0 → (peerFrameOk d && s.peerQueueOk n d) = false →
        ∃ t, exec (.peerCommandFrame n d src) s = .next t ∧ t.cmdq.peerDrop = satInc s.cmdq.peerDrop ∧ t.cmdq.sqs = s.cmdq.sqs) ∧
      ((s.port n).link = .up → s.eth.cmdPort ≠ 0 → peerFrameOk d = true → s.peerQueueOk n d = true →
        s.fwMmio (0xB1 + n) true 0x110000 4 = true →
        Completes (.peerCommandFrame n d src) s (forUpTo (field d 6 1) (fun i t =>
          enterPacket n (field d 0x0C 1) src (BitVec.ofNat 32 (field d 8 4)) (slice d (16 + 64 * i) 64) t)
          (State.modPort n (fun r => { r with rxOk := satInc r.rxOk }) s)))))

/-- Which commands start, and how a check ends one (R399, R400, R402, R403, R404, R408). -/
def Obligations.CommandsAreJudged : Prop :=
  ∀ (s : State) (tag : Nat) (motion : Bool) (bad : BitVec 128) (i : Instr) (op : Nat), Runs s →
    (i, op) ∈ [(Instr.nop tag, 0x01), (.identify tag, 0x02), (.getStatus tag, 0x03), (.modelRegister tag, 0x10), (.modelWarm tag, 0x11),
      (.modelEvict tag, 0x12), (.modelRetire tag, 0x13), (.ctxCreate tag, 0x20), (.ctxDestroy tag, 0x21), (.ctxFork tag, 0x22),
      (.ctxTrim tag, 0x23), (.run tag, 0x30), (.runChain tag, 0x31), (.cancel tag, 0x32), (.pipeConfig tag, 0x40),
      (.pipeStart tag, 0x41), (.pipeStop tag, 0x42), (.roiSeed tag, 0x43), (.setSleep tag motion, 0x50), (.setPlevel tag, 0x51),
      (.attest tag, 0x60), (.fwWrite tag, 0x61), (.fuseProgram tag bad, 0x62), (.eventArm tag, 0x70)] →
    (s.cmd tag = none → Completes i s s) ∧
    (∀ c, s.cmd tag = some c → (c.op ≠ op ∨ s.startable c = false) → Completes i s s) ∧
    (∀ c st, s.cmd tag = some c → c.op = op → s.startable c = true → s.checkPacket c = some st →
      Completes i s (State.modCmd tag (fun c => { c with stage := .done (BitVec.ofNat 8 st) 0 0, boxed := false }) (takeCmd c s)))

/-- NOP, IDENTIFY, GET_STATUS and EVENT_ARM (R404, R408, R409, R414, R415, R417). -/
def Obligations.InformationCommands : Prop :=
  ∀ (s t : State) (tag : Nat) (c : Cmd), Runs s →
    let ends : Nat → Nat → State → State := fun st r0 u =>
      State.modCmd tag (fun c => { c with stage := .done (BitVec.ofNat 8 st) (BitVec.ofNat 64 r0) 0, boxed := false }) u
    (CmdStarts s 0x01 tag c → c.mbox = false → Completes (.nop tag) s (ends 0 0 (takeCmd c s))) ∧
    (CmdStarts s 0x02 tag c → c.fld 0x18 1 = 0 → c.mbox = false →
      (writeResult c (clean s.deviceRecord) (takeCmd c s) = (true, t) → Completes (.identify tag) s (ends 0 0 t)) ∧
      (writeResult c (clean s.deviceRecord) (takeCmd c s) = (false, t) → Completes (.identify tag) s (ends 0x28 0 t))) ∧
    (CmdStarts s 0x02 tag c → c.fld 0x18 1 ≠ 0 → (s.model (c.fld 0x1A 2)).st = .free → Completes (.identify tag) s (ends 0x40 0 (takeCmd c s))) ∧
    (CmdStarts s 0x02 tag c → c.fld 0x18 1 ≠ 0 → (s.model (c.fld 0x1A 2)).st ≠ .free → c.mbox = false →
      writeResult c (clean (s.modelRecord (c.fld 0x1A 2))) (takeCmd c s) = (true, t) → Completes (.identify tag) s (ends 0 0 t)) ∧
    (CmdStarts s 0x03 tag c → c.mbox = false → writeResult c (clean s.statusRecord) (takeCmd c s) = (true, t) →
      Completes (.getStatus tag) s (ends 0 0 t)) ∧
    (CmdStarts s 0x03 tag c → c.mbox = true → ∃ u, exec (.getStatus tag) s = .next u ∧
      (u.mbox c.mbx).seq = (s.mbox c.mbx).seq + 2 ∧ (u.mbox c.mbx).status = 0 ∧ (u.mbox c.mbx).length = 64 ∧
      treadN 0 (u.mbox c.mbx).data 0 64 = s.statusRecord ∧ u.mem = s.mem) ∧
    (CmdStarts s 0x70 tag c → c.mbox = false → Completes (.eventArm tag) s (ends 0 s.cmdq.evqMask.toNat
      { takeCmd c s with cmdq := { (takeCmd c s).cmdq with evqMask := BitVec.ofNat 32 (c.fld 0x18 4) } }))

/-- MODEL_REGISTER, MODEL_WARM, MODEL_EVICT and MODEL_RETIRE (R282, R283, R286, R288). -/
def Obligations.ModelCommands : Prop :=
  ∀ (s : State) (tag : Nat) (c : Cmd), Runs s →
    let u := takeCmd c s
    let m := c.fld 0x18 2
    (CmdStarts s 0x10 tag c → u.modelIdFor m = none → Completes (.modelRegister tag) s (finishCmd tag 0x21 0 0 u)) ∧
    (∀ id d v sync w x, CmdStarts s 0x10 tag c → u.modelIdFor m = some id → readImage 28 (c.fld 0x20 8) (c.fld 0x1C 4) u = (some d, v) →
      imgHeaderOk d = true → (v.modelSigned v.sec.image d = false → Completes (.modelRegister tag) s (finishCmd tag 0x41 0 0 v)) ∧
      (v.modelSigned v.sec.image d = true → imgRulesOk d = true → findPlace v.syncUsed 1024 1 (field d 0x0E 2) v = (some sync, w) →
        warmCopy id (imgRecord (c.fld 0x20 8) sync d) d w = (none, x) → Completes (.modelRegister tag) s (finishCmd tag 0 id 0 x))) ∧
    (CmdStarts s 0x11 tag c → (s.model m).st = .free → Completes (.modelWarm tag) s (finishCmd tag 0x40 0 0 u)) ∧
    (CmdStarts s 0x11 tag c → (s.model m).st = .warm ∨ (s.model m).st = .hot → Completes (.modelWarm tag) s (finishCmd tag 0 m 0 u)) ∧
    (∀ d v x, CmdStarts s 0x11 tag c → (s.model m).st = .cold → readImage 28 (s.model m).src (s.model m).length u = (some d, v) →
      (shake256 d 32 ≠ (s.model m).digest → Completes (.modelWarm tag) s (finishCmd tag 0x42 m 0 v)) ∧
      (shake256 d 32 = (s.model m).digest → warmCopy m (s.model m) d v = (none, x) →
        Completes (.modelWarm tag) s (finishCmd tag 0 m 0 x))) ∧
    (CmdStarts s 0x12 tag c → (s.model m).st = .free → Completes (.modelEvict tag) s (finishCmd tag 0x40 0 0 u)) ∧
    (CmdStarts s 0x12 tag c → (s.model m).st = .warm ∨ (s.model m).st = .hot →
      (s.pinned m = true → Completes (.modelEvict tag) s (finishCmd tag 0x43 0 0 u)) ∧
      (s.pinned m = false → Completes (.modelEvict tag) s (finishCmd tag 0 m 0
        (State.modModel m (fun x => { x with st := .cold, base := 0, placed := [] }) (releaseModel m u))))) ∧
    (CmdStarts s 0x13 tag c → (s.model m).st ≠ .free →
      (s.modelInUse m = true → Completes (.modelRetire tag) s (finishCmd tag 0x44 0 0 u)) ∧
      (s.modelInUse m = false → Completes (.modelRetire tag) s (finishCmd tag 0 m 0 (State.modModel m (fun _ => {}) (releaseModel m u)))))

/-- CTX_CREATE, CTX_DESTROY, CTX_FORK, CTX_TRIM and the end of draining (R227, R228, R229, R231, R233, R236, R238, R281). -/
def Obligations.ContextCommands : Prop :=
  ∀ (s : State) (tag : Nat) (c : Cmd), Runs s →
    let u := takeCmd c s
    let id := c.fld 0x18 2
    (∀ n t, CmdStarts s 0x20 tag c → u.createStatus c = none → u.freeCtx = some n → makeCtx n (newCtx c s.gctl.time) u = some t →
      (c.fld 0x18 1 ≠ 0 → Completes (.ctxCreate tag) s (finishCmd tag 0 n 0 t)) ∧
      (∀ v, c.fld 0x18 1 = 0 → class0Shards (c.fld 0x1A 2) t = .ok v →
        (v.allHot (c.fld 0x1A 2) = true → Completes (.ctxCreate tag) s (finishCmd tag 0 n 0 v)) ∧
        (v.allHot (c.fld 0x1A 2) = false → Completes (.ctxCreate tag) s (State.modCtx n (fun y => { y with createTag := some tag }) v)))) ∧
    (∀ st, CmdStarts s 0x20 tag c → u.createStatus c = some st → Completes (.ctxCreate tag) s (finishCmd tag st 0 0 u)) ∧
    (∀ x t, CmdStarts s 0x21 tag c → (s.ctx id).st ≠ .free → (s.ctx id).st ≠ .draining → (∀ r ∈ s.sched.runs, r.ctxs.contains id = false) →
      let v := State.modCtx id (fun x => { x with destroyed := true, destroyTags := [tag] }) (setCtxState id .draining u)
      engTry (dropData id v) v = .ok (x, t) → Completes (.ctxDestroy tag) s t) ∧
    (CmdStarts s 0x21 tag c → (s.ctx id).st = .free → Completes (.ctxDestroy tag) s (finishCmd tag 0x45 0 0 u)) ∧
    (∀ n x t, CmdStarts s 0x22 tag c → (s.ctx id).st = .idle ∨ (s.ctx id).st = .runnable → u.freeCtx = some n →
      let blocks := if (s.ctx id).cls = 0 then reserveBlocks (s.ctx id).nhg.toNat (s.ctx id).maxtok.toNat else 0
      ((s.ctx id).cls ≠ 0 ∨ s.canReserve (s.ctx id).pool.toNat blocks = true) →
      let v := State.modCtx n (fun z => { childCtx id (u.ctx id) s.gctl.time with gen := z.gen, reserved := blocks })
        (reserve (s.ctx id).pool.toNat blocks u)
      engTry (forkInto id n v) v = .ok (x, t) → Completes (.ctxFork tag) s (finishCmd tag 0 n 0 t)) ∧
    (∀ x t, CmdStarts s 0x23 tag c → (s.ctx id).st = .idle ∨ (s.ctx id).st = .runnable →
      ((s.ctx id).tokens.toNat < c.fld 0x1C 4 → Completes (.ctxTrim tag) s (finishCmd tag 0x02 0 0 u)) ∧
      (c.fld 0x1C 4 ≤ (s.ctx id).tokens.toNat → engTry (trimPages id (c.fld 0x1C 4) u) u = .ok (x, t) →
        Completes (.ctxTrim tag) s (finishCmd tag 0 (c.fld 0x1C 4) 0 (State.modCtx id (setTokens (c.fld 0x1C 4)) t)))) ∧
    (∀ n : Ctx, ((s.ctx n).st ≠ .draining ∨ s.drained n = false → Completes (.contextDrained n) s s) ∧
      ((s.ctx n).st = .draining → s.drained n = true → (s.ctx n).destroyed = true →
        Completes (.contextDrained n) s (endCtx n (forgetRuns s))) ∧
      ((s.ctx n).st = .draining → s.drained n = true → (s.ctx n).destroyed = false →
        Completes (.contextDrained n) s (setCtxState n (if (forgetRuns s).runQueued n then .runnable else .idle) (forgetRuns s))))

/-- RUN, RUN_CHAIN, CANCEL, dispatch, completion, and the end of a load (R227, R278, R288, R289, R291, R404, R410, R411). -/
def Obligations.RunCommands : Prop :=
  ∀ (s : State), Runs s →
    (∀ tag c, CmdStarts s 0x30 tag c → c.fld 0x18 1 ≤ 8 →
      let u := takeCmd c s
      let x : RunParams := ⟨c.fld 0x1A 2, (List.range (c.fld 0x18 1)).map (fun i => c.fld (0x20 + 2 * i) 2), c.fld 0x38 8⟩
      (u.runStatus (s.sq c.sq).cls.toNat x = none → (s.model x.model).st = .warm ∨ (s.model x.model).st = .hot →
        Completes (.run tag) s (queueRun tag 0 x u)) ∧
      (∀ st, u.runStatus (s.sq c.sq).cls.toNat x = some st → Completes (.run tag) s (finishCmd tag st 0 0 u))) ∧
    (∀ tag c d v w, CmdStarts s 0x31 tag c → readNamed c (c.fld 0x20 8) 64 (takeCmd c s) = (some d, v) → chainElemStatus c d = none →
      reachRun c d 0 v = (none, w) → Completes (.runChain tag) s w) ∧
    (∀ tag c, CmdStarts s 0x32 tag c → (takeCmd c s).cancelTarget (c.fld 0x18 1) (c.fld 0x1A 2) = none →
      Completes (.cancel tag) s (finishCmd tag 0x4C 0 0 (takeCmd c s))) ∧
    (∀ tag c d, CmdStarts s 0x32 tag c → (takeCmd c s).cancelTarget (c.fld 0x18 1) (c.fld 0x1A 2) = some d →
      let rs := s.sched.runs.filter (fun r => r.cmd = some d.tag)
      Completes (.cancel tag) s (State.modCmd tag (fun x => { x with after := some d.tag }) (finishCmd tag 0 0 0 (cancelCmd d
        (settleRunnable (rs.flatMap (fun r => r.ctxs)) (rs.foldl (fun t r => killRun 0x4A r.num t) (takeCmd c s))))))) ∧
    (s.interpRuns = false → Completes .runDispatch s s) ∧
    (∀ t rest, s.interpRuns = true → firstPlaced (restartLoads s).tryOrder (restartLoads s) = (some t, rest) → Completes .runDispatch s t) ∧
    (s.interpRuns = true → (restartLoads s).tryOrder = [] → Completes .runDispatch s (restartLoads s)) ∧
    (∀ n r tag, s.run n = some r → r.pipe = none → r.cmd = some tag →
      (r.st ≠ .ended → r.fault = none → Completes (.runComplete n) s s) ∧
      (r.st = .ended ∨ r.fault ≠ none → (abortRun n s).runOwns n = false →
        Completes (.runComplete n) s (finishRun r tag (abortRun n s)))) ∧
    (∀ n r pf, s.run n = some r → r.pipe = some pf → r.st = .ended ∨ r.fault ≠ none → (abortRun n s).runOwns n = false →
      Completes (.runComplete n) s (settleCtxs r.ctxs (State.modRun n (fun x => { x with st := .ended, onFp := [], ctxs := [] }) (abortRun n s)))) ∧
    (∀ (fp : Frond) (k : Fin 2) m sh, RunsFab s fp → ((s.frond fp).slot k).owner = .load m sh → ((s.frond fp).slot k).st = .idle →
      Completes (.shardLoadDone fp k) s (finishCreates m (refreshModel m (State.modSlot fp k (fun y => { y with owner := .none })
        (State.modFp fp (fun y => { y with res := y.res.map (fun r =>
          if r.model = m && r.shard = sh then { r with loaded := true } else r) }) s)))))

/-- PIPE_CONFIG, PIPE_START, PIPE_STOP and ROI_SEED (R77, R80, R86, R88, R408, R412). -/
def Obligations.PipeCommands : Prop :=
  ∀ (s : State) (tag : Nat) (c : Cmd), Runs s →
    let u := takeCmd c s
    let p := c.fld 0x18 1
    (CmdStarts s 0x40 tag c → (s.pipe p).running = true → Completes (.pipeConfig tag) s (finishCmd tag 0x25 0 0 u)) ∧
    (∀ d v, CmdStarts s 0x40 tag c → (s.pipe p).running = false → readNamed c (c.fld 0x20 8) (c.fld 0x1C 4) u = (some d, v) →
      (v.checkBlob p d (c.fld 0x1C 4) = none →
        Completes (.pipeConfig tag) s (finishCmd tag 0 p 0 (acceptBlob p (parseBlob v.gctl.stream d) v))) ∧
      (∀ st, v.checkBlob p d (c.fld 0x1C 4) = some st → Completes (.pipeConfig tag) s (finishCmd tag st 0 0 v))) ∧
    (CmdStarts s 0x41 tag c → (s.pipe p).blob = none → Completes (.pipeStart tag) s (finishCmd tag 0x2A 0 0 u)) ∧
    (∀ b, CmdStarts s 0x41 tag c → (s.pipe p).blob = some b → (s.pipe p).running = false → (s.fclk b.fclk).en = false →
      Completes (.pipeStart tag) s (finishCmd tag 0x2B 0 0 u)) ∧
    (∀ b d v, CmdStarts s 0x41 tag c → (s.pipe p).blob = some b → (s.pipe p).running = false → (s.fclk b.fclk).en = true →
      readNamed c (c.fld 0x20 8) 128 u = (some d, v) → startFieldsOk d (parseStart d) b (s.fclk b.fclk).inForce.toNat = true →
      (b.cls ≠ 0 ∨ windowsOk (parseStart d).windows (s.fclk b.fclk).inForce.toNat = true) →
      v.startCtxStatus b.cls (parseStart d).ctxs = none →
      Completes (.pipeStart tag) s (finishCmd tag 0 ((v.fclk b.fclk).next % 2 ^ 32) 0 (startPipeline p b (parseStart d) v))) ∧
    (CmdStarts s 0x42 tag c → (s.pipe p).running = false →
      Completes (.pipeStop tag) s (finishCmd tag 0 (lastFrameResult (s.pipe p).last) 0 u)) ∧
    (CmdStarts s 0x42 tag c → (s.pipe p).running = true →
      let v := State.modPipe p (fun r => { r with stopping := true, stopTags := r.stopTags ++ [tag] }) u
      (v.openFrames p = [] → Completes (.pipeStop tag) s (endPipeline p (s.pipe p).cur v)) ∧
      (v.openFrames p ≠ [] → Completes (.pipeStop tag) s v)) ∧
    (∀ q b x d v, CmdStarts s 0x43 tag c → s.boundTo p = some (q, b, x) → x.kind ≠ 1 → readNamed c (c.fld 0x20 8) 512 u = (some d, v) →
      Completes (.roiSeed tag) s (finishCmd tag 0 p 0 (roiCommit p (BitVec.ofNat 32 (c.fld 0x1C 4))
        (forUpTo 128 (fun w t => roiWrite p w (BitVec.ofNat 32 (field d (4 * w) 4)) t) v))))

/-- The states of a CAN controller (R371, R372, R388). -/
def Obligations.CanModes : Prop :=
  ∀ (s : State) (m : CanNo), RunsCan s m → let r := s.canc m
    (CanUp s m → r.st = .init → r.timingOk = true → CompletesCan m (.canLeaveInit m) s (State.modCan m (fun r =>
        { r with st := .integrating, initBit := false, cfgerr := false, tec := 0, rec_ := 0 }) s)) ∧
    (CanUp s m → r.st = .init → r.timingOk = false → ∃ t, exec (.canLeaveInit m) s = .next t ∧ (t.canc m).st = .init ∧ (t.canc m).cfgerr = true) ∧
    (CanUp s m → r.st ≠ .init → CompletesCan m (.canLeaveInit m) s s) ∧
    (r.st = .integrating → r.onBus = none → r.initPending = false → ∃ t, exec (.canIntegrationDone m) s = .next t ∧
      (t.canc m).st = .active ∧ (t.canc m).integratedAt = s.gctl.time ∧ (t.canc m).busBusy = false ∧ (t.canc m).objs = r.objs) ∧
    (r.onBus = none → r.initPending = true → ∃ t, exec (.canIntegrationDone m) s = .next t ∧ (t.canc m).st = .init) ∧
    (r.st ≠ .integrating → Completes (.canIntegrationDone m) s (canIdle m s)) ∧
    (∀ busy, CanUp s m → (r.onBus = none ∧ r.busBusy = false ∧ busy = false) ∨ r.st = .busoff ∨ r.st = .init →
      ∃ t, exec (.canEnterInit ⟨m, busy⟩) s = .next t ∧ (t.canc m).st = .init ∧ (t.canc m).initBit = true ∧ (t.canc m).sync = false ∧
      ∀ o, ((t.canc m).obj o).st ≠ .held ∧ ((t.canc m).obj o).st ≠ .pending) ∧
    (∀ busy, CanUp s m → r.onBus ≠ none ∨ r.busBusy = true ∨ busy = true → r.st ≠ .busoff → r.st ≠ .init →
      CompletesCan m (.canEnterInit ⟨m, busy⟩) s (State.modCan m (fun r => { r with initPending := true })
        (State.modCan m (fun r => { r with initBit := true, busBusy := r.busBusy || busy }) s))) ∧
    (CanUp s m → r.st = .busoff → CompletesCan m (.borec m) s (State.modCan m (fun r => { r with st := .recovering }) s)) ∧
    (CanUp s m → r.st ≠ .busoff → CompletesCan m (.borec m) s s) ∧
    (r.st = .recovering → r.onBus = none → r.initPending = false → ∃ t, exec (.canRecoveryDone m) s = .next t ∧
      (t.canc m).st = .active ∧ (t.canc m).tec = 0 ∧ (t.canc m).rec_ = 0 ∧ (t.canc m).integratedAt = s.gctl.time) ∧
    (r.st ≠ .recovering → Completes (.canRecoveryDone m) s (canIdle m s)) ∧
    (∀ k, r.onLine = false ∨ s.canQuiet m = true → Completes (.canBusError m k) s s) ∧
    (r.st = .active → s.canQuiet m = false → r.onBus = none → r.initPending = false → r.tec.toNat ≤ 127 → r.rec_.toNat ≤ 127 →
      120 ≤ r.tec.toNat → ∃ t f, exec (.canBusError m .txError) s = .next t ∧ (t.canc m).st = .passive ∧
        (t.canc m).tec.toNat = r.tec.toNat + 8 ∧ f.code = 0x0501 ∧ t.thal.inFlight = s.thal.inFlight ++ [f]) ∧
    (r.st = .passive → s.canQuiet m = false → r.onBus = none → r.initPending = false → 248 ≤ r.tec.toNat →
      ∃ t f, exec (.canBusError m .txError) s = .next t ∧ (t.canc m).st = (if r.boauto then .recovering else .busoff) ∧
        f.code = 0x0502 ∧ t.thal.inFlight = s.thal.inFlight ++ [f])

/-- Objects, arbitration, reception and the time services of a CAN controller (R374, R375, R377, R378, R379, R382, R384, R385, R386, R521). -/
def Obligations.CanMessages : Prop :=
  ∀ (s : State) (m : CanNo), RunsCan s m → let r := s.canc m
    (∀ (w : Fin 4) (i : Fin 32) (x : Word32), x = BitVec.ofNat 32 (2 ^ i.val) → r.isRx (32 * w.val + i.val) = false →
      CanUp s m → CompletesCan m (.txreq m w x) s (requestObj m (32 * w.val + i.val) s) ∧ CompletesCan m (.txabort m w x) s (abortObj m (32 * w.val + i.val) s)) ∧
    (CanUp s m → ∀ w, CompletesCan m (.txreq m w 0) s s ∧ CompletesCan m (.txabort m w 0) s s) ∧
    (CanUp s m → ∀ v : Word32, (v - r.rxGet).toNat ≤ (r.rxPut - r.rxGet).toNat → ∃ t, exec (.canRxGet m v) s = .next t ∧ (t.canc m).rxGet = v) ∧
    (∀ v : Word32, (r.rxPut - r.rxGet).toNat < (v - r.rxGet).toNat →
      ∃ t, exec (.canRxGet m v) s = .next t ∧ t.canc m = r) ∧
    (CanUp s m → ∀ v : Word32, r.st = .init → bits v.toNat 6 0 + bits v.toNat 15 8 ≤ 128 → ∃ t, exec (.canRxcfgWrite m v) s = .next t ∧
      (t.canc m).rxFirst.toNat = bits v.toNat 6 0 ∧ (t.canc m).rxCount.toNat = bits v.toNat 15 8 ∧
      (t.canc m).rxPut = 0 ∧ (t.canc m).rxGet = 0) ∧
    (∀ v : Word32, r.st ≠ .init → ∃ t, exec (.canRxcfgWrite m v) s = .next t ∧ t.canc m = r) ∧
    (∀ o : ObjNo, let x := r.obj o
      (x.st ≠ .held ∨ r.onLine = false ∨ s.canQuiet m = true ∨ r.timeOk x s.gctl.time.toNat = false → Completes (.canSubmit m o) s s) ∧
      (x.st = .held → r.onLine = true → s.canQuiet m = false → x.tt = false → s.canOutput m o = none →
        (s.guarded false (x.id.toNat % 2 ^ 30) = none →
          Completes (.canSubmit m o) s (State.modObj m o (fun x => { x with st := .pending, markDue := none }) s)) ∧
        (∀ c, s.guarded false (x.id.toNat % 2 ^ 30) = some c →
          Completes (.canSubmit m o) s (reportGuard c m o (State.modObj m o (fun x => { x with st := .rejected, markDue := none }) s))))) ∧
    (r.onLine = true → s.canQuiet m = false → r.onBus = none → r.initPending = false →
      (leastKey r.offers = none → Completes (.canArbitration m) s s) ∧
      (∀ k o, leastKey r.offers = some (k, o) → o < 128 → s.txdHeld m = false → ∃ t, exec (.canArbitration m) s = .next t ∧
        (t.canc m).onBus = some o ∧ (t.canc m).onBusAt = s.gctl.time ∧
        t.out = s.out ++ [.canFrame m (some o) ((r.obj o).toFrame (r.st = .passive))])) ∧
    (∀ ok, r.onBus = none → Completes (.canTxDone m ok) s s) ∧
    (∀ o : ObjNo, r.onBus = some o.val → (r.obj o).st = .pending → r.initPending = false → s.canOutput m o = none → s.mossOutput m o = none → r.st = .active →
      r.tec.toNat ≤ 127 → r.rec_.toNat ≤ 127 → ∃ t, exec (.canTxDone m true) s = .next t ∧
        ((t.canc m).obj o).st = .sent ∧ ((t.canc m).obj o).time = r.onBusAt ∧ (t.canc m).onBus = none ∧
        (t.canc m).tec.toNat = r.tec.toNat - 1) ∧
    (∀ (f : CanFrame) (age : Word32), f.wf = true →
      (r.onLine = false → Completes (.canFrameReceive m f age) s (if 6 ≤ m.val then wakeEvent 4 s else s)) ∧
      (r.st = .active → r.tec.toNat ≤ 127 → r.rec_.toNat ≤ 127 → r.initPending = false → r.isReference f = false → (r.rxPut - r.rxGet).toNat = r.rxCount.toNat →
        ∃ t, exec (.canFrameReceive m f age) s = .next t ∧ (t.canc m).rxLost = satInc r.rxLost ∧ (t.canc m).objs = r.objs) ∧
      (r.st = .active → r.tec.toNat ≤ 127 → r.rec_.toNat ≤ 127 → r.initPending = false → r.isReference f = false → (r.rxPut - r.rxGet).toNat ≠ r.rxCount.toNat →
        ∃ t, exec (.canFrameReceive m f age) s = .next t ∧ (t.canc m).rxPut = r.rxPut + 1 ∧
          let x := (t.canc m).obj (r.rxFirst.toNat + r.rxPut.toNat % r.rxCount.toNat)
          x.dlc = f.dlc ∧ x.data = bytesTab f.data ∧ x.time = s.gctl.time - age.setWidth 64)) ∧
    (r.role ≠ 2 → Completes (.canReferenceSend m) s s) ∧
    (r.role = 2 → r.onLine = true → s.canQuiet m = false → r.onBus = none →
      (∃ t, r.tRef = some t ∧ t.toNat + r.ttCycle.toNat ≤ s.gctl.time.toNat) →
      Completes (.canReferenceSend m) s (State.modCan m (fun r => { r with refPending := true }) s)) ∧
    (r.sync = false → Completes (.canSyncTimeout m) s s) ∧
    (∀ x, r.sync = true → r.disc = false → r.tRef = some x → x.toNat + r.ttTimeout.toNat < s.gctl.time.toNat →
      ∃ t f, exec (.canSyncTimeout m) s = .next t ∧ (t.canc m).sync = false ∧ (t.canc m).tRef = r.tRef ∧ f.code = 0x0505 ∧
        t.thal.inFlight = s.thal.inFlight ++ [f]) ∧
    (∀ x, r.sync = true → r.disciplines = true → s.gctl.timeSource = .can → r.tRef = some x → x.toNat + r.ttTimeout.toNat < s.gctl.time.toNat →
      ∃ t, exec (.canSyncTimeout m) s = .next t ∧ t.gctl.locked = false ∧ t.gctl.timeSource = .freeRunning) ∧
    (∀ o : ObjNo, (r.obj o).st ≠ .pending → Completes (.canTtMissed m o) s s) ∧
    (∀ (o : ObjNo) (d : Word64), (r.obj o).st = .pending → r.onBus ≠ some o.val → r.ttWin ≠ 0 → (r.obj o).markDue = some d →
      d.toNat + r.ttWin.toNat ≤ s.gctl.time.toNat → ∃ t f, exec (.canTtMissed m o) s = .next t ∧ ((t.canc m).obj o).st = .missed ∧
        f.code = 0x0504 ∧ t.thal.inFlight = s.thal.inFlight ++ [f])

/-- CHECK, its decision and the stage watchdogs (R16, R317, R319, R328, R330, R331, R338). -/
def Obligations.WatchdogsAndCheck : Prop :=
  ∀ (s : State) (p : Pipe), Runs s →
    (∀ plan, (Instr.checkComplete p plan).wf = true →
      (((s.pipe p).running = false ∨ (s.pipe p).cls ≠ 0) → Completes (.checkComplete p plan) s s) ∧
      (s.frameWhere p 4 (fun l => l.stageDone 3 && s.goldenAnswered p l.frame && s.twinSettled p l) = none →
        Completes (.checkComplete p plan) s s) ∧
      (∀ l, (s.pipe p).running = true → (s.pipe p).cls = 0 →
        s.frameWhere p 4 (fun l => l.stageDone 3 && s.goldenAnswered p l.frame && s.twinSettled p l) = some l →
        s.plausFails p l.frame plan = false → ((markStage p l.frame 4 s).pipe p).running = true →
        Completes (.checkComplete p plan) s
          (advanceEgress p l.frame (planSubmit p l.frame plan (decide_ p l.frame (markStage p l.frame 4 s))))) ∧
      (∀ l, (s.pipe p).running = true → (s.pipe p).cls = 0 →
        s.frameWhere p 4 (fun l => l.stageDone 3 && s.goldenAnswered p l.frame && s.twinSettled p l) = some l →
        s.plausFails p l.frame plan = true → let v := doubt p l.frame 3 0x0904 (reportFrame 0x0904 p l.frame true 0 s)
        ((v.pipe p).running = false → Completes (.checkComplete p plan) s v) ∧
        ((v.pipe p).running = true → ((markStage p l.frame 4 v).pipe p).running = true → Completes (.checkComplete p plan) s
          (advanceEgress p l.frame (planSubmit p l.frame plan (decide_ p l.frame (markStage p l.frame 4 v))))))) ∧
    (∀ stage : Stage, let i := stageNo stage
      ((s.wdog (wdogNo p i)).armed = false → Completes (.wdogClose p stage) s s ∧ Completes (.wdogExpiry p stage) s s) ∧
      (∀ l, (s.wdog (wdogNo p i)).armed = true →
        s.frameWhere p i (fun l => !(s.wdog (wdogNo p i)).lateFor.contains l.frame &&
          decide (l.tEdge.toNat + s.closeOf p i ≤ s.gctl.time.toNat)) = some l →
        let u := if stage = .check then checkUnverified p l.frame s else s
        ((wdogLate p i l u).pipe p).running = true →
        Completes (.wdogClose p stage) s (advanceEgress p l.frame (decide_ p l.frame (wdogLate p i l u)))) ∧
      (∀ l, (s.wdog (wdogNo p i)).armed = true →
        s.frameWhere p i (fun l => !(s.wdog (wdogNo p i)).expiredFor.contains l.frame &&
          decide (l.tEdge.toNat + s.closeOf p i + (s.fclk (s.pipe p).fclk).inForce.toNat ≤ s.gctl.time.toNat)) = some l →
        Completes (.wdogExpiry p stage) s (safeDecide
          (report { withPipe s p l.frame { code := 0x0903 } with safe := true }
            (State.modWdog (wdogNo p i) (fun w => { w with expired := true, expiredFor := l.frame :: w.expiredFor.take 63 }) s)))))

/-- Entering the safe state and the end of the restart (R20, R292, R294, R338, R339, R340, R387, R422, R453, R558). -/
def Obligations.SafeStateAndRestart : Prop :=
  (∀ (s : State), Runs s →
    (s.island.restarting = true → ∃ t r q, exec .rhizomeLockstepMismatch s = .next t ∧ r.code = 0x0907 ∧ q.code = 0x0906 ∧
      r.safe = true ∧ q.safe = true ∧ t.thal.inFlight = s.thal.inFlight ++ [r, q] ∧
      t.island.safeCount = satInc s.island.safeCount ∧ t.loop = s.loop ∧ t.fronds = s.fronds) ∧
    (s.island.restarting = false → ∃ t, exec .rhizomeLockstepMismatch s = .next t ∧
      t.island.restarting = true ∧ t.gctl.ready = false ∧ t.island.safeCount = satInc s.island.safeCount ∧
      (∃ l, t.thal.inFlight = s.thal.inFlight ++ l ∧ (∃ r ∈ l, r.code = 0x0907) ∧ (∃ r ∈ l, r.code = 0x0906 ∧ r.safe = true)) ∧
      (∀ p : Pipe, (t.auth p).primary = false) ∧ t.island.c0Running = s.class0Pipes ∧ (∀ n : DmaChan, t.dmac n = {}) ∧
      (s.canSource = true → t.gctl.locked = false ∧ t.gctl.slewLeft = 0) ∧
      (∀ p : Pipe, t.pipe p = {}) ∧ (∀ n : Fclk, t.fclk n = s.fclk n) ∧ (∀ m : CanNo, m.val < 6 → t.canc m = {}) ∧
      (∀ f : Frond, (t.frond f).slot0 = {} ∧ (t.frond f).slot1 = {} ∧ (t.frond f).handles = []))) ∧
  (∀ (s : State) (failed : List Frond), Runs s → (Instr.safeRestart failed).wf = true →
    (s.island.restarting = false ∨ s.clocksMissing = true → Completes (.safeRestart failed) s s) ∧
    (s.island.restarting = true → s.clocksMissing = false →
      Completes (.safeRestart failed) s (postRestart (postAbandoned (abandonCommands (restartReady (restartAuth (restartSched
        (restartFabric (failed.map Fin.val) s))))))) ∧
      ∃ t, exec (.safeRestart failed) s = .next t ∧ t.island.restarting = false ∧ t.gctl.ready = true ∧
        t.sched.ctxs = [] ∧ t.sched.runs = [] ∧ ∀ c ∈ t.cmdq.cmds, ∃ r0 r1, c.stage = .done 0x60 r0 r1))

/-- The detectors of a failed Thallus (R341, R342). -/
def Obligations.FailSilentDetectors : Prop :=
  ∀ (s : State), RunsSaf s →
    (∃ t, exec .lockstep s = .next t ∧ t.island.silent = true ∧ t.island.fatalLockstep = true ∧ t.island.mode = .silent ∧
      t.pins.faultN = false) ∧
    (∃ t, exec .clkloss s = .next t ∧ t.island.silent = true ∧ t.island.fatalClkloss = true ∧ t.island.mode = .silent ∧
      t.pins.faultN = false) ∧
    (s.island.lastService + 2000000 ≤ s.safNow → ∃ t, exec .heartbeat s = .next t ∧ t.island.silent = true ∧
      t.island.fatalHeartbeat = true ∧ t.island.mode = .silent ∧ t.pins.faultN = false) ∧
    (s.safNow < s.island.lastService + 2000000 → Completes .heartbeat s s) ∧
    Completes .heartbeatService s { s with island := { s.island with lastService := s.safNow } } ∧
    (∃ t, exec .vddSafUndervoltage s = .next t ∧ t.island.inReset = true ∧ t.pins.faultN = false ∧
      t.island.silent = s.island.silent ∧ t.thal = {} ∧ (∀ m : CanNo, m.val < 6 → t.canc m = s.canc m) ∧ t.canc 6 = {} ∧ t.canc 7 = {}) ∧
    Completes .vddSafRestored s { s with island := { s.island with inReset := false, lastService := s.safNow } }

/-- Fault records reach the log (R343, R344, R366, R369). -/
def Obligations.FaultLog : Prop :=
  ∀ (s : State), RunsSaf s →
    (s.thal.inFlight = [] → ∀ full, Completes (.faultRecord full) s s) ∧
    (∀ r rest, s.thal.inFlight = r :: rest →
      Completes (.faultRecord true) s { s with thal := { s.thal with
        inFlight := rest, flogLost := satInc s.thal.flogLost, lostMark := true } } ∧
      (r.doubt = false → r.safe = false →
        Completes (.faultRecord false) s { s with thal := { s.thal with
          inFlight := rest,
          flog := tset { valid := false } s.thal.flog (s.thal.flogWr.toNat % 1024) { r with valid := true, lost := s.thal.lostMark },
          flogWr := s.thal.flogWr + 1, lostMark := false } }) ∧
      ∃ t, exec (.faultRecord false) s = .next t ∧ t.thal.flogWr = s.thal.flogWr + 1 ∧
        tget { valid := false } t.thal.flog (s.thal.flogWr.toNat % 1024) = { r with valid := true, lost := s.thal.lostMark })

/-- Runs of Moss and its IMU (R335, R336, R337, R342, R359). -/
def Obligations.MossRuns : Prop :=
  ∀ (s : State) (p : Pipe),
    (Runs s → s.island.mossReady = false ∨ (∃ e ∈ s.thal.moss, e.2.runningFrame ≠ none) ∨ (∃ q < p.val, s.mossFrame q ≠ none) ∨ s.mossFrame p = none → Completes (.mossRunStart p) s s) ∧
    (Runs s → ∀ l, s.island.mossReady = true → (∀ e ∈ s.thal.moss, e.2.runningFrame = none) → (∀ q < p.val, s.mossFrame q = none) → s.island.restarting = false →
      (s.pipe p).running = true → (s.pipe p).cls = 0 →
      (s.openFrames p).find? (fun l => (s.moss p).doneFrame ≠ some l.frame &&
        (match (s.moss p).doneFrame with | some d => decide ((l.frame - d).toNat < 2 ^ 31) | none => true) &&
        (l.stageDone 2 || decide (l.tEdge.toNat + s.closeOf p 2 ≤ s.gctl.time.toNat))) = some l →
      Completes (.mossRunStart p) s (mossBegin p l.frame (readFeed p l.frame s)) ∧ ((mossBegin p l.frame (readFeed p l.frame s)).moss p).runningFrame = some l.frame) ∧
    (Runs s → s.island.mossReady = true → (∀ e ∈ s.thal.moss, e.2.runningFrame = none) → (∀ q < p.val, s.mossFrame q = none) →
      s.island.restarting = true → s.island.c0Running.contains p.val = true → let k := (s.fclk (s.moss p).fclk).frame
      (s.moss p).doneFrame ≠ some k → Completes (.mossRunStart p) s (mossBegin p k (State.modMoss p feedBad s))) ∧
    (Runs s → ∀ payloads env us k, (Instr.mossRunEnd p payloads env us).wf = true → (s.moss p).runningFrame = some k →
      (s.moss p).submitDue = false → s.island.restarting = false →
      ∃ t, exec (.mossRunEnd p payloads env us) s = .next t ∧ (t.moss p).runningFrame = none ∧ (t.moss p).doneFrame = some k ∧
        (t.moss p).payloadFrame = some k ∧ (t.moss p).stopped = 0 ∧ t.thal.mossRunUs = BitVec.ofNat 16 us ∧ t.can = s.can ∧
        (t.moss p).payloads = (payloads.filter (fun x => (s.channelsOf p).contains x.1.val)).map (fun x => (x.1.val, x.2))) ∧
    (Runs s → ∀ k, (s.moss p).runningFrame = some k → (s.moss p).runStart.toNat + 1000000 ≤ s.gctl.time.toNat →
      ∃ t r, exec (.mossOverrun p) s = .next t ∧ r.code = 0x0930 ∧ (∃ l, t.thal.inFlight = s.thal.inFlight ++ r :: l) ∧
        (t.moss p).runningFrame = none ∧ (t.moss p).envelope = none ∧ t.thal.mossRunUs = 1000 ∧
        (1 ≤ (s.moss p).stopped → t.island.silent = true ∧ t.island.fatalMoss = true)) ∧
    (Runs s → ∀ k, (s.moss p).runningFrame = some k → s.gctl.time.toNat < (s.moss p).runStart.toNat + 1000000 →
      Completes (.mossOverrun p) s s) ∧
    (RunsSaf s → ∀ sample, (Instr.imuTransfer true sample).wf = true → Completes (.imuTransfer true sample) s
      { s with thal := { s.thal with imuValid := true, imuSamples := s.thal.imuSamples ++ [sample] } }) ∧
    (RunsSaf s → ∀ sample, (Instr.imuTransfer false sample).wf = true → ∃ t r, exec (.imuTransfer false sample) s = .next t ∧
      r.code = 0x0932 ∧ t.thal.inFlight = s.thal.inFlight ++ [r] ∧ t.thal.imuValid = false)

/-- Frame clocks: enabling, disabling, PERIOD and edges (R14, R15, R46, R47). -/
def Obligations.FrameClocks : Prop :=
  ∀ (s : State) (n : Fclk), Runs s →
    let c := s.fclk n
    let up := s.blocksUp = true
    (up → c.en = true → CompletesReg (.fclkEnable n) s s) ∧
    (up → c.en = false → CompletesReg (.fclkEnable n) s (State.modFclk n (fun c => { c with
      en := true, run := false, frame := 0xFFFFFFFF, inForce := c.period,
      next := firstEdge c.start.toInt c.period.toNat s.gctl.time.toNat }) s)) ∧
    (up → s.fclkBound n = true → CompletesReg (.fclkDisable n) s s) ∧
    (up → s.fclkBound n = false → CompletesReg (.fclkDisable n) s (State.modFclk n (fun c =>
      { c with en := false, run := false, frame := 0xFFFFFFFF, inForce := c.period }) s)) ∧
    (up → ∀ v : Word32, v.toNat < 5000000 ∨ 200000000 < v.toNat → CompletesReg (.fclkPeriodWrite n v) s s) ∧
    (up → ∀ v : Word32, 5000000 ≤ v.toNat → v.toNat ≤ 200000000 → (∃ p ∈ s.runningPipes, (s.pipe p).fclk = n ∧ s.breaksPipe p v.toNat = true) →
      CompletesReg (.fclkPeriodWrite n v) s s) ∧
    (up → ∀ v : Word32, 5000000 ≤ v.toNat → v.toNat ≤ 200000000 → (∀ p ∈ s.runningPipes, (s.pipe p).fclk = n → s.breaksPipe p v.toNat = false) →
      CompletesReg (.fclkPeriodWrite n v) s (State.modFclk n (fun c =>
        { c with period := v, inForce := if c.en then c.inForce else v }) s)) ∧
    (c.en = false ∨ (s.gctl.time.toNat : Int) < c.nextTime → Completes (.fclkEdge n) s s) ∧
    (c.en = true → c.nextTime ≤ (s.gctl.time.toNat : Int) → s.fclkBound n = false →
      Completes (.fclkEdge n) s (State.modFclk n (fun c => { c with
        start := if c.period = c.inForce then c.start else BitVec.ofInt 64 (c.nextTime - (c.next * c.period.toNat : Nat)),
        inForce := c.period, run := true, frame := BitVec.ofNat 32 c.next, edge := s.gctl.time, next := c.next + 1 }) s))

/-- The first edge after an enable (R14). -/
def Obligations.FirstEdgeIsTheNext : Prop :=
  ∀ (start : Int) (period t : Nat), 0 < period →
    ((t : Int) ≤ start + (firstEdge start period t * period : Nat)) ∧
    (∀ j, j < firstEdge start period t → start + (j * period : Nat) < (t : Int))

/-- An edge opens a frame of every pipeline bound to the clock (R14, R16, R17). -/
def Obligations.EdgeOpensFrames : Prop :=
  ∀ (s : State) (n : Fclk), Runs s → (s.fclk n).en = true → (s.fclk n).nextTime ≤ (s.gctl.time.toNat : Int) →
    s.fclkBound n = true →
    let u := frameBoundary (State.modFclk n (fun c => c.fire s.gctl.time) s)
    let k := BitVec.ofNat 32 (s.fclk n).next
    Completes (.fclkEdge n) s ((u.runningPipes.filter (fun p => (u.pipe p).fclk = n)).foldl (fun t p => openFrame p k t) u) ∧
    ∀ (p : Pipe) (b : PipeBlob) (t : State), (t.pipe p).blob = some b → (t.pipe p).stopping = false → b.streams = [] → b.cls ≠ 0 →
      (t.pipe p).start.ctxs = [] → let l := (openFrame p k t).ledgerAt p k
        l.frame = k ∧ l.valid = true ∧ l.complete = false ∧ l.abandoned = false ∧ l.pipe.toNat = p ∧ l.tEdge = t.gctl.time ∧
        ((openFrame p k t).pipe p).cur = some k

/-- Golden requests, sequences and results (R325, R326, R327, R328, R329). -/
def Obligations.GoldenSequences : Prop :=
  ∀ (s : State) (fp : Frond),
    (RunsFab s fp → ((s.frond fp).golden.clockReq = true ∨ (s.frond fp).golden.checkReqs ≠ []) → (s.frond fp).golden.running = false →
      s.goldenGap fp = true → (s.frond fp).epochBusy = false →
      Completes (.golden fp) s (State.modGolden fp (fun g => { g with
        running := true, startedAt := s.gctl.time, epochAt := (s.frond fp).epoch, answersClock := g.clockReq, clockReq := false,
        answers := g.checkReqs, checkReqs := [], forced := false }) s)) ∧
    (RunsFab s fp → ∀ pass, (s.frond fp).golden.running = false → Completes (.goldenResult fp pass) s s) ∧
    (RunsFab s fp → (s.frond fp).golden.running = true → (s.fp fp).replaceFl = none → (s.fp fp).st = .spareUnverified →
      ∃ t, exec (.goldenResult fp true) s = .next t ∧ (t.fp fp).st = .spare ∧ (t.frond fp).golden.running = false ∧
        (t.frond fp).golden.unverified = false ∧ (t.frond fp).golden.lastDone = some s.gctl.time) ∧
    (RunsFab s fp → (s.frond fp).golden.running = true → (s.fp fp).replaceFl = none → s.runningPipes = [] →
      ∃ t r, exec (.goldenResult fp false) s = .next t ∧ r.code = 0x0118 ∧ t.thal.inFlight = s.thal.inFlight ++ [r] ∧
        t.thal.goldenFails = satInc s.thal.goldenFails ∧ (t.frond fp).golden.running = false ∧
        ((s.fp fp).st = .mapped → (t.fp fp).retireMark = true ∧ (t.fp fp).st = .mapped) ∧
        ((s.fp fp).st ≠ .mapped → (t.fp fp).st = .retired)) ∧
    (Runs s → s.goldenPer * 9 ≤ 10 * (s.gctl.time.toNat - s.thal.goldenEdge.toNat) →
      ∃ t, exec .goldenDeadline s = .next t ∧ (∀ f : Frond, (t.frond f).golden =
        { (s.frond f).golden with forced := (s.frond f).golden.forced || (s.frond f).golden.clockReq })) ∧
    (Runs s → 10 * (s.gctl.time.toNat - s.thal.goldenEdge.toNat) < s.goldenPer * 9 → Completes .goldenDeadline s s) ∧
    (Runs s → s.goldenDue = none → Completes .goldenClockEdge s s) ∧
    (Runs s → ∀ e, s.goldenDue = some e → ∃ t, exec .goldenClockEdge s = .next t ∧ t.thal.goldenEdge = e ∧
      (∀ f : Frond, t.goldenEligible f = true → (t.frond f).golden.clockReq = true))

/-- CSI-2 packets of a bound stream (R51, R52, R53, R55, R57, R59, R60, R96, R97). -/
def Obligations.CsiPackets : Prop :=
  ∀ (s : State) (port : CsiPort) (vc : VirtChan), Runs s →
    (∀ p b c, s.csiStream port vc = some (p, b, c) → s.openSample p c.stream = none →
      let k := (s.fclk (s.pipe p).fclk).frameAt s.gctl.time.toNat c.lead
      let kw := BitVec.ofInt 32 k
      (s.pipe p).running = true → 0 ≤ k → 0 ≤ (kw - (s.pipe p).firstFrame).toInt → s.sample p c.stream kw = none →
      Completes (.csiFrameStart port vc .good) s (addSample { pipe := p, stream := c.stream, frame := kw, receiving := true }
        (State.modStream c.stream (fun r => { r with ignoring := false }) s))) ∧
    (∀ p b c, s.csiStream port vc = some (p, b, c) → s.openSample p c.stream = none → (s.pipe p).running = false →
      Completes (.csiFrameStart port vc .good) s
        (State.modStream c.stream (fun r => { r with ignoring := true, extra := satInc r.extra }) s)) ∧
    (∀ p b c x d t, s.csiStream port vc = some (p, b, c) → s.openSample p c.stream = some x → (s.stream c.stream).ignoring = false →
      (Instr.csiLongPacket port vc (BitVec.ofNat 6 c.dt) d true .good).wf = true → c.dt < 0x30 → c.dt ≠ 0x12 →
      d.length = lineBytes c → x.lines < c.height → x.lines * lineBytes c + lineBytes c ≤ c.inSlotSize →
      ∀ e, writeStop 0xA0 b.cls (inSlot c x.frame + x.lines * lineBytes c) (clean d)
        (State.modSample p c.stream x.frame (fun y => { y with anyData := true, lines := y.lines + 1, bytes := y.bytes + d.length }) s)
        = (e, t) →
      Completes (.csiLongPacket port vc (BitVec.ofNat 6 c.dt) d true .good) s
        (match e with | none => t | some _ => ingestRefused p c.stream x.frame t)) ∧
    (∀ dt d, s.csiStream port vc = none → (Instr.csiLongPacket port vc dt d true .good).wf = true →
      Completes (.csiLongPacket port vc dt d true .good) s (State.modCsi port (fun r => { r with unbound := satInc r.unbound }) s)) ∧
    (∀ p b c dt d, s.csiStream port vc = some (p, b, c) → (Instr.csiLongPacket port vc dt d true .good).wf = true →
      dt.toNat = 0x12 ∨ (0x30 ≤ dt.toNat ∧ dt.toNat ≤ 0x37) → Completes (.csiLongPacket port vc dt d true .good) s s) ∧
    (∀ p b c x, s.csiStream port vc = some (p, b, c) → s.openSample p c.stream = some x →
      let u := State.modSample p c.stream x.frame (fun y => { y with receiving := false }) s
      (c.height ≤ x.lines → Completes (.csiFrameEnd port vc .good) s (settle p c.stream x.frame 0 u)) ∧
      (x.lines < c.height → Completes (.csiFrameEnd port vc .good) s (corruptSample p c.stream x.frame 0x03 u))) ∧
    (s.csiStream port vc = none →
      Completes (.csiFrameStart port vc .corrected) s (State.modCsi port (fun r => { r with eccCorr := satInc r.eccCorr }) s) ∧
      Completes (.csiFrameEnd port vc .corrected) s (State.modCsi port (fun r => { r with eccCorr := satInc r.eccCorr }) s)) ∧
    ((∀ v, s.csiStream port v = none) →
      Completes (.csiFrameStart port vc .uncorrectable) s (State.modCsi port (fun r => { r with eccUncorr := satInc r.eccUncorr }) s) ∧
      Completes (.csiFrameEnd port vc .uncorrectable) s (State.modCsi port (fun r => { r with eccUncorr := satInc r.eccUncorr }) s))

/-- UDP payloads, host submissions and the ingest deadline (R54, R55, R61, R62, R99, R517, R518, R519, R542). -/
def Obligations.OtherIngest : Prop :=
  ∀ (s : State), Runs s →
    (∀ (n : EthPort) (dport : BitVec 16) (d : List Byte), (Instr.udpIngestPayload n dport d).wf = true → (s.port n).link = .up →
      dport.toNat ≠ 4791 → (dport.toNat = 0 ∨ s.eth.cmdPort.toNat ≠ dport.toNat) →
      ((s.port n).maxFrame.toNat < max 64 (d.length + 46) →
        Completes (.udpIngestPayload n dport d) s (State.modPort n (fun r => { r with rxBad := satInc r.rxBad }) s)) ∧
      (max 64 (d.length + 46) ≤ (s.port n).maxFrame.toNat →
      let u := State.modPort n (fun r => { r with rxOk := satInc r.rxOk }) s
      (s.flowStream n dport.toNat = none →
        Completes (.udpIngestPayload n dport d) s (State.modPort n (fun r => { r with rxOther := satInc r.rxOther }) u)) ∧
      (∀ st, s.flowStream n dport.toNat = some st → s.takesUdp st = false →
        Completes (.udpIngestPayload n dport d) s (State.modPort n (fun r => { r with rxUnbound := satInc r.rxUnbound }) u)) ∧
      (∀ st p b c x, s.flowStream n dport.toNat = some st → s.takesUdp st = true → s.boundTo st = some (p, b, c) →
        (u.udpWindow p c = some x → x.settled = false →
          Completes (.udpIngestPayload n dport d) s (appendData (0xB1 + n) p b c x d.length (udpRecord s.gctl.time d) u)) ∧
        (u.udpWindow p c = none →
          Completes (.udpIngestPayload n dport d) s (State.modStream st (fun r => { r with extra := satInc r.extra }) u))))) ∧
    (∀ (st : Stream) p b c l x, s.boundTo st = some (p, b, c) → c.source = 1 →
      (s.openFrames p).find? (fun l => decide (l.tEdge.toNat + c.winStart + c.winLen ≤ s.gctl.time.toNat) &&
        (match s.sample p st l.frame with | some x => !x.settled | none => false)) = some l →
      s.sample p st l.frame = some x →
      (x.anyData = false → Completes (.udpWindowClose st) s (corruptSample p st l.frame 0x05 s)) ∧
      (x.anyData = true → c.kind = 2 → Completes (.udpWindowClose st) s (settle p c.stream l.frame 0 s))) ∧
    (∀ (hi : Word32) p b c k x, s.blocksUp = true → s.boundTo (bits hi.toNat 5 0) = some (p, b, c) → c.source = 2 → (s.pipe p).running = true →
      (s.pipe p).cur = some k → s.sample p (bits hi.toNat 5 0) k = some x → x.settled = false →
      s.loop.submitLo.toNat ≤ c.inSlotSize → c.kind ≠ 0 →
      CompletesReg (.hostSubmit hi) s (settle p c.stream k 0 (State.modSample p (bits hi.toNat 5 0) k
        (fun y => { y with anyData := true, bytes := s.loop.submitLo.toNat }) s))) ∧
    (∀ (hi : Word32) p b c, s.blocksUp = true → s.boundTo (bits hi.toNat 5 0) = some (p, b, c) → c.source = 2 → (s.pipe p).running = false →
      CompletesReg (.hostSubmit hi) s (State.modStream (bits hi.toNat 5 0) (fun r => { r with extra := satInc r.extra }) s)) ∧
    (∀ (p : Pipe) b l x, (s.pipe p).blob = some b →
      (s.openFrames p).find? (fun l => decide (l.tEdge.toNat + b.ingestDl ≤ s.gctl.time.toNat) &&
        (s.frameSamples p l.frame).any (fun x => !x.settled)) = some l →
      (s.frameSamples p l.frame).filter (fun x => !x.settled) = [x] → x.anyData = false → x.receiving = false →
      Completes (.ingestDeadline p) s (corruptSample p x.stream x.frame 0x05 s))

/-- ROI tables (R8, R76, R77, R78, R95). -/
def Obligations.RoiTables : Prop :=
  (∀ (s : State) (st : Stream) (w : Fin 128) (v target : Word32), Runs s → s.blocksUp = true →
    (∃ t, exec (.roiWindowWrite st w v) s = .next t ∧
      tget 0 (t.stream st).pendingBank w = v &&& roiMask w ∧ (t.stream st).activeBank = (s.stream st).activeBank ∧
      (∀ i, i ≠ w.val → tget 0 (t.stream st).pendingBank i = tget 0 (s.stream st).pendingBank i) ∧
      (∀ i, i ≠ st.val → t.stream i = s.stream i)) ∧
    CompletesReg (.roiCommit st target) s (State.modStream st (fun r => { r with roiPending := true, pendTarget := target }) s)) ∧
  (∀ (r : StreamRec) (maxAge : Nat) (k : Word32),
    (r.roiPending = true → 0 ≤ (k - r.pendTarget).toInt → (k - r.pendTarget).toInt ≤ maxAge →
      (r.choose maxAge k).activeBank = r.pendingBank ∧ (r.choose maxAge k).roiPending = false ∧
      (r.choose maxAge k).roiAge = BitVec.ofInt 8 (k - r.pendTarget).toInt) ∧
    (r.roiPending = false → r.roiValid = true → (maxAge : Int) < (k - r.roiTgt).toInt →
      (r.choose maxAge k).roiValid = false ∧ (r.choose maxAge k).roiAge = 0xFF))

/-- PREP jobs (R64, R73, R98). -/
def Obligations.PrepJobs : Prop :=
  ∀ (s : State), Runs s →
    (∀ (p : Pipe) b u k c n, (s.pipe p).blob = some b → s.freeUnit b = some u → s.nextJob p = some (k, c, n) →
      Completes (.prepJobDispatch p) s (State.modSample p c.stream k (fun x => { x with jobsOut := x.jobsOut ++ [(u, n)] })
        (State.modPrep u (fun r => { r with busy := true, stream := BitVec.ofNat 6 c.stream, jpeg := c.kind = 2, frame := k, band := n }) s))) ∧
    (∀ (p : Pipe) b, (s.pipe p).blob = some b → (s.freeUnit b = none ∨ s.nextJob p = none) → Completes (.prepJobDispatch p) s s) ∧
    (∀ u : PrepUnit, (s.prep u).busy = false → Completes (.prepJobDone u) s s) ∧
    (∀ (u : PrepUnit) b c x, (s.prep u).busy = true → (s.pipe (s.prep u).pipe.toNat).blob = some b →
      s.sample (s.prep u).pipe.toNat (s.prep u).stream.toNat (s.prep u).frame = some x → b.cfg (s.prep u).stream.toNat = some c →
      let p := (s.prep u).pipe.toNat
      let v := State.modPrep u (fun r => { r with busy := false, jpeg := false }) s
      (x.reason ≠ 0 ∨ x.finished = true → Completes (.prepJobDone u) s v) ∧
      (x.reason = 0 → x.finished = false → c.kind = 2 → Completes (.prepJobDone u) s (doJpeg u p b c (s.prep u).frame x v)) ∧
      (x.reason = 0 → x.finished = false → c.kind ≠ 2 →
        Completes (.prepJobDone u) s (doBand u p b c (s.prep u).frame x (s.prep u).band v)))

/-- GO, ABORT and the span timer of a stream slot (R104, R155, R156, R157, R176). -/
def Obligations.SlotsAndSpans : Prop :=
  (∀ (s : State) (fp : Frond) (k : Slot), Runs s → s.blocksUp = true →
    let x := (s.frond fp).slot k
    (x.st = .idle → CompletesReg (.slotGo fp k) s (State.modSlot fp k (fun x =>
        { x.toIdle with st := .running, fetchAddr := x.base.toNat / 64 * 64, nextSeq := x.seqReg, owner := .none }) s)) ∧
    (x.st ≠ .idle → CompletesReg (.slotGo fp k) s (State.modSlot fp k (fun x => x) s)) ∧
    (x.st = .idle → CompletesReg (.slotAbort fp k) s s) ∧
    (x.st ≠ .idle ∧ x.executing = false →
      CompletesReg (.slotAbort fp k) s (State.modFrond fp (fun r =>
        { (r.modSlot k (fun x => { x.toIdle with owner := .none })).emptyBanks with fillWait := false }) s)) ∧
    (x.st ≠ .idle ∧ x.executing = true →
      CompletesReg (.slotAbort fp k) s (State.modSlot fp k (fun x => { x with aborting := true }) s))) ∧
  (∀ (s : State) (fp : Frond), RunsFab s fp →
    ((s.frond fp).slot0.st = .running → (s.frond fp).spanOpen 0 = true → (s.frond fp).slot0.spanNoted = false →
      ∃ t r, exec (.spanTimerExpiry fp 0) s = .next t ∧ r.code = 0x011A ∧ t.thal.inFlight = s.thal.inFlight ++ [r] ∧
        (t.frond fp).slot0 = { (s.frond fp).slot0 with spanNoted := true }) ∧
    ((s.frond fp).slot1.st = .running → (s.frond fp).yieldAsked = true → (s.frond fp).spanOpen 1 = true →
      (s.frond fp).slot1.owner = .none → (∀ d ∈ (s.frond fp).slot1.queue, d.hold = none) →
      ∃ t, exec (.spanTimerExpiry fp 1) s = .next t ∧ (t.frond fp).slot1.st = .idle ∧ (t.frond fp).slot1.queue = [] ∧
        (t.frond fp).banksEmpty = true ∧
        ((s.frond fp).slot1.aborting = true → t.thal.inFlight = s.thal.inFlight) ∧
        ((s.frond fp).slot1.aborting = false → ∃ r, r.code = 0x011A ∧ t.thal.inFlight = s.thal.inFlight ++ [r])))

/-- Fetching and completing descriptors (R154, R155, R156, R158, R166). -/
def Obligations.DescriptorFetchAndComplete : Prop :=
  ∀ (s : State) (fp : Frond) (k : Slot), RunsFab s fp →
    let x := (s.frond fp).slot k
    (∀ (b : List PByte) (t : State) (d : QDesc),
      x.st = .running → x.aborting = false → x.endFetched = false → x.queue.length < 64 →
      readAll fp (x.busClass k) x.fetchAddr 64 s = (some b, t) → poisoned b = false →
      d = { seq := BitVec.ofNat 32 (field (plain b) 4 4), body := plain b } →
      d.seq = x.nextSeq → unitOf d.op ≠ none → classFits k d = true →
      (d.last = true ∨ (x.fetchAddr + 64) % 4096 = 0) →
      Completes (.descriptorFetch fp k) s (State.modSlot fp k (fun y => { y with
        fetchAddr := x.fetchAddr + 64, nextSeq := y.nextSeq + 1, queue := y.queue ++ [d], endFetched := d.last,
        cls := if y.owner = .none then BitVec.ofNat 2 d.cls else y.cls }) t)) ∧
    (∀ t : State, x.st = .running → x.aborting = false → x.endFetched = false → x.queue.length < 64 →
      readAll fp (x.busClass k) x.fetchAddr 64 s = (none, t) → ((t.frond fp).slot k).owner = .none → ((t.frond fp).slot k).st = .running →
      ∃ u, exec (.descriptorFetch fp k) s = .next u ∧
        ((u.frond fp).slot k).st = .halted ∧ ((u.frond fp).slot k).faultCode = 0x0115) ∧
    (∀ (seq : Word32) (d : QDesc),
      x.queue.find? (fun e => e.seq = seq) = some d → (s.frond fp).completable d = true → d.last = false → d.op ≠ 7 →
      x.aborting = false → x.queue.any (fun e => e.seq ≠ seq && e.started) = true →
      Completes (.descriptorComplete fp k seq) s
        (State.modSlot fp k (fun x => { x with doneSeq := seq, queue := x.queue.filter (fun e => e.seq ≠ seq) }) s)) ∧
    (∀ (seq : Word32) (d : QDesc) (rest : List QDesc),
      x.queue = d :: rest → d.seq = seq → (s.frond fp).completable d = true → d.last = true → d.op ≠ 7 →
      x.st = .running → x.aborting = false → x.owner = .none →
      ∃ t, exec (.descriptorComplete fp k seq) s = .next t ∧ ((t.frond fp).slot k).st = .idle ∧
        ((t.frond fp).slot k).doneSeq = seq ∧ (t.frond fp).acc0 = {} ∧ (t.frond fp).acc1 = {})

/-- The engine opcodes run when they may start (R122, R125, R129, R154, R159, R160, R161, R164, R165, R192, R195, R215). -/
def Obligations.EngineOpcodesComplete : Prop :=
  ∀ (s : State) (fp : Frond) (k : Slot) (d : QDesc), RunsFab s fp →
    let on : State → Prop := fun u => (((beginDesc fp k d u).frond fp).slot k).executing = true
    (Starts s fp k 5 d → on s → Completes (.pool fp k) s (actPool fp d (beginDesc fp k d s))) ∧
    (Starts s fp k 6 d → on s → Completes (.argmax fp k) s (actArgmax fp d (beginDesc fp k d s))) ∧
    (Starts s fp k 7 d → on s → Completes (.loadm fp k) s (actLoadm fp k d (beginDesc fp k d s))) ∧
    (Starts s fp k 8 d → on s → Completes (.storem fp k) s (actStorem fp k d (beginDesc fp k d s))) ∧
    (Starts s fp k 9 d → on s → Completes (.move fp k) s (actMove fp d (beginDesc fp k d s))) ∧
    (Starts s fp k 0x0A d → on s → Completes (.cbload fp k) s (actCbload fp d (beginDesc fp k d s))) ∧
    (Starts s fp k 0x0C d → on s → Completes (.signal fp k) s (actSignal fp d (beginDesc fp k d s))) ∧
    (Starts s fp k 0x0D d → on s → Completes (.optstep fp k) s (actOptstep fp d (beginDesc fp k d s))) ∧
    (Starts s fp k 0x10 d → on s → Completes (.bankpwr fp k) s (actBankpwr fp d (beginDesc fp k d s))) ∧
    (Starts s fp k 4 d → on s → (vecBody d).pload = false → Completes (.vec fp k) s (actVec fp k d (beginDesc fp k d s))) ∧
    (Starts s fp k 4 d → on s → (vecBody d).pload = true → Completes (.vecPload fp k) s (actPload fp d (beginDesc fp k d s))) ∧
    (∀ upset : List Upset, let u := State.modFrond fp (upsetWords upset) s
      ((Instr.matmul fp k upset).wf = true → Starts u fp k 1 d → on u →
        Completes (.matmul fp k upset) s (actMatmul fp k upset d (beginDesc fp k d u))) ∧
      ((Instr.convtap fp k upset).wf = true → Starts u fp k 2 d → on u →
        Completes (.convtap fp k upset) s (actConvtap fp k upset d (beginDesc fp k d u))) ∧
      ((Instr.attn fp k upset).wf = true → Starts u fp k 3 d → on u →
        Completes (.attn fp k upset) s (actAttn fp k upset d (beginDesc fp k d u))))

/-- A fault before the start halts the stream (R156, R161). -/
def Obligations.DescriptorFaultsHalt : Prop :=
  ∀ (s : State) (fp : Frond) (k : Slot) (d : QDesc) (code : BitVec 16) (a : Nat) (c : Instr) (op : Nat),
    RunsFab s fp → s.frameOf fp k = none →
    (c, op) ∈ [(Instr.pool fp k, 5), (.argmax fp k, 6), (.loadm fp k, 7), (.storem fp k, 8), (.move fp k, 9), (.cbload fp k, 0x0A),
      (.signal fp k, 0x0C), (.optstep fp k, 0x0D), (.bankpwr fp k, 0x10)] →
    s.ready fp k op = some d → s.judge fp k d = .halt code a →
    ∃ t r, exec c s = .next t ∧ r.code = code ∧ t.thal.inFlight = s.thal.inFlight ++ [r] ∧
      ((t.frond fp).slot k).st = .halted ∧ ((t.frond fp).slot k).faultCode = code ∧
      ((t.frond fp).slot k).queue = ((s.frond fp).slot k).queue.filter (fun e => e.started)

/-- WAIT and SIGNAL (R162, R163). -/
def Obligations.SyncCounters : Prop :=
  ∀ (s : State) (fp : Frond) (k : Slot) (d : QDesc), RunsFab s fp →
    (Starts s fp k 0x0C d → (((beginDesc fp k d s).frond fp).slot k).executing = true → let x := syncBody d
      let u := beginDesc fp k d s
      let g := if x.dest = 0xFF then fp.val else x.dest
      (x.glob = true → x.op = 0 → Completes (.signal fp k) s (State.setGsync x.ctr (u.gsync x.ctr + x.value) u)) ∧
      (x.glob = true → x.op = 1 → Completes (.signal fp k) s (State.setGsync x.ctr x.value u)) ∧
      (x.glob = false → x.op = 0 → Completes (.signal fp k) s
        (State.modFrond g (fun r => { r with sync := tset 0 r.sync x.ctr (tget 0 r.sync x.ctr + x.value) }) u)) ∧
      (x.glob = false → x.op = 1 → Completes (.signal fp k) s
        (State.modFrond g (fun r => { r with sync := tset 0 r.sync x.ctr x.value }) u))) ∧
    (Starts s fp k 0x0B d → s.runBehind fp k = none → (0 ≤ (s.counter fp (syncBody d) - (syncBody d).value).toInt) →
      (beginDesc fp k d s).runBehind fp k = none → Completes (.wait fp k) s (beginDesc fp k d s)) ∧
    (s.ready fp k 0x0B = some d → (viewWait d).fields = true → s.runBehind fp k = none →
      ¬ (0 ≤ (s.counter fp (syncBody d) - (syncBody d).value).toInt) → Completes (.wait fp k) s s)

/-- The engine opcodes without memory traffic change only their own Frond (03_frond_cells_arithmetic, 04_frond_store_dataflow, R139, R154, R161). -/
def Obligations.EngineTouchesOnlyItsFrond : Prop :=
  ∀ (s t : State) (fp : Frond) (c : Instr), s.island.silent = false →
    (s.frond fp).slot1.cls ≠ 0 →
    c ∈ [Instr.pool fp 1, .argmax fp 1, .move fp 1, .cbload fp 1, .optstep fp 1, .vec fp 1, .vecPload fp 1, .bankpwr fp 1] →
    (∀ n sh, (s.frond fp).slot1.owner ≠ .run n sh) →
    exec c s = .next t →
    t = { s with fronds := t.fronds, thal := { s.thal with inFlight := t.thal.inFlight }, freeCtr := t.freeCtr } ∧
    (∀ g, g ≠ fp.val → t.frond g = s.frond g) ∧ s.thal.inFlight <+: t.thal.inFlight

/-- ARGMAX stores its NPOS output words and nothing else (R195, R196, R138). -/
def Obligations.ArgmaxStoresOnlyItsOutput : Prop :=
  ∀ (s : State) (fp : Frond) (k : Slot) (d : QDesc), RunsFab s fp → Starts s fp k 6 d →
    (s.frond fp).firstPoison (viewOf s fp d).feet = none →
    let x := argBody d
    let u := beginDesc fp k d s
    ((u.frond fp).slot k).executing = true →
    let first := ((u.frond fp).hnd x.y).base * 512 + 4 * x.yOff
    (∃ t, exec (.argmax fp k) s = .next t ∧ t.mem = u.mem ∧ t.hostMem = u.hostMem ∧ t.cmdq.sram = u.cmdq.sram ∧
      ∀ a, a < first ∨ first + 4 * x.npos ≤ a →
        plain ((t.frond fp).storeMarked a 1) = plain ((u.frond fp).storeMarked a 1)) ∧
    (s.frameOf fp k = none → u.mem = s.mem ∧ u.hostMem = s.hostMem ∧ u.cmdq.sram = s.cmdq.sram ∧
      ∀ a, plain ((u.frond fp).storeMarked a 1) = plain ((s.frond fp).storeMarked a 1))

/-- Bank power states and the write-back of corrected words (R138, R139, R149, R150, R152, R169). -/
def Obligations.BanksAndCorrection : Prop :=
  (∀ (s : State) (fp : Frond), RunsFab s fp →
    (∀ (k : Slot) (d : QDesc), Starts s fp k 0x10 d → let u := beginDesc fp k d s
      ((u.frond fp).slot k).executing = true →
      ∃ t, exec (.bankpwr fp k) s = .next t ∧ ∀ b : Bank, bit (d.fld 8 4) b = true →
        (((u.frond fp).bank b).st = .on → ((u.frond fp).bank b).settled = true →
          (d.fld 0xC 1 = 1 → ((t.frond fp).bank b).st = .fencing ∧ ((t.frond fp).bank b).target = .off) ∧
          (d.fld 0xC 1 = 2 → ((t.frond fp).bank b).st = .fencing ∧ ((t.frond fp).bank b).target = .ret) ∧
          (d.fld 0xC 1 = 0 → ((t.frond fp).bank b).st = .on)) ∧
        ((((u.frond fp).bank b).st = .off ∨ ((u.frond fp).bank b).st = .ret) → ((u.frond fp).bank b).settled = true →
          d.fld 0xC 1 = 0 → ((t.frond fp).bank b).powering = true)) ∧
    (∀ b : Bank, ((s.frond fp).bank b).st = .fencing →
      ((s.frond fp).bank b).claims = 0 → ((s.frond fp).bank b).inbound = 0 →
      Completes (.bankFenceResolve fp b) s (State.modFrond fp (fun r =>
        r.modBank b (fun x => { x with st := x.target, moving := true })) s)) ∧
    (∀ b : Bank, ((s.frond fp).bank b).st = .fencing →
      ((s.frond fp).bank b).claims ≠ 0 ∨ ((s.frond fp).bank b).inbound ≠ 0 →
      ((s.frond fp).bank b).since.toNat + 100000 ≤ s.gctl.time.toNat →
      Completes (.bankFenceAbandon fp b) s (reportFrond fp { code := 0x0130 } (State.modFrond fp (fun r =>
        r.modBank b (fun x => { x with st := .on, target := .on, abandoned := true })) s))) ∧
    (∀ b : Bank, ((s.frond fp).bank b).powering = true → ((s.frond fp).bank b).st = .off →
      Completes (.bankTransitionDone fp b) s (State.modFrond fp (fun r =>
        (zeroBank b r).modBank b (fun x => { x with st := .on, powering := false })) s)) ∧
    (∀ b : Bank, ((s.frond fp).bank b).powering = true → ((s.frond fp).bank b).st = .ret →
      Completes (.bankTransitionDone fp b) s (State.modFrond fp (fun r =>
        r.modBank b (fun x => { x with st := .on, powering := false })) s)) ∧
    (∀ b : Bank, ((s.frond fp).bank b).powering = false →
      Completes (.bankTransitionDone fp b) s (State.modFrond fp (fun r =>
        r.modBank b (fun x => { x with moving := false })) s))) ∧
  (∀ (s : State) (fp : Frond), RunsFab s fp →
    ((s.frond fp).pendingCorr = [] → Completes (.storeCorrectionWriteback fp) s (State.modFrond fp (fun r => r) s)) ∧
    (∀ w rest, (s.frond fp).pendingCorr = w :: rest →
      ∃ t, exec (.storeCorrectionWriteback fp) s = .next t ∧
        (t.frond fp).wordOutcome w = .good ∧ tget [] (t.frond fp).errs w = [] ∧ w ∉ (t.frond fp).pendingCorr ∧
        (t.frond fp).wordData w = (s.frond fp).wordData w))

/-- Handle entries, fill marks and epochs (R141, R142, R143, R147, R171, R173, R181, R288, R289). -/
def Obligations.HandlesAndEpochs : Prop :=
  ∀ (s : State) (fp : Frond), Runs s →
    let up := s.blocksUp = true
    (up → ∀ (h : HandleNo) (v : Word32),
      CompletesReg (.handleEntryWrite fp h 0 v) s (State.modFrond fp (fun r => r.modHandle h (fun x => { x with lo0 := v })) s) ∧
      CompletesReg (.handleEntryWrite fp h 2 v) s (State.modFrond fp (fun r => r.modHandle h (fun x => { x with lo1 := v })) s) ∧
      CompletesReg (.handleEntryWrite fp h 1 v) s (State.modFrond fp (fun r => r.modHandle h (fun x =>
        let w := BitVec.ofNat 64 (x.lo0.toNat + place v.toNat 32)
        { x with w0 := (if (decodeHandle w.toNat x.w1.toNat).bad then setValid w false else w) &&& ~~~0x8000000000000#64 })) s) ∧
      CompletesReg (.handleEntryWrite fp h 3 v) s (State.modFrond fp (fun r => r.modHandle h (fun x =>
        let w := BitVec.ofNat 64 (x.lo1.toNat + place v.toNat 32)
        { x with w1 := w, w0 := (if (decodeHandle x.w0.toNat w.toNat).bad then setValid x.w0 false else x.w0) &&& ~~~0x8000000000000#64 })) s)) ∧
    (up → ∀ v : Word32, CompletesReg (.frndFill fp v) s (State.modFrond fp (fun r => r.modHandle (bits v.toNat 7 0) (fun x =>
      let h := decodeHandle x.w0.toNat x.w1.toNat
      let n := min (bits v.toNat 22 8) h.rows
      let w := setFill x.w0 (if bit v.toNat 31 then n else max h.fill n)
      { x with w0 := w, lo0 := if x.lo0 = lowHalf x.w0 then lowHalf w else x.lo0 })) s)) ∧
    (RunsFab s fp → ∀ (h : HandleNo) (v : BitVec 32), Completes (.fillRaise fp h v) s (State.modFrond fp (fun r => r.modHandle h (fun x =>
      let y := decodeHandle x.w0.toNat x.w1.toNat
      let w := setFill x.w0 (max y.fill (min v.toNat y.rows))
      { x with w0 := w, lo0 := if x.lo0 = lowHalf x.w0 then lowHalf w else x.lo0 })) s)) ∧
    (up → ∀ e : BitVec 12, (s.frond fp).epoch = e → CompletesReg (.frndEpochWrite fp e) s s) ∧
    (up → ∀ e : BitVec 12, (s.frond fp).epoch ≠ e → CompletesReg (.frndEpochWrite fp e) s (shardsLost (s.fp fp).res
      (State.modFp fp (fun x => { x with res := [] }) (State.modFrond fp (fun r => { r with epoch := e, epochBusy := true }) s)))) ∧
    (RunsFab s fp → (s.frond fp).epochBusy = true → ∃ t, exec (.epochInvalidationDone fp) s = .next t ∧
      (t.frond fp).epochBusy = false ∧ (t.frond fp).epoch = (s.frond fp).epoch ∧
      ∀ h, ((t.frond fp).hnd h).valid = true → ((t.frond fp).hnd h).epoch = (s.frond fp).epoch.toNat)

/-- KVAPPEND, SORUS and the page engine (R149, R239, R240, R241, R245, R246, R248, R252). -/
def Obligations.KvDescriptorCommands : Prop :=
  ∀ (s : State) (fp : Frond) (k : Slot) (d : QDesc), RunsFab s fp →
    let u := beginDesc fp k d s
    let at_ := ((s.frond fp).slot k).descAddr d.seq
    let lost := ((s.frond fp).seenBy d).lostBank (viewOf s fp d).feet
    (s.running fp k 0x0E = none → Starts s fp k 0x0E d → ((u.frond fp).slot k).executing = true →
      Completes (.kvappend fp k) s (askAppend fp k d u)) ∧
    (s.running fp k 0x0F = none → Starts s fp k 0x0F d → ((u.frond fp).slot k).executing = true →
      Completes (.sorus fp k) s (askSorus fp k d u)) ∧
    (∀ h : KvHold, d.hold = some h →
      (s.running fp k 0x0E = some d → h.resolved = true → h.written = false → lost = none →
        Completes (.kvappend fp k) s (writeAppend fp k d h s)) ∧
      (s.running fp k 0x0F = some d → h.resolved = true → h.written = false → lost = none →
        Completes (.sorus fp k) s (writeSorus fp k d h s)) ∧
      (∀ (a : Nat) (c : Instr) (op : Nat), (c, op) ∈ [(Instr.kvappend fp k, 0x0E), (.sorus fp k, 0x0F)] → s.running fp k op = some d →
        h.resolved = true → h.written = false → lost = some a →
        Completes c s (failDesc fp k 0x0131 (storeAddr fp a) d (dropPins h s))) ∧
      (∀ (c : Instr) (op : Nat), (c, op) ∈ [(Instr.kvPageResolve fp k, 0x0E), (.sorusWalk fp k, 0x0F)] → s.running fp k op = some d →
        h.resolved = false → s.ctxActive h.ctx = false → Completes c s (failDesc fp k 0x0142 at_ d s)) ∧
      (∀ l t, s.running fp k 0x0E = some d → h.resolved = false → s.ctxActive h.ctx = true →
        appendPages h.ctx h.hg (let p0 := h.tokens / 32
          let p1 := (h.tokens + (appBody (s.frond fp) d).nt - 1) / 32
          if p0 = p1 then [p0] else [p0, p1]) s = .ok (l, t) →
        Completes (.kvPageResolve fp k) s (modDesc fp k d.seq (fun e =>
          { e with hold := some { h with pages := l, resolved := true }, done := false }) t)) ∧
      (∀ l t, s.running fp k 0x0F = some d → h.resolved = false → s.ctxActive h.ctx = true →
        pinPages h.ctx h.hg (List.range (cdiv (s.ctx h.ctx).tokens.toNat 32)) s = .ok (l, t) →
        Completes (.sorusWalk fp k) s (modDesc fp k d.seq (fun e =>
          { e with hold := some { h with tokens := (s.ctx h.ctx).tokens.toNat, pages := l, resolved := true }, done := false }) t)) ∧
      (s.running fp k 0x0E = none → s.running fp k 0x0F = some d → h.written = true →
        Completes (.kvUnpin fp k) s (modDesc fp k d.seq (fun e => { e with hold := none, done := true }) (dropPins h s))) ∧
      (s.running fp k 0x0E = some d → s.running fp k 0x0F = none → h.written = true →
        Completes (.kvUnpin fp k) s (modDesc fp k d.seq (fun e => { e with hold := some { h with pages := [] }, done := false })
          (dropPins h s))))

/-- KV_APPEND_COMMIT (R227, R232, R241). -/
def Obligations.KvAppendCommits : Prop :=
  ∀ (s : State) (fp : Frond) (k : Slot) (d : QDesc) (h : KvHold), RunsFab s fp →
    s.running fp k 0x0E = some d → d.hold = some h → h.written = true → h.pages = [] →
    let nt := (appBody (s.frond fp) d).nt
    let app := (s.ctx h.ctx).appended ||| BitVec.ofNat 32 (2 ^ h.hg)
    (s.ctxActive h.ctx = true → app.toNat = 2 ^ (s.ctx h.ctx).nhg.toNat - 1 →
      ∃ t, exec (.kvAppendCommit fp k) s = .next t ∧ t.ctx h.ctx =
        { s.ctx h.ctx with
          appended := 0, pendNt := 0, tokens := BitVec.ofNat 32 ((s.ctx h.ctx).tokens.toNat + nt),
          bucket := BitVec.ofNat 4 (bucketOf ((s.ctx h.ctx).tokens.toNat + nt)), gen := (t.ctx h.ctx).gen } ∧ (∀ c, c ≠ h.ctx → t.ctx c = s.ctx c)) ∧
    (s.ctxActive h.ctx = true → app.toNat ≠ 2 ^ (s.ctx h.ctx).nhg.toNat - 1 →
      ∃ t, exec (.kvAppendCommit fp k) s = .next t ∧
        t.ctx h.ctx = { s.ctx h.ctx with appended := app, pendNt := BitVec.ofNat 6 nt, gen := (t.ctx h.ctx).gen } ∧ (∀ c, c ≠ h.ctx → t.ctx c = s.ctx c)) ∧
    (s.ctxActive h.ctx = false → ∃ t, exec (.kvAppendCommit fp k) s = .next t ∧ t.sched = s.sched)

/-- Enabling and disabling a KV pool (R253, R254, R257). -/
def Obligations.KvPools : Prop :=
  ∀ (s : State) (p : PoolNo), Runs s →
    let up := s.blocksUp = true
    (up → (s.pool p).en = false → (s.pool p).sound = false →
      CompletesReg (.kvpoolEnable p) s (State.modPool p (fun y => { y with err := true }) s)) ∧
    (up → (s.pool p).en = true → CompletesReg (.kvpoolEnable p) s s) ∧
    (up → (s.pool p).en = false → (s.pool p).sound = true →
      CompletesReg (.kvpoolEnable p) s (buildPool p (State.modPool p (fun y => { y with err := false, en := true, busy := true }) s)) ∧
      ∃ t, exec (.kvpoolEnable p) s = .next t ∧ (t.pool p).en = true ∧ (t.pool p).busy = true ∧
        (t.pool p).free = BitVec.ofNat 24 (s.pool p).blocks.toNat ∧ (t.pool p).resv = 0) ∧
    (up → (∀ e ∈ s.sched.ctxs, e.2.st = .free ∨ e.2.pool.toNat ≠ p) →
      CompletesReg (.kvpoolDisable p) s (State.modPool p (fun y => { y with en := false, busy := false }) s)) ∧
    (up → (∃ e ∈ s.sched.ctxs, e.2.st ≠ .free ∧ e.2.pool.toNat = p) → CompletesReg (.kvpoolDisable p) s s) ∧
    Completes (.kvpoolBuildDone p) s (State.modPool p (fun y => { y with busy := false }) s)

/-- A step runs the command at the front of the queue (R13, 01_frame_and_architecture). -/
def Obligations.StepRunsFrontCommand : Prop :=
  (∀ (c : Instr) (rest : List Instr) (s : State), step { s with pending := c :: rest } = exec c { s with pending := rest }) ∧
  (∀ s : State, s.pending = [] → ∃ t, step s = .next t ∧ t = { s with gctl := t.gctl, pwr := t.pwr } ∧
    (s.pins.porstN = false ∨ s.pins.sysrstN = false → t = s) ∧
    (s.pins.porstN = true → s.pins.sysrstN = true → s.pwr.sleep = 0 → s.gctl.slewLeft = 0 → t.gctl.time = s.gctl.time + 2) ∧
    (3 ≤ s.pwr.sleep.toNat → t.gctl = s.gctl))

/-- GCTL_ID, GCTL_FEAT and GCTL_NOC_CORR (R40, R41, R45). -/
def Obligations.IdentityRegisters : Prop :=
  ∀ s : State,
    mmioWord s 0 = 0x4B26 * 2 ^ 16 + 0xB0 * 2 ^ 8 + s.gctl.grade.toNat ∧
    mmioWord s 4 = (if s.pins.twinRole then 4 else 0) + (if s.gctl.stream then 2 else 0) + (if s.gctl.aq then 1 else 0) ∧
    (∀ init v, mmioPut init 0 v s = s ∧ mmioPut init 4 v s = s) ∧
    mmioWord s 0x20 = s.gctl.nocCorr.toNat ∧ State.reset.gctl.nocCorr = 0 ∧
    (∀ init n, mmioWord (mmioBusRead init 0x20 n s).2 0x20 = mmioWord s 0x20) ∧
    (∀ init, mmioWord (mmioPut init 0x20 0 s) 0x20 = 0) ∧
    (∀ init cls a (d : List PByte) (e : SymErr), 0 < d.length → d.length ≤ 64 → e.pos.val < 67 → e.flip ≠ 0 →
      flits init cls a 1 d [[e]] s = (d, { s with gctl := { s.gctl with nocCorr := satInc s.gctl.nocCorr } }))

/-- The latch condition holds after reset (R36, R342). -/
def Obligations.LatchHoldsAtReset : Prop :=
  LatchHolds State.reset ∧ State.reset.island.silent = false ∧ State.reset.island.mode ≠ .active ∧ State.reset.pins.faultN = false ∧
  StoresCanonical State.reset ∧ State.reset.pending = []

/-- The fail-silent latch: every step keeps it, and only PORST_N clears it (R342, R356, R619, R620). -/
def Obligations.LatchKeptByStep : Prop :=
  ∀ s t : State, LatchHolds s → step s = .next t →
    LatchHolds t ∧ (s.island.silent = true → s.pending.head? ≠ some .porstNAssert → t.island.silent = true ∧ t.island.mode = .silent ∧ t.pins.faultN = false)

/-- What a device held in reset or asleep in S4, and a block that does not answer, ignore (R340, R563, R566, R585, R619, R620). -/
def Obligations.HeldDeviceIgnoresCommands : Prop :=
  (∀ (s : State) (c : Instr), Runs s →
    (blkWrite c = true → s.blocksUp = false → CompletesReg c s s) ∧ (barWrite c = true → s.barUp = false → CompletesReg c s s)) ∧
  (∀ (s : State) (c : Instr) (m : CanNo), RunsCan s m → canWrite c = some m → m.val < 6 → s.blocksUp = false → CompletesReg c s s) ∧
  (∀ (s : State) (c : Instr), s.held = true → c.wf = true →
    c ≠ .porstNAssert → c ≠ .sysrstNAssert → (∀ b r x, c ≠ .porstNRelease b r x) → (∀ b r x, c ≠ .sysrstNRelease b r x) →
    c ≠ .peerFaultNHigh → c ≠ .peerFaultNLow → exec c s = .next s) ∧
  (∀ s : State, s.held = false → s.asleep 4 = true →
    (∀ (p : Pipe) (n : Stage), exec (.wdogExpiry p n) s = .next s) ∧ exec .heartbeat s = .next s ∧ exec .commandFetch s = .next s ∧
    (∀ q, exec (.faultRecord q) s = .next s) ∧ (∀ fp k, exec (.descriptorFetch fp k) s = .next s) ∧
    (∀ n, exec (.dmaDescriptorFetch n) s = .next s) ∧ (∀ x : NocAccess, x.wf = true → exec (.nocTransaction x) s = .next s))

/-- Every command completes, and a term no device can be given is refused (R9, R26). -/
def Obligations.EveryCommandAnswers : Prop :=
  ∀ (c : Instr) (s : State), (c.wf = true → ∃ t, exec c s = .next t) ∧ (c.wf = false → exec c s = .refused .illFormed)

/-- The symbol code corrects one symbol and reports two (R471). -/
def Obligations.SymbolCode : Prop :=
  let syn : Nat → List Byte → Byte := fun i w => gfEval (gfPow i) w
  (∀ w : List Byte, syn 0 w = 0 → syn 1 w = 0 → syn 2 w = 0 → rsDecode w = .good) ∧
  (∀ (w : List Byte) (l : Nat), w.length ≤ 68 → l < w.length → syn 0 w ≠ 0 → syn 1 w ≠ 0 → syn 2 w ≠ 0 →
    gfMul (syn 1 w) (syn 1 w) = gfMul (syn 0 w) (syn 2 w) → gfMul (syn 0 w) (gfPow l) = syn 1 w →
    rsDecode w = .corrected (w.length - 1 - l) (syn 0 w)) ∧
  (∀ w : List Byte, ¬ (syn 0 w = 0 ∧ syn 1 w = 0 ∧ syn 2 w = 0) →
    ¬ (syn 0 w ≠ 0 ∧ syn 1 w ≠ 0 ∧ syn 2 w ≠ 0 ∧ gfMul (syn 1 w) (syn 1 w) = gfMul (syn 0 w) (syn 2 w) ∧
      ∃ l, l < w.length ∧ gfMul (syn 0 w) (gfPow l) = syn 1 w) → rsDecode w = .uncorrectable) ∧
  (∀ u : List Byte, u.length ≤ 65 → rsDecode (rsEncode u) = .good ∧
    (∀ (i : Nat) (e : Byte), i < u.length + 3 → e ≠ 0 →
      rsDecode (applyErrs (rsEncode u) [(i, e)]) = .corrected i e ∧ rsCorrected (applyErrs (rsEncode u) [(i, e)]) = rsEncode u) ∧
    (∀ (i j : Nat) (e f : Byte), i < j → j < u.length + 3 → e ≠ 0 → f ≠ 0 →
      rsDecode (applyErrs (rsEncode u) [(i, e), (j, f)]) = .uncorrectable)) ∧
  (∃ (u : List Byte) (errs : List (Nat × Byte)), errs.length = 3 ∧ (∀ x ∈ errs, x.2 ≠ 0) ∧ (errs.map Prod.fst).Nodup ∧
    ∃ i e, rsDecode (applyErrs (rsEncode u) errs) = .corrected i e ∧ rsCorrected (applyErrs (rsEncode u) errs) ≠ rsEncode u) ∧
  (∃ (u : List Byte) (errs : List (Nat × Byte)), errs.length = 4 ∧ (∀ x ∈ errs, x.2 ≠ 0) ∧ (errs.map Prod.fst).Nodup ∧
    rsDecode (applyErrs (rsEncode u) errs) = .good ∧ applyErrs (rsEncode u) errs ≠ rsEncode u)

/-- Integer accumulation, and ABFT that raises no false alarm and misses no cell (R102, R113, R115, R131, R132, R134). -/
def Obligations.IntegerAbftExact : Prop :=
  ∀ (m n k : Nat) (a b : List (List (List Int))), 1 ≤ m → m ≤ 32 → 1 ≤ n → n ≤ 64 → a.length = b.length → a ≠ [] →
    (∀ q < a.length, 1 ≤ ((a.getD q []).headD []).length ∧ (a.getD q []).length = m ∧ (b.getD q []).length = n ∧
      (∀ r ∈ a.getD q [], r.length = ((a.getD q []).headD []).length ∧ ∀ x ∈ r, -128 ≤ x ∧ x ≤ 127) ∧
      (∀ c ∈ b.getD q [], c.length = ((a.getD q []).headD []).length ∧ ∀ x ∈ c, -128 ≤ x ∧ x ≤ 127)) →
    let chunk : List (List Int) × List (List Int) → Chunk := fun y =>
      { rows := y.1.map (fun r => r.map (fun x => some (Fl.ofInt x, false))), cols := y.2.map (fun c => c.map (fun x => (Fl.ofInt x, false))) }
    let acc := (a.zip b).foldl (fun acc y => gridChunk true 5 6 (chunk y) acc) (startBank {} false true m n k)
    (∀ i j, i < m → j < n → tget none acc.cells (64 * i + j) = some ⟨BitVec.ofInt 32 (((a.zip b).map (fun y =>
      (((y.1.getD i []).zip (y.2.getD j [])).map (fun z => z.1 * z.2)).sum)).sum), false⟩) ∧
    acc.failing 5 6 = (none, none) ∧
    (∀ (i : Fin 33) (j : Fin 65) (d : Word32), i.val < m → j.val < n → d ≠ 0 →
      (upsetCells [.cell i j d] acc).failing 5 6 = (some j.val, some i.val))
end

