-- ==== Sys2Proof/Laws/PerInstr.lean ====
section
/-! SUPPORT. Statements made constructor by constructor. -/

namespace Sys2Proof.Laws.Wf

/-- The decoder of the table's words never gives a command that is not well-formed. -/
def Statement (i : Instr) : Prop := ∀ nbits w, decodeTableWord nbits w = some i → i.wf = true

theorem porstNRelease (bootSrc : Bool) (twinRole : Bool) (xtal : Bool) : Statement (.porstNRelease bootSrc twinRole xtal) := fun _ _ h => nomatch h
theorem sysrstNRelease (bootSrc : Bool) (twinRole : Bool) (xtal : Bool) : Statement (.sysrstNRelease bootSrc twinRole xtal) := fun _ _ h => nomatch h
theorem memoryTrainingDone (failed : List PhysChan) : Statement (.memoryTrainingDone failed) := fun _ _ h => nomatch h
theorem fabricSelfTestDone (found : SelfTest) : Statement (.fabricSelfTestDone found) := fun _ _ h => nomatch h
theorem droopCalibrationDone (q : Quad) (ok : Bool) : Statement (.droopCalibrationDone q ok) := fun _ _ h => nomatch h
theorem pushLenDoorbell (len : Word32) : Statement (.pushLenDoorbell len) := fun _ _ h => nomatch h
theorem fclkEnable (n : Fclk) : Statement (.fclkEnable n) := fun _ _ h => nomatch h
theorem fclkDisable (n : Fclk) : Statement (.fclkDisable n) := fun _ _ h => nomatch h
theorem fclkPeriodWrite (n : Fclk) (period : Word32) : Statement (.fclkPeriodWrite n period) := fun _ _ h => nomatch h
theorem fclkEdge (n : Fclk) : Statement (.fclkEdge n) := fun _ _ h => nomatch h
theorem goldenClockEdge : Statement .goldenClockEdge := fun _ _ h => nomatch h
theorem goldenDeadline : Statement .goldenDeadline := fun _ _ h => nomatch h
theorem golden (fp : Frond) : Statement (.golden fp) := fun _ _ h => nomatch h
theorem goldenResult (fp : Frond) (pass : Bool) : Statement (.goldenResult fp pass) := fun _ _ h => nomatch h
theorem csiFrameStart (port : CsiPort) (vc : VirtChan) (ecc : Ecc) : Statement (.csiFrameStart port vc ecc) := fun _ _ h => nomatch h
theorem csiLongPacket (port : CsiPort) (vc : VirtChan) (dt : BitVec 6) (payload : List Byte) (crcOk : Bool) (ecc : Ecc) : Statement (.csiLongPacket port vc dt payload crcOk ecc) := fun _ _ h => nomatch h
theorem csiFrameEnd (port : CsiPort) (vc : VirtChan) (ecc : Ecc) : Statement (.csiFrameEnd port vc ecc) := fun _ _ h => nomatch h
theorem ingestDeadline (p : Pipe) : Statement (.ingestDeadline p) := fun _ _ h => nomatch h
theorem udpIngestPayload (port : EthPort) (dport : BitVec 16) (payload : List Byte) : Statement (.udpIngestPayload port dport payload) := fun _ _ h => nomatch h
theorem udpWindowClose (st : Stream) : Statement (.udpWindowClose st) := fun _ _ h => nomatch h
theorem hostSubmit (hi : Word32) : Statement (.hostSubmit hi) := fun _ _ h => nomatch h
theorem roiWindowWrite (st : Stream) (word : Fin 128) (value : Word32) : Statement (.roiWindowWrite st word value) := fun _ _ h => nomatch h
theorem roiCommit (st : Stream) (target : Word32) : Statement (.roiCommit st target) := fun _ _ h => nomatch h
theorem prepJobDispatch (p : Pipe) : Statement (.prepJobDispatch p) := fun _ _ h => nomatch h
theorem prepJobDone (u : PrepUnit) : Statement (.prepJobDone u) := fun _ _ h => nomatch h
theorem slotGo (fp : Frond) (k : Slot) : Statement (.slotGo fp k) := fun _ _ h => nomatch h
theorem slotAbort (fp : Frond) (k : Slot) : Statement (.slotAbort fp k) := fun _ _ h => nomatch h
theorem descriptorFetch (fp : Frond) (k : Slot) : Statement (.descriptorFetch fp k) := fun _ _ h => nomatch h
theorem descriptorComplete (fp : Frond) (k : Slot) (seq : Word32) : Statement (.descriptorComplete fp k seq) := fun _ _ h => nomatch h
theorem spanTimerExpiry (fp : Frond) (k : Slot) : Statement (.spanTimerExpiry fp k) := fun _ _ h => nomatch h
theorem matmul (fp : Frond) (k : Slot) (upset : List Upset) : Statement (.matmul fp k upset) := fun _ _ h => nomatch h
theorem convtap (fp : Frond) (k : Slot) (upset : List Upset) : Statement (.convtap fp k upset) := fun _ _ h => nomatch h
theorem attn (fp : Frond) (k : Slot) (upset : List Upset) : Statement (.attn fp k upset) := fun _ _ h => nomatch h
theorem vec (fp : Frond) (k : Slot) : Statement (.vec fp k) := fun _ _ h => nomatch h
theorem vecPload (fp : Frond) (k : Slot) : Statement (.vecPload fp k) := fun _ _ h => nomatch h
theorem pool (fp : Frond) (k : Slot) : Statement (.pool fp k) := fun _ _ h => nomatch h
theorem argmax (fp : Frond) (k : Slot) : Statement (.argmax fp k) := fun _ _ h => nomatch h
theorem loadm (fp : Frond) (k : Slot) : Statement (.loadm fp k) := fun _ _ h => nomatch h
theorem storem (fp : Frond) (k : Slot) : Statement (.storem fp k) := fun _ _ h => nomatch h
theorem move (fp : Frond) (k : Slot) : Statement (.move fp k) := fun _ _ h => nomatch h
theorem cbload (fp : Frond) (k : Slot) : Statement (.cbload fp k) := fun _ _ h => nomatch h
theorem wait (fp : Frond) (k : Slot) : Statement (.wait fp k) := fun _ _ h => nomatch h
theorem signal (fp : Frond) (k : Slot) : Statement (.signal fp k) := fun _ _ h => nomatch h
theorem optstep (fp : Frond) (k : Slot) : Statement (.optstep fp k) := fun _ _ h => nomatch h
theorem kvappend (fp : Frond) (k : Slot) : Statement (.kvappend fp k) := fun _ _ h => nomatch h
theorem sorus (fp : Frond) (k : Slot) : Statement (.sorus fp k) := fun _ _ h => nomatch h
theorem bankpwr (fp : Frond) (k : Slot) : Statement (.bankpwr fp k) := fun _ _ h => nomatch h
theorem bankFenceResolve (fp : Frond) (b : Bank) : Statement (.bankFenceResolve fp b) := fun _ _ h => nomatch h
theorem bankFenceAbandon (fp : Frond) (b : Bank) : Statement (.bankFenceAbandon fp b) := fun _ _ h => nomatch h
theorem bankTransitionDone (fp : Frond) (b : Bank) : Statement (.bankTransitionDone fp b) := fun _ _ h => nomatch h
theorem storeCorrectionWriteback (fp : Frond) : Statement (.storeCorrectionWriteback fp) := fun _ _ h => nomatch h
theorem frndEpochWrite (fp : Frond) (epoch : BitVec 12) : Statement (.frndEpochWrite fp epoch) := fun _ _ h => nomatch h
theorem frndFill (fp : Frond) (value : Word32) : Statement (.frndFill fp value) := fun _ _ h => nomatch h
theorem fillRaise (fp : Frond) (h : HandleNo) (value : BitVec 32) : Statement (.fillRaise fp h value) := fun _ _ h => nomatch h
theorem handleEntryWrite (fp : Frond) (h : HandleNo) (word : Fin 4) (value : Word32) : Statement (.handleEntryWrite fp h word value) := fun _ _ h => nomatch h
theorem nocTransaction (x : NocAccess) : Statement (.nocTransaction x) := fun _ _ h => nomatch h
theorem registerWrite (init : Initiator) (off : Nat) (width : AccessWidth) (value : Word64) : Statement (.registerWrite init off width value) := fun _ _ h => nomatch h
theorem modelRegister (tag : Nat) : Statement (.modelRegister tag) := fun _ _ h => nomatch h
theorem modelWarm (tag : Nat) : Statement (.modelWarm tag) := fun _ _ h => nomatch h
theorem modelEvict (tag : Nat) : Statement (.modelEvict tag) := fun _ _ h => nomatch h
theorem modelRetire (tag : Nat) : Statement (.modelRetire tag) := fun _ _ h => nomatch h
theorem shardLoadDone (fp : Frond) (slot : Fin 2) : Statement (.shardLoadDone fp slot) := fun _ _ h => nomatch h
theorem ctxCreate (tag : Nat) : Statement (.ctxCreate tag) := fun _ _ h => nomatch h
theorem ctxDestroy (tag : Nat) : Statement (.ctxDestroy tag) := fun _ _ h => nomatch h
theorem ctxFork (tag : Nat) : Statement (.ctxFork tag) := fun _ _ h => nomatch h
theorem ctxTrim (tag : Nat) : Statement (.ctxTrim tag) := fun _ _ h => nomatch h
theorem contextDrained (ctx : Ctx) : Statement (.contextDrained ctx) := fun _ _ h => nomatch h
theorem run (tag : Nat) : Statement (.run tag) := fun _ _ h => nomatch h
theorem runChain (tag : Nat) : Statement (.runChain tag) := fun _ _ h => nomatch h
theorem runDispatch : Statement .runDispatch := fun _ _ h => nomatch h
theorem runComplete (run : Nat) : Statement (.runComplete run) := fun _ _ h => nomatch h
theorem cancel (tag : Nat) : Statement (.cancel tag) := fun _ _ h => nomatch h
theorem kvPageResolve (fp : Frond) (k : Slot) : Statement (.kvPageResolve fp k) := fun _ _ h => nomatch h
theorem sorusWalk (fp : Frond) (k : Slot) : Statement (.sorusWalk fp k) := fun _ _ h => nomatch h
theorem kvUnpin (fp : Frond) (k : Slot) : Statement (.kvUnpin fp k) := fun _ _ h => nomatch h
theorem kvAppendCommit (fp : Frond) (k : Slot) : Statement (.kvAppendCommit fp k) := fun _ _ h => nomatch h
theorem kvpoolEnable (p : PoolNo) : Statement (.kvpoolEnable p) := fun _ _ h => nomatch h
theorem kvpoolDisable (p : PoolNo) : Statement (.kvpoolDisable p) := fun _ _ h => nomatch h
theorem kvpoolBuildDone (p : PoolNo) : Statement (.kvpoolBuildDone p) := fun _ _ h => nomatch h
theorem pipeConfig (tag : Nat) : Statement (.pipeConfig tag) := fun _ _ h => nomatch h
theorem pipeStart (tag : Nat) : Statement (.pipeStart tag) := fun _ _ h => nomatch h
theorem pipeStop (tag : Nat) : Statement (.pipeStop tag) := fun _ _ h => nomatch h
theorem roiSeed (tag : Nat) : Statement (.roiSeed tag) := fun _ _ h => nomatch h
theorem nop (tag : Nat) : Statement (.nop tag) := fun _ _ h => nomatch h
theorem identify (tag : Nat) : Statement (.identify tag) := fun _ _ h => nomatch h
theorem getStatus (tag : Nat) : Statement (.getStatus tag) := fun _ _ h => nomatch h
theorem setSleep (tag : Nat) (motion : Bool) : Statement (.setSleep tag motion) := fun _ _ h => nomatch h
theorem setPlevel (tag : Nat) : Statement (.setPlevel tag) := fun _ _ h => nomatch h
theorem attest (tag : Nat) : Statement (.attest tag) := fun _ _ h => nomatch h
theorem fwWrite (tag : Nat) : Statement (.fwWrite tag) := fun _ _ h => nomatch h
theorem fwFlashWriteDone (ok : Bool) : Statement (.fwFlashWriteDone ok) := fun _ _ h => nomatch h
theorem fuseProgram (tag : Nat) (bad : BitVec 128) : Statement (.fuseProgram tag bad) := fun _ _ h => nomatch h
theorem eventArm (tag : Nat) : Statement (.eventArm tag) := fun _ _ h => nomatch h
theorem sqTailDoorbell (n : SqNo) (value : Word32) : Statement (.sqTailDoorbell n value) := fun _ _ h => nomatch h
theorem cqHeadDoorbell (n : CqNo) (value : Word32) : Statement (.cqHeadDoorbell n value) := fun _ _ h => nomatch h
theorem evqHeadDoorbell (value : Word32) : Statement (.evqHeadDoorbell value) := fun _ _ h => nomatch h
theorem sqEnable (n : SqNo) (cfg : Word32) : Statement (.sqEnable n cfg) := fun _ _ h => nomatch h
theorem sqDisable (n : SqNo) (cfg : Word32) : Statement (.sqDisable n cfg) := fun _ _ h => nomatch h
theorem cqEnable (q : CqOrEvq) (cfg : Word32) : Statement (.cqEnable q cfg) := fun _ _ h => nomatch h
theorem cqDisable (q : CqOrEvq) (cfg : Word32) : Statement (.cqDisable q cfg) := fun _ _ h => nomatch h
theorem commandFetch : Statement .commandFetch := fun _ _ h => nomatch h
theorem completionPost (q : CqNo) : Statement (.completionPost q) := fun _ _ h => nomatch h
theorem peerCommandFrame (port : EthPort) (frame : List Byte) (src : PeerAddr) : Statement (.peerCommandFrame port frame src) := fun _ _ h => nomatch h
theorem wdogClose (p : Pipe) (stage : Stage) : Statement (.wdogClose p stage) := fun _ _ h => nomatch h
theorem wdogExpiry (p : Pipe) (stage : Stage) : Statement (.wdogExpiry p stage) := fun _ _ h => nomatch h
theorem checkComplete (p : Pipe) (plan : List (Fin 16 × List Byte)) : Statement (.checkComplete p plan) := fun _ _ h => nomatch h
theorem safeRestart (failed : List Frond) : Statement (.safeRestart failed) := fun _ _ h => nomatch h
theorem mossRunStart (p : Pipe) : Statement (.mossRunStart p) := fun _ _ h => nomatch h
theorem mossRunEnd (p : Pipe) (payloads : List (Fin 16 × List Byte)) (envelope : Option (List (Fin 16 × Fin 4 × Int × Int))) (us : Nat) : Statement (.mossRunEnd p payloads envelope us) := fun _ _ h => nomatch h
theorem mossOverrun (p : Pipe) : Statement (.mossOverrun p) := fun _ _ h => nomatch h
theorem lockstep : Statement .lockstep := fun _ _ h => nomatch h
theorem clkloss : Statement .clkloss := fun _ _ h => nomatch h
theorem heartbeat : Statement .heartbeat := fun _ _ h => nomatch h
theorem heartbeatService : Statement .heartbeatService := fun _ _ h => nomatch h
theorem vddSafUndervoltage : Statement .vddSafUndervoltage := fun _ _ h => nomatch h
theorem faultRecord (queueFull : Bool) : Statement (.faultRecord queueFull) := fun _ _ h => nomatch h
theorem canLeaveInit (m : CanNo) : Statement (.canLeaveInit m) := fun _ _ h => nomatch h
theorem canEnterInit (m : InitWrite) : Statement (.canEnterInit m) := fun _ _ h => nomatch h
theorem borec (m : CanNo) : Statement (.borec m) := fun _ _ h => nomatch h
theorem canIntegrationDone (m : CanNo) : Statement (.canIntegrationDone m) := fun _ _ h => nomatch h
theorem canRecoveryDone (m : CanNo) : Statement (.canRecoveryDone m) := fun _ _ h => nomatch h
theorem canBusError (m : CanNo) (kind : CanError) : Statement (.canBusError m kind) := fun _ _ h => nomatch h
theorem canFrameReceive (m : CanNo) (frame : CanFrame) (age : Word32) : Statement (.canFrameReceive m frame age) := fun _ _ h => nomatch h
theorem txreq (m : CanNo) (word : Fin 4) (bits : Word32) : Statement (.txreq m word bits) := fun _ _ h => nomatch h
theorem txabort (m : CanNo) (word : Fin 4) (bits : Word32) : Statement (.txabort m word bits) := fun _ _ h => nomatch h
theorem canRxGet (m : CanNo) (value : Word32) : Statement (.canRxGet m value) := fun _ _ h => nomatch h
theorem canRxcfgWrite (m : CanNo) (value : Word32) : Statement (.canRxcfgWrite m value) := fun _ _ h => nomatch h
theorem canSubmit (m : CanNo) (o : ObjNo) : Statement (.canSubmit m o) := fun _ _ h => nomatch h
theorem canArbitration (m : CanNo) : Statement (.canArbitration m) := fun _ _ h => nomatch h
theorem canTxDone (m : CanNo) (ok : Bool) : Statement (.canTxDone m ok) := fun _ _ h => nomatch h
theorem canReferenceSend (m : CanNo) : Statement (.canReferenceSend m) := fun _ _ h => nomatch h
theorem canSyncTimeout (m : CanNo) : Statement (.canSyncTimeout m) := fun _ _ h => nomatch h
theorem canTtMissed (m : CanNo) (o : ObjNo) : Statement (.canTtMissed m o) := fun _ _ h => nomatch h
theorem ethPortEnable (n : EthPort) (cfg : Word32) : Statement (.ethPortEnable n cfg) := fun _ _ h => nomatch h
theorem ethLinkUp (n : EthPort) (rate : BitVec 2) (fec : BitVec 2) : Statement (.ethLinkUp n rate fec) := fun _ _ h => nomatch h
theorem ethLinkDown (n : EthPort) : Statement (.ethLinkDown n) := fun _ _ h => nomatch h
theorem ethTxSend (n : EthPort) (ts : TxStream) (len : Word32) : Statement (.ethTxSend n ts len) := fun _ _ h => nomatch h
theorem ethTxDone (n : EthPort) (ts : TxStream) : Statement (.ethTxDone n ts) := fun _ _ h => nomatch h
theorem ethGateCommit (n : EthPort) : Statement (.ethGateCommit n) := fun _ _ h => nomatch h
theorem ethGateSwitch (n : EthPort) : Statement (.ethGateSwitch n) := fun _ _ h => nomatch h
theorem ethGateInterval (n : EthPort) : Statement (.ethGateInterval n) := fun _ _ h => nomatch h
theorem gptpMessage (n : EthPort) (msg : GptpMsg) : Statement (.gptpMessage n msg) := fun _ _ h => nomatch h
theorem gptpSyncTimeout : Statement .gptpSyncTimeout := fun _ _ h => nomatch h
theorem qpSqDoorbell (qpn : Qpn) (idx : BitVec 16) : Statement (.qpSqDoorbell qpn idx) := fun _ _ h => nomatch h
theorem qpRqDoorbell (qpn : Qpn) (idx : BitVec 16) : Statement (.qpRqDoorbell qpn idx) := fun _ _ h => nomatch h
theorem qpCqDoorbell (qpn : Qpn) (idx : BitVec 16) : Statement (.qpCqDoorbell qpn idx) := fun _ _ h => nomatch h
theorem qpLoadContext (qpn : Qpn) : Statement (.qpLoadContext qpn) := fun _ _ h => nomatch h
theorem roceWorkRequest (qpn : Qpn) : Statement (.roceWorkRequest qpn) := fun _ _ h => nomatch h
theorem rocePacket (n : EthPort) (pkt : RocePkt) : Statement (.rocePacket n pkt) := fun _ _ h => nomatch h
theorem roceAckTimeout (qpn : Qpn) : Statement (.roceAckTimeout qpn) := fun _ _ h => nomatch h
theorem roceRateRecovery (qpn : Qpn) : Statement (.roceRateRecovery qpn) := fun _ _ h => nomatch h
theorem bar2Access (off : Nat) (acc : BusAcc) : Statement (.bar2Access off acc) := fun _ _ h => nomatch h
theorem pcieCompletion (tag : Nat) (kind : CplKind) : Statement (.pcieCompletion tag kind) := fun _ _ h => nomatch h
theorem pcieCompletionTimeout (tag : Nat) : Statement (.pcieCompletionTimeout tag) := fun _ _ h => nomatch h
theorem pcieLinkReset : Statement .pcieLinkReset := fun _ _ h => nomatch h
theorem dmaGo (n : DmaChan) : Statement (.dmaGo n) := fun _ _ h => nomatch h
theorem dmaAbort (n : DmaChan) : Statement (.dmaAbort n) := fun _ _ h => nomatch h
theorem dmaResume (n : DmaChan) : Statement (.dmaResume n) := fun _ _ h => nomatch h
theorem dmaDescriptorFetch (n : DmaChan) : Statement (.dmaDescriptorFetch n) := fun _ _ h => nomatch h
theorem dmaDescriptorComplete (n : DmaChan) : Statement (.dmaDescriptorComplete n) := fun _ _ h => nomatch h
theorem dmaBusError (n : DmaChan) (write : Bool) (addr : Addr) : Statement (.dmaBusError n write addr) := fun _ _ h => nomatch h
theorem dmaRetry (n : DmaChan) (ok : Bool) : Statement (.dmaRetry n ok) := fun _ _ h => nomatch h
theorem memRead (init : Initiator) (cls : Fin 4) (addr : Addr) (errs : LineErrs) : Statement (.memRead init cls addr errs) := fun _ _ h => nomatch h
theorem memWrite (init : Initiator) (cls : Fin 4) (addr : Addr) (data : List Byte) (poison : Bool) (errs : LineErrs) : Statement (.memWrite init cls addr data poison errs) := fun _ _ h => nomatch h
theorem memChannelRetrain (pch : PhysChan) (ok : Bool) : Statement (.memChannelRetrain pch ok) := fun _ _ h => nomatch h
theorem sparePoisonFillDone (lch : LogChan) : Statement (.sparePoisonFillDone lch) := fun _ _ h => nomatch h
theorem scrubStep (errs : List (LogChan × List SymErr)) : Statement (.scrubStep errs) := fun _ _ h => nomatch h
theorem rowSpareDone (pch : PhysChan) (row : RowCopy) : Statement (.rowSpareDone pch row) := fun _ _ h => nomatch h
theorem migrateRequest (value : Word32) : Statement (.migrateRequest value) := fun _ _ h => nomatch h
theorem migrationBlockCopy (g : GroupCopy) : Statement (.migrationBlockCopy g) := fun _ _ h => nomatch h
theorem tokenPeriod (g : Group) : Statement (.tokenPeriod g) := fun _ _ h => nomatch h
theorem twinLinkUp (spared : BitVec 3) : Statement (.twinLinkUp spared) := fun _ _ h => nomatch h
theorem twinLaneLoss (lanes : BitVec 5) : Statement (.twinLaneLoss lanes) := fun _ _ h => nomatch h
theorem twinTrainRetry (ok : Bool) (spared : BitVec 3) : Statement (.twinTrainRetry ok spared) := fun _ _ h => nomatch h
theorem heartbeatSend : Statement .heartbeatSend := fun _ _ h => nomatch h
theorem heartbeatReceive (hb : PeerHeartbeat) : Statement (.heartbeatReceive hb) := fun _ _ h => nomatch h
theorem heartbeatLoss : Statement .heartbeatLoss := fun _ _ h => nomatch h
theorem digestComputeDone (p : Pipe) : Statement (.digestComputeDone p) := fun _ _ h => nomatch h
theorem digestResend (p : Pipe) : Statement (.digestResend p) := fun _ _ h => nomatch h
theorem digestReceive (p : Pipe) (frame : Word32) (roiAge : BitVec 8) (corrupt : BitVec 8) (digest : BitVec 256) (good : Bool) : Statement (.digestReceive p frame roiAge corrupt digest good) := fun _ _ h => nomatch h
theorem digwaitExpiry (p : Pipe) : Statement (.digwaitExpiry p) := fun _ _ h => nomatch h
theorem peerFaultNHigh : Statement .peerFaultNHigh := fun _ _ h => nomatch h
theorem peerFaultNLow : Statement .peerFaultNLow := fun _ _ h => nomatch h
theorem takeoverWaitExpiry : Statement .takeoverWaitExpiry := fun _ _ h => nomatch h
theorem peerKill : Statement .peerKill := fun _ _ h => nomatch h
theorem pmicWriteDone (ack : Bool) : Statement (.pmicWriteDone ack) := fun _ _ h => nomatch h
theorem pmicRetry (ack : Bool) : Statement (.pmicRetry ack) := fun _ _ h => nomatch h
theorem pmicSettleExpiry : Statement .pmicSettleExpiry := fun _ _ h => nomatch h
theorem pllLock (q : Quad) (b : Bool) : Statement (.pllLock q b) := fun _ _ h => nomatch h
theorem pllLockLost (q : Quad) : Statement (.pllLockLost q) := fun _ _ h => nomatch h
theorem pllRelockRetry (q : Quad) (b : Bool) (ok : Bool) : Statement (.pllRelockRetry q b ok) := fun _ _ h => nomatch h
theorem domainClockLoss (d : ClockDomain) : Statement (.domainClockLoss d) := fun _ _ h => nomatch h
theorem mcgClockWaitExpiry (g : Group) : Statement (.mcgClockWaitExpiry g) := fun _ _ h => nomatch h
theorem thermalForceStep (q : Quad) (temp : BitVec 16) : Statement (.thermalForceStep q temp) := fun _ _ h => nomatch h
theorem thermalLiftStep (q : Quad) (temp : BitVec 16) : Statement (.thermalLiftStep q temp) := fun _ _ h => nomatch h
theorem droopDetect (q : Quad) (fcycles : Nat) : Statement (.droopDetect q fcycles) := fun _ _ h => nomatch h
theorem droopRecover (q : Quad) : Statement (.droopRecover q) := fun _ _ h => nomatch h
theorem sleepEntryComplete : Statement .sleepEntryComplete := fun _ _ h => nomatch h
theorem vehMotionRise : Statement .vehMotionRise := fun _ _ h => nomatch h
theorem wakeNLow : Statement .wakeNLow := fun _ _ h => nomatch h
theorem wakeTimerExpiry : Statement .wakeTimerExpiry := fun _ _ h => nomatch h
theorem sleepExitComplete : Statement .sleepExitComplete := fun _ _ h => nomatch h
theorem padHoldRelease (init : Initiator) (value : Word32) : Statement (.padHoldRelease init value) := fun _ _ h => nomatch h
theorem unlock : Statement .unlock := fun _ _ h => nomatch h
theorem rhizomeLockstepMismatch : Statement .rhizomeLockstepMismatch := fun _ _ h => nomatch h
theorem domainClockReturn (d : ClockDomain) : Statement (.domainClockReturn d) := fun _ _ h => nomatch h
theorem pcieLinkUp (width : BitVec 4) (speed : BitVec 3) : Statement (.pcieLinkUp width speed) := fun _ _ h => nomatch h
theorem twinImageRequest : Statement .twinImageRequest := fun _ _ h => nomatch h
theorem twinImageReceived (image : List Byte) : Statement (.twinImageReceived image) := fun _ _ h => nomatch h
theorem arpRequest (n : EthPort) (ipv6 : Bool) (target : BitVec 128) (sender : BitVec 128) (senderMac : BitVec 48) : Statement (.arpRequest n ipv6 target sender senderMac) := fun _ _ h => nomatch h
theorem ethRxDiscard (n : EthPort) (reason : RxDiscard) : Statement (.ethRxDiscard n reason) := fun _ _ h => nomatch h
theorem gptpSyncInterval (n : EthPort) : Statement (.gptpSyncInterval n) := fun _ _ h => nomatch h
theorem imuTransfer (ok : Bool) (sample : List Byte) : Statement (.imuTransfer ok sample) := fun _ _ h => nomatch h
theorem epochInvalidationDone (fp : Frond) : Statement (.epochInvalidationDone fp) := fun _ _ h => nomatch h
theorem postingRepeat : Statement .postingRepeat := fun _ _ h => nomatch h
theorem porstNAssert : Statement .porstNAssert := fun _ _ h => nomatch h
theorem sysrstNAssert : Statement .sysrstNAssert := fun _ _ h => nomatch h
theorem vddSafRestored : Statement .vddSafRestored := fun _ _ h => nomatch h

end Sys2Proof.Laws.Wf
end

