-- ==== Sys2Proof/Laws/Table.lean ====
section
/-! SUPPORT. The laws of the sparse tables: read after write, the canonical form, and runs of bytes. -/

namespace Sys2Proof.Machine

/-! ### Read after write -/

theorem tget_tdel_self {α : Type} (d : α) (t : Tab α) (i : Nat) : tget d (tdel i t) i = d := by
  induction t with
  | nil => rfl
  | cons e t ih =>
    obtain ⟨k, w⟩ := e
    simp only [tdel]
    split
    · exact ih
    · next h => simpa [tget, h] using ih

theorem tget_tdel_ne {α : Type} (d : α) (t : Tab α) (i j : Nat) (h : j ≠ i) : tget d (tdel i t) j = tget d t j := by
  induction t with
  | nil => rfl
  | cons e t ih =>
    obtain ⟨k, w⟩ := e
    simp only [tdel]
    split
    · next hk => rw [ih]; simp [tget, hk, Ne.symm h]
    · simp [tget, ih]

theorem tget_tins_self {α : Type} (d : α) (t : Tab α) (i : Nat) (v : α) : tget d (tins i v (tdel i t)) i = v := by
  induction t with
  | nil => simp [tdel, tins, tget]
  | cons e t ih =>
    obtain ⟨k, w⟩ := e
    simp only [tdel]
    split
    · exact ih
    · next h =>
      simp only [tins]
      split
      · simp [tget]
      · simpa [tget, h] using ih

theorem tget_tins_ne {α : Type} (d : α) (t : Tab α) (i j : Nat) (v : α) (h : j ≠ i) : tget d (tins i v t) j = tget d t j := by
  induction t with
  | nil => simp [tins, tget, Ne.symm h]
  | cons e t ih =>
    obtain ⟨k, w⟩ := e
    simp only [tins]
    split
    · simp [tget, Ne.symm h]
    · simp [tget, ih]

/-- A read of the key just written gives the value. -/
@[simp] theorem tget_tset_self {α : Type} [DecidableEq α] (d : α) (t : Tab α) (i : Nat) (v : α) : tget d (tset d t i v) i = v := by
  unfold tset
  split
  · next h => rw [tget_tdel_self, h]
  · exact tget_tins_self d t i v

/-- A write leaves every other key alone. -/
@[simp] theorem tget_tset_ne {α : Type} [DecidableEq α] (d : α) (t : Tab α) (i j : Nat) (v : α) (h : j ≠ i) :
    tget d (tset d t i v) j = tget d t j := by
  unfold tset
  split
  · exact tget_tdel_ne d t i j h
  · rw [tget_tins_ne d _ i j v h, tget_tdel_ne d t i j h]

/-- The same where the other key has a default of its own. -/
theorem tget_tset_ne_of {α : Type} [DecidableEq α] (c d : α) (t : Tab α) (i j : Nat) (v : α) (h : j ≠ i) :
    tget c (tset d t i v) j = tget c t j := by
  unfold tset
  split
  · exact tget_tdel_ne c t i j h
  · rw [tget_tins_ne c _ i j v h, tget_tdel_ne c t i j h]

theorem tget_tset {α : Type} [DecidableEq α] (d : α) (t : Tab α) (i j : Nat) (v : α) :
    tget d (tset d t i v) j = if j = i then v else tget d t j := by
  split
  · next h => rw [h, tget_tset_self]
  · next h => rw [tget_tset_ne _ _ _ _ _ h]

/-! ### The canonical form -/

theorem risingFrom_mono {α : Type} {b c : Nat} (h : c ≤ b) : ∀ {t : Tab α}, risingFrom b t = true → risingFrom c t = true
  | [], _ => rfl
  | (k, _) :: t, H => by
    simp only [risingFrom, Bool.and_eq_true, decide_eq_true_eq] at H ⊢
    exact ⟨Nat.le_trans h H.1, H.2⟩

theorem risingFrom_tdel {α : Type} (i : Nat) : ∀ (b : Nat) (t : Tab α), risingFrom b t = true → risingFrom b (tdel i t) = true
  | _, [], _ => rfl
  | b, (k, w) :: t, H => by
    simp only [risingFrom, Bool.and_eq_true, decide_eq_true_eq] at H
    simp only [tdel]
    split
    · exact risingFrom_mono (Nat.le_succ_of_le H.1) (risingFrom_tdel i (k + 1) t H.2)
    · simp only [risingFrom, Bool.and_eq_true, decide_eq_true_eq]
      exact ⟨H.1, risingFrom_tdel i (k + 1) t H.2⟩

theorem tdel_keys_ne {α : Type} (i : Nat) : ∀ (t : Tab α), ∀ e ∈ tdel i t, e.1 ≠ i
  | [], _, h => by simp [tdel] at h
  | (k, w) :: t, e, h => by
    simp only [tdel] at h
    split at h
    · exact tdel_keys_ne i t e h
    · next hk =>
      rcases List.mem_cons.1 h with rfl | h
      · exact hk
      · exact tdel_keys_ne i t e h

theorem risingFrom_tins {α : Type} (i : Nat) (v : α) : ∀ (b : Nat) (t : Tab α), b ≤ i → risingFrom b t = true → (∀ e ∈ t, e.1 ≠ i) →
    risingFrom b (tins i v t) = true
  | b, [], hb, _, _ => by simp [tins, risingFrom, hb]
  | b, (k, w) :: t, hb, H, hne => by
    simp only [risingFrom, Bool.and_eq_true, decide_eq_true_eq] at H
    simp only [tins]
    split
    · next h =>
      simp only [risingFrom, Bool.and_eq_true, decide_eq_true_eq]
      exact ⟨hb, h, H.2⟩
    · next h =>
      have hk : k ≠ i := hne (k, w) (List.mem_cons_self ..)
      simp only [risingFrom, Bool.and_eq_true, decide_eq_true_eq]
      exact ⟨H.1, risingFrom_tins i v (k + 1) t (by omega) H.2 (fun e he => hne e (List.mem_cons_of_mem _ he))⟩

theorem mem_tdel {α : Type} (i : Nat) : ∀ (t : Tab α), ∀ e ∈ tdel i t, e ∈ t
  | [], _, h => by simp [tdel] at h
  | (k, w) :: t, e, h => by
    simp only [tdel] at h
    split at h
    · exact List.mem_cons_of_mem _ (mem_tdel i t e h)
    · rcases List.mem_cons.1 h with rfl | h
      · exact List.mem_cons_self ..
      · exact List.mem_cons_of_mem _ (mem_tdel i t e h)

theorem mem_tins {α : Type} (i : Nat) (v : α) : ∀ (t : Tab α), ∀ e ∈ tins i v t, e = (i, v) ∨ e ∈ t
  | [], e, h => by simp [tins] at h; exact .inl h
  | (k, w) :: t, e, h => by
    simp only [tins] at h
    split at h
    · rcases List.mem_cons.1 h with rfl | h
      · exact .inl rfl
      · exact .inr h
    · rcases List.mem_cons.1 h with rfl | h
      · exact .inr (List.mem_cons_self ..)
      · rcases mem_tins i v t e h with h | h
        · exact .inl h
        · exact .inr (List.mem_cons_of_mem _ h)

@[simp] theorem canonical_nil {α : Type} [DecidableEq α] (d : α) : Tab.canonical d ([] : Tab α) = true := rfl

/-- A write keeps the canonical form. -/
theorem canonical_tset {α : Type} [DecidableEq α] (d : α) (t : Tab α) (i : Nat) (v : α) (h : Tab.canonical d t = true) :
    Tab.canonical d (tset d t i v) = true := by
  simp only [Tab.canonical, Bool.and_eq_true, List.all_eq_true, decide_eq_true_eq] at h ⊢
  unfold tset
  split
  · exact ⟨risingFrom_tdel i 0 t h.1, fun e he => h.2 e (mem_tdel i t e he)⟩
  · next hv =>
    refine ⟨risingFrom_tins i v 0 _ (Nat.zero_le _) (risingFrom_tdel i 0 t h.1) (tdel_keys_ne i t), fun e he => ?_⟩
    rcases mem_tins i v _ e he with rfl | he
    · exact hv
    · exact h.2 e (mem_tdel i t e he)

theorem canonical_twriteN {α : Type} [DecidableEq α] (d : α) (l : List α) : ∀ (t : Tab α) (a : Nat), Tab.canonical d t = true →
    Tab.canonical d (twriteN d t a l) = true := by
  induction l with
  | nil => intro t a h; exact h
  | cons v vs ih => intro t a h; exact ih _ _ (canonical_tset d t a v h)

theorem canonical_filter {α : Type} [DecidableEq α] (d : α) (p : Nat × α → Bool) (t : Tab α) (h : Tab.canonical d t = true) :
    Tab.canonical d (t.filter p) = true := by
  simp only [Tab.canonical, Bool.and_eq_true, List.all_eq_true, decide_eq_true_eq] at h ⊢
  refine ⟨?_, fun e he => h.2 e (List.mem_filter.1 he).1⟩
  have key : ∀ (b : Nat) (t : Tab α), risingFrom b t = true → risingFrom b (t.filter p) = true := by
    intro b t
    induction t generalizing b with
    | nil => intro _; rfl
    | cons e t ih =>
      obtain ⟨k, w⟩ := e
      intro H
      simp only [risingFrom, Bool.and_eq_true, decide_eq_true_eq] at H
      simp only [List.filter_cons]
      split
      · simp only [risingFrom, Bool.and_eq_true, decide_eq_true_eq]
        exact ⟨H.1, ih _ H.2⟩
      · exact risingFrom_mono (Nat.le_succ_of_le H.1) (ih _ H.2)
  exact key 0 t h.1

/-! ### Runs of values -/

@[simp] theorem treadN_length {α : Type} (d : α) (t : Tab α) : ∀ (n a : Nat), (treadN d t a n).length = n
  | 0, _ => rfl
  | n + 1, a => by simp [treadN, treadN_length d t n (a + 1)]

/-- A run read is the values of its keys. -/
theorem treadN_congr {α : Type} (d : α) (t u : Tab α) : ∀ (n a : Nat), (∀ b, a ≤ b → b < a + n → tget d t b = tget d u b) →
    treadN d t a n = treadN d u a n
  | 0, _, _ => rfl
  | n + 1, a, h => by
    simp only [treadN]
    rw [h a (Nat.le_refl a) (by omega), treadN_congr d t u n (a + 1) (fun b h1 h2 => h b (by omega) (by omega))]

/-- A run written leaves every key outside it alone. -/
theorem tget_twriteN_out {α : Type} [DecidableEq α] (d : α) (l : List α) : ∀ (t : Tab α) (a b : Nat), b < a ∨ a + l.length ≤ b →
    tget d (twriteN d t a l) b = tget d t b := by
  induction l with
  | nil => intro t a b _; rfl
  | cons v vs ih =>
    intro t a b h
    simp only [List.length_cons] at h
    simp only [twriteN]
    rw [ih _ _ _ (by omega), tget_tset_ne _ _ _ _ _ (by omega)]

/-- A run written reads back. -/
@[simp] theorem treadN_twriteN {α : Type} [DecidableEq α] (d : α) (l : List α) : ∀ (t : Tab α) (a : Nat),
    treadN d (twriteN d t a l) a l.length = l := by
  induction l with
  | nil => intro t a; rfl
  | cons v vs ih =>
    intro t a
    simp only [twriteN, List.length_cons, treadN]
    rw [tget_twriteN_out d vs _ (a + 1) a (by omega), tget_tset_self, ih]

/-- Inside a run written, key a + i holds value i. -/
theorem tget_twriteN_in {α : Type} [DecidableEq α] (d : α) (l : List α) : ∀ (t : Tab α) (a i : Nat) (h : i < l.length),
    tget d (twriteN d t a l) (a + i) = l[i] := by
  induction l with
  | nil => intro t a i h; simp at h
  | cons v vs ih =>
    intro t a i h
    simp only [twriteN]
    cases i with
    | zero => rw [tget_twriteN_out d vs _ (a + 1) (a + 0) (by omega)]; simp
    | succ i =>
      have := ih (tset d t a v) (a + 1) i (by simpa using h)
      rw [show a + (i + 1) = a + 1 + i by omega, this]
      simp

/-! ### Memory -/

/-- Reset's byte stores list nothing. -/
theorem reset_memory_wf : Memory.wf State.reset.mem.bytes = true ∧ Memory.wf State.reset.hostMem = true ∧
    Memory.wf State.reset.cmdq.sram = true := ⟨rfl, rfl, rfl⟩

/-- Putting bytes into main memory keeps the canonical form. -/
theorem putMem_wf (a : Nat) (d : List Byte) (s : State) (h : Memory.wf s.mem.bytes = true) : Memory.wf (putMem a d s).mem.bytes = true :=
  canonical_twriteN 0 d _ a h

/-- A transfer that succeeds leaves the bytes as they are. -/
@[simp] theorem transferOk_bytes (a : Nat) (s : State) : (transferOk a s).mem.bytes = s.mem.bytes := by
  unfold transferOk; split <;> rfl

/-- A line written keeps it. -/
theorem writeLine_wf (a : Nat) (d : List PByte) (i : Nat) (s : State) (h : Memory.wf s.mem.bytes = true) :
    Memory.wf (writeLine a d i s).mem.bytes = true :=
  canonical_twriteN 0 _ _ _ ((transferOk_bytes (i * 64) s).symm ▸ h)

/-- A write of main memory keeps it. -/
theorem memWrite_wf (a : Nat) (d : List PByte) (s : State) (h : Memory.wf s.mem.bytes = true) :
    Memory.wf (memWrite a d s).mem.bytes = true := by
  unfold memWrite
  generalize linesOf a d.length = l
  induction l generalizing s with
  | nil => exact h
  | cons i l ih => exact ih _ (writeLine_wf a d i s h)

/-- A write of host memory keeps it. -/
theorem putHost_wf (a : Nat) (d : List Byte) (s : State) (h : Memory.wf s.hostMem = true) : Memory.wf (putHost a d s).hostMem = true :=
  canonical_twriteN 0 d _ a h

/-- A write of the queue SRAM keeps it. -/
theorem putSram_wf (o : Nat) (d : List Byte) (s : State) (h : Memory.wf s.cmdq.sram = true) : Memory.wf (putSram o d s).cmdq.sram = true :=
  canonical_twriteN 0 d _ o h

/-- The counters of a word read leave the store as it is. -/
@[simp] theorem noteWord_store (w : Nat) (r : FrondRec) : (noteWord w r).store = r.store := by
  unfold noteWord
  split
  · rfl
  · rfl
  · split <;> rfl

/-- A word put into a Frond store keeps it. -/
theorem setWord_wf (w : Nat) (d : List Byte) (p : Bool) (r : FrondRec) (h : Memory.wf r.store = true) :
    Memory.wf (setWord w d p r).store = true := canonical_twriteN 0 _ _ _ h

/-- A write that lies in one word of a Frond store keeps it. -/
theorem writeWord_wf (a : Nat) (d : List PByte) (w : Nat) (r : FrondRec) (h : Memory.wf r.store = true) :
    Memory.wf (writeWord a d w r).store = true := by
  unfold writeWord
  simp only []
  generalize (d.drop (w * 32 - a)).take (if w * 32 ≤ a then 32 - a % 32 else 32) = part
  split
  · exact setWord_wf _ _ _ _ h
  · exact setWord_wf _ _ _ _ (by rw [noteWord_store]; exact h)

/-- A write of a Frond store keeps it. -/
theorem storeWrite_wf (a : Nat) (d : List PByte) (r : FrondRec) (h : Memory.wf r.store = true) : Memory.wf (storeWrite a d r).store = true := by
  unfold storeWrite
  generalize wordsOf a d.length = l
  induction l generalizing r with
  | nil => exact h
  | cons i l ih => exact ih _ (writeWord_wf a d i r h)

end Sys2Proof.Machine
end

