-- ==== Sys2Proof/Laws/State.lean ====
section
/-! SUPPORT. What each named update of State leaves alone, field by field, and what it puts where. -/

namespace Sys2Proof.Machine

section
variable (s : State)

@[simp] theorem State.modFclk_pins (n : Nat) (g : FclkRec → FclkRec) : (State.modFclk n g s).pins = s.pins := rfl
@[simp] theorem State.modFclk_gctl (n : Nat) (g : FclkRec → FclkRec) : (State.modFclk n g s).gctl = s.gctl := rfl
@[simp] theorem State.modFclk_sched (n : Nat) (g : FclkRec → FclkRec) : (State.modFclk n g s).sched = s.sched := rfl
@[simp] theorem State.modFclk_fronds (n : Nat) (g : FclkRec → FclkRec) : (State.modFclk n g s).fronds = s.fronds := rfl
@[simp] theorem State.modFclk_island (n : Nat) (g : FclkRec → FclkRec) : (State.modFclk n g s).island = s.island := rfl
@[simp] theorem State.modFclk_thal (n : Nat) (g : FclkRec → FclkRec) : (State.modFclk n g s).thal = s.thal := rfl
@[simp] theorem State.modFclk_can (n : Nat) (g : FclkRec → FclkRec) : (State.modFclk n g s).can = s.can := rfl
@[simp] theorem State.modFclk_cmdq (n : Nat) (g : FclkRec → FclkRec) : (State.modFclk n g s).cmdq = s.cmdq := rfl
@[simp] theorem State.modFclk_dma (n : Nat) (g : FclkRec → FclkRec) : (State.modFclk n g s).dma = s.dma := rfl
@[simp] theorem State.modFclk_mem (n : Nat) (g : FclkRec → FclkRec) : (State.modFclk n g s).mem = s.mem := rfl
@[simp] theorem State.modFclk_twin (n : Nat) (g : FclkRec → FclkRec) : (State.modFclk n g s).twin = s.twin := rfl
@[simp] theorem State.modFclk_eth (n : Nat) (g : FclkRec → FclkRec) : (State.modFclk n g s).eth = s.eth := rfl
@[simp] theorem State.modFclk_pwr (n : Nat) (g : FclkRec → FclkRec) : (State.modFclk n g s).pwr = s.pwr := rfl
@[simp] theorem State.modFclk_sec (n : Nat) (g : FclkRec → FclkRec) : (State.modFclk n g s).sec = s.sec := rfl
@[simp] theorem State.modFclk_hostMem (n : Nat) (g : FclkRec → FclkRec) : (State.modFclk n g s).hostMem = s.hostMem := rfl
@[simp] theorem State.modFclk_out (n : Nat) (g : FclkRec → FclkRec) : (State.modFclk n g s).out = s.out := rfl
@[simp] theorem State.modFclk_freeCtr (n : Nat) (g : FclkRec → FclkRec) : (State.modFclk n g s).freeCtr = s.freeCtr := rfl
@[simp] theorem State.modFclk_pending (n : Nat) (g : FclkRec → FclkRec) : (State.modFclk n g s).pending = s.pending := rfl

@[simp] theorem State.modLedger_pins (p : Nat) (k : Word32) (g : Ledger → Ledger) : (State.modLedger p k g s).pins = s.pins := rfl
@[simp] theorem State.modLedger_gctl (p : Nat) (k : Word32) (g : Ledger → Ledger) : (State.modLedger p k g s).gctl = s.gctl := rfl
@[simp] theorem State.modLedger_sched (p : Nat) (k : Word32) (g : Ledger → Ledger) : (State.modLedger p k g s).sched = s.sched := rfl
@[simp] theorem State.modLedger_fronds (p : Nat) (k : Word32) (g : Ledger → Ledger) : (State.modLedger p k g s).fronds = s.fronds := rfl
@[simp] theorem State.modLedger_island (p : Nat) (k : Word32) (g : Ledger → Ledger) : (State.modLedger p k g s).island = s.island := rfl
@[simp] theorem State.modLedger_thal (p : Nat) (k : Word32) (g : Ledger → Ledger) : (State.modLedger p k g s).thal = s.thal := rfl
@[simp] theorem State.modLedger_can (p : Nat) (k : Word32) (g : Ledger → Ledger) : (State.modLedger p k g s).can = s.can := rfl
@[simp] theorem State.modLedger_cmdq (p : Nat) (k : Word32) (g : Ledger → Ledger) : (State.modLedger p k g s).cmdq = s.cmdq := rfl
@[simp] theorem State.modLedger_dma (p : Nat) (k : Word32) (g : Ledger → Ledger) : (State.modLedger p k g s).dma = s.dma := rfl
@[simp] theorem State.modLedger_mem (p : Nat) (k : Word32) (g : Ledger → Ledger) : (State.modLedger p k g s).mem = s.mem := rfl
@[simp] theorem State.modLedger_twin (p : Nat) (k : Word32) (g : Ledger → Ledger) : (State.modLedger p k g s).twin = s.twin := rfl
@[simp] theorem State.modLedger_eth (p : Nat) (k : Word32) (g : Ledger → Ledger) : (State.modLedger p k g s).eth = s.eth := rfl
@[simp] theorem State.modLedger_pwr (p : Nat) (k : Word32) (g : Ledger → Ledger) : (State.modLedger p k g s).pwr = s.pwr := rfl
@[simp] theorem State.modLedger_sec (p : Nat) (k : Word32) (g : Ledger → Ledger) : (State.modLedger p k g s).sec = s.sec := rfl
@[simp] theorem State.modLedger_hostMem (p : Nat) (k : Word32) (g : Ledger → Ledger) : (State.modLedger p k g s).hostMem = s.hostMem := rfl
@[simp] theorem State.modLedger_out (p : Nat) (k : Word32) (g : Ledger → Ledger) : (State.modLedger p k g s).out = s.out := rfl
@[simp] theorem State.modLedger_freeCtr (p : Nat) (k : Word32) (g : Ledger → Ledger) : (State.modLedger p k g s).freeCtr = s.freeCtr := rfl
@[simp] theorem State.modLedger_pending (p : Nat) (k : Word32) (g : Ledger → Ledger) : (State.modLedger p k g s).pending = s.pending := rfl

@[simp] theorem State.modPipe_pins (p : Nat) (g : PipeRec → PipeRec) : (State.modPipe p g s).pins = s.pins := rfl
@[simp] theorem State.modPipe_gctl (p : Nat) (g : PipeRec → PipeRec) : (State.modPipe p g s).gctl = s.gctl := rfl
@[simp] theorem State.modPipe_sched (p : Nat) (g : PipeRec → PipeRec) : (State.modPipe p g s).sched = s.sched := rfl
@[simp] theorem State.modPipe_fronds (p : Nat) (g : PipeRec → PipeRec) : (State.modPipe p g s).fronds = s.fronds := rfl
@[simp] theorem State.modPipe_island (p : Nat) (g : PipeRec → PipeRec) : (State.modPipe p g s).island = s.island := rfl
@[simp] theorem State.modPipe_thal (p : Nat) (g : PipeRec → PipeRec) : (State.modPipe p g s).thal = s.thal := rfl
@[simp] theorem State.modPipe_can (p : Nat) (g : PipeRec → PipeRec) : (State.modPipe p g s).can = s.can := rfl
@[simp] theorem State.modPipe_cmdq (p : Nat) (g : PipeRec → PipeRec) : (State.modPipe p g s).cmdq = s.cmdq := rfl
@[simp] theorem State.modPipe_dma (p : Nat) (g : PipeRec → PipeRec) : (State.modPipe p g s).dma = s.dma := rfl
@[simp] theorem State.modPipe_mem (p : Nat) (g : PipeRec → PipeRec) : (State.modPipe p g s).mem = s.mem := rfl
@[simp] theorem State.modPipe_twin (p : Nat) (g : PipeRec → PipeRec) : (State.modPipe p g s).twin = s.twin := rfl
@[simp] theorem State.modPipe_eth (p : Nat) (g : PipeRec → PipeRec) : (State.modPipe p g s).eth = s.eth := rfl
@[simp] theorem State.modPipe_pwr (p : Nat) (g : PipeRec → PipeRec) : (State.modPipe p g s).pwr = s.pwr := rfl
@[simp] theorem State.modPipe_sec (p : Nat) (g : PipeRec → PipeRec) : (State.modPipe p g s).sec = s.sec := rfl
@[simp] theorem State.modPipe_hostMem (p : Nat) (g : PipeRec → PipeRec) : (State.modPipe p g s).hostMem = s.hostMem := rfl
@[simp] theorem State.modPipe_out (p : Nat) (g : PipeRec → PipeRec) : (State.modPipe p g s).out = s.out := rfl
@[simp] theorem State.modPipe_freeCtr (p : Nat) (g : PipeRec → PipeRec) : (State.modPipe p g s).freeCtr = s.freeCtr := rfl
@[simp] theorem State.modPipe_pending (p : Nat) (g : PipeRec → PipeRec) : (State.modPipe p g s).pending = s.pending := rfl

@[simp] theorem State.modStream_pins (i : Nat) (g : StreamRec → StreamRec) : (State.modStream i g s).pins = s.pins := rfl
@[simp] theorem State.modStream_gctl (i : Nat) (g : StreamRec → StreamRec) : (State.modStream i g s).gctl = s.gctl := rfl
@[simp] theorem State.modStream_sched (i : Nat) (g : StreamRec → StreamRec) : (State.modStream i g s).sched = s.sched := rfl
@[simp] theorem State.modStream_fronds (i : Nat) (g : StreamRec → StreamRec) : (State.modStream i g s).fronds = s.fronds := rfl
@[simp] theorem State.modStream_island (i : Nat) (g : StreamRec → StreamRec) : (State.modStream i g s).island = s.island := rfl
@[simp] theorem State.modStream_thal (i : Nat) (g : StreamRec → StreamRec) : (State.modStream i g s).thal = s.thal := rfl
@[simp] theorem State.modStream_can (i : Nat) (g : StreamRec → StreamRec) : (State.modStream i g s).can = s.can := rfl
@[simp] theorem State.modStream_cmdq (i : Nat) (g : StreamRec → StreamRec) : (State.modStream i g s).cmdq = s.cmdq := rfl
@[simp] theorem State.modStream_dma (i : Nat) (g : StreamRec → StreamRec) : (State.modStream i g s).dma = s.dma := rfl
@[simp] theorem State.modStream_mem (i : Nat) (g : StreamRec → StreamRec) : (State.modStream i g s).mem = s.mem := rfl
@[simp] theorem State.modStream_twin (i : Nat) (g : StreamRec → StreamRec) : (State.modStream i g s).twin = s.twin := rfl
@[simp] theorem State.modStream_eth (i : Nat) (g : StreamRec → StreamRec) : (State.modStream i g s).eth = s.eth := rfl
@[simp] theorem State.modStream_pwr (i : Nat) (g : StreamRec → StreamRec) : (State.modStream i g s).pwr = s.pwr := rfl
@[simp] theorem State.modStream_sec (i : Nat) (g : StreamRec → StreamRec) : (State.modStream i g s).sec = s.sec := rfl
@[simp] theorem State.modStream_hostMem (i : Nat) (g : StreamRec → StreamRec) : (State.modStream i g s).hostMem = s.hostMem := rfl
@[simp] theorem State.modStream_out (i : Nat) (g : StreamRec → StreamRec) : (State.modStream i g s).out = s.out := rfl
@[simp] theorem State.modStream_freeCtr (i : Nat) (g : StreamRec → StreamRec) : (State.modStream i g s).freeCtr = s.freeCtr := rfl
@[simp] theorem State.modStream_pending (i : Nat) (g : StreamRec → StreamRec) : (State.modStream i g s).pending = s.pending := rfl

@[simp] theorem State.modCsi_pins (n : Nat) (g : CsiRec → CsiRec) : (State.modCsi n g s).pins = s.pins := rfl
@[simp] theorem State.modCsi_gctl (n : Nat) (g : CsiRec → CsiRec) : (State.modCsi n g s).gctl = s.gctl := rfl
@[simp] theorem State.modCsi_sched (n : Nat) (g : CsiRec → CsiRec) : (State.modCsi n g s).sched = s.sched := rfl
@[simp] theorem State.modCsi_fronds (n : Nat) (g : CsiRec → CsiRec) : (State.modCsi n g s).fronds = s.fronds := rfl
@[simp] theorem State.modCsi_island (n : Nat) (g : CsiRec → CsiRec) : (State.modCsi n g s).island = s.island := rfl
@[simp] theorem State.modCsi_thal (n : Nat) (g : CsiRec → CsiRec) : (State.modCsi n g s).thal = s.thal := rfl
@[simp] theorem State.modCsi_can (n : Nat) (g : CsiRec → CsiRec) : (State.modCsi n g s).can = s.can := rfl
@[simp] theorem State.modCsi_cmdq (n : Nat) (g : CsiRec → CsiRec) : (State.modCsi n g s).cmdq = s.cmdq := rfl
@[simp] theorem State.modCsi_dma (n : Nat) (g : CsiRec → CsiRec) : (State.modCsi n g s).dma = s.dma := rfl
@[simp] theorem State.modCsi_mem (n : Nat) (g : CsiRec → CsiRec) : (State.modCsi n g s).mem = s.mem := rfl
@[simp] theorem State.modCsi_twin (n : Nat) (g : CsiRec → CsiRec) : (State.modCsi n g s).twin = s.twin := rfl
@[simp] theorem State.modCsi_eth (n : Nat) (g : CsiRec → CsiRec) : (State.modCsi n g s).eth = s.eth := rfl
@[simp] theorem State.modCsi_pwr (n : Nat) (g : CsiRec → CsiRec) : (State.modCsi n g s).pwr = s.pwr := rfl
@[simp] theorem State.modCsi_sec (n : Nat) (g : CsiRec → CsiRec) : (State.modCsi n g s).sec = s.sec := rfl
@[simp] theorem State.modCsi_hostMem (n : Nat) (g : CsiRec → CsiRec) : (State.modCsi n g s).hostMem = s.hostMem := rfl
@[simp] theorem State.modCsi_out (n : Nat) (g : CsiRec → CsiRec) : (State.modCsi n g s).out = s.out := rfl
@[simp] theorem State.modCsi_freeCtr (n : Nat) (g : CsiRec → CsiRec) : (State.modCsi n g s).freeCtr = s.freeCtr := rfl
@[simp] theorem State.modCsi_pending (n : Nat) (g : CsiRec → CsiRec) : (State.modCsi n g s).pending = s.pending := rfl

@[simp] theorem State.modPrep_pins (u : Nat) (g : PrepRec → PrepRec) : (State.modPrep u g s).pins = s.pins := rfl
@[simp] theorem State.modPrep_gctl (u : Nat) (g : PrepRec → PrepRec) : (State.modPrep u g s).gctl = s.gctl := rfl
@[simp] theorem State.modPrep_sched (u : Nat) (g : PrepRec → PrepRec) : (State.modPrep u g s).sched = s.sched := rfl
@[simp] theorem State.modPrep_fronds (u : Nat) (g : PrepRec → PrepRec) : (State.modPrep u g s).fronds = s.fronds := rfl
@[simp] theorem State.modPrep_island (u : Nat) (g : PrepRec → PrepRec) : (State.modPrep u g s).island = s.island := rfl
@[simp] theorem State.modPrep_thal (u : Nat) (g : PrepRec → PrepRec) : (State.modPrep u g s).thal = s.thal := rfl
@[simp] theorem State.modPrep_can (u : Nat) (g : PrepRec → PrepRec) : (State.modPrep u g s).can = s.can := rfl
@[simp] theorem State.modPrep_cmdq (u : Nat) (g : PrepRec → PrepRec) : (State.modPrep u g s).cmdq = s.cmdq := rfl
@[simp] theorem State.modPrep_dma (u : Nat) (g : PrepRec → PrepRec) : (State.modPrep u g s).dma = s.dma := rfl
@[simp] theorem State.modPrep_mem (u : Nat) (g : PrepRec → PrepRec) : (State.modPrep u g s).mem = s.mem := rfl
@[simp] theorem State.modPrep_twin (u : Nat) (g : PrepRec → PrepRec) : (State.modPrep u g s).twin = s.twin := rfl
@[simp] theorem State.modPrep_eth (u : Nat) (g : PrepRec → PrepRec) : (State.modPrep u g s).eth = s.eth := rfl
@[simp] theorem State.modPrep_pwr (u : Nat) (g : PrepRec → PrepRec) : (State.modPrep u g s).pwr = s.pwr := rfl
@[simp] theorem State.modPrep_sec (u : Nat) (g : PrepRec → PrepRec) : (State.modPrep u g s).sec = s.sec := rfl
@[simp] theorem State.modPrep_hostMem (u : Nat) (g : PrepRec → PrepRec) : (State.modPrep u g s).hostMem = s.hostMem := rfl
@[simp] theorem State.modPrep_out (u : Nat) (g : PrepRec → PrepRec) : (State.modPrep u g s).out = s.out := rfl
@[simp] theorem State.modPrep_freeCtr (u : Nat) (g : PrepRec → PrepRec) : (State.modPrep u g s).freeCtr = s.freeCtr := rfl
@[simp] theorem State.modPrep_pending (u : Nat) (g : PrepRec → PrepRec) : (State.modPrep u g s).pending = s.pending := rfl

@[simp] theorem State.modSample_pins (p st : Nat) (k : Word32) (g : Sample → Sample) : (State.modSample p st k g s).pins = s.pins := rfl
@[simp] theorem State.modSample_gctl (p st : Nat) (k : Word32) (g : Sample → Sample) : (State.modSample p st k g s).gctl = s.gctl := rfl
@[simp] theorem State.modSample_sched (p st : Nat) (k : Word32) (g : Sample → Sample) : (State.modSample p st k g s).sched = s.sched := rfl
@[simp] theorem State.modSample_fronds (p st : Nat) (k : Word32) (g : Sample → Sample) : (State.modSample p st k g s).fronds = s.fronds := rfl
@[simp] theorem State.modSample_island (p st : Nat) (k : Word32) (g : Sample → Sample) : (State.modSample p st k g s).island = s.island := rfl
@[simp] theorem State.modSample_thal (p st : Nat) (k : Word32) (g : Sample → Sample) : (State.modSample p st k g s).thal = s.thal := rfl
@[simp] theorem State.modSample_can (p st : Nat) (k : Word32) (g : Sample → Sample) : (State.modSample p st k g s).can = s.can := rfl
@[simp] theorem State.modSample_cmdq (p st : Nat) (k : Word32) (g : Sample → Sample) : (State.modSample p st k g s).cmdq = s.cmdq := rfl
@[simp] theorem State.modSample_dma (p st : Nat) (k : Word32) (g : Sample → Sample) : (State.modSample p st k g s).dma = s.dma := rfl
@[simp] theorem State.modSample_mem (p st : Nat) (k : Word32) (g : Sample → Sample) : (State.modSample p st k g s).mem = s.mem := rfl
@[simp] theorem State.modSample_twin (p st : Nat) (k : Word32) (g : Sample → Sample) : (State.modSample p st k g s).twin = s.twin := rfl
@[simp] theorem State.modSample_eth (p st : Nat) (k : Word32) (g : Sample → Sample) : (State.modSample p st k g s).eth = s.eth := rfl
@[simp] theorem State.modSample_pwr (p st : Nat) (k : Word32) (g : Sample → Sample) : (State.modSample p st k g s).pwr = s.pwr := rfl
@[simp] theorem State.modSample_sec (p st : Nat) (k : Word32) (g : Sample → Sample) : (State.modSample p st k g s).sec = s.sec := rfl
@[simp] theorem State.modSample_hostMem (p st : Nat) (k : Word32) (g : Sample → Sample) : (State.modSample p st k g s).hostMem = s.hostMem := rfl
@[simp] theorem State.modSample_out (p st : Nat) (k : Word32) (g : Sample → Sample) : (State.modSample p st k g s).out = s.out := rfl
@[simp] theorem State.modSample_freeCtr (p st : Nat) (k : Word32) (g : Sample → Sample) : (State.modSample p st k g s).freeCtr = s.freeCtr := rfl
@[simp] theorem State.modSample_pending (p st : Nat) (k : Word32) (g : Sample → Sample) : (State.modSample p st k g s).pending = s.pending := rfl

@[simp] theorem State.modFrond_pins (f : Nat) (g : FrondRec → FrondRec) : (State.modFrond f g s).pins = s.pins := rfl
@[simp] theorem State.modFrond_gctl (f : Nat) (g : FrondRec → FrondRec) : (State.modFrond f g s).gctl = s.gctl := rfl
@[simp] theorem State.modFrond_loop (f : Nat) (g : FrondRec → FrondRec) : (State.modFrond f g s).loop = s.loop := rfl
@[simp] theorem State.modFrond_sched (f : Nat) (g : FrondRec → FrondRec) : (State.modFrond f g s).sched = s.sched := rfl
@[simp] theorem State.modFrond_island (f : Nat) (g : FrondRec → FrondRec) : (State.modFrond f g s).island = s.island := rfl
@[simp] theorem State.modFrond_thal (f : Nat) (g : FrondRec → FrondRec) : (State.modFrond f g s).thal = s.thal := rfl
@[simp] theorem State.modFrond_can (f : Nat) (g : FrondRec → FrondRec) : (State.modFrond f g s).can = s.can := rfl
@[simp] theorem State.modFrond_cmdq (f : Nat) (g : FrondRec → FrondRec) : (State.modFrond f g s).cmdq = s.cmdq := rfl
@[simp] theorem State.modFrond_dma (f : Nat) (g : FrondRec → FrondRec) : (State.modFrond f g s).dma = s.dma := rfl
@[simp] theorem State.modFrond_mem (f : Nat) (g : FrondRec → FrondRec) : (State.modFrond f g s).mem = s.mem := rfl
@[simp] theorem State.modFrond_twin (f : Nat) (g : FrondRec → FrondRec) : (State.modFrond f g s).twin = s.twin := rfl
@[simp] theorem State.modFrond_eth (f : Nat) (g : FrondRec → FrondRec) : (State.modFrond f g s).eth = s.eth := rfl
@[simp] theorem State.modFrond_pwr (f : Nat) (g : FrondRec → FrondRec) : (State.modFrond f g s).pwr = s.pwr := rfl
@[simp] theorem State.modFrond_sec (f : Nat) (g : FrondRec → FrondRec) : (State.modFrond f g s).sec = s.sec := rfl
@[simp] theorem State.modFrond_hostMem (f : Nat) (g : FrondRec → FrondRec) : (State.modFrond f g s).hostMem = s.hostMem := rfl
@[simp] theorem State.modFrond_out (f : Nat) (g : FrondRec → FrondRec) : (State.modFrond f g s).out = s.out := rfl
@[simp] theorem State.modFrond_freeCtr (f : Nat) (g : FrondRec → FrondRec) : (State.modFrond f g s).freeCtr = s.freeCtr := rfl
@[simp] theorem State.modFrond_pending (f : Nat) (g : FrondRec → FrondRec) : (State.modFrond f g s).pending = s.pending := rfl

@[simp] theorem State.modSlot_pins (f k : Nat) (g : SlotRec → SlotRec) : (State.modSlot f k g s).pins = s.pins := rfl
@[simp] theorem State.modSlot_gctl (f k : Nat) (g : SlotRec → SlotRec) : (State.modSlot f k g s).gctl = s.gctl := rfl
@[simp] theorem State.modSlot_loop (f k : Nat) (g : SlotRec → SlotRec) : (State.modSlot f k g s).loop = s.loop := rfl
@[simp] theorem State.modSlot_sched (f k : Nat) (g : SlotRec → SlotRec) : (State.modSlot f k g s).sched = s.sched := rfl
@[simp] theorem State.modSlot_island (f k : Nat) (g : SlotRec → SlotRec) : (State.modSlot f k g s).island = s.island := rfl
@[simp] theorem State.modSlot_thal (f k : Nat) (g : SlotRec → SlotRec) : (State.modSlot f k g s).thal = s.thal := rfl
@[simp] theorem State.modSlot_can (f k : Nat) (g : SlotRec → SlotRec) : (State.modSlot f k g s).can = s.can := rfl
@[simp] theorem State.modSlot_cmdq (f k : Nat) (g : SlotRec → SlotRec) : (State.modSlot f k g s).cmdq = s.cmdq := rfl
@[simp] theorem State.modSlot_dma (f k : Nat) (g : SlotRec → SlotRec) : (State.modSlot f k g s).dma = s.dma := rfl
@[simp] theorem State.modSlot_mem (f k : Nat) (g : SlotRec → SlotRec) : (State.modSlot f k g s).mem = s.mem := rfl
@[simp] theorem State.modSlot_twin (f k : Nat) (g : SlotRec → SlotRec) : (State.modSlot f k g s).twin = s.twin := rfl
@[simp] theorem State.modSlot_eth (f k : Nat) (g : SlotRec → SlotRec) : (State.modSlot f k g s).eth = s.eth := rfl
@[simp] theorem State.modSlot_pwr (f k : Nat) (g : SlotRec → SlotRec) : (State.modSlot f k g s).pwr = s.pwr := rfl
@[simp] theorem State.modSlot_sec (f k : Nat) (g : SlotRec → SlotRec) : (State.modSlot f k g s).sec = s.sec := rfl
@[simp] theorem State.modSlot_hostMem (f k : Nat) (g : SlotRec → SlotRec) : (State.modSlot f k g s).hostMem = s.hostMem := rfl
@[simp] theorem State.modSlot_out (f k : Nat) (g : SlotRec → SlotRec) : (State.modSlot f k g s).out = s.out := rfl
@[simp] theorem State.modSlot_freeCtr (f k : Nat) (g : SlotRec → SlotRec) : (State.modSlot f k g s).freeCtr = s.freeCtr := rfl
@[simp] theorem State.modSlot_pending (f k : Nat) (g : SlotRec → SlotRec) : (State.modSlot f k g s).pending = s.pending := rfl

@[simp] theorem State.modGolden_pins (f : Nat) (g : GoldenRec → GoldenRec) : (State.modGolden f g s).pins = s.pins := rfl
@[simp] theorem State.modGolden_gctl (f : Nat) (g : GoldenRec → GoldenRec) : (State.modGolden f g s).gctl = s.gctl := rfl
@[simp] theorem State.modGolden_loop (f : Nat) (g : GoldenRec → GoldenRec) : (State.modGolden f g s).loop = s.loop := rfl
@[simp] theorem State.modGolden_sched (f : Nat) (g : GoldenRec → GoldenRec) : (State.modGolden f g s).sched = s.sched := rfl
@[simp] theorem State.modGolden_island (f : Nat) (g : GoldenRec → GoldenRec) : (State.modGolden f g s).island = s.island := rfl
@[simp] theorem State.modGolden_thal (f : Nat) (g : GoldenRec → GoldenRec) : (State.modGolden f g s).thal = s.thal := rfl
@[simp] theorem State.modGolden_can (f : Nat) (g : GoldenRec → GoldenRec) : (State.modGolden f g s).can = s.can := rfl
@[simp] theorem State.modGolden_cmdq (f : Nat) (g : GoldenRec → GoldenRec) : (State.modGolden f g s).cmdq = s.cmdq := rfl
@[simp] theorem State.modGolden_dma (f : Nat) (g : GoldenRec → GoldenRec) : (State.modGolden f g s).dma = s.dma := rfl
@[simp] theorem State.modGolden_mem (f : Nat) (g : GoldenRec → GoldenRec) : (State.modGolden f g s).mem = s.mem := rfl
@[simp] theorem State.modGolden_twin (f : Nat) (g : GoldenRec → GoldenRec) : (State.modGolden f g s).twin = s.twin := rfl
@[simp] theorem State.modGolden_eth (f : Nat) (g : GoldenRec → GoldenRec) : (State.modGolden f g s).eth = s.eth := rfl
@[simp] theorem State.modGolden_pwr (f : Nat) (g : GoldenRec → GoldenRec) : (State.modGolden f g s).pwr = s.pwr := rfl
@[simp] theorem State.modGolden_sec (f : Nat) (g : GoldenRec → GoldenRec) : (State.modGolden f g s).sec = s.sec := rfl
@[simp] theorem State.modGolden_hostMem (f : Nat) (g : GoldenRec → GoldenRec) : (State.modGolden f g s).hostMem = s.hostMem := rfl
@[simp] theorem State.modGolden_out (f : Nat) (g : GoldenRec → GoldenRec) : (State.modGolden f g s).out = s.out := rfl
@[simp] theorem State.modGolden_freeCtr (f : Nat) (g : GoldenRec → GoldenRec) : (State.modGolden f g s).freeCtr = s.freeCtr := rfl
@[simp] theorem State.modGolden_pending (f : Nat) (g : GoldenRec → GoldenRec) : (State.modGolden f g s).pending = s.pending := rfl

@[simp] theorem State.modFp_pins (f : Nat) (g : FpRec → FpRec) : (State.modFp f g s).pins = s.pins := rfl
@[simp] theorem State.modFp_gctl (f : Nat) (g : FpRec → FpRec) : (State.modFp f g s).gctl = s.gctl := rfl
@[simp] theorem State.modFp_loop (f : Nat) (g : FpRec → FpRec) : (State.modFp f g s).loop = s.loop := rfl
@[simp] theorem State.modFp_fronds (f : Nat) (g : FpRec → FpRec) : (State.modFp f g s).fronds = s.fronds := rfl
@[simp] theorem State.modFp_island (f : Nat) (g : FpRec → FpRec) : (State.modFp f g s).island = s.island := rfl
@[simp] theorem State.modFp_thal (f : Nat) (g : FpRec → FpRec) : (State.modFp f g s).thal = s.thal := rfl
@[simp] theorem State.modFp_can (f : Nat) (g : FpRec → FpRec) : (State.modFp f g s).can = s.can := rfl
@[simp] theorem State.modFp_cmdq (f : Nat) (g : FpRec → FpRec) : (State.modFp f g s).cmdq = s.cmdq := rfl
@[simp] theorem State.modFp_dma (f : Nat) (g : FpRec → FpRec) : (State.modFp f g s).dma = s.dma := rfl
@[simp] theorem State.modFp_mem (f : Nat) (g : FpRec → FpRec) : (State.modFp f g s).mem = s.mem := rfl
@[simp] theorem State.modFp_twin (f : Nat) (g : FpRec → FpRec) : (State.modFp f g s).twin = s.twin := rfl
@[simp] theorem State.modFp_eth (f : Nat) (g : FpRec → FpRec) : (State.modFp f g s).eth = s.eth := rfl
@[simp] theorem State.modFp_pwr (f : Nat) (g : FpRec → FpRec) : (State.modFp f g s).pwr = s.pwr := rfl
@[simp] theorem State.modFp_sec (f : Nat) (g : FpRec → FpRec) : (State.modFp f g s).sec = s.sec := rfl
@[simp] theorem State.modFp_hostMem (f : Nat) (g : FpRec → FpRec) : (State.modFp f g s).hostMem = s.hostMem := rfl
@[simp] theorem State.modFp_out (f : Nat) (g : FpRec → FpRec) : (State.modFp f g s).out = s.out := rfl
@[simp] theorem State.modFp_freeCtr (f : Nat) (g : FpRec → FpRec) : (State.modFp f g s).freeCtr = s.freeCtr := rfl
@[simp] theorem State.modFp_pending (f : Nat) (g : FpRec → FpRec) : (State.modFp f g s).pending = s.pending := rfl

@[simp] theorem State.modModel_pins (m : Nat) (g : ModelRec → ModelRec) : (State.modModel m g s).pins = s.pins := rfl
@[simp] theorem State.modModel_gctl (m : Nat) (g : ModelRec → ModelRec) : (State.modModel m g s).gctl = s.gctl := rfl
@[simp] theorem State.modModel_loop (m : Nat) (g : ModelRec → ModelRec) : (State.modModel m g s).loop = s.loop := rfl
@[simp] theorem State.modModel_fronds (m : Nat) (g : ModelRec → ModelRec) : (State.modModel m g s).fronds = s.fronds := rfl
@[simp] theorem State.modModel_island (m : Nat) (g : ModelRec → ModelRec) : (State.modModel m g s).island = s.island := rfl
@[simp] theorem State.modModel_thal (m : Nat) (g : ModelRec → ModelRec) : (State.modModel m g s).thal = s.thal := rfl
@[simp] theorem State.modModel_can (m : Nat) (g : ModelRec → ModelRec) : (State.modModel m g s).can = s.can := rfl
@[simp] theorem State.modModel_cmdq (m : Nat) (g : ModelRec → ModelRec) : (State.modModel m g s).cmdq = s.cmdq := rfl
@[simp] theorem State.modModel_dma (m : Nat) (g : ModelRec → ModelRec) : (State.modModel m g s).dma = s.dma := rfl
@[simp] theorem State.modModel_mem (m : Nat) (g : ModelRec → ModelRec) : (State.modModel m g s).mem = s.mem := rfl
@[simp] theorem State.modModel_twin (m : Nat) (g : ModelRec → ModelRec) : (State.modModel m g s).twin = s.twin := rfl
@[simp] theorem State.modModel_eth (m : Nat) (g : ModelRec → ModelRec) : (State.modModel m g s).eth = s.eth := rfl
@[simp] theorem State.modModel_pwr (m : Nat) (g : ModelRec → ModelRec) : (State.modModel m g s).pwr = s.pwr := rfl
@[simp] theorem State.modModel_sec (m : Nat) (g : ModelRec → ModelRec) : (State.modModel m g s).sec = s.sec := rfl
@[simp] theorem State.modModel_hostMem (m : Nat) (g : ModelRec → ModelRec) : (State.modModel m g s).hostMem = s.hostMem := rfl
@[simp] theorem State.modModel_out (m : Nat) (g : ModelRec → ModelRec) : (State.modModel m g s).out = s.out := rfl
@[simp] theorem State.modModel_freeCtr (m : Nat) (g : ModelRec → ModelRec) : (State.modModel m g s).freeCtr = s.freeCtr := rfl
@[simp] theorem State.modModel_pending (m : Nat) (g : ModelRec → ModelRec) : (State.modModel m g s).pending = s.pending := rfl

@[simp] theorem State.modC0_pins (p : Nat) (g : C0Rec → C0Rec) : (State.modC0 p g s).pins = s.pins := rfl
@[simp] theorem State.modC0_gctl (p : Nat) (g : C0Rec → C0Rec) : (State.modC0 p g s).gctl = s.gctl := rfl
@[simp] theorem State.modC0_loop (p : Nat) (g : C0Rec → C0Rec) : (State.modC0 p g s).loop = s.loop := rfl
@[simp] theorem State.modC0_fronds (p : Nat) (g : C0Rec → C0Rec) : (State.modC0 p g s).fronds = s.fronds := rfl
@[simp] theorem State.modC0_island (p : Nat) (g : C0Rec → C0Rec) : (State.modC0 p g s).island = s.island := rfl
@[simp] theorem State.modC0_thal (p : Nat) (g : C0Rec → C0Rec) : (State.modC0 p g s).thal = s.thal := rfl
@[simp] theorem State.modC0_can (p : Nat) (g : C0Rec → C0Rec) : (State.modC0 p g s).can = s.can := rfl
@[simp] theorem State.modC0_cmdq (p : Nat) (g : C0Rec → C0Rec) : (State.modC0 p g s).cmdq = s.cmdq := rfl
@[simp] theorem State.modC0_dma (p : Nat) (g : C0Rec → C0Rec) : (State.modC0 p g s).dma = s.dma := rfl
@[simp] theorem State.modC0_mem (p : Nat) (g : C0Rec → C0Rec) : (State.modC0 p g s).mem = s.mem := rfl
@[simp] theorem State.modC0_twin (p : Nat) (g : C0Rec → C0Rec) : (State.modC0 p g s).twin = s.twin := rfl
@[simp] theorem State.modC0_eth (p : Nat) (g : C0Rec → C0Rec) : (State.modC0 p g s).eth = s.eth := rfl
@[simp] theorem State.modC0_pwr (p : Nat) (g : C0Rec → C0Rec) : (State.modC0 p g s).pwr = s.pwr := rfl
@[simp] theorem State.modC0_sec (p : Nat) (g : C0Rec → C0Rec) : (State.modC0 p g s).sec = s.sec := rfl
@[simp] theorem State.modC0_hostMem (p : Nat) (g : C0Rec → C0Rec) : (State.modC0 p g s).hostMem = s.hostMem := rfl
@[simp] theorem State.modC0_out (p : Nat) (g : C0Rec → C0Rec) : (State.modC0 p g s).out = s.out := rfl
@[simp] theorem State.modC0_freeCtr (p : Nat) (g : C0Rec → C0Rec) : (State.modC0 p g s).freeCtr = s.freeCtr := rfl
@[simp] theorem State.modC0_pending (p : Nat) (g : C0Rec → C0Rec) : (State.modC0 p g s).pending = s.pending := rfl

@[simp] theorem State.modCtx_pins (c : Nat) (g : CtxRec → CtxRec) : (State.modCtx c g s).pins = s.pins := rfl
@[simp] theorem State.modCtx_gctl (c : Nat) (g : CtxRec → CtxRec) : (State.modCtx c g s).gctl = s.gctl := rfl
@[simp] theorem State.modCtx_loop (c : Nat) (g : CtxRec → CtxRec) : (State.modCtx c g s).loop = s.loop := rfl
@[simp] theorem State.modCtx_fronds (c : Nat) (g : CtxRec → CtxRec) : (State.modCtx c g s).fronds = s.fronds := rfl
@[simp] theorem State.modCtx_island (c : Nat) (g : CtxRec → CtxRec) : (State.modCtx c g s).island = s.island := rfl
@[simp] theorem State.modCtx_thal (c : Nat) (g : CtxRec → CtxRec) : (State.modCtx c g s).thal = s.thal := rfl
@[simp] theorem State.modCtx_can (c : Nat) (g : CtxRec → CtxRec) : (State.modCtx c g s).can = s.can := rfl
@[simp] theorem State.modCtx_cmdq (c : Nat) (g : CtxRec → CtxRec) : (State.modCtx c g s).cmdq = s.cmdq := rfl
@[simp] theorem State.modCtx_dma (c : Nat) (g : CtxRec → CtxRec) : (State.modCtx c g s).dma = s.dma := rfl
@[simp] theorem State.modCtx_mem (c : Nat) (g : CtxRec → CtxRec) : (State.modCtx c g s).mem = s.mem := rfl
@[simp] theorem State.modCtx_twin (c : Nat) (g : CtxRec → CtxRec) : (State.modCtx c g s).twin = s.twin := rfl
@[simp] theorem State.modCtx_eth (c : Nat) (g : CtxRec → CtxRec) : (State.modCtx c g s).eth = s.eth := rfl
@[simp] theorem State.modCtx_pwr (c : Nat) (g : CtxRec → CtxRec) : (State.modCtx c g s).pwr = s.pwr := rfl
@[simp] theorem State.modCtx_sec (c : Nat) (g : CtxRec → CtxRec) : (State.modCtx c g s).sec = s.sec := rfl
@[simp] theorem State.modCtx_hostMem (c : Nat) (g : CtxRec → CtxRec) : (State.modCtx c g s).hostMem = s.hostMem := rfl
@[simp] theorem State.modCtx_out (c : Nat) (g : CtxRec → CtxRec) : (State.modCtx c g s).out = s.out := rfl
@[simp] theorem State.modCtx_freeCtr (c : Nat) (g : CtxRec → CtxRec) : (State.modCtx c g s).freeCtr = s.freeCtr := rfl
@[simp] theorem State.modCtx_pending (c : Nat) (g : CtxRec → CtxRec) : (State.modCtx c g s).pending = s.pending := rfl

@[simp] theorem State.modPool_pins (p : Nat) (g : PoolRec → PoolRec) : (State.modPool p g s).pins = s.pins := rfl
@[simp] theorem State.modPool_gctl (p : Nat) (g : PoolRec → PoolRec) : (State.modPool p g s).gctl = s.gctl := rfl
@[simp] theorem State.modPool_loop (p : Nat) (g : PoolRec → PoolRec) : (State.modPool p g s).loop = s.loop := rfl
@[simp] theorem State.modPool_fronds (p : Nat) (g : PoolRec → PoolRec) : (State.modPool p g s).fronds = s.fronds := rfl
@[simp] theorem State.modPool_island (p : Nat) (g : PoolRec → PoolRec) : (State.modPool p g s).island = s.island := rfl
@[simp] theorem State.modPool_thal (p : Nat) (g : PoolRec → PoolRec) : (State.modPool p g s).thal = s.thal := rfl
@[simp] theorem State.modPool_can (p : Nat) (g : PoolRec → PoolRec) : (State.modPool p g s).can = s.can := rfl
@[simp] theorem State.modPool_cmdq (p : Nat) (g : PoolRec → PoolRec) : (State.modPool p g s).cmdq = s.cmdq := rfl
@[simp] theorem State.modPool_dma (p : Nat) (g : PoolRec → PoolRec) : (State.modPool p g s).dma = s.dma := rfl
@[simp] theorem State.modPool_mem (p : Nat) (g : PoolRec → PoolRec) : (State.modPool p g s).mem = s.mem := rfl
@[simp] theorem State.modPool_twin (p : Nat) (g : PoolRec → PoolRec) : (State.modPool p g s).twin = s.twin := rfl
@[simp] theorem State.modPool_eth (p : Nat) (g : PoolRec → PoolRec) : (State.modPool p g s).eth = s.eth := rfl
@[simp] theorem State.modPool_pwr (p : Nat) (g : PoolRec → PoolRec) : (State.modPool p g s).pwr = s.pwr := rfl
@[simp] theorem State.modPool_sec (p : Nat) (g : PoolRec → PoolRec) : (State.modPool p g s).sec = s.sec := rfl
@[simp] theorem State.modPool_hostMem (p : Nat) (g : PoolRec → PoolRec) : (State.modPool p g s).hostMem = s.hostMem := rfl
@[simp] theorem State.modPool_out (p : Nat) (g : PoolRec → PoolRec) : (State.modPool p g s).out = s.out := rfl
@[simp] theorem State.modPool_freeCtr (p : Nat) (g : PoolRec → PoolRec) : (State.modPool p g s).freeCtr = s.freeCtr := rfl
@[simp] theorem State.modPool_pending (p : Nat) (g : PoolRec → PoolRec) : (State.modPool p g s).pending = s.pending := rfl

@[simp] theorem State.setGsync_pins (n : Nat) (v : Word32) : (State.setGsync n v s).pins = s.pins := rfl
@[simp] theorem State.setGsync_gctl (n : Nat) (v : Word32) : (State.setGsync n v s).gctl = s.gctl := rfl
@[simp] theorem State.setGsync_loop (n : Nat) (v : Word32) : (State.setGsync n v s).loop = s.loop := rfl
@[simp] theorem State.setGsync_fronds (n : Nat) (v : Word32) : (State.setGsync n v s).fronds = s.fronds := rfl
@[simp] theorem State.setGsync_island (n : Nat) (v : Word32) : (State.setGsync n v s).island = s.island := rfl
@[simp] theorem State.setGsync_thal (n : Nat) (v : Word32) : (State.setGsync n v s).thal = s.thal := rfl
@[simp] theorem State.setGsync_can (n : Nat) (v : Word32) : (State.setGsync n v s).can = s.can := rfl
@[simp] theorem State.setGsync_cmdq (n : Nat) (v : Word32) : (State.setGsync n v s).cmdq = s.cmdq := rfl
@[simp] theorem State.setGsync_dma (n : Nat) (v : Word32) : (State.setGsync n v s).dma = s.dma := rfl
@[simp] theorem State.setGsync_mem (n : Nat) (v : Word32) : (State.setGsync n v s).mem = s.mem := rfl
@[simp] theorem State.setGsync_twin (n : Nat) (v : Word32) : (State.setGsync n v s).twin = s.twin := rfl
@[simp] theorem State.setGsync_eth (n : Nat) (v : Word32) : (State.setGsync n v s).eth = s.eth := rfl
@[simp] theorem State.setGsync_pwr (n : Nat) (v : Word32) : (State.setGsync n v s).pwr = s.pwr := rfl
@[simp] theorem State.setGsync_sec (n : Nat) (v : Word32) : (State.setGsync n v s).sec = s.sec := rfl
@[simp] theorem State.setGsync_hostMem (n : Nat) (v : Word32) : (State.setGsync n v s).hostMem = s.hostMem := rfl
@[simp] theorem State.setGsync_out (n : Nat) (v : Word32) : (State.setGsync n v s).out = s.out := rfl
@[simp] theorem State.setGsync_freeCtr (n : Nat) (v : Word32) : (State.setGsync n v s).freeCtr = s.freeCtr := rfl
@[simp] theorem State.setGsync_pending (n : Nat) (v : Word32) : (State.setGsync n v s).pending = s.pending := rfl

@[simp] theorem State.modRun_pins (n : Nat) (g : RunRec → RunRec) : (State.modRun n g s).pins = s.pins := rfl
@[simp] theorem State.modRun_gctl (n : Nat) (g : RunRec → RunRec) : (State.modRun n g s).gctl = s.gctl := rfl
@[simp] theorem State.modRun_loop (n : Nat) (g : RunRec → RunRec) : (State.modRun n g s).loop = s.loop := rfl
@[simp] theorem State.modRun_fronds (n : Nat) (g : RunRec → RunRec) : (State.modRun n g s).fronds = s.fronds := rfl
@[simp] theorem State.modRun_island (n : Nat) (g : RunRec → RunRec) : (State.modRun n g s).island = s.island := rfl
@[simp] theorem State.modRun_thal (n : Nat) (g : RunRec → RunRec) : (State.modRun n g s).thal = s.thal := rfl
@[simp] theorem State.modRun_can (n : Nat) (g : RunRec → RunRec) : (State.modRun n g s).can = s.can := rfl
@[simp] theorem State.modRun_cmdq (n : Nat) (g : RunRec → RunRec) : (State.modRun n g s).cmdq = s.cmdq := rfl
@[simp] theorem State.modRun_dma (n : Nat) (g : RunRec → RunRec) : (State.modRun n g s).dma = s.dma := rfl
@[simp] theorem State.modRun_mem (n : Nat) (g : RunRec → RunRec) : (State.modRun n g s).mem = s.mem := rfl
@[simp] theorem State.modRun_twin (n : Nat) (g : RunRec → RunRec) : (State.modRun n g s).twin = s.twin := rfl
@[simp] theorem State.modRun_eth (n : Nat) (g : RunRec → RunRec) : (State.modRun n g s).eth = s.eth := rfl
@[simp] theorem State.modRun_pwr (n : Nat) (g : RunRec → RunRec) : (State.modRun n g s).pwr = s.pwr := rfl
@[simp] theorem State.modRun_sec (n : Nat) (g : RunRec → RunRec) : (State.modRun n g s).sec = s.sec := rfl
@[simp] theorem State.modRun_hostMem (n : Nat) (g : RunRec → RunRec) : (State.modRun n g s).hostMem = s.hostMem := rfl
@[simp] theorem State.modRun_out (n : Nat) (g : RunRec → RunRec) : (State.modRun n g s).out = s.out := rfl
@[simp] theorem State.modRun_freeCtr (n : Nat) (g : RunRec → RunRec) : (State.modRun n g s).freeCtr = s.freeCtr := rfl
@[simp] theorem State.modRun_pending (n : Nat) (g : RunRec → RunRec) : (State.modRun n g s).pending = s.pending := rfl

@[simp] theorem State.modAuth_pins (p : Nat) (g : AuthRec → AuthRec) : (State.modAuth p g s).pins = s.pins := rfl
@[simp] theorem State.modAuth_gctl (p : Nat) (g : AuthRec → AuthRec) : (State.modAuth p g s).gctl = s.gctl := rfl
@[simp] theorem State.modAuth_loop (p : Nat) (g : AuthRec → AuthRec) : (State.modAuth p g s).loop = s.loop := rfl
@[simp] theorem State.modAuth_sched (p : Nat) (g : AuthRec → AuthRec) : (State.modAuth p g s).sched = s.sched := rfl
@[simp] theorem State.modAuth_fronds (p : Nat) (g : AuthRec → AuthRec) : (State.modAuth p g s).fronds = s.fronds := rfl
@[simp] theorem State.modAuth_island (p : Nat) (g : AuthRec → AuthRec) : (State.modAuth p g s).island = s.island := rfl
@[simp] theorem State.modAuth_can (p : Nat) (g : AuthRec → AuthRec) : (State.modAuth p g s).can = s.can := rfl
@[simp] theorem State.modAuth_cmdq (p : Nat) (g : AuthRec → AuthRec) : (State.modAuth p g s).cmdq = s.cmdq := rfl
@[simp] theorem State.modAuth_dma (p : Nat) (g : AuthRec → AuthRec) : (State.modAuth p g s).dma = s.dma := rfl
@[simp] theorem State.modAuth_mem (p : Nat) (g : AuthRec → AuthRec) : (State.modAuth p g s).mem = s.mem := rfl
@[simp] theorem State.modAuth_twin (p : Nat) (g : AuthRec → AuthRec) : (State.modAuth p g s).twin = s.twin := rfl
@[simp] theorem State.modAuth_eth (p : Nat) (g : AuthRec → AuthRec) : (State.modAuth p g s).eth = s.eth := rfl
@[simp] theorem State.modAuth_pwr (p : Nat) (g : AuthRec → AuthRec) : (State.modAuth p g s).pwr = s.pwr := rfl
@[simp] theorem State.modAuth_sec (p : Nat) (g : AuthRec → AuthRec) : (State.modAuth p g s).sec = s.sec := rfl
@[simp] theorem State.modAuth_hostMem (p : Nat) (g : AuthRec → AuthRec) : (State.modAuth p g s).hostMem = s.hostMem := rfl
@[simp] theorem State.modAuth_out (p : Nat) (g : AuthRec → AuthRec) : (State.modAuth p g s).out = s.out := rfl
@[simp] theorem State.modAuth_freeCtr (p : Nat) (g : AuthRec → AuthRec) : (State.modAuth p g s).freeCtr = s.freeCtr := rfl
@[simp] theorem State.modAuth_pending (p : Nat) (g : AuthRec → AuthRec) : (State.modAuth p g s).pending = s.pending := rfl

@[simp] theorem State.modWdog_pins (w : Nat) (g : WdogRec → WdogRec) : (State.modWdog w g s).pins = s.pins := rfl
@[simp] theorem State.modWdog_gctl (w : Nat) (g : WdogRec → WdogRec) : (State.modWdog w g s).gctl = s.gctl := rfl
@[simp] theorem State.modWdog_loop (w : Nat) (g : WdogRec → WdogRec) : (State.modWdog w g s).loop = s.loop := rfl
@[simp] theorem State.modWdog_sched (w : Nat) (g : WdogRec → WdogRec) : (State.modWdog w g s).sched = s.sched := rfl
@[simp] theorem State.modWdog_fronds (w : Nat) (g : WdogRec → WdogRec) : (State.modWdog w g s).fronds = s.fronds := rfl
@[simp] theorem State.modWdog_island (w : Nat) (g : WdogRec → WdogRec) : (State.modWdog w g s).island = s.island := rfl
@[simp] theorem State.modWdog_can (w : Nat) (g : WdogRec → WdogRec) : (State.modWdog w g s).can = s.can := rfl
@[simp] theorem State.modWdog_cmdq (w : Nat) (g : WdogRec → WdogRec) : (State.modWdog w g s).cmdq = s.cmdq := rfl
@[simp] theorem State.modWdog_dma (w : Nat) (g : WdogRec → WdogRec) : (State.modWdog w g s).dma = s.dma := rfl
@[simp] theorem State.modWdog_mem (w : Nat) (g : WdogRec → WdogRec) : (State.modWdog w g s).mem = s.mem := rfl
@[simp] theorem State.modWdog_twin (w : Nat) (g : WdogRec → WdogRec) : (State.modWdog w g s).twin = s.twin := rfl
@[simp] theorem State.modWdog_eth (w : Nat) (g : WdogRec → WdogRec) : (State.modWdog w g s).eth = s.eth := rfl
@[simp] theorem State.modWdog_pwr (w : Nat) (g : WdogRec → WdogRec) : (State.modWdog w g s).pwr = s.pwr := rfl
@[simp] theorem State.modWdog_sec (w : Nat) (g : WdogRec → WdogRec) : (State.modWdog w g s).sec = s.sec := rfl
@[simp] theorem State.modWdog_hostMem (w : Nat) (g : WdogRec → WdogRec) : (State.modWdog w g s).hostMem = s.hostMem := rfl
@[simp] theorem State.modWdog_out (w : Nat) (g : WdogRec → WdogRec) : (State.modWdog w g s).out = s.out := rfl
@[simp] theorem State.modWdog_freeCtr (w : Nat) (g : WdogRec → WdogRec) : (State.modWdog w g s).freeCtr = s.freeCtr := rfl
@[simp] theorem State.modWdog_pending (w : Nat) (g : WdogRec → WdogRec) : (State.modWdog w g s).pending = s.pending := rfl

@[simp] theorem State.modMoss_pins (p : Nat) (g : MossRec → MossRec) : (State.modMoss p g s).pins = s.pins := rfl
@[simp] theorem State.modMoss_gctl (p : Nat) (g : MossRec → MossRec) : (State.modMoss p g s).gctl = s.gctl := rfl
@[simp] theorem State.modMoss_loop (p : Nat) (g : MossRec → MossRec) : (State.modMoss p g s).loop = s.loop := rfl
@[simp] theorem State.modMoss_sched (p : Nat) (g : MossRec → MossRec) : (State.modMoss p g s).sched = s.sched := rfl
@[simp] theorem State.modMoss_fronds (p : Nat) (g : MossRec → MossRec) : (State.modMoss p g s).fronds = s.fronds := rfl
@[simp] theorem State.modMoss_island (p : Nat) (g : MossRec → MossRec) : (State.modMoss p g s).island = s.island := rfl
@[simp] theorem State.modMoss_can (p : Nat) (g : MossRec → MossRec) : (State.modMoss p g s).can = s.can := rfl
@[simp] theorem State.modMoss_cmdq (p : Nat) (g : MossRec → MossRec) : (State.modMoss p g s).cmdq = s.cmdq := rfl
@[simp] theorem State.modMoss_dma (p : Nat) (g : MossRec → MossRec) : (State.modMoss p g s).dma = s.dma := rfl
@[simp] theorem State.modMoss_mem (p : Nat) (g : MossRec → MossRec) : (State.modMoss p g s).mem = s.mem := rfl
@[simp] theorem State.modMoss_twin (p : Nat) (g : MossRec → MossRec) : (State.modMoss p g s).twin = s.twin := rfl
@[simp] theorem State.modMoss_eth (p : Nat) (g : MossRec → MossRec) : (State.modMoss p g s).eth = s.eth := rfl
@[simp] theorem State.modMoss_pwr (p : Nat) (g : MossRec → MossRec) : (State.modMoss p g s).pwr = s.pwr := rfl
@[simp] theorem State.modMoss_sec (p : Nat) (g : MossRec → MossRec) : (State.modMoss p g s).sec = s.sec := rfl
@[simp] theorem State.modMoss_hostMem (p : Nat) (g : MossRec → MossRec) : (State.modMoss p g s).hostMem = s.hostMem := rfl
@[simp] theorem State.modMoss_out (p : Nat) (g : MossRec → MossRec) : (State.modMoss p g s).out = s.out := rfl
@[simp] theorem State.modMoss_freeCtr (p : Nat) (g : MossRec → MossRec) : (State.modMoss p g s).freeCtr = s.freeCtr := rfl
@[simp] theorem State.modMoss_pending (p : Nat) (g : MossRec → MossRec) : (State.modMoss p g s).pending = s.pending := rfl

@[simp] theorem State.modGov_pins (c : Nat) (g : GovRec → GovRec) : (State.modGov c g s).pins = s.pins := rfl
@[simp] theorem State.modGov_gctl (c : Nat) (g : GovRec → GovRec) : (State.modGov c g s).gctl = s.gctl := rfl
@[simp] theorem State.modGov_loop (c : Nat) (g : GovRec → GovRec) : (State.modGov c g s).loop = s.loop := rfl
@[simp] theorem State.modGov_sched (c : Nat) (g : GovRec → GovRec) : (State.modGov c g s).sched = s.sched := rfl
@[simp] theorem State.modGov_fronds (c : Nat) (g : GovRec → GovRec) : (State.modGov c g s).fronds = s.fronds := rfl
@[simp] theorem State.modGov_island (c : Nat) (g : GovRec → GovRec) : (State.modGov c g s).island = s.island := rfl
@[simp] theorem State.modGov_can (c : Nat) (g : GovRec → GovRec) : (State.modGov c g s).can = s.can := rfl
@[simp] theorem State.modGov_cmdq (c : Nat) (g : GovRec → GovRec) : (State.modGov c g s).cmdq = s.cmdq := rfl
@[simp] theorem State.modGov_dma (c : Nat) (g : GovRec → GovRec) : (State.modGov c g s).dma = s.dma := rfl
@[simp] theorem State.modGov_mem (c : Nat) (g : GovRec → GovRec) : (State.modGov c g s).mem = s.mem := rfl
@[simp] theorem State.modGov_twin (c : Nat) (g : GovRec → GovRec) : (State.modGov c g s).twin = s.twin := rfl
@[simp] theorem State.modGov_eth (c : Nat) (g : GovRec → GovRec) : (State.modGov c g s).eth = s.eth := rfl
@[simp] theorem State.modGov_pwr (c : Nat) (g : GovRec → GovRec) : (State.modGov c g s).pwr = s.pwr := rfl
@[simp] theorem State.modGov_sec (c : Nat) (g : GovRec → GovRec) : (State.modGov c g s).sec = s.sec := rfl
@[simp] theorem State.modGov_hostMem (c : Nat) (g : GovRec → GovRec) : (State.modGov c g s).hostMem = s.hostMem := rfl
@[simp] theorem State.modGov_out (c : Nat) (g : GovRec → GovRec) : (State.modGov c g s).out = s.out := rfl
@[simp] theorem State.modGov_freeCtr (c : Nat) (g : GovRec → GovRec) : (State.modGov c g s).freeCtr = s.freeCtr := rfl
@[simp] theorem State.modGov_pending (c : Nat) (g : GovRec → GovRec) : (State.modGov c g s).pending = s.pending := rfl

@[simp] theorem State.modCan_pins (m : Nat) (g : CanRec → CanRec) : (State.modCan m g s).pins = s.pins := rfl
@[simp] theorem State.modCan_gctl (m : Nat) (g : CanRec → CanRec) : (State.modCan m g s).gctl = s.gctl := rfl
@[simp] theorem State.modCan_loop (m : Nat) (g : CanRec → CanRec) : (State.modCan m g s).loop = s.loop := rfl
@[simp] theorem State.modCan_sched (m : Nat) (g : CanRec → CanRec) : (State.modCan m g s).sched = s.sched := rfl
@[simp] theorem State.modCan_fronds (m : Nat) (g : CanRec → CanRec) : (State.modCan m g s).fronds = s.fronds := rfl
@[simp] theorem State.modCan_island (m : Nat) (g : CanRec → CanRec) : (State.modCan m g s).island = s.island := rfl
@[simp] theorem State.modCan_thal (m : Nat) (g : CanRec → CanRec) : (State.modCan m g s).thal = s.thal := rfl
@[simp] theorem State.modCan_cmdq (m : Nat) (g : CanRec → CanRec) : (State.modCan m g s).cmdq = s.cmdq := rfl
@[simp] theorem State.modCan_dma (m : Nat) (g : CanRec → CanRec) : (State.modCan m g s).dma = s.dma := rfl
@[simp] theorem State.modCan_mem (m : Nat) (g : CanRec → CanRec) : (State.modCan m g s).mem = s.mem := rfl
@[simp] theorem State.modCan_twin (m : Nat) (g : CanRec → CanRec) : (State.modCan m g s).twin = s.twin := rfl
@[simp] theorem State.modCan_eth (m : Nat) (g : CanRec → CanRec) : (State.modCan m g s).eth = s.eth := rfl
@[simp] theorem State.modCan_pwr (m : Nat) (g : CanRec → CanRec) : (State.modCan m g s).pwr = s.pwr := rfl
@[simp] theorem State.modCan_sec (m : Nat) (g : CanRec → CanRec) : (State.modCan m g s).sec = s.sec := rfl
@[simp] theorem State.modCan_hostMem (m : Nat) (g : CanRec → CanRec) : (State.modCan m g s).hostMem = s.hostMem := rfl
@[simp] theorem State.modCan_out (m : Nat) (g : CanRec → CanRec) : (State.modCan m g s).out = s.out := rfl
@[simp] theorem State.modCan_freeCtr (m : Nat) (g : CanRec → CanRec) : (State.modCan m g s).freeCtr = s.freeCtr := rfl
@[simp] theorem State.modCan_pending (m : Nat) (g : CanRec → CanRec) : (State.modCan m g s).pending = s.pending := rfl

@[simp] theorem State.modObj_pins (m o : Nat) (g : ObjRec → ObjRec) : (State.modObj m o g s).pins = s.pins := rfl
@[simp] theorem State.modObj_gctl (m o : Nat) (g : ObjRec → ObjRec) : (State.modObj m o g s).gctl = s.gctl := rfl
@[simp] theorem State.modObj_loop (m o : Nat) (g : ObjRec → ObjRec) : (State.modObj m o g s).loop = s.loop := rfl
@[simp] theorem State.modObj_sched (m o : Nat) (g : ObjRec → ObjRec) : (State.modObj m o g s).sched = s.sched := rfl
@[simp] theorem State.modObj_fronds (m o : Nat) (g : ObjRec → ObjRec) : (State.modObj m o g s).fronds = s.fronds := rfl
@[simp] theorem State.modObj_island (m o : Nat) (g : ObjRec → ObjRec) : (State.modObj m o g s).island = s.island := rfl
@[simp] theorem State.modObj_thal (m o : Nat) (g : ObjRec → ObjRec) : (State.modObj m o g s).thal = s.thal := rfl
@[simp] theorem State.modObj_cmdq (m o : Nat) (g : ObjRec → ObjRec) : (State.modObj m o g s).cmdq = s.cmdq := rfl
@[simp] theorem State.modObj_dma (m o : Nat) (g : ObjRec → ObjRec) : (State.modObj m o g s).dma = s.dma := rfl
@[simp] theorem State.modObj_mem (m o : Nat) (g : ObjRec → ObjRec) : (State.modObj m o g s).mem = s.mem := rfl
@[simp] theorem State.modObj_twin (m o : Nat) (g : ObjRec → ObjRec) : (State.modObj m o g s).twin = s.twin := rfl
@[simp] theorem State.modObj_eth (m o : Nat) (g : ObjRec → ObjRec) : (State.modObj m o g s).eth = s.eth := rfl
@[simp] theorem State.modObj_pwr (m o : Nat) (g : ObjRec → ObjRec) : (State.modObj m o g s).pwr = s.pwr := rfl
@[simp] theorem State.modObj_sec (m o : Nat) (g : ObjRec → ObjRec) : (State.modObj m o g s).sec = s.sec := rfl
@[simp] theorem State.modObj_hostMem (m o : Nat) (g : ObjRec → ObjRec) : (State.modObj m o g s).hostMem = s.hostMem := rfl
@[simp] theorem State.modObj_out (m o : Nat) (g : ObjRec → ObjRec) : (State.modObj m o g s).out = s.out := rfl
@[simp] theorem State.modObj_freeCtr (m o : Nat) (g : ObjRec → ObjRec) : (State.modObj m o g s).freeCtr = s.freeCtr := rfl
@[simp] theorem State.modObj_pending (m o : Nat) (g : ObjRec → ObjRec) : (State.modObj m o g s).pending = s.pending := rfl

@[simp] theorem State.modSq_pins (n : Nat) (g : SqRec → SqRec) : (State.modSq n g s).pins = s.pins := rfl
@[simp] theorem State.modSq_gctl (n : Nat) (g : SqRec → SqRec) : (State.modSq n g s).gctl = s.gctl := rfl
@[simp] theorem State.modSq_loop (n : Nat) (g : SqRec → SqRec) : (State.modSq n g s).loop = s.loop := rfl
@[simp] theorem State.modSq_sched (n : Nat) (g : SqRec → SqRec) : (State.modSq n g s).sched = s.sched := rfl
@[simp] theorem State.modSq_fronds (n : Nat) (g : SqRec → SqRec) : (State.modSq n g s).fronds = s.fronds := rfl
@[simp] theorem State.modSq_island (n : Nat) (g : SqRec → SqRec) : (State.modSq n g s).island = s.island := rfl
@[simp] theorem State.modSq_thal (n : Nat) (g : SqRec → SqRec) : (State.modSq n g s).thal = s.thal := rfl
@[simp] theorem State.modSq_can (n : Nat) (g : SqRec → SqRec) : (State.modSq n g s).can = s.can := rfl
@[simp] theorem State.modSq_dma (n : Nat) (g : SqRec → SqRec) : (State.modSq n g s).dma = s.dma := rfl
@[simp] theorem State.modSq_mem (n : Nat) (g : SqRec → SqRec) : (State.modSq n g s).mem = s.mem := rfl
@[simp] theorem State.modSq_twin (n : Nat) (g : SqRec → SqRec) : (State.modSq n g s).twin = s.twin := rfl
@[simp] theorem State.modSq_eth (n : Nat) (g : SqRec → SqRec) : (State.modSq n g s).eth = s.eth := rfl
@[simp] theorem State.modSq_pwr (n : Nat) (g : SqRec → SqRec) : (State.modSq n g s).pwr = s.pwr := rfl
@[simp] theorem State.modSq_sec (n : Nat) (g : SqRec → SqRec) : (State.modSq n g s).sec = s.sec := rfl
@[simp] theorem State.modSq_hostMem (n : Nat) (g : SqRec → SqRec) : (State.modSq n g s).hostMem = s.hostMem := rfl
@[simp] theorem State.modSq_out (n : Nat) (g : SqRec → SqRec) : (State.modSq n g s).out = s.out := rfl
@[simp] theorem State.modSq_freeCtr (n : Nat) (g : SqRec → SqRec) : (State.modSq n g s).freeCtr = s.freeCtr := rfl
@[simp] theorem State.modSq_pending (n : Nat) (g : SqRec → SqRec) : (State.modSq n g s).pending = s.pending := rfl

@[simp] theorem State.modCq_pins (q : Nat) (g : CqRec → CqRec) : (State.modCq q g s).pins = s.pins := rfl
@[simp] theorem State.modCq_gctl (q : Nat) (g : CqRec → CqRec) : (State.modCq q g s).gctl = s.gctl := rfl
@[simp] theorem State.modCq_loop (q : Nat) (g : CqRec → CqRec) : (State.modCq q g s).loop = s.loop := rfl
@[simp] theorem State.modCq_sched (q : Nat) (g : CqRec → CqRec) : (State.modCq q g s).sched = s.sched := rfl
@[simp] theorem State.modCq_fronds (q : Nat) (g : CqRec → CqRec) : (State.modCq q g s).fronds = s.fronds := rfl
@[simp] theorem State.modCq_island (q : Nat) (g : CqRec → CqRec) : (State.modCq q g s).island = s.island := rfl
@[simp] theorem State.modCq_thal (q : Nat) (g : CqRec → CqRec) : (State.modCq q g s).thal = s.thal := rfl
@[simp] theorem State.modCq_can (q : Nat) (g : CqRec → CqRec) : (State.modCq q g s).can = s.can := rfl
@[simp] theorem State.modCq_dma (q : Nat) (g : CqRec → CqRec) : (State.modCq q g s).dma = s.dma := rfl
@[simp] theorem State.modCq_mem (q : Nat) (g : CqRec → CqRec) : (State.modCq q g s).mem = s.mem := rfl
@[simp] theorem State.modCq_twin (q : Nat) (g : CqRec → CqRec) : (State.modCq q g s).twin = s.twin := rfl
@[simp] theorem State.modCq_eth (q : Nat) (g : CqRec → CqRec) : (State.modCq q g s).eth = s.eth := rfl
@[simp] theorem State.modCq_pwr (q : Nat) (g : CqRec → CqRec) : (State.modCq q g s).pwr = s.pwr := rfl
@[simp] theorem State.modCq_sec (q : Nat) (g : CqRec → CqRec) : (State.modCq q g s).sec = s.sec := rfl
@[simp] theorem State.modCq_hostMem (q : Nat) (g : CqRec → CqRec) : (State.modCq q g s).hostMem = s.hostMem := rfl
@[simp] theorem State.modCq_out (q : Nat) (g : CqRec → CqRec) : (State.modCq q g s).out = s.out := rfl
@[simp] theorem State.modCq_freeCtr (q : Nat) (g : CqRec → CqRec) : (State.modCq q g s).freeCtr = s.freeCtr := rfl
@[simp] theorem State.modCq_pending (q : Nat) (g : CqRec → CqRec) : (State.modCq q g s).pending = s.pending := rfl

@[simp] theorem State.modMbox_pins (m : Nat) (g : MboxRec → MboxRec) : (State.modMbox m g s).pins = s.pins := rfl
@[simp] theorem State.modMbox_gctl (m : Nat) (g : MboxRec → MboxRec) : (State.modMbox m g s).gctl = s.gctl := rfl
@[simp] theorem State.modMbox_loop (m : Nat) (g : MboxRec → MboxRec) : (State.modMbox m g s).loop = s.loop := rfl
@[simp] theorem State.modMbox_sched (m : Nat) (g : MboxRec → MboxRec) : (State.modMbox m g s).sched = s.sched := rfl
@[simp] theorem State.modMbox_fronds (m : Nat) (g : MboxRec → MboxRec) : (State.modMbox m g s).fronds = s.fronds := rfl
@[simp] theorem State.modMbox_island (m : Nat) (g : MboxRec → MboxRec) : (State.modMbox m g s).island = s.island := rfl
@[simp] theorem State.modMbox_thal (m : Nat) (g : MboxRec → MboxRec) : (State.modMbox m g s).thal = s.thal := rfl
@[simp] theorem State.modMbox_can (m : Nat) (g : MboxRec → MboxRec) : (State.modMbox m g s).can = s.can := rfl
@[simp] theorem State.modMbox_dma (m : Nat) (g : MboxRec → MboxRec) : (State.modMbox m g s).dma = s.dma := rfl
@[simp] theorem State.modMbox_mem (m : Nat) (g : MboxRec → MboxRec) : (State.modMbox m g s).mem = s.mem := rfl
@[simp] theorem State.modMbox_twin (m : Nat) (g : MboxRec → MboxRec) : (State.modMbox m g s).twin = s.twin := rfl
@[simp] theorem State.modMbox_eth (m : Nat) (g : MboxRec → MboxRec) : (State.modMbox m g s).eth = s.eth := rfl
@[simp] theorem State.modMbox_pwr (m : Nat) (g : MboxRec → MboxRec) : (State.modMbox m g s).pwr = s.pwr := rfl
@[simp] theorem State.modMbox_sec (m : Nat) (g : MboxRec → MboxRec) : (State.modMbox m g s).sec = s.sec := rfl
@[simp] theorem State.modMbox_hostMem (m : Nat) (g : MboxRec → MboxRec) : (State.modMbox m g s).hostMem = s.hostMem := rfl
@[simp] theorem State.modMbox_out (m : Nat) (g : MboxRec → MboxRec) : (State.modMbox m g s).out = s.out := rfl
@[simp] theorem State.modMbox_freeCtr (m : Nat) (g : MboxRec → MboxRec) : (State.modMbox m g s).freeCtr = s.freeCtr := rfl
@[simp] theorem State.modMbox_pending (m : Nat) (g : MboxRec → MboxRec) : (State.modMbox m g s).pending = s.pending := rfl

@[simp] theorem State.modCmd_pins (tag : Nat) (g : Cmd → Cmd) : (State.modCmd tag g s).pins = s.pins := rfl
@[simp] theorem State.modCmd_gctl (tag : Nat) (g : Cmd → Cmd) : (State.modCmd tag g s).gctl = s.gctl := rfl
@[simp] theorem State.modCmd_loop (tag : Nat) (g : Cmd → Cmd) : (State.modCmd tag g s).loop = s.loop := rfl
@[simp] theorem State.modCmd_sched (tag : Nat) (g : Cmd → Cmd) : (State.modCmd tag g s).sched = s.sched := rfl
@[simp] theorem State.modCmd_fronds (tag : Nat) (g : Cmd → Cmd) : (State.modCmd tag g s).fronds = s.fronds := rfl
@[simp] theorem State.modCmd_island (tag : Nat) (g : Cmd → Cmd) : (State.modCmd tag g s).island = s.island := rfl
@[simp] theorem State.modCmd_thal (tag : Nat) (g : Cmd → Cmd) : (State.modCmd tag g s).thal = s.thal := rfl
@[simp] theorem State.modCmd_can (tag : Nat) (g : Cmd → Cmd) : (State.modCmd tag g s).can = s.can := rfl
@[simp] theorem State.modCmd_dma (tag : Nat) (g : Cmd → Cmd) : (State.modCmd tag g s).dma = s.dma := rfl
@[simp] theorem State.modCmd_mem (tag : Nat) (g : Cmd → Cmd) : (State.modCmd tag g s).mem = s.mem := rfl
@[simp] theorem State.modCmd_twin (tag : Nat) (g : Cmd → Cmd) : (State.modCmd tag g s).twin = s.twin := rfl
@[simp] theorem State.modCmd_eth (tag : Nat) (g : Cmd → Cmd) : (State.modCmd tag g s).eth = s.eth := rfl
@[simp] theorem State.modCmd_pwr (tag : Nat) (g : Cmd → Cmd) : (State.modCmd tag g s).pwr = s.pwr := rfl
@[simp] theorem State.modCmd_sec (tag : Nat) (g : Cmd → Cmd) : (State.modCmd tag g s).sec = s.sec := rfl
@[simp] theorem State.modCmd_hostMem (tag : Nat) (g : Cmd → Cmd) : (State.modCmd tag g s).hostMem = s.hostMem := rfl
@[simp] theorem State.modCmd_out (tag : Nat) (g : Cmd → Cmd) : (State.modCmd tag g s).out = s.out := rfl
@[simp] theorem State.modCmd_freeCtr (tag : Nat) (g : Cmd → Cmd) : (State.modCmd tag g s).freeCtr = s.freeCtr := rfl
@[simp] theorem State.modCmd_pending (tag : Nat) (g : Cmd → Cmd) : (State.modCmd tag g s).pending = s.pending := rfl

@[simp] theorem State.modDma_pins (n : Nat) (g : DmaRec → DmaRec) : (State.modDma n g s).pins = s.pins := rfl
@[simp] theorem State.modDma_gctl (n : Nat) (g : DmaRec → DmaRec) : (State.modDma n g s).gctl = s.gctl := rfl
@[simp] theorem State.modDma_loop (n : Nat) (g : DmaRec → DmaRec) : (State.modDma n g s).loop = s.loop := rfl
@[simp] theorem State.modDma_sched (n : Nat) (g : DmaRec → DmaRec) : (State.modDma n g s).sched = s.sched := rfl
@[simp] theorem State.modDma_fronds (n : Nat) (g : DmaRec → DmaRec) : (State.modDma n g s).fronds = s.fronds := rfl
@[simp] theorem State.modDma_island (n : Nat) (g : DmaRec → DmaRec) : (State.modDma n g s).island = s.island := rfl
@[simp] theorem State.modDma_thal (n : Nat) (g : DmaRec → DmaRec) : (State.modDma n g s).thal = s.thal := rfl
@[simp] theorem State.modDma_can (n : Nat) (g : DmaRec → DmaRec) : (State.modDma n g s).can = s.can := rfl
@[simp] theorem State.modDma_cmdq (n : Nat) (g : DmaRec → DmaRec) : (State.modDma n g s).cmdq = s.cmdq := rfl
@[simp] theorem State.modDma_mem (n : Nat) (g : DmaRec → DmaRec) : (State.modDma n g s).mem = s.mem := rfl
@[simp] theorem State.modDma_twin (n : Nat) (g : DmaRec → DmaRec) : (State.modDma n g s).twin = s.twin := rfl
@[simp] theorem State.modDma_eth (n : Nat) (g : DmaRec → DmaRec) : (State.modDma n g s).eth = s.eth := rfl
@[simp] theorem State.modDma_pwr (n : Nat) (g : DmaRec → DmaRec) : (State.modDma n g s).pwr = s.pwr := rfl
@[simp] theorem State.modDma_sec (n : Nat) (g : DmaRec → DmaRec) : (State.modDma n g s).sec = s.sec := rfl
@[simp] theorem State.modDma_hostMem (n : Nat) (g : DmaRec → DmaRec) : (State.modDma n g s).hostMem = s.hostMem := rfl
@[simp] theorem State.modDma_out (n : Nat) (g : DmaRec → DmaRec) : (State.modDma n g s).out = s.out := rfl
@[simp] theorem State.modDma_freeCtr (n : Nat) (g : DmaRec → DmaRec) : (State.modDma n g s).freeCtr = s.freeCtr := rfl
@[simp] theorem State.modDma_pending (n : Nat) (g : DmaRec → DmaRec) : (State.modDma n g s).pending = s.pending := rfl

@[simp] theorem State.modGroup_pins (i : Nat) (g : GroupRec → GroupRec) : (State.modGroup i g s).pins = s.pins := rfl
@[simp] theorem State.modGroup_gctl (i : Nat) (g : GroupRec → GroupRec) : (State.modGroup i g s).gctl = s.gctl := rfl
@[simp] theorem State.modGroup_loop (i : Nat) (g : GroupRec → GroupRec) : (State.modGroup i g s).loop = s.loop := rfl
@[simp] theorem State.modGroup_sched (i : Nat) (g : GroupRec → GroupRec) : (State.modGroup i g s).sched = s.sched := rfl
@[simp] theorem State.modGroup_fronds (i : Nat) (g : GroupRec → GroupRec) : (State.modGroup i g s).fronds = s.fronds := rfl
@[simp] theorem State.modGroup_island (i : Nat) (g : GroupRec → GroupRec) : (State.modGroup i g s).island = s.island := rfl
@[simp] theorem State.modGroup_thal (i : Nat) (g : GroupRec → GroupRec) : (State.modGroup i g s).thal = s.thal := rfl
@[simp] theorem State.modGroup_can (i : Nat) (g : GroupRec → GroupRec) : (State.modGroup i g s).can = s.can := rfl
@[simp] theorem State.modGroup_cmdq (i : Nat) (g : GroupRec → GroupRec) : (State.modGroup i g s).cmdq = s.cmdq := rfl
@[simp] theorem State.modGroup_dma (i : Nat) (g : GroupRec → GroupRec) : (State.modGroup i g s).dma = s.dma := rfl
@[simp] theorem State.modGroup_twin (i : Nat) (g : GroupRec → GroupRec) : (State.modGroup i g s).twin = s.twin := rfl
@[simp] theorem State.modGroup_eth (i : Nat) (g : GroupRec → GroupRec) : (State.modGroup i g s).eth = s.eth := rfl
@[simp] theorem State.modGroup_pwr (i : Nat) (g : GroupRec → GroupRec) : (State.modGroup i g s).pwr = s.pwr := rfl
@[simp] theorem State.modGroup_sec (i : Nat) (g : GroupRec → GroupRec) : (State.modGroup i g s).sec = s.sec := rfl
@[simp] theorem State.modGroup_hostMem (i : Nat) (g : GroupRec → GroupRec) : (State.modGroup i g s).hostMem = s.hostMem := rfl
@[simp] theorem State.modGroup_out (i : Nat) (g : GroupRec → GroupRec) : (State.modGroup i g s).out = s.out := rfl
@[simp] theorem State.modGroup_freeCtr (i : Nat) (g : GroupRec → GroupRec) : (State.modGroup i g s).freeCtr = s.freeCtr := rfl
@[simp] theorem State.modGroup_pending (i : Nat) (g : GroupRec → GroupRec) : (State.modGroup i g s).pending = s.pending := rfl

@[simp] theorem State.modPch_pins (p : Nat) (g : PchRec → PchRec) : (State.modPch p g s).pins = s.pins := rfl
@[simp] theorem State.modPch_gctl (p : Nat) (g : PchRec → PchRec) : (State.modPch p g s).gctl = s.gctl := rfl
@[simp] theorem State.modPch_loop (p : Nat) (g : PchRec → PchRec) : (State.modPch p g s).loop = s.loop := rfl
@[simp] theorem State.modPch_sched (p : Nat) (g : PchRec → PchRec) : (State.modPch p g s).sched = s.sched := rfl
@[simp] theorem State.modPch_fronds (p : Nat) (g : PchRec → PchRec) : (State.modPch p g s).fronds = s.fronds := rfl
@[simp] theorem State.modPch_island (p : Nat) (g : PchRec → PchRec) : (State.modPch p g s).island = s.island := rfl
@[simp] theorem State.modPch_thal (p : Nat) (g : PchRec → PchRec) : (State.modPch p g s).thal = s.thal := rfl
@[simp] theorem State.modPch_can (p : Nat) (g : PchRec → PchRec) : (State.modPch p g s).can = s.can := rfl
@[simp] theorem State.modPch_cmdq (p : Nat) (g : PchRec → PchRec) : (State.modPch p g s).cmdq = s.cmdq := rfl
@[simp] theorem State.modPch_dma (p : Nat) (g : PchRec → PchRec) : (State.modPch p g s).dma = s.dma := rfl
@[simp] theorem State.modPch_twin (p : Nat) (g : PchRec → PchRec) : (State.modPch p g s).twin = s.twin := rfl
@[simp] theorem State.modPch_eth (p : Nat) (g : PchRec → PchRec) : (State.modPch p g s).eth = s.eth := rfl
@[simp] theorem State.modPch_pwr (p : Nat) (g : PchRec → PchRec) : (State.modPch p g s).pwr = s.pwr := rfl
@[simp] theorem State.modPch_sec (p : Nat) (g : PchRec → PchRec) : (State.modPch p g s).sec = s.sec := rfl
@[simp] theorem State.modPch_hostMem (p : Nat) (g : PchRec → PchRec) : (State.modPch p g s).hostMem = s.hostMem := rfl
@[simp] theorem State.modPch_out (p : Nat) (g : PchRec → PchRec) : (State.modPch p g s).out = s.out := rfl
@[simp] theorem State.modPch_freeCtr (p : Nat) (g : PchRec → PchRec) : (State.modPch p g s).freeCtr = s.freeCtr := rfl
@[simp] theorem State.modPch_pending (p : Nat) (g : PchRec → PchRec) : (State.modPch p g s).pending = s.pending := rfl

@[simp] theorem State.modChmap_pins (l : Nat) (g : ChMap → ChMap) : (State.modChmap l g s).pins = s.pins := rfl
@[simp] theorem State.modChmap_gctl (l : Nat) (g : ChMap → ChMap) : (State.modChmap l g s).gctl = s.gctl := rfl
@[simp] theorem State.modChmap_loop (l : Nat) (g : ChMap → ChMap) : (State.modChmap l g s).loop = s.loop := rfl
@[simp] theorem State.modChmap_sched (l : Nat) (g : ChMap → ChMap) : (State.modChmap l g s).sched = s.sched := rfl
@[simp] theorem State.modChmap_fronds (l : Nat) (g : ChMap → ChMap) : (State.modChmap l g s).fronds = s.fronds := rfl
@[simp] theorem State.modChmap_island (l : Nat) (g : ChMap → ChMap) : (State.modChmap l g s).island = s.island := rfl
@[simp] theorem State.modChmap_thal (l : Nat) (g : ChMap → ChMap) : (State.modChmap l g s).thal = s.thal := rfl
@[simp] theorem State.modChmap_can (l : Nat) (g : ChMap → ChMap) : (State.modChmap l g s).can = s.can := rfl
@[simp] theorem State.modChmap_cmdq (l : Nat) (g : ChMap → ChMap) : (State.modChmap l g s).cmdq = s.cmdq := rfl
@[simp] theorem State.modChmap_dma (l : Nat) (g : ChMap → ChMap) : (State.modChmap l g s).dma = s.dma := rfl
@[simp] theorem State.modChmap_twin (l : Nat) (g : ChMap → ChMap) : (State.modChmap l g s).twin = s.twin := rfl
@[simp] theorem State.modChmap_eth (l : Nat) (g : ChMap → ChMap) : (State.modChmap l g s).eth = s.eth := rfl
@[simp] theorem State.modChmap_pwr (l : Nat) (g : ChMap → ChMap) : (State.modChmap l g s).pwr = s.pwr := rfl
@[simp] theorem State.modChmap_sec (l : Nat) (g : ChMap → ChMap) : (State.modChmap l g s).sec = s.sec := rfl
@[simp] theorem State.modChmap_hostMem (l : Nat) (g : ChMap → ChMap) : (State.modChmap l g s).hostMem = s.hostMem := rfl
@[simp] theorem State.modChmap_out (l : Nat) (g : ChMap → ChMap) : (State.modChmap l g s).out = s.out := rfl
@[simp] theorem State.modChmap_freeCtr (l : Nat) (g : ChMap → ChMap) : (State.modChmap l g s).freeCtr = s.freeCtr := rfl
@[simp] theorem State.modChmap_pending (l : Nat) (g : ChMap → ChMap) : (State.modChmap l g s).pending = s.pending := rfl

@[simp] theorem State.modTwinPipe_pins (p : Nat) (g : TwinPipe → TwinPipe) : (State.modTwinPipe p g s).pins = s.pins := rfl
@[simp] theorem State.modTwinPipe_gctl (p : Nat) (g : TwinPipe → TwinPipe) : (State.modTwinPipe p g s).gctl = s.gctl := rfl
@[simp] theorem State.modTwinPipe_loop (p : Nat) (g : TwinPipe → TwinPipe) : (State.modTwinPipe p g s).loop = s.loop := rfl
@[simp] theorem State.modTwinPipe_sched (p : Nat) (g : TwinPipe → TwinPipe) : (State.modTwinPipe p g s).sched = s.sched := rfl
@[simp] theorem State.modTwinPipe_fronds (p : Nat) (g : TwinPipe → TwinPipe) : (State.modTwinPipe p g s).fronds = s.fronds := rfl
@[simp] theorem State.modTwinPipe_island (p : Nat) (g : TwinPipe → TwinPipe) : (State.modTwinPipe p g s).island = s.island := rfl
@[simp] theorem State.modTwinPipe_thal (p : Nat) (g : TwinPipe → TwinPipe) : (State.modTwinPipe p g s).thal = s.thal := rfl
@[simp] theorem State.modTwinPipe_can (p : Nat) (g : TwinPipe → TwinPipe) : (State.modTwinPipe p g s).can = s.can := rfl
@[simp] theorem State.modTwinPipe_cmdq (p : Nat) (g : TwinPipe → TwinPipe) : (State.modTwinPipe p g s).cmdq = s.cmdq := rfl
@[simp] theorem State.modTwinPipe_dma (p : Nat) (g : TwinPipe → TwinPipe) : (State.modTwinPipe p g s).dma = s.dma := rfl
@[simp] theorem State.modTwinPipe_mem (p : Nat) (g : TwinPipe → TwinPipe) : (State.modTwinPipe p g s).mem = s.mem := rfl
@[simp] theorem State.modTwinPipe_eth (p : Nat) (g : TwinPipe → TwinPipe) : (State.modTwinPipe p g s).eth = s.eth := rfl
@[simp] theorem State.modTwinPipe_pwr (p : Nat) (g : TwinPipe → TwinPipe) : (State.modTwinPipe p g s).pwr = s.pwr := rfl
@[simp] theorem State.modTwinPipe_sec (p : Nat) (g : TwinPipe → TwinPipe) : (State.modTwinPipe p g s).sec = s.sec := rfl
@[simp] theorem State.modTwinPipe_hostMem (p : Nat) (g : TwinPipe → TwinPipe) : (State.modTwinPipe p g s).hostMem = s.hostMem := rfl
@[simp] theorem State.modTwinPipe_out (p : Nat) (g : TwinPipe → TwinPipe) : (State.modTwinPipe p g s).out = s.out := rfl
@[simp] theorem State.modTwinPipe_freeCtr (p : Nat) (g : TwinPipe → TwinPipe) : (State.modTwinPipe p g s).freeCtr = s.freeCtr := rfl
@[simp] theorem State.modTwinPipe_pending (p : Nat) (g : TwinPipe → TwinPipe) : (State.modTwinPipe p g s).pending = s.pending := rfl

@[simp] theorem State.modPort_pins (n : Nat) (g : EthRec → EthRec) : (State.modPort n g s).pins = s.pins := rfl
@[simp] theorem State.modPort_gctl (n : Nat) (g : EthRec → EthRec) : (State.modPort n g s).gctl = s.gctl := rfl
@[simp] theorem State.modPort_loop (n : Nat) (g : EthRec → EthRec) : (State.modPort n g s).loop = s.loop := rfl
@[simp] theorem State.modPort_sched (n : Nat) (g : EthRec → EthRec) : (State.modPort n g s).sched = s.sched := rfl
@[simp] theorem State.modPort_fronds (n : Nat) (g : EthRec → EthRec) : (State.modPort n g s).fronds = s.fronds := rfl
@[simp] theorem State.modPort_island (n : Nat) (g : EthRec → EthRec) : (State.modPort n g s).island = s.island := rfl
@[simp] theorem State.modPort_thal (n : Nat) (g : EthRec → EthRec) : (State.modPort n g s).thal = s.thal := rfl
@[simp] theorem State.modPort_can (n : Nat) (g : EthRec → EthRec) : (State.modPort n g s).can = s.can := rfl
@[simp] theorem State.modPort_cmdq (n : Nat) (g : EthRec → EthRec) : (State.modPort n g s).cmdq = s.cmdq := rfl
@[simp] theorem State.modPort_dma (n : Nat) (g : EthRec → EthRec) : (State.modPort n g s).dma = s.dma := rfl
@[simp] theorem State.modPort_mem (n : Nat) (g : EthRec → EthRec) : (State.modPort n g s).mem = s.mem := rfl
@[simp] theorem State.modPort_twin (n : Nat) (g : EthRec → EthRec) : (State.modPort n g s).twin = s.twin := rfl
@[simp] theorem State.modPort_pwr (n : Nat) (g : EthRec → EthRec) : (State.modPort n g s).pwr = s.pwr := rfl
@[simp] theorem State.modPort_sec (n : Nat) (g : EthRec → EthRec) : (State.modPort n g s).sec = s.sec := rfl
@[simp] theorem State.modPort_hostMem (n : Nat) (g : EthRec → EthRec) : (State.modPort n g s).hostMem = s.hostMem := rfl
@[simp] theorem State.modPort_out (n : Nat) (g : EthRec → EthRec) : (State.modPort n g s).out = s.out := rfl
@[simp] theorem State.modPort_freeCtr (n : Nat) (g : EthRec → EthRec) : (State.modPort n g s).freeCtr = s.freeCtr := rfl
@[simp] theorem State.modPort_pending (n : Nat) (g : EthRec → EthRec) : (State.modPort n g s).pending = s.pending := rfl

@[simp] theorem State.modTx_pins (n i : Nat) (g : TxRec → TxRec) : (State.modTx n i g s).pins = s.pins := rfl
@[simp] theorem State.modTx_gctl (n i : Nat) (g : TxRec → TxRec) : (State.modTx n i g s).gctl = s.gctl := rfl
@[simp] theorem State.modTx_loop (n i : Nat) (g : TxRec → TxRec) : (State.modTx n i g s).loop = s.loop := rfl
@[simp] theorem State.modTx_sched (n i : Nat) (g : TxRec → TxRec) : (State.modTx n i g s).sched = s.sched := rfl
@[simp] theorem State.modTx_fronds (n i : Nat) (g : TxRec → TxRec) : (State.modTx n i g s).fronds = s.fronds := rfl
@[simp] theorem State.modTx_island (n i : Nat) (g : TxRec → TxRec) : (State.modTx n i g s).island = s.island := rfl
@[simp] theorem State.modTx_thal (n i : Nat) (g : TxRec → TxRec) : (State.modTx n i g s).thal = s.thal := rfl
@[simp] theorem State.modTx_can (n i : Nat) (g : TxRec → TxRec) : (State.modTx n i g s).can = s.can := rfl
@[simp] theorem State.modTx_cmdq (n i : Nat) (g : TxRec → TxRec) : (State.modTx n i g s).cmdq = s.cmdq := rfl
@[simp] theorem State.modTx_dma (n i : Nat) (g : TxRec → TxRec) : (State.modTx n i g s).dma = s.dma := rfl
@[simp] theorem State.modTx_mem (n i : Nat) (g : TxRec → TxRec) : (State.modTx n i g s).mem = s.mem := rfl
@[simp] theorem State.modTx_twin (n i : Nat) (g : TxRec → TxRec) : (State.modTx n i g s).twin = s.twin := rfl
@[simp] theorem State.modTx_pwr (n i : Nat) (g : TxRec → TxRec) : (State.modTx n i g s).pwr = s.pwr := rfl
@[simp] theorem State.modTx_sec (n i : Nat) (g : TxRec → TxRec) : (State.modTx n i g s).sec = s.sec := rfl
@[simp] theorem State.modTx_hostMem (n i : Nat) (g : TxRec → TxRec) : (State.modTx n i g s).hostMem = s.hostMem := rfl
@[simp] theorem State.modTx_out (n i : Nat) (g : TxRec → TxRec) : (State.modTx n i g s).out = s.out := rfl
@[simp] theorem State.modTx_freeCtr (n i : Nat) (g : TxRec → TxRec) : (State.modTx n i g s).freeCtr = s.freeCtr := rfl
@[simp] theorem State.modTx_pending (n i : Nat) (g : TxRec → TxRec) : (State.modTx n i g s).pending = s.pending := rfl

@[simp] theorem State.modQp_pins (n : Nat) (g : QpRec → QpRec) : (State.modQp n g s).pins = s.pins := rfl
@[simp] theorem State.modQp_gctl (n : Nat) (g : QpRec → QpRec) : (State.modQp n g s).gctl = s.gctl := rfl
@[simp] theorem State.modQp_loop (n : Nat) (g : QpRec → QpRec) : (State.modQp n g s).loop = s.loop := rfl
@[simp] theorem State.modQp_sched (n : Nat) (g : QpRec → QpRec) : (State.modQp n g s).sched = s.sched := rfl
@[simp] theorem State.modQp_fronds (n : Nat) (g : QpRec → QpRec) : (State.modQp n g s).fronds = s.fronds := rfl
@[simp] theorem State.modQp_island (n : Nat) (g : QpRec → QpRec) : (State.modQp n g s).island = s.island := rfl
@[simp] theorem State.modQp_thal (n : Nat) (g : QpRec → QpRec) : (State.modQp n g s).thal = s.thal := rfl
@[simp] theorem State.modQp_can (n : Nat) (g : QpRec → QpRec) : (State.modQp n g s).can = s.can := rfl
@[simp] theorem State.modQp_cmdq (n : Nat) (g : QpRec → QpRec) : (State.modQp n g s).cmdq = s.cmdq := rfl
@[simp] theorem State.modQp_dma (n : Nat) (g : QpRec → QpRec) : (State.modQp n g s).dma = s.dma := rfl
@[simp] theorem State.modQp_mem (n : Nat) (g : QpRec → QpRec) : (State.modQp n g s).mem = s.mem := rfl
@[simp] theorem State.modQp_twin (n : Nat) (g : QpRec → QpRec) : (State.modQp n g s).twin = s.twin := rfl
@[simp] theorem State.modQp_pwr (n : Nat) (g : QpRec → QpRec) : (State.modQp n g s).pwr = s.pwr := rfl
@[simp] theorem State.modQp_sec (n : Nat) (g : QpRec → QpRec) : (State.modQp n g s).sec = s.sec := rfl
@[simp] theorem State.modQp_hostMem (n : Nat) (g : QpRec → QpRec) : (State.modQp n g s).hostMem = s.hostMem := rfl
@[simp] theorem State.modQp_out (n : Nat) (g : QpRec → QpRec) : (State.modQp n g s).out = s.out := rfl
@[simp] theorem State.modQp_freeCtr (n : Nat) (g : QpRec → QpRec) : (State.modQp n g s).freeCtr = s.freeCtr := rfl
@[simp] theorem State.modQp_pending (n : Nat) (g : QpRec → QpRec) : (State.modQp n g s).pending = s.pending := rfl

@[simp] theorem State.modMkey_pins (k : Nat) (g : MkeyRec → MkeyRec) : (State.modMkey k g s).pins = s.pins := rfl
@[simp] theorem State.modMkey_gctl (k : Nat) (g : MkeyRec → MkeyRec) : (State.modMkey k g s).gctl = s.gctl := rfl
@[simp] theorem State.modMkey_loop (k : Nat) (g : MkeyRec → MkeyRec) : (State.modMkey k g s).loop = s.loop := rfl
@[simp] theorem State.modMkey_sched (k : Nat) (g : MkeyRec → MkeyRec) : (State.modMkey k g s).sched = s.sched := rfl
@[simp] theorem State.modMkey_fronds (k : Nat) (g : MkeyRec → MkeyRec) : (State.modMkey k g s).fronds = s.fronds := rfl
@[simp] theorem State.modMkey_island (k : Nat) (g : MkeyRec → MkeyRec) : (State.modMkey k g s).island = s.island := rfl
@[simp] theorem State.modMkey_thal (k : Nat) (g : MkeyRec → MkeyRec) : (State.modMkey k g s).thal = s.thal := rfl
@[simp] theorem State.modMkey_can (k : Nat) (g : MkeyRec → MkeyRec) : (State.modMkey k g s).can = s.can := rfl
@[simp] theorem State.modMkey_cmdq (k : Nat) (g : MkeyRec → MkeyRec) : (State.modMkey k g s).cmdq = s.cmdq := rfl
@[simp] theorem State.modMkey_dma (k : Nat) (g : MkeyRec → MkeyRec) : (State.modMkey k g s).dma = s.dma := rfl
@[simp] theorem State.modMkey_mem (k : Nat) (g : MkeyRec → MkeyRec) : (State.modMkey k g s).mem = s.mem := rfl
@[simp] theorem State.modMkey_twin (k : Nat) (g : MkeyRec → MkeyRec) : (State.modMkey k g s).twin = s.twin := rfl
@[simp] theorem State.modMkey_pwr (k : Nat) (g : MkeyRec → MkeyRec) : (State.modMkey k g s).pwr = s.pwr := rfl
@[simp] theorem State.modMkey_sec (k : Nat) (g : MkeyRec → MkeyRec) : (State.modMkey k g s).sec = s.sec := rfl
@[simp] theorem State.modMkey_hostMem (k : Nat) (g : MkeyRec → MkeyRec) : (State.modMkey k g s).hostMem = s.hostMem := rfl
@[simp] theorem State.modMkey_out (k : Nat) (g : MkeyRec → MkeyRec) : (State.modMkey k g s).out = s.out := rfl
@[simp] theorem State.modMkey_freeCtr (k : Nat) (g : MkeyRec → MkeyRec) : (State.modMkey k g s).freeCtr = s.freeCtr := rfl
@[simp] theorem State.modMkey_pending (k : Nat) (g : MkeyRec → MkeyRec) : (State.modMkey k g s).pending = s.pending := rfl

@[simp] theorem State.modQuad_pins (q : Nat) (g : QuadRec → QuadRec) : (State.modQuad q g s).pins = s.pins := rfl
@[simp] theorem State.modQuad_gctl (q : Nat) (g : QuadRec → QuadRec) : (State.modQuad q g s).gctl = s.gctl := rfl
@[simp] theorem State.modQuad_loop (q : Nat) (g : QuadRec → QuadRec) : (State.modQuad q g s).loop = s.loop := rfl
@[simp] theorem State.modQuad_sched (q : Nat) (g : QuadRec → QuadRec) : (State.modQuad q g s).sched = s.sched := rfl
@[simp] theorem State.modQuad_fronds (q : Nat) (g : QuadRec → QuadRec) : (State.modQuad q g s).fronds = s.fronds := rfl
@[simp] theorem State.modQuad_island (q : Nat) (g : QuadRec → QuadRec) : (State.modQuad q g s).island = s.island := rfl
@[simp] theorem State.modQuad_thal (q : Nat) (g : QuadRec → QuadRec) : (State.modQuad q g s).thal = s.thal := rfl
@[simp] theorem State.modQuad_can (q : Nat) (g : QuadRec → QuadRec) : (State.modQuad q g s).can = s.can := rfl
@[simp] theorem State.modQuad_cmdq (q : Nat) (g : QuadRec → QuadRec) : (State.modQuad q g s).cmdq = s.cmdq := rfl
@[simp] theorem State.modQuad_dma (q : Nat) (g : QuadRec → QuadRec) : (State.modQuad q g s).dma = s.dma := rfl
@[simp] theorem State.modQuad_mem (q : Nat) (g : QuadRec → QuadRec) : (State.modQuad q g s).mem = s.mem := rfl
@[simp] theorem State.modQuad_twin (q : Nat) (g : QuadRec → QuadRec) : (State.modQuad q g s).twin = s.twin := rfl
@[simp] theorem State.modQuad_eth (q : Nat) (g : QuadRec → QuadRec) : (State.modQuad q g s).eth = s.eth := rfl
@[simp] theorem State.modQuad_sec (q : Nat) (g : QuadRec → QuadRec) : (State.modQuad q g s).sec = s.sec := rfl
@[simp] theorem State.modQuad_hostMem (q : Nat) (g : QuadRec → QuadRec) : (State.modQuad q g s).hostMem = s.hostMem := rfl
@[simp] theorem State.modQuad_out (q : Nat) (g : QuadRec → QuadRec) : (State.modQuad q g s).out = s.out := rfl
@[simp] theorem State.modQuad_freeCtr (q : Nat) (g : QuadRec → QuadRec) : (State.modQuad q g s).freeCtr = s.freeCtr := rfl
@[simp] theorem State.modQuad_pending (q : Nat) (g : QuadRec → QuadRec) : (State.modQuad q g s).pending = s.pending := rfl

@[simp] theorem State.modDroop_pins (p : Nat) (g : DroopRec → DroopRec) : (State.modDroop p g s).pins = s.pins := rfl
@[simp] theorem State.modDroop_gctl (p : Nat) (g : DroopRec → DroopRec) : (State.modDroop p g s).gctl = s.gctl := rfl
@[simp] theorem State.modDroop_loop (p : Nat) (g : DroopRec → DroopRec) : (State.modDroop p g s).loop = s.loop := rfl
@[simp] theorem State.modDroop_sched (p : Nat) (g : DroopRec → DroopRec) : (State.modDroop p g s).sched = s.sched := rfl
@[simp] theorem State.modDroop_fronds (p : Nat) (g : DroopRec → DroopRec) : (State.modDroop p g s).fronds = s.fronds := rfl
@[simp] theorem State.modDroop_island (p : Nat) (g : DroopRec → DroopRec) : (State.modDroop p g s).island = s.island := rfl
@[simp] theorem State.modDroop_thal (p : Nat) (g : DroopRec → DroopRec) : (State.modDroop p g s).thal = s.thal := rfl
@[simp] theorem State.modDroop_can (p : Nat) (g : DroopRec → DroopRec) : (State.modDroop p g s).can = s.can := rfl
@[simp] theorem State.modDroop_cmdq (p : Nat) (g : DroopRec → DroopRec) : (State.modDroop p g s).cmdq = s.cmdq := rfl
@[simp] theorem State.modDroop_dma (p : Nat) (g : DroopRec → DroopRec) : (State.modDroop p g s).dma = s.dma := rfl
@[simp] theorem State.modDroop_mem (p : Nat) (g : DroopRec → DroopRec) : (State.modDroop p g s).mem = s.mem := rfl
@[simp] theorem State.modDroop_twin (p : Nat) (g : DroopRec → DroopRec) : (State.modDroop p g s).twin = s.twin := rfl
@[simp] theorem State.modDroop_eth (p : Nat) (g : DroopRec → DroopRec) : (State.modDroop p g s).eth = s.eth := rfl
@[simp] theorem State.modDroop_sec (p : Nat) (g : DroopRec → DroopRec) : (State.modDroop p g s).sec = s.sec := rfl
@[simp] theorem State.modDroop_hostMem (p : Nat) (g : DroopRec → DroopRec) : (State.modDroop p g s).hostMem = s.hostMem := rfl
@[simp] theorem State.modDroop_out (p : Nat) (g : DroopRec → DroopRec) : (State.modDroop p g s).out = s.out := rfl
@[simp] theorem State.modDroop_freeCtr (p : Nat) (g : DroopRec → DroopRec) : (State.modDroop p g s).freeCtr = s.freeCtr := rfl
@[simp] theorem State.modDroop_pending (p : Nat) (g : DroopRec → DroopRec) : (State.modDroop p g s).pending = s.pending := rfl

@[simp] theorem State.modObw_pins (w : Nat) (g : ObWin → ObWin) : (State.modObw w g s).pins = s.pins := rfl
@[simp] theorem State.modObw_loop (w : Nat) (g : ObWin → ObWin) : (State.modObw w g s).loop = s.loop := rfl
@[simp] theorem State.modObw_sched (w : Nat) (g : ObWin → ObWin) : (State.modObw w g s).sched = s.sched := rfl
@[simp] theorem State.modObw_fronds (w : Nat) (g : ObWin → ObWin) : (State.modObw w g s).fronds = s.fronds := rfl
@[simp] theorem State.modObw_island (w : Nat) (g : ObWin → ObWin) : (State.modObw w g s).island = s.island := rfl
@[simp] theorem State.modObw_thal (w : Nat) (g : ObWin → ObWin) : (State.modObw w g s).thal = s.thal := rfl
@[simp] theorem State.modObw_can (w : Nat) (g : ObWin → ObWin) : (State.modObw w g s).can = s.can := rfl
@[simp] theorem State.modObw_cmdq (w : Nat) (g : ObWin → ObWin) : (State.modObw w g s).cmdq = s.cmdq := rfl
@[simp] theorem State.modObw_dma (w : Nat) (g : ObWin → ObWin) : (State.modObw w g s).dma = s.dma := rfl
@[simp] theorem State.modObw_mem (w : Nat) (g : ObWin → ObWin) : (State.modObw w g s).mem = s.mem := rfl
@[simp] theorem State.modObw_twin (w : Nat) (g : ObWin → ObWin) : (State.modObw w g s).twin = s.twin := rfl
@[simp] theorem State.modObw_eth (w : Nat) (g : ObWin → ObWin) : (State.modObw w g s).eth = s.eth := rfl
@[simp] theorem State.modObw_pwr (w : Nat) (g : ObWin → ObWin) : (State.modObw w g s).pwr = s.pwr := rfl
@[simp] theorem State.modObw_sec (w : Nat) (g : ObWin → ObWin) : (State.modObw w g s).sec = s.sec := rfl
@[simp] theorem State.modObw_hostMem (w : Nat) (g : ObWin → ObWin) : (State.modObw w g s).hostMem = s.hostMem := rfl
@[simp] theorem State.modObw_out (w : Nat) (g : ObWin → ObWin) : (State.modObw w g s).out = s.out := rfl
@[simp] theorem State.modObw_freeCtr (w : Nat) (g : ObWin → ObWin) : (State.modObw w g s).freeCtr = s.freeCtr := rfl
@[simp] theorem State.modObw_pending (w : Nat) (g : ObWin → ObWin) : (State.modObw w g s).pending = s.pending := rfl

@[simp] theorem report_pins (r : FaultRec) : (report r s).pins = s.pins := rfl
@[simp] theorem report_gctl (r : FaultRec) : (report r s).gctl = s.gctl := rfl
@[simp] theorem report_loop (r : FaultRec) : (report r s).loop = s.loop := rfl
@[simp] theorem report_sched (r : FaultRec) : (report r s).sched = s.sched := rfl
@[simp] theorem report_fronds (r : FaultRec) : (report r s).fronds = s.fronds := rfl
@[simp] theorem report_island (r : FaultRec) : (report r s).island = s.island := rfl
@[simp] theorem report_can (r : FaultRec) : (report r s).can = s.can := rfl
@[simp] theorem report_cmdq (r : FaultRec) : (report r s).cmdq = s.cmdq := rfl
@[simp] theorem report_dma (r : FaultRec) : (report r s).dma = s.dma := rfl
@[simp] theorem report_mem (r : FaultRec) : (report r s).mem = s.mem := rfl
@[simp] theorem report_twin (r : FaultRec) : (report r s).twin = s.twin := rfl
@[simp] theorem report_eth (r : FaultRec) : (report r s).eth = s.eth := rfl
@[simp] theorem report_pwr (r : FaultRec) : (report r s).pwr = s.pwr := rfl
@[simp] theorem report_sec (r : FaultRec) : (report r s).sec = s.sec := rfl
@[simp] theorem report_hostMem (r : FaultRec) : (report r s).hostMem = s.hostMem := rfl
@[simp] theorem report_out (r : FaultRec) : (report r s).out = s.out := rfl
@[simp] theorem report_freeCtr (r : FaultRec) : (report r s).freeCtr = s.freeCtr := rfl
@[simp] theorem report_pending (r : FaultRec) : (report r s).pending = s.pending := rfl

@[simp] theorem emit_pins (e : Emit) : (emit e s).pins = s.pins := rfl
@[simp] theorem emit_gctl (e : Emit) : (emit e s).gctl = s.gctl := rfl
@[simp] theorem emit_loop (e : Emit) : (emit e s).loop = s.loop := rfl
@[simp] theorem emit_sched (e : Emit) : (emit e s).sched = s.sched := rfl
@[simp] theorem emit_fronds (e : Emit) : (emit e s).fronds = s.fronds := rfl
@[simp] theorem emit_island (e : Emit) : (emit e s).island = s.island := rfl
@[simp] theorem emit_thal (e : Emit) : (emit e s).thal = s.thal := rfl
@[simp] theorem emit_can (e : Emit) : (emit e s).can = s.can := rfl
@[simp] theorem emit_cmdq (e : Emit) : (emit e s).cmdq = s.cmdq := rfl
@[simp] theorem emit_dma (e : Emit) : (emit e s).dma = s.dma := rfl
@[simp] theorem emit_mem (e : Emit) : (emit e s).mem = s.mem := rfl
@[simp] theorem emit_twin (e : Emit) : (emit e s).twin = s.twin := rfl
@[simp] theorem emit_eth (e : Emit) : (emit e s).eth = s.eth := rfl
@[simp] theorem emit_pwr (e : Emit) : (emit e s).pwr = s.pwr := rfl
@[simp] theorem emit_sec (e : Emit) : (emit e s).sec = s.sec := rfl
@[simp] theorem emit_hostMem (e : Emit) : (emit e s).hostMem = s.hostMem := rfl
@[simp] theorem emit_freeCtr (e : Emit) : (emit e s).freeCtr = s.freeCtr := rfl
@[simp] theorem emit_pending (e : Emit) : (emit e s).pending = s.pending := rfl

@[simp] theorem putMem_pins (a : Nat) (d : List Byte) : (putMem a d s).pins = s.pins := rfl
@[simp] theorem putMem_gctl (a : Nat) (d : List Byte) : (putMem a d s).gctl = s.gctl := rfl
@[simp] theorem putMem_loop (a : Nat) (d : List Byte) : (putMem a d s).loop = s.loop := rfl
@[simp] theorem putMem_sched (a : Nat) (d : List Byte) : (putMem a d s).sched = s.sched := rfl
@[simp] theorem putMem_fronds (a : Nat) (d : List Byte) : (putMem a d s).fronds = s.fronds := rfl
@[simp] theorem putMem_island (a : Nat) (d : List Byte) : (putMem a d s).island = s.island := rfl
@[simp] theorem putMem_thal (a : Nat) (d : List Byte) : (putMem a d s).thal = s.thal := rfl
@[simp] theorem putMem_can (a : Nat) (d : List Byte) : (putMem a d s).can = s.can := rfl
@[simp] theorem putMem_cmdq (a : Nat) (d : List Byte) : (putMem a d s).cmdq = s.cmdq := rfl
@[simp] theorem putMem_dma (a : Nat) (d : List Byte) : (putMem a d s).dma = s.dma := rfl
@[simp] theorem putMem_twin (a : Nat) (d : List Byte) : (putMem a d s).twin = s.twin := rfl
@[simp] theorem putMem_eth (a : Nat) (d : List Byte) : (putMem a d s).eth = s.eth := rfl
@[simp] theorem putMem_pwr (a : Nat) (d : List Byte) : (putMem a d s).pwr = s.pwr := rfl
@[simp] theorem putMem_sec (a : Nat) (d : List Byte) : (putMem a d s).sec = s.sec := rfl
@[simp] theorem putMem_hostMem (a : Nat) (d : List Byte) : (putMem a d s).hostMem = s.hostMem := rfl
@[simp] theorem putMem_out (a : Nat) (d : List Byte) : (putMem a d s).out = s.out := rfl
@[simp] theorem putMem_freeCtr (a : Nat) (d : List Byte) : (putMem a d s).freeCtr = s.freeCtr := rfl
@[simp] theorem putMem_pending (a : Nat) (d : List Byte) : (putMem a d s).pending = s.pending := rfl

@[simp] theorem setLineMeta_pins (i : Nat) (p w : Bool) : (setLineMeta i p w s).pins = s.pins := rfl
@[simp] theorem setLineMeta_gctl (i : Nat) (p w : Bool) : (setLineMeta i p w s).gctl = s.gctl := rfl
@[simp] theorem setLineMeta_loop (i : Nat) (p w : Bool) : (setLineMeta i p w s).loop = s.loop := rfl
@[simp] theorem setLineMeta_sched (i : Nat) (p w : Bool) : (setLineMeta i p w s).sched = s.sched := rfl
@[simp] theorem setLineMeta_fronds (i : Nat) (p w : Bool) : (setLineMeta i p w s).fronds = s.fronds := rfl
@[simp] theorem setLineMeta_island (i : Nat) (p w : Bool) : (setLineMeta i p w s).island = s.island := rfl
@[simp] theorem setLineMeta_thal (i : Nat) (p w : Bool) : (setLineMeta i p w s).thal = s.thal := rfl
@[simp] theorem setLineMeta_can (i : Nat) (p w : Bool) : (setLineMeta i p w s).can = s.can := rfl
@[simp] theorem setLineMeta_cmdq (i : Nat) (p w : Bool) : (setLineMeta i p w s).cmdq = s.cmdq := rfl
@[simp] theorem setLineMeta_dma (i : Nat) (p w : Bool) : (setLineMeta i p w s).dma = s.dma := rfl
@[simp] theorem setLineMeta_twin (i : Nat) (p w : Bool) : (setLineMeta i p w s).twin = s.twin := rfl
@[simp] theorem setLineMeta_eth (i : Nat) (p w : Bool) : (setLineMeta i p w s).eth = s.eth := rfl
@[simp] theorem setLineMeta_pwr (i : Nat) (p w : Bool) : (setLineMeta i p w s).pwr = s.pwr := rfl
@[simp] theorem setLineMeta_sec (i : Nat) (p w : Bool) : (setLineMeta i p w s).sec = s.sec := rfl
@[simp] theorem setLineMeta_hostMem (i : Nat) (p w : Bool) : (setLineMeta i p w s).hostMem = s.hostMem := rfl
@[simp] theorem setLineMeta_out (i : Nat) (p w : Bool) : (setLineMeta i p w s).out = s.out := rfl
@[simp] theorem setLineMeta_freeCtr (i : Nat) (p w : Bool) : (setLineMeta i p w s).freeCtr = s.freeCtr := rfl
@[simp] theorem setLineMeta_pending (i : Nat) (p w : Bool) : (setLineMeta i p w s).pending = s.pending := rfl

@[simp] theorem putHost_pins (a : Nat) (d : List Byte) : (putHost a d s).pins = s.pins := rfl
@[simp] theorem putHost_gctl (a : Nat) (d : List Byte) : (putHost a d s).gctl = s.gctl := rfl
@[simp] theorem putHost_loop (a : Nat) (d : List Byte) : (putHost a d s).loop = s.loop := rfl
@[simp] theorem putHost_sched (a : Nat) (d : List Byte) : (putHost a d s).sched = s.sched := rfl
@[simp] theorem putHost_fronds (a : Nat) (d : List Byte) : (putHost a d s).fronds = s.fronds := rfl
@[simp] theorem putHost_island (a : Nat) (d : List Byte) : (putHost a d s).island = s.island := rfl
@[simp] theorem putHost_thal (a : Nat) (d : List Byte) : (putHost a d s).thal = s.thal := rfl
@[simp] theorem putHost_can (a : Nat) (d : List Byte) : (putHost a d s).can = s.can := rfl
@[simp] theorem putHost_cmdq (a : Nat) (d : List Byte) : (putHost a d s).cmdq = s.cmdq := rfl
@[simp] theorem putHost_dma (a : Nat) (d : List Byte) : (putHost a d s).dma = s.dma := rfl
@[simp] theorem putHost_mem (a : Nat) (d : List Byte) : (putHost a d s).mem = s.mem := rfl
@[simp] theorem putHost_twin (a : Nat) (d : List Byte) : (putHost a d s).twin = s.twin := rfl
@[simp] theorem putHost_eth (a : Nat) (d : List Byte) : (putHost a d s).eth = s.eth := rfl
@[simp] theorem putHost_pwr (a : Nat) (d : List Byte) : (putHost a d s).pwr = s.pwr := rfl
@[simp] theorem putHost_sec (a : Nat) (d : List Byte) : (putHost a d s).sec = s.sec := rfl
@[simp] theorem putHost_out (a : Nat) (d : List Byte) : (putHost a d s).out = s.out := rfl
@[simp] theorem putHost_freeCtr (a : Nat) (d : List Byte) : (putHost a d s).freeCtr = s.freeCtr := rfl
@[simp] theorem putHost_pending (a : Nat) (d : List Byte) : (putHost a d s).pending = s.pending := rfl

@[simp] theorem putSram_pins (o : Nat) (d : List Byte) : (putSram o d s).pins = s.pins := rfl
@[simp] theorem putSram_gctl (o : Nat) (d : List Byte) : (putSram o d s).gctl = s.gctl := rfl
@[simp] theorem putSram_loop (o : Nat) (d : List Byte) : (putSram o d s).loop = s.loop := rfl
@[simp] theorem putSram_sched (o : Nat) (d : List Byte) : (putSram o d s).sched = s.sched := rfl
@[simp] theorem putSram_fronds (o : Nat) (d : List Byte) : (putSram o d s).fronds = s.fronds := rfl
@[simp] theorem putSram_island (o : Nat) (d : List Byte) : (putSram o d s).island = s.island := rfl
@[simp] theorem putSram_thal (o : Nat) (d : List Byte) : (putSram o d s).thal = s.thal := rfl
@[simp] theorem putSram_can (o : Nat) (d : List Byte) : (putSram o d s).can = s.can := rfl
@[simp] theorem putSram_dma (o : Nat) (d : List Byte) : (putSram o d s).dma = s.dma := rfl
@[simp] theorem putSram_mem (o : Nat) (d : List Byte) : (putSram o d s).mem = s.mem := rfl
@[simp] theorem putSram_twin (o : Nat) (d : List Byte) : (putSram o d s).twin = s.twin := rfl
@[simp] theorem putSram_eth (o : Nat) (d : List Byte) : (putSram o d s).eth = s.eth := rfl
@[simp] theorem putSram_pwr (o : Nat) (d : List Byte) : (putSram o d s).pwr = s.pwr := rfl
@[simp] theorem putSram_sec (o : Nat) (d : List Byte) : (putSram o d s).sec = s.sec := rfl
@[simp] theorem putSram_hostMem (o : Nat) (d : List Byte) : (putSram o d s).hostMem = s.hostMem := rfl
@[simp] theorem putSram_out (o : Nat) (d : List Byte) : (putSram o d s).out = s.out := rfl
@[simp] theorem putSram_freeCtr (o : Nat) (d : List Byte) : (putSram o d s).freeCtr = s.freeCtr := rfl
@[simp] theorem putSram_pending (o : Nat) (d : List Byte) : (putSram o d s).pending = s.pending := rfl

@[simp] theorem draw_pins (w : Nat) : (draw w s).2.pins = s.pins := rfl
@[simp] theorem draw_gctl (w : Nat) : (draw w s).2.gctl = s.gctl := rfl
@[simp] theorem draw_loop (w : Nat) : (draw w s).2.loop = s.loop := rfl
@[simp] theorem draw_sched (w : Nat) : (draw w s).2.sched = s.sched := rfl
@[simp] theorem draw_fronds (w : Nat) : (draw w s).2.fronds = s.fronds := rfl
@[simp] theorem draw_island (w : Nat) : (draw w s).2.island = s.island := rfl
@[simp] theorem draw_thal (w : Nat) : (draw w s).2.thal = s.thal := rfl
@[simp] theorem draw_can (w : Nat) : (draw w s).2.can = s.can := rfl
@[simp] theorem draw_cmdq (w : Nat) : (draw w s).2.cmdq = s.cmdq := rfl
@[simp] theorem draw_dma (w : Nat) : (draw w s).2.dma = s.dma := rfl
@[simp] theorem draw_mem (w : Nat) : (draw w s).2.mem = s.mem := rfl
@[simp] theorem draw_twin (w : Nat) : (draw w s).2.twin = s.twin := rfl
@[simp] theorem draw_eth (w : Nat) : (draw w s).2.eth = s.eth := rfl
@[simp] theorem draw_pwr (w : Nat) : (draw w s).2.pwr = s.pwr := rfl
@[simp] theorem draw_sec (w : Nat) : (draw w s).2.sec = s.sec := rfl
@[simp] theorem draw_hostMem (w : Nat) : (draw w s).2.hostMem = s.hostMem := rfl
@[simp] theorem draw_out (w : Nat) : (draw w s).2.out = s.out := rfl
@[simp] theorem draw_pending (w : Nat) : (draw w s).2.pending = s.pending := rfl
@[simp] theorem draw_freeCtr (w : Nat) : (draw w s).2.freeCtr = s.freeCtr + 1 := rfl

/-! ### The accessors -/

theorem State.fclk_congr {t : State} (h : t.loop = s.loop) (k : Nat) : t.fclk k = s.fclk k := by simp [State.fclk, h]
theorem State.pipe_congr {t : State} (h : t.loop = s.loop) (k : Nat) : t.pipe k = s.pipe k := by simp [State.pipe, h]
theorem State.stream_congr {t : State} (h : t.loop = s.loop) (k : Nat) : t.stream k = s.stream k := by simp [State.stream, h]
theorem State.csi_congr {t : State} (h : t.loop = s.loop) (k : Nat) : t.csi k = s.csi k := by simp [State.csi, h]
theorem State.prep_congr {t : State} (h : t.loop = s.loop) (k : Nat) : t.prep k = s.prep k := by simp [State.prep, h]
theorem State.frond_congr {t : State} (h : t.fronds = s.fronds) (k : Nat) : t.frond k = s.frond k := by simp [State.frond, h]
theorem State.fp_congr {t : State} (h : t.sched = s.sched) (k : Nat) : t.fp k = s.fp k := by simp [State.fp, h]
theorem State.model_congr {t : State} (h : t.sched = s.sched) (k : Nat) : t.model k = s.model k := by simp [State.model, h]
theorem State.c0_congr {t : State} (h : t.sched = s.sched) (k : Nat) : t.c0 k = s.c0 k := by simp [State.c0, h]
theorem State.ctx_congr {t : State} (h : t.sched = s.sched) (k : Nat) : t.ctx k = s.ctx k := by simp [State.ctx, h]
theorem State.pool_congr {t : State} (h : t.sched = s.sched) (k : Nat) : t.pool k = s.pool k := by simp [State.pool, h]
theorem State.gsync_congr {t : State} (h : t.sched = s.sched) (k : Nat) : t.gsync k = s.gsync k := by simp [State.gsync, h]
theorem State.run_congr {t : State} (h : t.sched = s.sched) (k : Nat) : t.run k = s.run k := by simp [State.run, h]
theorem State.auth_congr {t : State} (h : t.thal = s.thal) (k : Nat) : t.auth k = s.auth k := by simp [State.auth, h]
theorem State.wdog_congr {t : State} (h : t.thal = s.thal) (k : Nat) : t.wdog k = s.wdog k := by simp [State.wdog, h]
theorem State.moss_congr {t : State} (h : t.thal = s.thal) (k : Nat) : t.moss k = s.moss k := by simp [State.moss, h]
theorem State.gov_congr {t : State} (h : t.thal = s.thal) (k : Nat) : t.gov k = s.gov k := by simp [State.gov, h]
theorem State.canc_congr {t : State} (h : t.can = s.can) (k : Nat) : t.canc k = s.canc k := by simp [State.canc, h]
theorem State.sq_congr {t : State} (h : t.cmdq = s.cmdq) (k : Nat) : t.sq k = s.sq k := by simp [State.sq, h]
theorem State.cq_congr {t : State} (h : t.cmdq = s.cmdq) (k : Nat) : t.cq k = s.cq k := by simp [State.cq, h]
theorem State.mbox_congr {t : State} (h : t.cmdq = s.cmdq) (k : Nat) : t.mbox k = s.mbox k := by simp [State.mbox, h]
theorem State.cmd_congr {t : State} (h : t.cmdq = s.cmdq) (k : Nat) : t.cmd k = s.cmd k := by simp [State.cmd, h]
theorem State.dmac_congr {t : State} (h : t.dma = s.dma) (k : Nat) : t.dmac k = s.dmac k := by simp [State.dmac, h]
theorem State.group_congr {t : State} (h : t.mem = s.mem) (k : Nat) : t.group k = s.group k := by simp [State.group, h]
theorem State.pch_congr {t : State} (h : t.mem = s.mem) (k : Nat) : t.pch k = s.pch k := by simp [State.pch, h]
theorem State.chmap_congr {t : State} (h : t.mem = s.mem) (k : Nat) : t.chmap k = s.chmap k := by simp [State.chmap, h]
theorem State.twinPipe_congr {t : State} (h : t.twin = s.twin) (k : Nat) : t.twinPipe k = s.twinPipe k := by simp [State.twinPipe, h]
theorem State.port_congr {t : State} (h : t.eth = s.eth) (k : Nat) : t.port k = s.port k := by simp [State.port, h]
theorem State.qp_congr {t : State} (h : t.eth = s.eth) (k : Nat) : t.qp k = s.qp k := by simp [State.qp, h]
theorem State.mkey_congr {t : State} (h : t.eth = s.eth) (k : Nat) : t.mkey k = s.mkey k := by simp [State.mkey, h]
theorem State.quad_congr {t : State} (h : t.pwr = s.pwr) (k : Nat) : t.quad k = s.quad k := by simp [State.quad, h]
theorem State.droop_congr {t : State} (h : t.pwr = s.pwr) (k : Nat) : t.droop k = s.droop k := by simp [State.droop, h]
theorem State.obw_congr {t : State} (h : t.gctl = s.gctl) (k : Nat) : t.obw k = s.obw k := by simp [State.obw, h]

@[simp] theorem State.modFclk_fclk (n : Nat) (g : FclkRec → FclkRec) : (State.modFclk n g s).fclk n = g (s.fclk n) := by simp [State.modFclk, State.fclk]
theorem State.modFclk_fclk_ne (n : Nat) (g : FclkRec → FclkRec) (j : Nat) (h : j ≠ n) : (State.modFclk n g s).fclk j = s.fclk j := by simp [State.modFclk, State.fclk, h]
@[simp] theorem State.modPipe_pipe (p : Nat) (g : PipeRec → PipeRec) : (State.modPipe p g s).pipe p = g (s.pipe p) := by simp [State.modPipe, State.pipe]
theorem State.modPipe_pipe_ne (p : Nat) (g : PipeRec → PipeRec) (j : Nat) (h : j ≠ p) : (State.modPipe p g s).pipe j = s.pipe j := by simp [State.modPipe, State.pipe, h]
@[simp] theorem State.modStream_stream (i : Nat) (g : StreamRec → StreamRec) : (State.modStream i g s).stream i = g (s.stream i) := by simp [State.modStream, State.stream]
theorem State.modStream_stream_ne (i : Nat) (g : StreamRec → StreamRec) (j : Nat) (h : j ≠ i) : (State.modStream i g s).stream j = s.stream j := by simp [State.modStream, State.stream, h]
@[simp] theorem State.modCsi_csi (n : Nat) (g : CsiRec → CsiRec) : (State.modCsi n g s).csi n = g (s.csi n) := by simp [State.modCsi, State.csi]
theorem State.modCsi_csi_ne (n : Nat) (g : CsiRec → CsiRec) (j : Nat) (h : j ≠ n) : (State.modCsi n g s).csi j = s.csi j := by simp [State.modCsi, State.csi, h]
@[simp] theorem State.modPrep_prep (u : Nat) (g : PrepRec → PrepRec) : (State.modPrep u g s).prep u = g (s.prep u) := by simp [State.modPrep, State.prep]
theorem State.modPrep_prep_ne (u : Nat) (g : PrepRec → PrepRec) (j : Nat) (h : j ≠ u) : (State.modPrep u g s).prep j = s.prep j := by simp [State.modPrep, State.prep, h]
@[simp] theorem State.modFrond_frond (f : Nat) (g : FrondRec → FrondRec) : (State.modFrond f g s).frond f = g (s.frond f) := by simp [State.modFrond, State.frond]
theorem State.modFrond_frond_ne (f : Nat) (g : FrondRec → FrondRec) (j : Nat) (h : j ≠ f) : (State.modFrond f g s).frond j = s.frond j := by simp [State.modFrond, State.frond, h]
@[simp] theorem State.modFp_fp (f : Nat) (g : FpRec → FpRec) : (State.modFp f g s).fp f = g (s.fp f) := by simp [State.modFp, State.fp]
theorem State.modFp_fp_ne (f : Nat) (g : FpRec → FpRec) (j : Nat) (h : j ≠ f) : (State.modFp f g s).fp j = s.fp j := by simp [State.modFp, State.fp, h]
@[simp] theorem State.modModel_model (m : Nat) (g : ModelRec → ModelRec) : (State.modModel m g s).model m = g (s.model m) := by simp [State.modModel, State.model]
theorem State.modModel_model_ne (m : Nat) (g : ModelRec → ModelRec) (j : Nat) (h : j ≠ m) : (State.modModel m g s).model j = s.model j := by simp [State.modModel, State.model, h]
@[simp] theorem State.modC0_c0 (p : Nat) (g : C0Rec → C0Rec) : (State.modC0 p g s).c0 p = g (s.c0 p) := by simp [State.modC0, State.c0]
theorem State.modC0_c0_ne (p : Nat) (g : C0Rec → C0Rec) (j : Nat) (h : j ≠ p) : (State.modC0 p g s).c0 j = s.c0 j := by simp [State.modC0, State.c0, h]
@[simp] theorem State.modPool_pool (p : Nat) (g : PoolRec → PoolRec) : (State.modPool p g s).pool p = g (s.pool p) := by simp [State.modPool, State.pool]
theorem State.modPool_pool_ne (p : Nat) (g : PoolRec → PoolRec) (j : Nat) (h : j ≠ p) : (State.modPool p g s).pool j = s.pool j := by simp [State.modPool, State.pool, h]
@[simp] theorem State.setGsync_gsync (n : Nat) (v : Word32) : (State.setGsync n v s).gsync n = v := by simp [State.setGsync, State.gsync]
theorem State.setGsync_gsync_ne (n k : Nat) (v : Word32) (h : k ≠ n) : (State.setGsync n v s).gsync k = s.gsync k := by simp [State.setGsync, State.gsync, h]
@[simp] theorem State.modAuth_auth (p : Nat) (g : AuthRec → AuthRec) : (State.modAuth p g s).auth p = g (s.auth p) := by simp [State.modAuth, State.auth]
theorem State.modAuth_auth_ne (p : Nat) (g : AuthRec → AuthRec) (j : Nat) (h : j ≠ p) : (State.modAuth p g s).auth j = s.auth j := by simp [State.modAuth, State.auth, h]
@[simp] theorem State.modWdog_wdog (w : Nat) (g : WdogRec → WdogRec) : (State.modWdog w g s).wdog w = g (s.wdog w) := by simp [State.modWdog, State.wdog]
theorem State.modWdog_wdog_ne (w : Nat) (g : WdogRec → WdogRec) (j : Nat) (h : j ≠ w) : (State.modWdog w g s).wdog j = s.wdog j := by simp [State.modWdog, State.wdog, h]
@[simp] theorem State.modMoss_moss (p : Nat) (g : MossRec → MossRec) : (State.modMoss p g s).moss p = g (s.moss p) := by simp [State.modMoss, State.moss]
theorem State.modMoss_moss_ne (p : Nat) (g : MossRec → MossRec) (j : Nat) (h : j ≠ p) : (State.modMoss p g s).moss j = s.moss j := by simp [State.modMoss, State.moss, h]
@[simp] theorem State.modGov_gov (c : Nat) (g : GovRec → GovRec) : (State.modGov c g s).gov c = g (s.gov c) := by simp [State.modGov, State.gov]
theorem State.modGov_gov_ne (c : Nat) (g : GovRec → GovRec) (j : Nat) (h : j ≠ c) : (State.modGov c g s).gov j = s.gov j := by simp [State.modGov, State.gov, h]
@[simp] theorem State.modCan_canc (m : Nat) (g : CanRec → CanRec) : (State.modCan m g s).canc m = g (s.canc m) := by simp [State.modCan, State.canc]
theorem State.modCan_canc_ne (m : Nat) (g : CanRec → CanRec) (j : Nat) (h : j ≠ m) : (State.modCan m g s).canc j = s.canc j := by simp [State.modCan, State.canc, h]
@[simp] theorem State.modSq_sq (n : Nat) (g : SqRec → SqRec) : (State.modSq n g s).sq n = g (s.sq n) := by simp [State.modSq, State.sq]
theorem State.modSq_sq_ne (n : Nat) (g : SqRec → SqRec) (j : Nat) (h : j ≠ n) : (State.modSq n g s).sq j = s.sq j := by simp [State.modSq, State.sq, h]
@[simp] theorem State.modCq_cq (q : Nat) (g : CqRec → CqRec) : (State.modCq q g s).cq q = g (s.cq q) := by simp [State.modCq, State.cq]
theorem State.modCq_cq_ne (q : Nat) (g : CqRec → CqRec) (j : Nat) (h : j ≠ q) : (State.modCq q g s).cq j = s.cq j := by simp [State.modCq, State.cq, h]
@[simp] theorem State.modMbox_mbox (m : Nat) (g : MboxRec → MboxRec) : (State.modMbox m g s).mbox m = g (s.mbox m) := by simp [State.modMbox, State.mbox]
theorem State.modMbox_mbox_ne (m : Nat) (g : MboxRec → MboxRec) (j : Nat) (h : j ≠ m) : (State.modMbox m g s).mbox j = s.mbox j := by simp [State.modMbox, State.mbox, h]
@[simp] theorem State.modDma_dmac (n : Nat) (g : DmaRec → DmaRec) : (State.modDma n g s).dmac n = g (s.dmac n) := by simp [State.modDma, State.dmac]
theorem State.modDma_dmac_ne (n : Nat) (g : DmaRec → DmaRec) (j : Nat) (h : j ≠ n) : (State.modDma n g s).dmac j = s.dmac j := by simp [State.modDma, State.dmac, h]
@[simp] theorem State.modGroup_group (i : Nat) (g : GroupRec → GroupRec) : (State.modGroup i g s).group i = g (s.group i) := by simp [State.modGroup, State.group]
theorem State.modGroup_group_ne (i : Nat) (g : GroupRec → GroupRec) (j : Nat) (h : j ≠ i) : (State.modGroup i g s).group j = s.group j := by simp [State.modGroup, State.group, h]
@[simp] theorem State.modPch_pch (p : Nat) (g : PchRec → PchRec) : (State.modPch p g s).pch p = g (s.pch p) := by simp [State.modPch, State.pch]
theorem State.modPch_pch_ne (p : Nat) (g : PchRec → PchRec) (k : Nat) (h : k ≠ p) : (State.modPch p g s).pch k = s.pch k :=
  tget_tset_ne_of (pchDefault k) (pchDefault p) s.mem.pchs p k _ h
@[simp] theorem State.modChmap_chmap (l : Nat) (g : ChMap → ChMap) : (State.modChmap l g s).chmap l = g (s.chmap l) := by simp [State.modChmap, State.chmap]
theorem State.modChmap_chmap_ne (l : Nat) (g : ChMap → ChMap) (j : Nat) (h : j ≠ l) : (State.modChmap l g s).chmap j = s.chmap j := by simp [State.modChmap, State.chmap, h]
@[simp] theorem State.modTwinPipe_twinPipe (p : Nat) (g : TwinPipe → TwinPipe) : (State.modTwinPipe p g s).twinPipe p = g (s.twinPipe p) := by simp [State.modTwinPipe, State.twinPipe]
theorem State.modTwinPipe_twinPipe_ne (p : Nat) (g : TwinPipe → TwinPipe) (j : Nat) (h : j ≠ p) : (State.modTwinPipe p g s).twinPipe j = s.twinPipe j := by simp [State.modTwinPipe, State.twinPipe, h]
@[simp] theorem State.modPort_port (n : Nat) (g : EthRec → EthRec) : (State.modPort n g s).port n = g (s.port n) := by simp [State.modPort, State.port]
theorem State.modPort_port_ne (n : Nat) (g : EthRec → EthRec) (j : Nat) (h : j ≠ n) : (State.modPort n g s).port j = s.port j := by simp [State.modPort, State.port, h]
@[simp] theorem State.modQp_qp (n : Nat) (g : QpRec → QpRec) : (State.modQp n g s).qp n = g (s.qp n) := by simp [State.modQp, State.qp]
theorem State.modQp_qp_ne (n : Nat) (g : QpRec → QpRec) (j : Nat) (h : j ≠ n) : (State.modQp n g s).qp j = s.qp j := by simp [State.modQp, State.qp, h]
@[simp] theorem State.modMkey_mkey (k : Nat) (g : MkeyRec → MkeyRec) : (State.modMkey k g s).mkey k = g (s.mkey k) := by simp [State.modMkey, State.mkey]
theorem State.modMkey_mkey_ne (k : Nat) (g : MkeyRec → MkeyRec) (j : Nat) (h : j ≠ k) : (State.modMkey k g s).mkey j = s.mkey j := by simp [State.modMkey, State.mkey, h]
@[simp] theorem State.modQuad_quad (q : Nat) (g : QuadRec → QuadRec) : (State.modQuad q g s).quad q = g (s.quad q) := by simp [State.modQuad, State.quad]
theorem State.modQuad_quad_ne (q : Nat) (g : QuadRec → QuadRec) (j : Nat) (h : j ≠ q) : (State.modQuad q g s).quad j = s.quad j := by simp [State.modQuad, State.quad, h]
@[simp] theorem State.modDroop_droop (p : Nat) (g : DroopRec → DroopRec) : (State.modDroop p g s).droop p = g (s.droop p) := by simp [State.modDroop, State.droop]
theorem State.modDroop_droop_ne (p : Nat) (g : DroopRec → DroopRec) (j : Nat) (h : j ≠ p) : (State.modDroop p g s).droop j = s.droop j := by simp [State.modDroop, State.droop, h]
@[simp] theorem State.modObw_obw (w : Nat) (g : ObWin → ObWin) : (State.modObw w g s).obw w = g (s.obw w) := by simp [State.modObw, State.obw]
theorem State.modObw_obw_ne (w : Nat) (g : ObWin → ObWin) (j : Nat) (h : j ≠ w) : (State.modObw w g s).obw j = s.obw j := by simp [State.modObw, State.obw, h]

@[simp] theorem State.modLedger_fclk (p : Nat) (k : Word32) (g : Ledger → Ledger) (j : Nat) : (State.modLedger p k g s).fclk j = s.fclk j := rfl
@[simp] theorem State.modPipe_fclk (p : Nat) (g : PipeRec → PipeRec) (j : Nat) : (State.modPipe p g s).fclk j = s.fclk j := rfl
@[simp] theorem State.modStream_fclk (i : Nat) (g : StreamRec → StreamRec) (j : Nat) : (State.modStream i g s).fclk j = s.fclk j := rfl
@[simp] theorem State.modCsi_fclk (n : Nat) (g : CsiRec → CsiRec) (j : Nat) : (State.modCsi n g s).fclk j = s.fclk j := rfl
@[simp] theorem State.modPrep_fclk (u : Nat) (g : PrepRec → PrepRec) (j : Nat) : (State.modPrep u g s).fclk j = s.fclk j := rfl
@[simp] theorem State.modSample_fclk (p st : Nat) (k : Word32) (g : Sample → Sample) (j : Nat) : (State.modSample p st k g s).fclk j = s.fclk j := rfl
@[simp] theorem State.modFclk_pipe (n : Nat) (g : FclkRec → FclkRec) (j : Nat) : (State.modFclk n g s).pipe j = s.pipe j := rfl
@[simp] theorem State.modLedger_pipe (p : Nat) (k : Word32) (g : Ledger → Ledger) (j : Nat) : (State.modLedger p k g s).pipe j = s.pipe j := rfl
@[simp] theorem State.modStream_pipe (i : Nat) (g : StreamRec → StreamRec) (j : Nat) : (State.modStream i g s).pipe j = s.pipe j := rfl
@[simp] theorem State.modCsi_pipe (n : Nat) (g : CsiRec → CsiRec) (j : Nat) : (State.modCsi n g s).pipe j = s.pipe j := rfl
@[simp] theorem State.modPrep_pipe (u : Nat) (g : PrepRec → PrepRec) (j : Nat) : (State.modPrep u g s).pipe j = s.pipe j := rfl
@[simp] theorem State.modSample_pipe (p st : Nat) (k : Word32) (g : Sample → Sample) (j : Nat) : (State.modSample p st k g s).pipe j = s.pipe j := rfl
@[simp] theorem State.modFclk_stream (n : Nat) (g : FclkRec → FclkRec) (j : Nat) : (State.modFclk n g s).stream j = s.stream j := rfl
@[simp] theorem State.modLedger_stream (p : Nat) (k : Word32) (g : Ledger → Ledger) (j : Nat) : (State.modLedger p k g s).stream j = s.stream j := rfl
@[simp] theorem State.modPipe_stream (p : Nat) (g : PipeRec → PipeRec) (j : Nat) : (State.modPipe p g s).stream j = s.stream j := rfl
@[simp] theorem State.modCsi_stream (n : Nat) (g : CsiRec → CsiRec) (j : Nat) : (State.modCsi n g s).stream j = s.stream j := rfl
@[simp] theorem State.modPrep_stream (u : Nat) (g : PrepRec → PrepRec) (j : Nat) : (State.modPrep u g s).stream j = s.stream j := rfl
@[simp] theorem State.modSample_stream (p st : Nat) (k : Word32) (g : Sample → Sample) (j : Nat) : (State.modSample p st k g s).stream j = s.stream j := rfl
@[simp] theorem State.modFclk_csi (n : Nat) (g : FclkRec → FclkRec) (j : Nat) : (State.modFclk n g s).csi j = s.csi j := rfl
@[simp] theorem State.modLedger_csi (p : Nat) (k : Word32) (g : Ledger → Ledger) (j : Nat) : (State.modLedger p k g s).csi j = s.csi j := rfl
@[simp] theorem State.modPipe_csi (p : Nat) (g : PipeRec → PipeRec) (j : Nat) : (State.modPipe p g s).csi j = s.csi j := rfl
@[simp] theorem State.modStream_csi (i : Nat) (g : StreamRec → StreamRec) (j : Nat) : (State.modStream i g s).csi j = s.csi j := rfl
@[simp] theorem State.modPrep_csi (u : Nat) (g : PrepRec → PrepRec) (j : Nat) : (State.modPrep u g s).csi j = s.csi j := rfl
@[simp] theorem State.modSample_csi (p st : Nat) (k : Word32) (g : Sample → Sample) (j : Nat) : (State.modSample p st k g s).csi j = s.csi j := rfl
@[simp] theorem State.modFclk_prep (n : Nat) (g : FclkRec → FclkRec) (j : Nat) : (State.modFclk n g s).prep j = s.prep j := rfl
@[simp] theorem State.modLedger_prep (p : Nat) (k : Word32) (g : Ledger → Ledger) (j : Nat) : (State.modLedger p k g s).prep j = s.prep j := rfl
@[simp] theorem State.modPipe_prep (p : Nat) (g : PipeRec → PipeRec) (j : Nat) : (State.modPipe p g s).prep j = s.prep j := rfl
@[simp] theorem State.modStream_prep (i : Nat) (g : StreamRec → StreamRec) (j : Nat) : (State.modStream i g s).prep j = s.prep j := rfl
@[simp] theorem State.modCsi_prep (n : Nat) (g : CsiRec → CsiRec) (j : Nat) : (State.modCsi n g s).prep j = s.prep j := rfl
@[simp] theorem State.modSample_prep (p st : Nat) (k : Word32) (g : Sample → Sample) (j : Nat) : (State.modSample p st k g s).prep j = s.prep j := rfl
@[simp] theorem State.modModel_fp (m : Nat) (g : ModelRec → ModelRec) (j : Nat) : (State.modModel m g s).fp j = s.fp j := rfl
@[simp] theorem State.modC0_fp (p : Nat) (g : C0Rec → C0Rec) (j : Nat) : (State.modC0 p g s).fp j = s.fp j := rfl
@[simp] theorem State.modCtx_fp (c : Nat) (g : CtxRec → CtxRec) (j : Nat) : (State.modCtx c g s).fp j = s.fp j := rfl
@[simp] theorem State.modPool_fp (p : Nat) (g : PoolRec → PoolRec) (j : Nat) : (State.modPool p g s).fp j = s.fp j := rfl
@[simp] theorem State.setGsync_fp (n : Nat) (v : Word32) (j : Nat) : (State.setGsync n v s).fp j = s.fp j := rfl
@[simp] theorem State.modRun_fp (n : Nat) (g : RunRec → RunRec) (j : Nat) : (State.modRun n g s).fp j = s.fp j := rfl
@[simp] theorem State.modFp_model (f : Nat) (g : FpRec → FpRec) (j : Nat) : (State.modFp f g s).model j = s.model j := rfl
@[simp] theorem State.modC0_model (p : Nat) (g : C0Rec → C0Rec) (j : Nat) : (State.modC0 p g s).model j = s.model j := rfl
@[simp] theorem State.modCtx_model (c : Nat) (g : CtxRec → CtxRec) (j : Nat) : (State.modCtx c g s).model j = s.model j := rfl
@[simp] theorem State.modPool_model (p : Nat) (g : PoolRec → PoolRec) (j : Nat) : (State.modPool p g s).model j = s.model j := rfl
@[simp] theorem State.setGsync_model (n : Nat) (v : Word32) (j : Nat) : (State.setGsync n v s).model j = s.model j := rfl
@[simp] theorem State.modRun_model (n : Nat) (g : RunRec → RunRec) (j : Nat) : (State.modRun n g s).model j = s.model j := rfl
@[simp] theorem State.modFp_c0 (f : Nat) (g : FpRec → FpRec) (j : Nat) : (State.modFp f g s).c0 j = s.c0 j := rfl
@[simp] theorem State.modModel_c0 (m : Nat) (g : ModelRec → ModelRec) (j : Nat) : (State.modModel m g s).c0 j = s.c0 j := rfl
@[simp] theorem State.modCtx_c0 (c : Nat) (g : CtxRec → CtxRec) (j : Nat) : (State.modCtx c g s).c0 j = s.c0 j := rfl
@[simp] theorem State.modPool_c0 (p : Nat) (g : PoolRec → PoolRec) (j : Nat) : (State.modPool p g s).c0 j = s.c0 j := rfl
@[simp] theorem State.setGsync_c0 (n : Nat) (v : Word32) (j : Nat) : (State.setGsync n v s).c0 j = s.c0 j := rfl
@[simp] theorem State.modRun_c0 (n : Nat) (g : RunRec → RunRec) (j : Nat) : (State.modRun n g s).c0 j = s.c0 j := rfl
@[simp] theorem State.modFp_ctx (f : Nat) (g : FpRec → FpRec) (j : Nat) : (State.modFp f g s).ctx j = s.ctx j := rfl
@[simp] theorem State.modModel_ctx (m : Nat) (g : ModelRec → ModelRec) (j : Nat) : (State.modModel m g s).ctx j = s.ctx j := rfl
@[simp] theorem State.modC0_ctx (p : Nat) (g : C0Rec → C0Rec) (j : Nat) : (State.modC0 p g s).ctx j = s.ctx j := rfl
@[simp] theorem State.modPool_ctx (p : Nat) (g : PoolRec → PoolRec) (j : Nat) : (State.modPool p g s).ctx j = s.ctx j := rfl
@[simp] theorem State.setGsync_ctx (n : Nat) (v : Word32) (j : Nat) : (State.setGsync n v s).ctx j = s.ctx j := rfl
@[simp] theorem State.modRun_ctx (n : Nat) (g : RunRec → RunRec) (j : Nat) : (State.modRun n g s).ctx j = s.ctx j := rfl
@[simp] theorem State.modFp_pool (f : Nat) (g : FpRec → FpRec) (j : Nat) : (State.modFp f g s).pool j = s.pool j := rfl
@[simp] theorem State.modModel_pool (m : Nat) (g : ModelRec → ModelRec) (j : Nat) : (State.modModel m g s).pool j = s.pool j := rfl
@[simp] theorem State.modC0_pool (p : Nat) (g : C0Rec → C0Rec) (j : Nat) : (State.modC0 p g s).pool j = s.pool j := rfl
@[simp] theorem State.modCtx_pool (c : Nat) (g : CtxRec → CtxRec) (j : Nat) : (State.modCtx c g s).pool j = s.pool j := rfl
@[simp] theorem State.setGsync_pool (n : Nat) (v : Word32) (j : Nat) : (State.setGsync n v s).pool j = s.pool j := rfl
@[simp] theorem State.modRun_pool (n : Nat) (g : RunRec → RunRec) (j : Nat) : (State.modRun n g s).pool j = s.pool j := rfl
@[simp] theorem State.modFp_gsync (f : Nat) (g : FpRec → FpRec) (j : Nat) : (State.modFp f g s).gsync j = s.gsync j := rfl
@[simp] theorem State.modModel_gsync (m : Nat) (g : ModelRec → ModelRec) (j : Nat) : (State.modModel m g s).gsync j = s.gsync j := rfl
@[simp] theorem State.modC0_gsync (p : Nat) (g : C0Rec → C0Rec) (j : Nat) : (State.modC0 p g s).gsync j = s.gsync j := rfl
@[simp] theorem State.modCtx_gsync (c : Nat) (g : CtxRec → CtxRec) (j : Nat) : (State.modCtx c g s).gsync j = s.gsync j := rfl
@[simp] theorem State.modPool_gsync (p : Nat) (g : PoolRec → PoolRec) (j : Nat) : (State.modPool p g s).gsync j = s.gsync j := rfl
@[simp] theorem State.modRun_gsync (n : Nat) (g : RunRec → RunRec) (j : Nat) : (State.modRun n g s).gsync j = s.gsync j := rfl
@[simp] theorem State.modFp_run (f : Nat) (g : FpRec → FpRec) (j : Nat) : (State.modFp f g s).run j = s.run j := rfl
@[simp] theorem State.modModel_run (m : Nat) (g : ModelRec → ModelRec) (j : Nat) : (State.modModel m g s).run j = s.run j := rfl
@[simp] theorem State.modC0_run (p : Nat) (g : C0Rec → C0Rec) (j : Nat) : (State.modC0 p g s).run j = s.run j := rfl
@[simp] theorem State.modCtx_run (c : Nat) (g : CtxRec → CtxRec) (j : Nat) : (State.modCtx c g s).run j = s.run j := rfl
@[simp] theorem State.modPool_run (p : Nat) (g : PoolRec → PoolRec) (j : Nat) : (State.modPool p g s).run j = s.run j := rfl
@[simp] theorem State.setGsync_run (n : Nat) (v : Word32) (j : Nat) : (State.setGsync n v s).run j = s.run j := rfl
@[simp] theorem State.modWdog_auth (w : Nat) (g : WdogRec → WdogRec) (j : Nat) : (State.modWdog w g s).auth j = s.auth j := rfl
@[simp] theorem State.modMoss_auth (p : Nat) (g : MossRec → MossRec) (j : Nat) : (State.modMoss p g s).auth j = s.auth j := rfl
@[simp] theorem State.modGov_auth (c : Nat) (g : GovRec → GovRec) (j : Nat) : (State.modGov c g s).auth j = s.auth j := rfl
@[simp] theorem report_auth (r : FaultRec) (j : Nat) : (report r s).auth j = s.auth j := rfl
@[simp] theorem State.modAuth_wdog (p : Nat) (g : AuthRec → AuthRec) (j : Nat) : (State.modAuth p g s).wdog j = s.wdog j := rfl
@[simp] theorem State.modMoss_wdog (p : Nat) (g : MossRec → MossRec) (j : Nat) : (State.modMoss p g s).wdog j = s.wdog j := rfl
@[simp] theorem State.modGov_wdog (c : Nat) (g : GovRec → GovRec) (j : Nat) : (State.modGov c g s).wdog j = s.wdog j := rfl
@[simp] theorem report_wdog (r : FaultRec) (j : Nat) : (report r s).wdog j = s.wdog j := rfl
@[simp] theorem State.modAuth_moss (p : Nat) (g : AuthRec → AuthRec) (j : Nat) : (State.modAuth p g s).moss j = s.moss j := rfl
@[simp] theorem State.modWdog_moss (w : Nat) (g : WdogRec → WdogRec) (j : Nat) : (State.modWdog w g s).moss j = s.moss j := rfl
@[simp] theorem State.modGov_moss (c : Nat) (g : GovRec → GovRec) (j : Nat) : (State.modGov c g s).moss j = s.moss j := rfl
@[simp] theorem report_moss (r : FaultRec) (j : Nat) : (report r s).moss j = s.moss j := rfl
@[simp] theorem State.modAuth_gov (p : Nat) (g : AuthRec → AuthRec) (j : Nat) : (State.modAuth p g s).gov j = s.gov j := rfl
@[simp] theorem State.modWdog_gov (w : Nat) (g : WdogRec → WdogRec) (j : Nat) : (State.modWdog w g s).gov j = s.gov j := rfl
@[simp] theorem State.modMoss_gov (p : Nat) (g : MossRec → MossRec) (j : Nat) : (State.modMoss p g s).gov j = s.gov j := rfl
@[simp] theorem report_gov (r : FaultRec) (j : Nat) : (report r s).gov j = s.gov j := rfl
@[simp] theorem State.modCq_sq (q : Nat) (g : CqRec → CqRec) (j : Nat) : (State.modCq q g s).sq j = s.sq j := rfl
@[simp] theorem State.modMbox_sq (m : Nat) (g : MboxRec → MboxRec) (j : Nat) : (State.modMbox m g s).sq j = s.sq j := rfl
@[simp] theorem State.modCmd_sq (tag : Nat) (g : Cmd → Cmd) (j : Nat) : (State.modCmd tag g s).sq j = s.sq j := rfl
@[simp] theorem putSram_sq (o : Nat) (d : List Byte) (j : Nat) : (putSram o d s).sq j = s.sq j := rfl
@[simp] theorem State.modSq_cq (n : Nat) (g : SqRec → SqRec) (j : Nat) : (State.modSq n g s).cq j = s.cq j := rfl
@[simp] theorem State.modMbox_cq (m : Nat) (g : MboxRec → MboxRec) (j : Nat) : (State.modMbox m g s).cq j = s.cq j := rfl
@[simp] theorem State.modCmd_cq (tag : Nat) (g : Cmd → Cmd) (j : Nat) : (State.modCmd tag g s).cq j = s.cq j := rfl
@[simp] theorem putSram_cq (o : Nat) (d : List Byte) (j : Nat) : (putSram o d s).cq j = s.cq j := rfl
@[simp] theorem State.modSq_mbox (n : Nat) (g : SqRec → SqRec) (j : Nat) : (State.modSq n g s).mbox j = s.mbox j := rfl
@[simp] theorem State.modCq_mbox (q : Nat) (g : CqRec → CqRec) (j : Nat) : (State.modCq q g s).mbox j = s.mbox j := rfl
@[simp] theorem State.modCmd_mbox (tag : Nat) (g : Cmd → Cmd) (j : Nat) : (State.modCmd tag g s).mbox j = s.mbox j := rfl
@[simp] theorem putSram_mbox (o : Nat) (d : List Byte) (j : Nat) : (putSram o d s).mbox j = s.mbox j := rfl
@[simp] theorem State.modSq_cmd (n : Nat) (g : SqRec → SqRec) (j : Nat) : (State.modSq n g s).cmd j = s.cmd j := rfl
@[simp] theorem State.modCq_cmd (q : Nat) (g : CqRec → CqRec) (j : Nat) : (State.modCq q g s).cmd j = s.cmd j := rfl
@[simp] theorem State.modMbox_cmd (m : Nat) (g : MboxRec → MboxRec) (j : Nat) : (State.modMbox m g s).cmd j = s.cmd j := rfl
@[simp] theorem putSram_cmd (o : Nat) (d : List Byte) (j : Nat) : (putSram o d s).cmd j = s.cmd j := rfl
@[simp] theorem State.modPch_group (p : Nat) (g : PchRec → PchRec) (j : Nat) : (State.modPch p g s).group j = s.group j := rfl
@[simp] theorem State.modChmap_group (l : Nat) (g : ChMap → ChMap) (j : Nat) : (State.modChmap l g s).group j = s.group j := rfl
@[simp] theorem putMem_group (a : Nat) (d : List Byte) (j : Nat) : (putMem a d s).group j = s.group j := rfl
@[simp] theorem setLineMeta_group (i : Nat) (p w : Bool) (j : Nat) : (setLineMeta i p w s).group j = s.group j := rfl
@[simp] theorem State.modGroup_pch (i : Nat) (g : GroupRec → GroupRec) (j : Nat) : (State.modGroup i g s).pch j = s.pch j := rfl
@[simp] theorem State.modChmap_pch (l : Nat) (g : ChMap → ChMap) (j : Nat) : (State.modChmap l g s).pch j = s.pch j := rfl
@[simp] theorem putMem_pch (a : Nat) (d : List Byte) (j : Nat) : (putMem a d s).pch j = s.pch j := rfl
@[simp] theorem setLineMeta_pch (i : Nat) (p w : Bool) (j : Nat) : (setLineMeta i p w s).pch j = s.pch j := rfl
@[simp] theorem State.modGroup_chmap (i : Nat) (g : GroupRec → GroupRec) (j : Nat) : (State.modGroup i g s).chmap j = s.chmap j := rfl
@[simp] theorem State.modPch_chmap (p : Nat) (g : PchRec → PchRec) (j : Nat) : (State.modPch p g s).chmap j = s.chmap j := rfl
@[simp] theorem putMem_chmap (a : Nat) (d : List Byte) (j : Nat) : (putMem a d s).chmap j = s.chmap j := rfl
@[simp] theorem setLineMeta_chmap (i : Nat) (p w : Bool) (j : Nat) : (setLineMeta i p w s).chmap j = s.chmap j := rfl
@[simp] theorem State.modQp_port (n : Nat) (g : QpRec → QpRec) (j : Nat) : (State.modQp n g s).port j = s.port j := rfl
@[simp] theorem State.modMkey_port (k : Nat) (g : MkeyRec → MkeyRec) (j : Nat) : (State.modMkey k g s).port j = s.port j := rfl
@[simp] theorem State.modPort_qp (n : Nat) (g : EthRec → EthRec) (j : Nat) : (State.modPort n g s).qp j = s.qp j := rfl
@[simp] theorem State.modTx_qp (n i : Nat) (g : TxRec → TxRec) (j : Nat) : (State.modTx n i g s).qp j = s.qp j := rfl
@[simp] theorem State.modMkey_qp (k : Nat) (g : MkeyRec → MkeyRec) (j : Nat) : (State.modMkey k g s).qp j = s.qp j := rfl
@[simp] theorem State.modPort_mkey (n : Nat) (g : EthRec → EthRec) (j : Nat) : (State.modPort n g s).mkey j = s.mkey j := rfl
@[simp] theorem State.modTx_mkey (n i : Nat) (g : TxRec → TxRec) (j : Nat) : (State.modTx n i g s).mkey j = s.mkey j := rfl
@[simp] theorem State.modQp_mkey (n : Nat) (g : QpRec → QpRec) (j : Nat) : (State.modQp n g s).mkey j = s.mkey j := rfl
@[simp] theorem State.modDroop_quad (p : Nat) (g : DroopRec → DroopRec) (j : Nat) : (State.modDroop p g s).quad j = s.quad j := rfl
@[simp] theorem State.modQuad_droop (q : Nat) (g : QuadRec → QuadRec) (j : Nat) : (State.modQuad q g s).droop j = s.droop j := rfl

end

end Sys2Proof.Machine
end

