-- ==== Sys2Proof/Laws/Shared.lean ====
section
/-! SUPPORT. What the shared shapes of a meaning do: the domain tests, the latch, waking, memory writes, the bus, and the end of a command. -/

namespace Sys2Proof.Machine

variable (s t : State)

/-! ### The latch (R342) -/

@[simp] theorem keepLatch_gctl : (keepLatch s t).gctl = t.gctl := by unfold keepLatch; split <;> rfl
@[simp] theorem keepLatch_loop : (keepLatch s t).loop = t.loop := by unfold keepLatch; split <;> rfl
@[simp] theorem keepLatch_sched : (keepLatch s t).sched = t.sched := by unfold keepLatch; split <;> rfl
@[simp] theorem keepLatch_fronds : (keepLatch s t).fronds = t.fronds := by unfold keepLatch; split <;> rfl
@[simp] theorem keepLatch_thal : (keepLatch s t).thal = t.thal := by unfold keepLatch; split <;> rfl
@[simp] theorem keepLatch_can : (keepLatch s t).can = t.can := by unfold keepLatch; split <;> rfl
@[simp] theorem keepLatch_cmdq : (keepLatch s t).cmdq = t.cmdq := by unfold keepLatch; split <;> rfl
@[simp] theorem keepLatch_dma : (keepLatch s t).dma = t.dma := by unfold keepLatch; split <;> rfl
@[simp] theorem keepLatch_mem : (keepLatch s t).mem = t.mem := by unfold keepLatch; split <;> rfl
@[simp] theorem keepLatch_twin : (keepLatch s t).twin = t.twin := by unfold keepLatch; split <;> rfl
@[simp] theorem keepLatch_eth : (keepLatch s t).eth = t.eth := by unfold keepLatch; split <;> rfl
@[simp] theorem keepLatch_pwr : (keepLatch s t).pwr = t.pwr := by unfold keepLatch; split <;> rfl
@[simp] theorem keepLatch_sec : (keepLatch s t).sec = t.sec := by unfold keepLatch; split <;> rfl
@[simp] theorem keepLatch_hostMem : (keepLatch s t).hostMem = t.hostMem := by unfold keepLatch; split <;> rfl
@[simp] theorem keepLatch_out : (keepLatch s t).out = t.out := by unfold keepLatch; split <;> rfl
@[simp] theorem keepLatch_freeCtr : (keepLatch s t).freeCtr = t.freeCtr := by unfold keepLatch; split <;> rfl
@[simp] theorem keepLatch_pending : (keepLatch s t).pending = t.pending := by unfold keepLatch; split <;> rfl
@[simp] theorem keepLatch_silent : (keepLatch s t).island.silent = (s.island.silent || t.island.silent) := by
  unfold keepLatch; split
  · next h => simpa using h.symm
  · next h => simp at h; simp [h]

/-- Without a latch the operation's state is the next state. -/
theorem keepLatch_off (hs : s.island.silent = false) (ht : t.island.silent = false) : keepLatch s t = t := by
  unfold keepLatch; simp [hs, ht]

/-- With the latch set on either side it is set, the governor SILENT and FAULT_N low. -/
theorem keepLatch_on (h : s.island.silent = true ∨ t.island.silent = true) :
    keepLatch s t = { t with island := { t.island with silent := true, mode := .silent }, pins := { t.pins with faultN := false } } := by
  unfold keepLatch; rcases h with h | h <;> simp [h]

/-- A state that already agrees with its latch is not changed. -/
theorem keepLatch_self (h : LatchHolds s) : keepLatch s s = s := by
  unfold keepLatch
  split
  · next hs =>
    simp only [Bool.or_self] at hs
    obtain ⟨hm, hf⟩ := h hs
    rcases s with ⟨pins, gctl, loop, sched, fronds, island⟩
    rcases island with ⟨mode, safeCount, restarting, mossReady, a, b, c, d, silent⟩
    rcases pins with ⟨p0, p1, p2, p3, p4, faultN⟩
    simp_all
  · rfl

theorem keepLatch_holds : LatchHolds (keepLatch s t) := by
  intro h
  unfold keepLatch at h ⊢
  split
  · exact ⟨rfl, rfl⟩
  · next hs =>
    rw [if_neg hs] at h
    simp [h] at hs

@[simp] theorem keepLatch_canc (m : Nat) : (keepLatch s t).canc m = t.canc m := State.canc_congr _ (keepLatch_can s t) m
@[simp] theorem keepLatch_frond (f : Nat) : (keepLatch s t).frond f = t.frond f := State.frond_congr _ (keepLatch_fronds s t) f
@[simp] theorem keepLatch_dmac (n : Nat) : (keepLatch s t).dmac n = t.dmac n := State.dmac_congr _ (keepLatch_dma s t) n
@[simp] theorem keepLatch_sq (n : Nat) : (keepLatch s t).sq n = t.sq n := State.sq_congr _ (keepLatch_cmdq s t) n
@[simp] theorem keepLatch_cq (n : Nat) : (keepLatch s t).cq n = t.cq n := State.cq_congr _ (keepLatch_cmdq s t) n
@[simp] theorem keepLatch_port (n : Nat) : (keepLatch s t).port n = t.port n := State.port_congr _ (keepLatch_eth s t) n
@[simp] theorem keepLatch_qp (n : Nat) : (keepLatch s t).qp n = t.qp n := State.qp_congr _ (keepLatch_eth s t) n
@[simp] theorem keepLatch_pch (n : Nat) : (keepLatch s t).pch n = t.pch n := State.pch_congr _ (keepLatch_mem s t) n
@[simp] theorem keepLatch_group (n : Nat) : (keepLatch s t).group n = t.group n := State.group_congr _ (keepLatch_mem s t) n
@[simp] theorem keepLatch_chmap (n : Nat) : (keepLatch s t).chmap n = t.chmap n := State.chmap_congr _ (keepLatch_mem s t) n
@[simp] theorem keepLatch_quad (n : Nat) : (keepLatch s t).quad n = t.quad n := State.quad_congr _ (keepLatch_pwr s t) n
@[simp] theorem keepLatch_pipe (n : Nat) : (keepLatch s t).pipe n = t.pipe n := State.pipe_congr _ (keepLatch_loop s t) n
@[simp] theorem keepLatch_fclk (n : Nat) : (keepLatch s t).fclk n = t.fclk n := State.fclk_congr _ (keepLatch_loop s t) n
@[simp] theorem keepLatch_stream (n : Nat) : (keepLatch s t).stream n = t.stream n := State.stream_congr _ (keepLatch_loop s t) n
@[simp] theorem keepLatch_ctx (n : Nat) : (keepLatch s t).ctx n = t.ctx n := State.ctx_congr _ (keepLatch_sched s t) n
@[simp] theorem keepLatch_auth (n : Nat) : (keepLatch s t).auth n = t.auth n := State.auth_congr _ (keepLatch_thal s t) n
@[simp] theorem keepLatch_cmd (n : Nat) : (keepLatch s t).cmd n = t.cmd n := State.cmd_congr _ (keepLatch_cmdq s t) n

/-! ### The shapes of a meaning -/

variable (f : State → State)

theorem performUnless_on (off : Bool) (h : off = false) : performUnless off f s = .next (keepLatch s (f s)) := by simp [performUnless, h]
theorem performUnless_off (off : Bool) (h : off = true) : performUnless off f s = .next s := by simp [performUnless, h]

/-- A command answers a next state: the one it found, or its operation's under the latch. -/
theorem performUnless_next (off : Bool) (u : State) (h : performUnless off f s = .next u) : u = s ∨ u = keepLatch s (f s) := by
  unfold performUnless at h
  split at h <;> cases h
  · exact .inl rfl
  · exact .inr rfl

/-- Every shape keeps the latch's condition. -/
theorem performUnless_latch (off : Bool) (u : State) (hs : LatchHolds s) (h : performUnless off f s = .next u) : LatchHolds u := by
  rcases performUnless_next s f off u h with rfl | rfl
  · exact hs
  · exact keepLatch_holds _ _

theorem perform_runs (h : Runs s) : perform f s = .next (keepLatch s (f s)) := performUnless_on s f _ (by simp [h.1, h.2])
theorem performSaf_runs (h : RunsSaf s) : performSaf f s = .next (keepLatch s (f s)) := performUnless_on s f _ (by simp [h.1, h.2])
theorem performAon_runs (h : RunsAon s) : performAon f s = .next (keepLatch s (f s)) := performUnless_on s f _ h
theorem performReg_runs (h : Runs s) : performReg f s = .next (keepLatch s (wakeEvent 1 (f s))) := perform_runs s _ h
theorem performFab_runs (k : Nat) (h : RunsFab s k) : performFab k f s = .next (keepLatch s (f s)) :=
  performUnless_on s f _ (by simp [h.1, h.2])
theorem performCan_runs (m : Nat) (h : RunsCan s m) : performCan m f s = .next (keepLatch s (f s)) := by
  unfold performCan
  obtain ⟨h0, h1⟩ := h
  split at h1
  · next hm => rw [if_pos hm]; exact performUnless_on s f _ (by rw [h0, h1.1, h1.2]; rfl)
  · next hm => rw [if_neg hm]; exact performSaf_runs s f ⟨h0, h1⟩
/-- A register write of a block that answers. -/
theorem performBar_runs (h : Runs s) (hb : s.barUp = true) : performBar f s = .next (keepLatch s (wakeEvent 1 (f s))) := by
  unfold performBar; rw [performReg_runs s _ h]; simp [hb]
theorem performBlk_runs (h : Runs s) (hb : s.blocksUp = true) : performBlk f s = .next (keepLatch s (wakeEvent 1 (f s))) := by
  unfold performBlk; rw [performReg_runs s _ h]; simp [hb]
/-- A register write of a block that does not answer only wakes (R340, R585). -/
theorem performBlk_down (h : Runs s) (hb : s.blocksUp = false) : performBlk f s = .next (keepLatch s (wakeEvent 1 s)) := by
  unfold performBlk; rw [performReg_runs s _ h]; simp [hb]
theorem performWf_runs (ok : Bool) (hk : ok = true) (h : Runs s) : performWf ok f s = .next (keepLatch s (f s)) := by
  simp [performWf, hk, perform_runs s f h]
theorem performWfSaf_runs (ok : Bool) (hk : ok = true) (h : RunsSaf s) : performWfSaf ok f s = .next (keepLatch s (f s)) := by
  simp [performWfSaf, hk, performSaf_runs s f h]
theorem performWfFab_runs (ok : Bool) (k : Nat) (hk : ok = true) (h : RunsFab s k) : performWfFab ok k f s = .next (keepLatch s (f s)) := by
  simp [performWfFab, hk, performFab_runs s f k h]

/-- An ill-formed term is refused. -/
theorem performWf_ill (ok : Bool) (hk : ok = false) : performWf ok f s = .refused .illFormed := by simp [performWf, hk]
theorem performWfSaf_ill (ok : Bool) (hk : ok = false) : performWfSaf ok f s = .refused .illFormed := by simp [performWfSaf, hk]
theorem performWfFab_ill (ok : Bool) (k : Nat) (hk : ok = false) : performWfFab ok k f s = .refused .illFormed := by simp [performWfFab, hk]

/-- A command of a device that a reset pin holds changes nothing. -/
theorem perform_held (h : s.held = true) : perform f s = .next s := performUnless_off s f _ (by simp [h])
theorem performSaf_held (h : s.held = true) : performSaf f s = .next s := performUnless_off s f _ (by simp [h])
theorem performAon_held (h : s.held = true) : performAon f s = .next s := performUnless_off s f _ h
theorem performReg_held (h : s.held = true) : performReg f s = .next s := perform_held s _ h
theorem performFab_held (k : Nat) (h : s.held = true) : performFab k f s = .next s := performUnless_off s f _ (by simp [h])
theorem performCan_held (m : Nat) (h : s.held = true) : performCan m f s = .next s := by
  unfold performCan
  split
  · exact performUnless_off s f _ (by simp [h])
  · exact performSaf_held s f h

/-! ### Waking (R566) -/

/-- A wake event touches the power block alone: the causes, the memory of it, and the phase. -/
theorem wakeEvent_frame (b : Nat) : wakeEvent b s = { s with pwr := (wakeEvent b s).pwr, pins := (wakeEvent b s).pins } := by
  unfold wakeEvent; simp only []; split <;> rfl

@[simp] theorem wakeEvent_pins (b : Nat) (h : s.asleep 3 = false) : (wakeEvent b s).pins = s.pins := by
  unfold wakeEvent; simp only []; split
  · rfl
  · simp [State.asleep] at h ⊢
    intro hp hs; exact absurd hs (by have := h hp; omega)
@[simp] theorem wakeEvent_faultN (b : Nat) : (wakeEvent b s).pins.faultN = s.pins.faultN := by
  unfold wakeEvent; simp only []; split
  · rfl
  · dsimp only; split <;> rfl
@[simp] theorem wakeEvent_gctl (b : Nat) : (wakeEvent b s).gctl = s.gctl := by unfold wakeEvent; simp only []; split <;> rfl
@[simp] theorem wakeEvent_loop (b : Nat) : (wakeEvent b s).loop = s.loop := by unfold wakeEvent; simp only []; split <;> rfl
@[simp] theorem wakeEvent_sched (b : Nat) : (wakeEvent b s).sched = s.sched := by unfold wakeEvent; simp only []; split <;> rfl
@[simp] theorem wakeEvent_fronds (b : Nat) : (wakeEvent b s).fronds = s.fronds := by unfold wakeEvent; simp only []; split <;> rfl
@[simp] theorem wakeEvent_island (b : Nat) : (wakeEvent b s).island = s.island := by unfold wakeEvent; simp only []; split <;> rfl
@[simp] theorem wakeEvent_thal (b : Nat) : (wakeEvent b s).thal = s.thal := by unfold wakeEvent; simp only []; split <;> rfl
@[simp] theorem wakeEvent_can (b : Nat) : (wakeEvent b s).can = s.can := by unfold wakeEvent; simp only []; split <;> rfl
@[simp] theorem wakeEvent_cmdq (b : Nat) : (wakeEvent b s).cmdq = s.cmdq := by unfold wakeEvent; simp only []; split <;> rfl
@[simp] theorem wakeEvent_dma (b : Nat) : (wakeEvent b s).dma = s.dma := by unfold wakeEvent; simp only []; split <;> rfl
@[simp] theorem wakeEvent_mem (b : Nat) : (wakeEvent b s).mem = s.mem := by unfold wakeEvent; simp only []; split <;> rfl
@[simp] theorem wakeEvent_twin (b : Nat) : (wakeEvent b s).twin = s.twin := by unfold wakeEvent; simp only []; split <;> rfl
@[simp] theorem wakeEvent_eth (b : Nat) : (wakeEvent b s).eth = s.eth := by unfold wakeEvent; simp only []; split <;> rfl
@[simp] theorem wakeEvent_sec (b : Nat) : (wakeEvent b s).sec = s.sec := by unfold wakeEvent; simp only []; split <;> rfl
@[simp] theorem wakeEvent_hostMem (b : Nat) : (wakeEvent b s).hostMem = s.hostMem := by unfold wakeEvent; simp only []; split <;> rfl
@[simp] theorem wakeEvent_out (b : Nat) : (wakeEvent b s).out = s.out := by unfold wakeEvent; simp only []; split <;> rfl
@[simp] theorem wakeEvent_freeCtr (b : Nat) : (wakeEvent b s).freeCtr = s.freeCtr := by unfold wakeEvent; simp only []; split <;> rfl
@[simp] theorem wakeEvent_pending (b : Nat) : (wakeEvent b s).pending = s.pending := by unfold wakeEvent; simp only []; split <;> rfl

/-- In S0, with nothing entering, a wake event does nothing. -/
theorem wakeEvent_awake (b : Nat) (h : s.pwr.depth = 0) (hb : b ≤ 4) : wakeEvent b s = s := by
  unfold wakeEvent
  have : s.pwr.wakeEnabled b s.pwr.depth = false := by
    rw [h]
    match b, hb with
    | 0, _ => rfl
    | 1, _ => rfl
    | 2, _ => simp [Pwr.wakeEnabled]
    | 3, _ => simp [Pwr.wakeEnabled]
    | 4, _ => simp [Pwr.wakeEnabled]
  simp [this]

/-! ### Main memory (R463, R475) -/

/-- A transfer that succeeds changes the memory's channel records alone. -/
theorem transferOk_frame (a : Nat) : transferOk a s = { s with mem := { s.mem with pchs := (transferOk a s).mem.pchs } } := by
  unfold transferOk; split <;> rfl

/-- A line's write changes memory alone. -/
theorem writeLine_frame (a : Nat) (d : List PByte) (i : Nat) : writeLine a d i s = { s with mem := (writeLine a d i s).mem } := by
  unfold writeLine
  dsimp only
  rw [transferOk_frame]
  rfl

/-- A write of main memory changes memory alone. -/
theorem memWrite_frame (a : Nat) (d : List PByte) : memWrite a d s = { s with mem := (memWrite a d s).mem } := by
  unfold memWrite
  generalize linesOf a d.length = l
  induction l generalizing s with
  | nil => rfl
  | cons i l ih =>
    rw [List.foldl_cons, ih (writeLine a d i s), writeLine_frame]

/-- The tokens of class-0 traffic are counted in the groups alone. -/
theorem useTokens_frame (init cls a n : Nat) :
    useTokens init cls a n s = { s with mem := { s.mem with groups := (useTokens init cls a n s).mem.groups } } := by
  unfold useTokens
  split
  · generalize linesOf a n = l
    induction l generalizing s with
    | nil => rfl
    | cons i l ih =>
      rw [List.foldl_cons, ih]
      rfl
  · rfl

/-! ### The bus (R26) -/

/-- Everything a write transaction can change: main memory, a Frond store, host memory, the queue SRAM, and the records under way. -/
theorem busWrite_frame (init cls a : Nat) (d : List PByte) :
    (busWrite init cls a d s).2 = { s with
      mem := (busWrite init cls a d s).2.mem, fronds := (busWrite init cls a d s).2.fronds, hostMem := (busWrite init cls a d s).2.hostMem,
      cmdq := { s.cmdq with sram := (busWrite init cls a d s).2.cmdq.sram },
      thal := { s.thal with inFlight := (busWrite init cls a d s).2.thal.inFlight } } := by
  unfold busWrite
  split
  · rfl
  split
  · rfl
  · split
    · rfl
    · split
      · rfl
      · dsimp only
        rw [memWrite_frame, useTokens_frame]
  · split
    · rfl
    · unfold frondInWrite; split <;> rfl
  · split
    · rfl
    · unfold outboundWrite; split
      · rfl
      · split <;> rfl
  · split
    · rfl
    · split <;> rfl

/-- A write of any length changes no more than its transactions can. -/
theorem writeBlocks_frame (init cls : Nat) : ∀ (n a : Nat) (d : List PByte) (s : State),
    (writeBlocks init cls n a d s).2 = { s with
      mem := (writeBlocks init cls n a d s).2.mem, fronds := (writeBlocks init cls n a d s).2.fronds,
      hostMem := (writeBlocks init cls n a d s).2.hostMem,
      cmdq := { s.cmdq with sram := (writeBlocks init cls n a d s).2.cmdq.sram },
      thal := { s.thal with inFlight := (writeBlocks init cls n a d s).2.thal.inFlight } }
  | 0, _, _, _ => rfl
  | n + 1, a, d, s => by
    unfold writeBlocks
    split
    · rfl
    · dsimp only
      rw [writeBlocks_frame init cls n, busWrite_frame]

theorem writeAll_frame (init cls a : Nat) (d : List PByte) :
    (writeAll init cls a d s).2 = { s with
      mem := (writeAll init cls a d s).2.mem, fronds := (writeAll init cls a d s).2.fronds, hostMem := (writeAll init cls a d s).2.hostMem,
      cmdq := { s.cmdq with sram := (writeAll init cls a d s).2.cmdq.sram },
      thal := { s.thal with inFlight := (writeAll init cls a d s).2.thal.inFlight } } := writeBlocks_frame init cls _ a d s

/-! ### The end of a command (R403, R414) -/

/-- A command that ends with a status other than 0 is marked as ended, with its second result alone. -/
theorem finishData_refused (tag st : Nat) (d : List PByte) (r0 r1 : Nat) (c : Cmd) (h : s.cmd tag = some c) (he : c.ended = false) (hs : st ≠ 0) :
    finishData tag st d r0 r1 s =
      State.modCmd tag (fun x => { x with stage := .done (BitVec.ofNat 8 st) 0 (BitVec.ofNat 64 r1), boxed := false }) s := by
  unfold finishData
  rw [h]
  simp [hs, he]

/-- A command that succeeds with no result data and no mailbox is marked as ended with its results. -/
theorem finishCmd_done (tag r0 r1 : Nat) (c : Cmd) (h : s.cmd tag = some c) (he : c.ended = false) (hm : c.mbox = false) :
    finishCmd tag 0 r0 r1 s =
      State.modCmd tag (fun x => { x with stage := .done 0 (BitVec.ofNat 64 r0) (BitVec.ofNat 64 r1), boxed := false }) s := by
  unfold finishCmd finishData
  rw [h]
  simp [he, hm, writeResult]

/-- The end of a command that has ended already does nothing. -/
theorem finishData_ended (tag st : Nat) (d : List PByte) (r0 r1 : Nat) (c : Cmd) (h : s.cmd tag = some c) (he : c.ended = true) :
    finishData tag st d r0 r1 s = s := by
  unfold finishData
  rw [h]
  simp [he]

/-- The end of a command that is not in flight does nothing. -/
theorem finishData_gone (tag st : Nat) (d : List PByte) (r0 r1 : Nat) (h : s.cmd tag = none) : finishData tag st d r0 r1 s = s := by
  unfold finishData; rw [h]

/-- Everything the end of a command can change. -/
theorem finishData_frame (tag st : Nat) (d : List PByte) (r0 r1 : Nat) :
    finishData tag st d r0 r1 s = { s with
      mem := (finishData tag st d r0 r1 s).mem, fronds := (finishData tag st d r0 r1 s).fronds,
      hostMem := (finishData tag st d r0 r1 s).hostMem, cmdq := (finishData tag st d r0 r1 s).cmdq,
      thal := { s.thal with inFlight := (finishData tag st d r0 r1 s).thal.inFlight } } := by
  unfold finishData
  split
  · rfl
  · next c _ =>
    dsimp only
    split
    · rfl
    split
    · rfl
    · split
      · rfl
      · unfold writeResult
        split
        · rfl
        · have h := writeAll_frame s 0xA0 (s.sq c.sq).cls.toNat c.rbuf d
          revert h
          generalize writeAll 0xA0 (s.sq c.sq).cls.toNat c.rbuf d s = u
          intro h
          obtain ⟨b, u⟩ := u
          dsimp only at h ⊢
          cases u
          simp only [State.mk.injEq] at h
          unfold State.modCmd
          obtain ⟨h1, h2, h3, h4, -, h6, h7, h8, -, h10, -, h12, h13, h14, h15, -, h17, h18, h19⟩ := h
          rw [State.mk.injEq]
          exact ⟨h1, h2, h3, h4, rfl, h6, h7, h8, rfl, h10, rfl, h12, h13, h14, h15, rfl, h17, h18, h19⟩

/-! ### Slots, banks and codebooks of a Frond -/

variable (r : FrondRec)

@[simp] theorem FrondRec.modSlot_slot (k : Nat) (g : SlotRec → SlotRec) : (r.modSlot k g).slot k = g (r.slot k) := by
  unfold FrondRec.modSlot FrondRec.slot; split <;> rfl
@[simp] theorem FrondRec.modBank_bank (b : Nat) (g : BankRec → BankRec) : (r.modBank b g).bank b = g (r.bank b) := by
  simp [FrondRec.modBank, FrondRec.bank]
theorem FrondRec.modBank_bank_ne (b : Nat) (g : BankRec → BankRec) (j : Nat) (h : j ≠ b) : (r.modBank b g).bank j = r.bank j := by
  simp [FrondRec.modBank, FrondRec.bank, h]
@[simp] theorem FrondRec.modHandle_handle (b : Nat) (g : HandleRec → HandleRec) : (r.modHandle b g).handle b = g (r.handle b) := by
  simp [FrondRec.modHandle, FrondRec.handle]
@[simp] theorem FrondRec.modCb_cb (b : Nat) (g : CbRec → CbRec) : (r.modCb b g).cb b = g (r.cb b) := by simp [FrondRec.modCb, FrondRec.cb]
@[simp] theorem FrondRec.setAcc_acc (b : Nat) (a : AccBank) : (r.setAcc b a).acc b = a := by
  unfold FrondRec.setAcc FrondRec.acc; split <;> rfl
@[simp] theorem CanRec.modObj_obj (r : CanRec) (o : Nat) (g : ObjRec → ObjRec) : (r.modObj o g).obj o = g (r.obj o) := by
  simp [CanRec.modObj, CanRec.obj]
theorem CanRec.modObj_obj_ne (r : CanRec) (o : Nat) (g : ObjRec → ObjRec) (j : Nat) (h : j ≠ o) : (r.modObj o g).obj j = r.obj j := by
  simp [CanRec.modObj, CanRec.obj, h]

end Sys2Proof.Machine
end

