-- ==== Sys2Proof/Tests/Slice0.lean ====
section
/-! SUPPORT. Tests: terms WellFormed refuses, results worked out from the specification's own examples, and for every obligation states
and operands that meet its hypotheses together. -/

namespace Sys2Proof.Tests

open Sys2Proof.Machine

set_option maxRecDepth 100000
set_option Elab.async false
set_option linter.unreachableTactic false
set_option linter.unusedTactic false

/-! ### Terms WellFormed refuses, one for each check -/

/-- A physical channel listed twice. -/
theorem test_illformed_memoryTrainingDone : Instr.wf (.memoryTrainingDone [3, 3]) = false := by decide
/-- A Frond listed twice. -/
theorem test_illformed_fabricSelfTestDone : Instr.wf (.fabricSelfTestDone ⟨[7], [7], []⟩) = false := by decide
/-- A Frond listed twice. -/
theorem test_illformed_safeRestart : Instr.wf (.safeRestart [7, 7]) = false := by decide
/-- A long packet's word count has 16 bits. -/
theorem test_illformed_csiLongPacket (l : List Byte) (h : l.length = 65536) : Instr.wf (.csiLongPacket 0 0 0x2A l true .good) = false := by
  simp [Instr.wf, h]
/-- No datagram is longer than the longest frame. -/
theorem test_illformed_udpIngestPayload (l : List Byte) (h : l.length = 9171) : Instr.wf (.udpIngestPayload 0 5000 l) = false := by
  simp [Instr.wf, h]
/-- A store word has 35 symbols. -/
theorem test_illformed_matmul : Instr.wf (.matmul 0 0 [.word 5 [⟨35, 1⟩]]) = false := by decide
theorem test_illformed_convtap : Instr.wf (.convtap 0 0 [.word 5 [⟨35, 1⟩]]) = false := by decide
/-- Two errors at one symbol are one error. -/
theorem test_illformed_attn : Instr.wf (.attn 0 0 [.word 5 [⟨4, 1⟩, ⟨4, 2⟩]]) = false := by decide
/-- An access of no byte. -/
theorem test_illformed_nocTransaction_empty : Instr.wf (.nocTransaction ⟨1, 0, 0x1000, .read 0, [], [], false⟩) = false := by decide
/-- An address of more than 40 bits. -/
theorem test_illformed_nocTransaction_address : Instr.wf (.nocTransaction ⟨1, 0, 2 ^ 40, .read 64, [], [], false⟩) = false := by decide
/-- Only the host reaches BAR4. -/
theorem test_illformed_nocTransaction_bar4 : Instr.wf (.nocTransaction ⟨1, 0, 0, .read 4, [], [], true⟩) = false := by decide
/-- The register window ends at 0x3FF_FFFF. -/
theorem test_illformed_registerWrite : Instr.wf (.registerWrite 1 0x4000000 .w32 0) = false := by decide
theorem test_illformed_peerCommandFrame (l : List Byte) (a : PeerAddr) (h : l.length = 9171) : Instr.wf (.peerCommandFrame 0 l a) = false := by
  simp [Instr.wf, h]
theorem test_illformed_checkComplete (b : Byte) : Instr.wf (.checkComplete 0 [(0, List.replicate 257 b)]) = false := by simp [Instr.wf]
theorem test_illformed_mossRunEnd : Instr.wf (.mossRunEnd 0 [] none 1000) = false := by decide
/-- A remote frame carries no data. -/
theorem test_illformed_canFrameReceive : Instr.wf (.canFrameReceive 0 ⟨0x123, false, true, false, false, false, 1, [0]⟩ 0) = false := by decide
theorem test_illformed_rocePacket (l : List Byte) (h : l.length = 4097) :
    Instr.wf (.rocePacket 0 ⟨0x04, 0, 0, false, 0, 0, 0, 0, 0, l, false⟩) = false := by simp [Instr.wf, h]
theorem test_illformed_bar2Access : Instr.wf (.bar2Access 0 (.write [])) = false := by decide
theorem test_illformed_dmaBusError : Instr.wf (.dmaBusError 0 true (2 ^ 40)) = false := by decide
/-- A line starts at a multiple of 64. -/
theorem test_illformed_memRead : Instr.wf (.memRead 1 1 0x41 ⟨[], []⟩) = false := by decide
/-- A transfer that failed four times is retrained, not an access. -/
theorem test_illformed_memRead_link : Instr.wf (.memRead 1 1 0x40 ⟨[], [[], [], [], []]⟩) = false := by decide
/-- A write stays inside one line. -/
theorem test_illformed_memWrite : Instr.wf (.memWrite 1 1 0x7F [1, 2] false ⟨[], []⟩) = false := by decide
/-- An error that changes no bit is none. -/
theorem test_illformed_scrubStep : Instr.wf (.scrubStep [(0, [⟨2, 0⟩])]) = false := by decide
theorem test_illformed_rowSpareDone : Instr.wf (.rowSpareDone 0 ⟨524288, []⟩) = false := by decide
theorem test_illformed_migrationBlockCopy : Instr.wf (.migrationBlockCopy ⟨0, [(3, [⟨2, 0⟩])]⟩) = false := by decide
/-- A heartbeat numbers the frames of eight pipelines. -/
theorem test_illformed_heartbeatReceive : Instr.wf (.heartbeatReceive ⟨0, 0, 0, 0, [], true⟩) = false := by decide
theorem test_illformed_droopDetect : Instr.wf (.droopDetect 0 (2 ^ 32)) = false := by decide
theorem test_illformed_twinImageReceived (l : List Byte) (h : l.length = 4194305) : Instr.wf (.twinImageReceived l) = false := by
  simp [Instr.wf, h]
theorem test_illformed_imuTransfer (b : Byte) : Instr.wf (.imuTransfer true (List.replicate 65 b)) = false := by simp [Instr.wf]

/-- The opcode table gives no row any bits, so no word spells a command. -/
theorem test_decodeTableWord (nbits w : Nat) : decodeTableWord nbits w = none := by rfl

/-! ### Worked examples of the specification -/

/-- The clock of the example of R15, at the edge of frame k. -/
def exClock (k : Nat) : FclkRec := { en := true, start := 1000000000, period := 33333333, inForce := 33333333, next := k }

/-- The device after reset with the timebase at t. -/
def exAt (t : Word64) : State := { State.reset with gctl := { State.reset.gctl with time := t } }

/-- R15: frame 1,000 opens at 34,333,333,000 ns. -/
theorem test_edge_time_even : (exClock 1000).nextTime = 34333333000 := by decide +kernel
/-- R15: frame 1,001 opens at 34,366,666,333 ns, which is odd; its edge fires on the tick after and not on the one before. -/
theorem test_edge_time_odd :
    (exClock 1001).nextTime = 34366666333 ∧
    (opFclkEdge 0 (State.modFclk 0 (fun _ => exClock 1001) (exAt 34366666332))).fclk 0 = exClock 1001 ∧
    ((opFclkEdge 0 (State.modFclk 0 (fun _ => exClock 1001) (exAt 34366666334))).fclk 0).frame = 1001 := by
  decide +kernel
/-- R15: enabled at 34,340,000,000 ns, the clock's first edge is frame 1,001. -/
theorem test_first_edge : firstEdge 1000000000 33333333 34340000000 = 1001 := by decide +kernel
/-- R18: the entry of PIPE0's frame 1,000 is at index 40. -/
theorem test_ledger_index : ledgerKey 0 1000 = 40 := by decide +kernel
/-- R30: FP 40 lies in Q0, FP 100 in Q2. -/
theorem test_quadrants : quadOf 40 = 0 ∧ quadOf 100 = 2 := by decide +kernel
/-- R473: a line of metadata 0x02 whose byte 64 arrives as 0x58 gives the syndromes 0x5A, 0xEA and 0x03 and is put right. -/
theorem test_line_corrected :
    let line := rsEncode (List.replicate 64 0 ++ [0x02])
    let got := line.set 64 0x58
    (gfEval 1 got, gfEval 2 got, gfEval 4 got) = (0x5A, 0xEA, 0x03) ∧ rsDecode got = .corrected 64 0x5A ∧ rsCorrected got = line := by
  decide +kernel
/-- Contexts of 100, 128 and 129 tokens fall in buckets 2, 2 and 3. -/
theorem test_buckets : bucketOf 100 = 2 ∧ bucketOf 128 = 2 ∧ bucketOf 129 = 3 := by decide +kernel

/-! ### States the witnesses are built from -/

/-- A device that has started: no reset pin holds it, the firmware runs, 1 s on the timebase. -/
def up : State := { State.reset with
  pins := { State.reset.pins with porstN := true, sysrstN := true, faultN := true }
  gctl := { State.reset.gctl with ready := true, bootStage := 4, time := 1000000000 }
  twin := { State.reset.twin with roleSet := true }
  pwr := { State.reset.pwr with calDone := true }
  sec := { State.reset.sec with phase := .verified } }

/-- A CSI-2 stream record: port 0, channel 0, RAW8, 64 by 2 pixels. -/
def cfg0 : StreamCfg := { stream := 0, source := 0, port := 0, vc := 0, dt := 0x2A, comp := 0, pred := 0, kind := 0, bayer := 0, bgMode := 0, bgDecim := 0, maxAge := 4, width := 64, height := 2, lead := 0, inSlotSize := 4096, inBase := 0x100000, inSlots := 4, outFmt := 0, outDest := 0, cpad := 0, dmaCh := 0, outCount := 1, bandSync := 0, slotW := 16, slotH := 16, outFrameStride := 4096, outBase := 0x200000, bgOff := 0, roiOff := 0, slotStride := 1024, winStart := 0, winLen := 1000000, outH := 0, coef := [] }

/-- A blob of a class-3 pipeline on clock 0 with the streams given. -/
def blob3 (l : List StreamCfg) : PipeBlob := { fclk := 0, prepMask := 1, streaming := false, batch := 1, cls := 3, ingestDl := 1000000, ringCount := 0, ringSync := 0, ringBase := 0, streams := l }

/-- Pipeline 0 runs with a blob, clock 0 is on and its edge 0 is due. -/
def runs (b : PipeBlob) (s : State) : State :=
  State.modFclk 0 (fun c => { c with en := true }) (State.modPipe 0 (fun r => { r with blob := some b, running := true, cur := some 0 }) s)

/-- Its frame 0 is open since t, with the samples given. -/
def opened (t : Word64) (xs : List Sample) (s : State) : State :=
  State.modLedger 0 0 (fun l => { l with valid := true, tEdge := t, tStage := List.replicate 6 0xFFFFFFFF })
    { s with loop := { s.loop with samples := xs } }
/-- Bytes with a little-endian number of n bytes put at offset o. -/
def putAt (b : List Byte) (x : Nat × Nat × Nat) : List Byte := b.take x.1 ++ toLe x.2.1 x.2.2 ++ b.drop (x.1 + x.2.1)
/-- n zero bytes with the fields given, each an offset, a size and a value. -/
def bytesOf (n : Nat) (l : List (Nat × Nat × Nat)) : List Byte := l.foldl putAt (List.replicate n 0)
/-- A descriptor of an opcode in class 1 with SEQ 5 and the body fields given. -/
def desc (op : Nat) (l : List (Nat × Nat × Nat)) : QDesc := { seq := 5, body := bytesOf 64 ([(0, 1, op), (1, 1, 1), (4, 4, 5)] ++ l) }
/-- A valid handle entry of epoch 0, filled. -/
def hand (base rows fmt layout d0 d1 d2 stride : Nat) : HandleRec :=
  { w0 := BitVec.ofNat 64 (base + rows * 2^14 + rows * 2^29 + fmt * 2^44 + layout * 2^48 + 2^50)
    w1 := BitVec.ofNat 64 (d0 + d1 * 2^16 + d2 * 2^32 + stride * 2^48) }
/-- Slot 1 of Frond 7 runs a queue over handle entries. -/
def on7 (hs : Tab HandleRec) (q : List QDesc) : State := State.modFrond 7 (fun r =>
  { r with handles := hs, slot1 := { st := .running, cls := 1, queue := q, fetchAddr := 64, nextSeq := 6 } }) up
/-- The bytes at an address of main memory. -/
def inMem (a : Nat) (b : List Byte) (s : State) : State := { s with mem := { s.mem with bytes := twriteN 0 s.mem.bytes a b } }
/-- A command of queue 0 with an opcode and packet fields, fetched and waiting, as tag 1. -/
def mkCmd (op : Nat) (l : List (Nat × Nat × Nat)) : Cmd := { tag := 1, sq := 0, pkt := bytesOf 64 ((0, 1, op) :: l), stage := .waiting, reply := none }
/-- The state with that command in flight. -/
def fly (c : Cmd) (s : State) : State := { s with cmdq := { s.cmdq with cmds := [c] } }
/-- That command taken to start. -/
def taken (s : State) : State := match s.cmd 1 with | some c => takeCmd c s | none => s
/-- Where only 0 fits, a place is 0 whatever the free value is. -/
theorem place_zero (used : List (Nat × Nat)) (limit align n : Nat) (s : State) (h : ∀ a, fitsAt used limit n a = true → a = 0)
    (h0 : fitsAt used limit n 0 = true) : findPlace used limit align n s = (some 0, (draw 40 s).2) := by
  unfold findPlace
  simp only []
  split
  · rename_i hf; rw [h _ hf]
  · simp [List.find?, h0]
/-- A pair by its parts. -/
theorem pair_of {α β : Type} {x : α × β} {a : α} {b : β} (h : x.1 = a) (h' : x.2 = b) : x = (a, b) := by rw [← h, ← h']
/-- Whether a page operation succeeded, and its state. -/
def isOk (r : Except (BitVec 16 × State) (Unit × State)) : Bool := match r with | .ok _ => true | .error _ => false
def okT (r : Except (BitVec 16 × State) (Unit × State)) : State := match r with | .ok x => x.2 | .error _ => up
theorem ok_of {r : Except (BitVec 16 × State) (Unit × State)} {t : State} (h : isOk r = true) (h' : okT r = t) : r = .ok ((), t) := by
  cases r with
  | ok x => obtain ⟨⟨⟩, y⟩ := x; subst h'; rfl
  | error e => cases h
/-- A multiple of the neutral point is neutral. -/
theorem edMul_neutral : ∀ k n, edMul k n edO = edO
  | 0, _ => rfl
  | k + 1, n => by
    have h : edAdd edO edO = edO := by decide +kernel
    unfold edMul
    rw [h, edMul_neutral k]
    split
    · exact h
    · rfl
/-- No multiple of any point is neutral. -/
theorem edMul_zero : ∀ k p, edMul k 0 p = edO
  | 0, _ => rfl
  | k + 1, p => by
    unfold edMul
    rw [if_neg (by decide), Nat.zero_div, edMul_zero k]
/-- Under the neutral point's key, the neutral point with scalar 0 signs every message. -/
theorem ed_neutral (m sig : List Byte) (h : sig = 1 :: List.replicate 113 0) : edVerify (1 :: List.replicate 56 0) m sig = true := by
  have h1 : edDecode (1 :: List.replicate 56 0) = some edO := by decide +kernel
  have h2 : sig.take 57 = 1 :: List.replicate 56 0 := by rw [h]; decide +kernel
  have h3 : leNat ((sig.drop 57).take 57) = 0 := by rw [h]; decide +kernel
  have h4 : sig.length = 114 := by rw [h]; decide +kernel
  have h5 : (decide (0 < edL) && edSame edO (edAdd edO edO)) = true := by decide +kernel
  unfold edVerify
  simp only [h1, h2, h3, h4, edMul_neutral, edMul_zero, h5, decide_true, Bool.true_and]

/-! ### Witnesses: frame clocks, edges, golden sequences, ingest, PREP, slots -/

namespace B01

def f1 := State.modFclk 0 (fun c => { c with en := true }) up
def f2 := runs (blob3 []) up
def f3 := State.modFclk 0 (fun c => { c with en := true, period := 6000000, start := 5 }) up
def w01_10a := (runs { blob3 [] with ingestDl := 5000000 } up)
def w01_14a := { f1 with gctl := { f1.gctl with time := 0 } }
def c0b : PipeBlob := { blob3 [] with cls := 0 }
def w01_21a := (runs c0b up)
def g1 := State.modGolden 3 (fun g => { g with clockReq := true }) up
def g2 := State.modGolden 3 (fun g => { g with running := true, unverified := true }) up
def w01_26a := (State.modFp 3 (fun x => { x with st := .spareUnverified }) g2)
def w01_27a := (State.modFp 3 (fun x => { x with st := .mapped, fl := 3 }) g2)
def w01_28a := (State.modFp 3 (fun x => { x with st := .spare }) g2)
def w01_30a := { g1 with thal := { g1.thal with goldenEdge := g1.gctl.time } }
def w01_31a := { g1 with thal := { g1.thal with goldenEdge := g1.gctl.time } }
def w01_32a := { g1 with sched := { g1.sched with fps := [(3, { st := .mapped, fl := 3 })] } }
def s0 : Sample := { pipe := 0, stream := 0, frame := 0, receiving := true }
def p0 := runs (blob3 [cfg0]) up
def p0n := State.modPipe 0 (fun r => { r with running := false }) p0
def pk : State := { opened 0 [] p0 with gctl := { up.gctl with time := 100 } }
def line64 : List Byte := List.replicate 64 7
def pr := opened 0 [s0] p0
def pr1 := State.modSample 0 0 0 (fun y => { y with anyData := true, lines := y.lines + 1, bytes := y.bytes + 64 }) pr
def cbad : StreamCfg := { cfg0 with inBase := 0x3FFFFFF000 }
def prb := opened 0 [s0] (runs (blob3 [cbad]) up)
def prb1 := State.modSample 0 0 0 (fun y => { y with anyData := true, lines := y.lines + 1, bytes := y.bytes + 64 }) prb
def w01_51a := (opened 0 [{ s0 with lines := 2 }] p0)
def w01_51b := { s0 with lines := 2 }
def w01_52a := (opened 0 [{ s0 with lines := 1 }] p0)
def w01_52b := { s0 with lines := 1 }
def cu : StreamCfg := { cfg0 with source := 1, kind := 2 }
def pu := runs (blob3 [cu]) up
def su : Sample := { pipe := 0, stream := 0, frame := 0 }
/-- A UDP row steers port 1000 of Ethernet port 1 to stream 0. -/
def steer (w : Word32) (s : State) : State := { State.modPort 1 (fun r => { r with link := .up }) s with eth := { (State.modPort 1 (fun r => { r with link := .up }) s).eth with flows := [(0, w)] } }
def w01_60a := State.modPort 1 (fun r => { r with maxFrame := 63 }) (steer 0 up)
def w01_61a := (steer 0 up)
def fw : Word32 := BitVec.ofNat 32 (2^31 + 2^25 + 32 * 2^16 + 1000)
def cu32 : StreamCfg := { cu with stream := 32 }
def su32 : Sample := { su with stream := 32 }
def pu32 := runs (blob3 [cu32]) up
def w01_66a := (steer fw up)
def w01_67a := (steer fw (opened 1000000000 [su32] pu32))
def w01_68a := (steer fw (opened 0 [su32] pu32))
def puw := opened 0 [su] pu
def puw2 := opened 0 [{ su with anyData := true }] pu
def w01_72a := { su with anyData := true }
def ch : StreamCfg := { cfg0 with source := 2, kind := 1 }
def hs := { opened 0 [su] (runs (blob3 [ch]) up) with loop := { (opened 0 [su] (runs (blob3 [ch]) up)).loop with submitLo := 4096 } }
def w01_76a := (State.modPipe 0 (fun r => { r with running := false }) hs)
def w01_79a := ({ roiPending := true, pendTarget := 5, bank1 := [(0, 9)] } : StreamRec)
def w01_80a := ({ roiValid := true, roiTgt := 5 } : StreamRec)
def sj : Sample := { pipe := 0, stream := 0, frame := 0, settled := true, anyData := true, lines := 2, bytes := 128, edged := true, fullFrame := true }
def pj := opened 0 [sj] p0
def pj0 := opened 0 [] p0
def pjb : State := State.modPrep 0 (fun r => { r with pipe := 0, busy := true }) (opened 0 [{ sj with jobsOut := [(0, 0)] }] p0)
def sjb : Sample := { sj with jobsOut := [(0, 0)] }
def pjc : State := State.modPrep 0 (fun r => { r with pipe := 0, busy := true }) (opened 0 [{ sjb with reason := 3 }] p0)
def w01_91a := { sjb with reason := 3 }
def cj : StreamCfg := { cfg0 with kind := 2 }
def pjj : State := State.modPrep 0 (fun r => { r with pipe := 0, busy := true, jpeg := true }) (opened 0 [sjb] (runs (blob3 [cj]) up))
def sl (fp k : Nat) (x : SlotRec) : State := State.modSlot fp k (fun _ => x) up
def w01_97a := (sl 143 0 { st := .running, queue := [{ seq := 0, body := [] }] })
def w01_99a := (sl 143 0 { st := .halted })
def w01_100a := (sl 143 1 { st := .running })
def w01_101a := (sl 143 1 { st := .running, queue := [{ seq := 0, body := [], started := true }] })
def bq : State := State.modFrond 2 (fun r => { r with acc0 := { occupied := true }, slot0 := { st := .running, queue := [{ seq := 0, body := [], started := true }] } }) up
def b1q : State := State.modFrond 2 (fun r => { r with acc0 := { occupied := true }, bankSlot := 1, slot0 := { st := .running }, slot1 := { st := .running, aborting := true, queue := [{ seq := 0, body := [], started := true }] } }) up
def w01_106a := (State.modSlot 2 1 (fun x => { x with aborting := false }) b1q)

/-- Concrete operands and states that meet the hypotheses of FrameClocks. -/
theorem test_witness_FrameClocks :
    (Runs f1) ∧
    f1.blocksUp = true ∧
    (f1.fclk ↑(0 : Fclk)).en = true ∧
    (Runs up) ∧
    up.blocksUp = true ∧
    (up.fclk ↑(0 : Fclk)).en = false ∧
    (Runs f2) ∧
    f2.blocksUp = true ∧
    f2.fclkBound ↑(0 : Fclk) = true ∧
    f1.fclkBound ↑(0 : Fclk) = false ∧
    (BitVec.toNat (4999999 : Word32) < 5000000 ∨ 200000000 < BitVec.toNat (4999999 : Word32)) ∧
    (BitVec.toNat (200000001 : Word32) < 5000000 ∨ 200000000 < BitVec.toNat (200000001 : Word32)) ∧
    (Runs w01_10a) ∧
    w01_10a.blocksUp = true ∧
    (5000000 ≤ BitVec.toNat (5000000 : Word32)) ∧
    BitVec.toNat (5000000 : Word32) ≤ 200000000 ∧
    (∃ (p : Nat), p ∈ w01_10a.runningPipes ∧ (w01_10a.pipe p).fclk = ↑(0 : Fclk) ∧ w01_10a.breaksPipe p (BitVec.toNat (5000000 : Word32)) = true) ∧
    (∀ (p : Nat), p ∈ f1.runningPipes → (f1.pipe p).fclk = ↑(0 : Fclk) → f1.breaksPipe p (BitVec.toNat (5000000 : Word32)) = false) ∧
    (5000000 ≤ BitVec.toNat (200000000 : Word32)) ∧
    BitVec.toNat (200000000 : Word32) ≤ 200000000 ∧
    (∀ (p : Nat), p ∈ up.runningPipes → (up.pipe p).fclk = ↑(0 : Fclk) → up.breaksPipe p (BitVec.toNat (200000000 : Word32)) = false) ∧
    ((up.fclk ↑(0 : Fclk)).en = false ∨ ↑(BitVec.toNat up.gctl.time) < (up.fclk ↑(0 : Fclk)).nextTime) ∧
    (Runs w01_14a) ∧
    (w01_14a.fclk ↑(0 : Fclk)).en = true ∧
    ((w01_14a.fclk ↑(0 : Fclk)).nextTime ≤ ↑(BitVec.toNat w01_14a.gctl.time)) ∧
    w01_14a.fclkBound ↑(0 : Fclk) = false ∧
    (Runs f3) ∧
    (f3.fclk ↑(0 : Fclk)).en = true ∧
    ((f3.fclk ↑(0 : Fclk)).nextTime ≤ ↑(BitVec.toNat f3.gctl.time)) ∧
    f3.fclkBound ↑(0 : Fclk) = false := by
  refine ⟨?_, ?_, ?_, ?_, ?_, ?_, ?_, ?_, ?_, ?_, ?_, ?_, ?_, ?_, ?_, ?_, ?_, ?_, ?_, ?_, ?_, ?_, ?_, ?_, ?_, ?_, ?_, ?_, ?_, ?_⟩
  · decide +kernel
  · decide +kernel
  · decide +kernel
  · decide +kernel
  · decide +kernel
  · decide +kernel
  · decide +kernel
  · decide +kernel
  · decide +kernel
  · decide +kernel
  · decide +kernel
  · decide +kernel
  · decide +kernel
  · decide +kernel
  · decide +kernel
  · decide +kernel
  · decide +kernel
  · first | decide +kernel | rfl | (intros; decide +kernel) | (intros; rfl) | (intro n sh e; cases e)
  · decide +kernel
  · decide +kernel
  · first | decide +kernel | rfl | (intros; decide +kernel) | (intros; rfl) | (intro n sh e; cases e)
  · decide +kernel
  · decide +kernel
  · decide +kernel
  · decide +kernel
  · decide +kernel
  · decide +kernel
  · decide +kernel
  · decide +kernel
  · decide +kernel

/-- Concrete operands and states that meet the hypotheses of FirstEdgeIsTheNext. -/
theorem test_witness_FirstEdgeIsTheNext :
    0 < 5000000 ∧
    0 < 10 := by
  and_intros <;> decide +kernel

/-- Concrete operands and states that meet the hypotheses of EdgeOpensFrames. -/
theorem test_witness_EdgeOpensFrames :
    (Runs f2) ∧
    (f2.fclk ↑(0 : Fclk)).en = true ∧
    ((f2.fclk ↑(0 : Fclk)).nextTime ≤ ↑(BitVec.toNat f2.gctl.time)) ∧
    f2.fclkBound ↑(0 : Fclk) = true ∧
    ((f2.pipe ↑(0 : Pipe)).blob = some (blob3 [])) ∧
    (f2.pipe ↑(0 : Pipe)).stopping = false ∧
    ((blob3 []).streams = []) ∧
    ((blob3 []).cls ≠ 0) ∧
    ((f2.pipe ↑(0 : Pipe)).start.ctxs = []) ∧
    (Runs w01_21a) ∧
    (w01_21a.fclk ↑(0 : Fclk)).en = true ∧
    ((w01_21a.fclk ↑(0 : Fclk)).nextTime ≤ ↑(BitVec.toNat w01_21a.gctl.time)) ∧
    w01_21a.fclkBound ↑(0 : Fclk) = true := by
  and_intros <;> decide +kernel

/-- Concrete operands and states that meet the hypotheses of GoldenSequences. -/
theorem test_witness_GoldenSequences :
    (RunsFab g1 ↑(3 : Frond)) ∧
    ((g1.frond ↑(3 : Frond)).golden.clockReq = true ∨ (g1.frond ↑(3 : Frond)).golden.checkReqs ≠ []) ∧
    (g1.frond ↑(3 : Frond)).golden.running = false ∧
    g1.goldenGap ↑(3 : Frond) = true ∧
    (g1.frond ↑(3 : Frond)).epochBusy = false ∧
    (RunsFab w01_26a ↑(3 : Frond)) ∧
    (w01_26a.frond ↑(3 : Frond)).golden.running = true ∧
    (w01_26a.fp ↑(3 : Frond)).replaceFl = none ∧
    (w01_26a.fp ↑(3 : Frond)).st = FpState.spareUnverified ∧
    (RunsFab w01_27a ↑(3 : Frond)) ∧
    (w01_27a.frond ↑(3 : Frond)).golden.running = true ∧
    (w01_27a.fp ↑(3 : Frond)).replaceFl = none ∧
    (w01_27a.runningPipes = []) ∧
    (RunsFab w01_28a ↑(3 : Frond)) ∧
    (w01_28a.frond ↑(3 : Frond)).golden.running = true ∧
    (w01_28a.fp ↑(3 : Frond)).replaceFl = none ∧
    (w01_28a.runningPipes = []) ∧
    (Runs g1) ∧
    (g1.goldenPer * 9 ≤ 10 * (BitVec.toNat g1.gctl.time - BitVec.toNat g1.thal.goldenEdge)) ∧
    (Runs w01_30a) ∧
    (10 * (BitVec.toNat w01_30a.gctl.time - BitVec.toNat w01_30a.thal.goldenEdge) < w01_30a.goldenPer * 9) ∧
    (Runs w01_31a) ∧
    w01_31a.goldenDue = none ∧
    (Runs w01_32a) ∧
    (w01_32a.goldenDue = some (1000000000 : Word64)) := by
  and_intros <;> decide +kernel

/-- Concrete operands and states that meet the hypotheses of CsiPackets. -/
theorem test_witness_CsiPackets :
    (Runs pk) ∧
    (pk.csiStream ↑(0 : CsiPort) ↑(0 : VirtChan) = some (0, blob3 [cfg0], cfg0)) ∧
    pk.openSample 0 cfg0.stream = none ∧
    (pk.pipe 0).running = true ∧
    ((0 : Int) ≤ (pk.fclk (pk.pipe 0).fclk).frameAt (BitVec.toNat pk.gctl.time) cfg0.lead) ∧
    ((0 : Int) ≤ (BitVec.ofInt 32 ((pk.fclk (pk.pipe 0).fclk).frameAt (BitVec.toNat pk.gctl.time) cfg0.lead) - (pk.pipe 0).firstFrame).toInt) ∧
    pk.sample 0 cfg0.stream (BitVec.ofInt 32 ((pk.fclk (pk.pipe 0).fclk).frameAt (BitVec.toNat pk.gctl.time) cfg0.lead)) = none ∧
    (Runs p0n) ∧
    (p0n.csiStream ↑(0 : CsiPort) ↑(0 : VirtChan) = some (0, blob3 [cfg0], cfg0)) ∧
    p0n.openSample 0 cfg0.stream = none ∧
    (p0n.pipe 0).running = false ∧
    (Runs pr) ∧
    (pr.csiStream ↑(0 : CsiPort) ↑(0 : VirtChan) = some (0, blob3 [cfg0], cfg0)) ∧
    pr.openSample 0 cfg0.stream = some s0 ∧
    (pr.stream cfg0.stream).ignoring = false ∧
    (Instr.csiLongPacket (0 : CsiPort) (0 : VirtChan) (BitVec.ofNat 6 cfg0.dt) line64 true Ecc.good).wf = true ∧
    cfg0.dt < 48 ∧
    cfg0.dt ≠ 18 ∧
    line64.length = lineBytes cfg0 ∧
    s0.lines < cfg0.height ∧
    (s0.lines * lineBytes cfg0 + lineBytes cfg0 ≤ cfg0.inSlotSize) ∧
    (writeStop 160 (blob3 [cfg0]).cls (inSlot cfg0 s0.frame + s0.lines * lineBytes cfg0) (clean line64) (State.modSample 0 cfg0.stream s0.frame (fun (y : Sample) => { pipe := y.pipe, stream := y.stream, frame := y.frame, receiving := y.receiving, anyData := true, settled := y.settled, reason := y.reason, lines := y.lines + 1, bytes := y.bytes + line64.length, payload := y.payload, edged := y.edged, fullFrame := y.fullFrame, age := y.age, rois := y.rois, jobsOut := y.jobsOut, bandsDone := y.bandsDone, signalled := y.signalled, roiValid := y.roiValid, bgLost := y.bgLost, finished := y.finished, recorded := y.recorded : Sample }) pr) = (none, (writeStop 160 3 1048576 (clean line64) pr1).snd)) ∧
    (Runs prb) ∧
    (prb.csiStream ↑(0 : CsiPort) ↑(0 : VirtChan) = some (0, blob3 [cbad], cbad)) ∧
    prb.openSample 0 cbad.stream = some s0 ∧
    (prb.stream cbad.stream).ignoring = false ∧
    (Instr.csiLongPacket (0 : CsiPort) (0 : VirtChan) (BitVec.ofNat 6 cbad.dt) line64 true Ecc.good).wf = true ∧
    cbad.dt < 48 ∧
    cbad.dt ≠ 18 ∧
    line64.length = lineBytes cbad ∧
    s0.lines < cbad.height ∧
    (s0.lines * lineBytes cbad + lineBytes cbad ≤ cbad.inSlotSize) ∧
    (writeStop 160 (blob3 [cbad]).cls (inSlot cbad s0.frame + s0.lines * lineBytes cbad) (clean line64) (State.modSample 0 cbad.stream s0.frame (fun (y : Sample) => { pipe := y.pipe, stream := y.stream, frame := y.frame, receiving := y.receiving, anyData := true, settled := y.settled, reason := y.reason, lines := y.lines + 1, bytes := y.bytes + line64.length, payload := y.payload, edged := y.edged, fullFrame := y.fullFrame, age := y.age, rois := y.rois, jobsOut := y.jobsOut, bandsDone := y.bandsDone, signalled := y.signalled, roiValid := y.roiValid, bgLost := y.bgLost, finished := y.finished, recorded := y.recorded : Sample }) prb) = ((writeStop 160 3 274877902848 (clean line64) prb1).fst, (writeStop 160 3 274877902848 (clean line64) prb1).snd)) ∧
    (Runs up) ∧
    up.csiStream ↑(0 : CsiPort) ↑(0 : VirtChan) = none ∧
    (Instr.csiLongPacket (0 : CsiPort) (0 : VirtChan) (42 : BitVec 6) line64 true Ecc.good).wf = true ∧
    (Instr.csiLongPacket (0 : CsiPort) (0 : VirtChan) (18 : BitVec 6) line64 true Ecc.good).wf = true ∧
    (BitVec.toNat (18 : BitVec 6) = 18 ∨ 48 ≤ BitVec.toNat (18 : BitVec 6) ∧ BitVec.toNat (18 : BitVec 6) ≤ 55) ∧
    (Instr.csiLongPacket (0 : CsiPort) (0 : VirtChan) (48 : BitVec 6) line64 true Ecc.good).wf = true ∧
    (BitVec.toNat (48 : BitVec 6) = 18 ∨ 48 ≤ BitVec.toNat (48 : BitVec 6) ∧ BitVec.toNat (48 : BitVec 6) ≤ 55) ∧
    (Instr.csiLongPacket (0 : CsiPort) (0 : VirtChan) (55 : BitVec 6) line64 true Ecc.good).wf = true ∧
    (BitVec.toNat (55 : BitVec 6) = 18 ∨ 48 ≤ BitVec.toNat (55 : BitVec 6) ∧ BitVec.toNat (55 : BitVec 6) ≤ 55) ∧
    (Runs w01_51a) ∧
    (w01_51a.csiStream ↑(0 : CsiPort) ↑(0 : VirtChan) = some (0, blob3 [cfg0], cfg0)) ∧
    w01_51a.openSample 0 cfg0.stream = some w01_51b ∧
    cfg0.height ≤ w01_51b.lines ∧
    (Runs w01_52a) ∧
    (w01_52a.csiStream ↑(0 : CsiPort) ↑(0 : VirtChan) = some (0, blob3 [cfg0], cfg0)) ∧
    w01_52a.openSample 0 cfg0.stream = some w01_52b ∧
    w01_52b.lines < cfg0.height ∧
    (∀ (v : Nat), up.csiStream (↑(0 : CsiPort)) v = none) := by
  refine ⟨?_, ?_, ?_, ?_, ?_, ?_, ?_, ?_, ?_, ?_, ?_, ?_, ?_, ?_, ?_, ?_, ?_, ?_, ?_, ?_, ?_, ?_, ?_, ?_, ?_, ?_, ?_, ?_, ?_, ?_, ?_, ?_, ?_, ?_, ?_, ?_, ?_, ?_, ?_, ?_, ?_, ?_, ?_, ?_, ?_, ?_, ?_, ?_, ?_, ?_, ?_⟩
  · decide +kernel
  · decide +kernel
  · decide +kernel
  · decide +kernel
  · decide +kernel
  · decide +kernel
  · decide +kernel
  · decide +kernel
  · decide +kernel
  · decide +kernel
  · decide +kernel
  · decide +kernel
  · decide +kernel
  · decide +kernel
  · decide +kernel
  · decide +kernel
  · decide +kernel
  · decide +kernel
  · decide +kernel
  · decide +kernel
  · decide +kernel
  · first | exact pair_of (by decide +kernel) (by rfl) | decide +kernel | rfl
  · decide +kernel
  · decide +kernel
  · decide +kernel
  · decide +kernel
  · decide +kernel
  · decide +kernel
  · decide +kernel
  · decide +kernel
  · decide +kernel
  · decide +kernel
  · first | exact pair_of (by rfl) (by rfl) | decide +kernel
  · decide +kernel
  · decide +kernel
  · decide +kernel
  · decide +kernel
  · decide +kernel
  · decide +kernel
  · decide +kernel
  · decide +kernel
  · decide +kernel
  · decide +kernel
  · decide +kernel
  · decide +kernel
  · decide +kernel
  · decide +kernel
  · decide +kernel
  · decide +kernel
  · decide +kernel
  · first | decide +kernel | rfl | (intros; decide +kernel) | (intros; rfl) | (intro n sh e; cases e)

/-- Concrete operands and states that meet the hypotheses of OtherIngest. -/
theorem test_witness_OtherIngest :
    (Runs w01_60a) ∧
    ((Instr.udpIngestPayload (1 : EthPort) (1000 : BitVec 16) [(1 : Byte), (2 : Byte)]).wf = true) ∧
    (w01_60a.port ↑(1 : EthPort)).link = LinkState.up ∧
    BitVec.toNat (1000 : BitVec 16) ≠ 4791 ∧
    (BitVec.toNat (1000 : BitVec 16) = 0 ∨ w01_60a.eth.cmdPort.toNat ≠ BitVec.toNat (1000 : BitVec 16)) ∧
    ((w01_60a.port ↑(1 : EthPort)).maxFrame.toNat < max 64 ([(1 : Byte), (2 : Byte)].length + 46)) ∧
    (Runs w01_61a) ∧
    (w01_61a.port ↑(1 : EthPort)).link = LinkState.up ∧
    (BitVec.toNat (1000 : BitVec 16) = 0 ∨ w01_61a.eth.cmdPort.toNat ≠ BitVec.toNat (1000 : BitVec 16)) ∧
    (max 64 ([(1 : Byte), (2 : Byte)].length + 46) ≤ (w01_61a.port ↑(1 : EthPort)).maxFrame.toNat) ∧
    w01_61a.flowStream (↑(1 : EthPort)) (BitVec.toNat (1000 : BitVec 16)) = none ∧
    (Runs w01_66a) ∧
    (w01_66a.port ↑(1 : EthPort)).link = LinkState.up ∧
    (BitVec.toNat (1000 : BitVec 16) = 0 ∨ w01_66a.eth.cmdPort.toNat ≠ BitVec.toNat (1000 : BitVec 16)) ∧
    (max 64 ([(1 : Byte), (2 : Byte)].length + 46) ≤ (w01_66a.port ↑(1 : EthPort)).maxFrame.toNat) ∧
    w01_66a.flowStream (↑(1 : EthPort)) (BitVec.toNat (1000 : BitVec 16)) = some 32 ∧
    w01_66a.takesUdp 32 = false ∧
    (Runs w01_67a) ∧
    (w01_67a.port ↑(1 : EthPort)).link = LinkState.up ∧
    (BitVec.toNat (1000 : BitVec 16) = 0 ∨ w01_67a.eth.cmdPort.toNat ≠ BitVec.toNat (1000 : BitVec 16)) ∧
    (max 64 ([(1 : Byte), (2 : Byte)].length + 46) ≤ (w01_67a.port ↑(1 : EthPort)).maxFrame.toNat) ∧
    w01_67a.flowStream (↑(1 : EthPort)) (BitVec.toNat (1000 : BitVec 16)) = some 32 ∧
    w01_67a.takesUdp 32 = true ∧
    (w01_67a.boundTo 32 = some (0, blob3 [cu32], cu32)) ∧
    ((State.modPort (↑(1 : EthPort)) (fun (r : EthRec) => { en := r.en, maxFrame := r.maxFrame, pfc := r.pfc, fec := r.fec, rate := r.rate, stFec := r.stFec, stRate := r.stRate, link := r.link, mac := r.mac, ip4 := r.ip4, ip6 := r.ip6, rxOk := satInc r.rxOk, rxBad := r.rxBad, rxOther := r.rxOther, rxUnbound := r.rxUnbound, txOk := r.txOk, fecCorr := r.fecCorr, fecUncorr := r.fecUncorr, gatePending := r.gatePending, gateOper := r.gateOper, gateLen := r.gateLen, gateBase := r.gateBase, gcl := r.gcl, operTab := r.operTab, operLen := r.operLen, operAt := r.operAt, operEntry := r.operEntry, commitBase := r.commitBase, tx := r.tx : EthRec }) w01_67a).udpWindow 0 cu32 = some su32) ∧
    su32.settled = false ∧
    (Runs w01_68a) ∧
    (w01_68a.port ↑(1 : EthPort)).link = LinkState.up ∧
    (BitVec.toNat (1000 : BitVec 16) = 0 ∨ w01_68a.eth.cmdPort.toNat ≠ BitVec.toNat (1000 : BitVec 16)) ∧
    (max 64 ([(1 : Byte), (2 : Byte)].length + 46) ≤ (w01_68a.port ↑(1 : EthPort)).maxFrame.toNat) ∧
    w01_68a.flowStream (↑(1 : EthPort)) (BitVec.toNat (1000 : BitVec 16)) = some 32 ∧
    w01_68a.takesUdp 32 = true ∧
    (w01_68a.boundTo 32 = some (0, blob3 [cu32], cu32)) ∧
    ((State.modPort (↑(1 : EthPort)) (fun (r : EthRec) => { en := r.en, maxFrame := r.maxFrame, pfc := r.pfc, fec := r.fec, rate := r.rate, stFec := r.stFec, stRate := r.stRate, link := r.link, mac := r.mac, ip4 := r.ip4, ip6 := r.ip6, rxOk := satInc r.rxOk, rxBad := r.rxBad, rxOther := r.rxOther, rxUnbound := r.rxUnbound, txOk := r.txOk, fecCorr := r.fecCorr, fecUncorr := r.fecUncorr, gatePending := r.gatePending, gateOper := r.gateOper, gateLen := r.gateLen, gateBase := r.gateBase, gcl := r.gcl, operTab := r.operTab, operLen := r.operLen, operAt := r.operAt, operEntry := r.operEntry, commitBase := r.commitBase, tx := r.tx : EthRec }) w01_68a).udpWindow 0 cu32 = none) ∧
    (Runs puw) ∧
    (puw.boundTo ↑(0 : Sys2Proof.Stream) = some (0, blob3 [cu], cu)) ∧
    cu.source = 1 ∧
    (List.find?     (fun (l : Ledger) =>       decide (BitVec.toNat l.tEdge + cu.winStart + cu.winLen ≤ BitVec.toNat puw.gctl.time) &&         match puw.sample 0 (↑(0 : Sys2Proof.Stream)) l.frame with         | some x => !x.settled         | none => false)     (puw.openFrames 0) =   some (puw.ledgerAt 0 (0 : Word32))) ∧
    puw.sample 0 (↑(0 : Sys2Proof.Stream)) (puw.ledgerAt 0 (0 : Word32)).frame = some su ∧
    su.anyData = false ∧
    (Runs puw2) ∧
    (puw2.boundTo ↑(0 : Sys2Proof.Stream) = some (0, blob3 [cu], cu)) ∧
    (List.find?     (fun (l : Ledger) =>       decide (BitVec.toNat l.tEdge + cu.winStart + cu.winLen ≤ BitVec.toNat puw2.gctl.time) &&         match puw2.sample 0 (↑(0 : Sys2Proof.Stream)) l.frame with         | some x => !x.settled         | none => false)     (puw2.openFrames 0) =   some (puw2.ledgerAt 0 (0 : Word32))) ∧
    puw2.sample 0 (↑(0 : Sys2Proof.Stream)) (puw2.ledgerAt 0 (0 : Word32)).frame = some w01_72a ∧
    w01_72a.anyData = true ∧
    cu.kind = 2 ∧
    (Runs hs) ∧
    hs.blocksUp = true ∧
    (hs.boundTo (bits (BitVec.toNat (0 : Word32)) 5 0) = some (0, blob3 [ch], ch)) ∧
    ch.source = 2 ∧
    (hs.pipe 0).running = true ∧
    ((hs.pipe 0).cur = some (0 : Word32)) ∧
    hs.sample 0 (bits (BitVec.toNat (0 : Word32)) 5 0) (0 : Word32) = some su ∧
    su.settled = false ∧
    BitVec.toNat hs.loop.submitLo ≤ ch.inSlotSize ∧
    ch.kind ≠ 0 ∧
    (Runs w01_76a) ∧
    w01_76a.blocksUp = true ∧
    (w01_76a.boundTo (bits (BitVec.toNat (0 : Word32)) 5 0) = some (0, blob3 [ch], ch)) ∧
    (w01_76a.pipe 0).running = false ∧
    ((puw.pipe ↑(0 : Pipe)).blob = some (blob3 [cu])) ∧
    (List.find? (fun (l : Ledger) => decide (BitVec.toNat l.tEdge + (blob3 [cu]).ingestDl ≤ BitVec.toNat puw.gctl.time) && (puw.frameSamples (↑(0 : Pipe)) l.frame).any fun (x : Sample) => !x.settled) (puw.openFrames ↑(0 : Pipe)) = some (puw.ledgerAt 0 (0 : Word32))) ∧
    (List.filter (fun (x : Sample) => !x.settled) (puw.frameSamples (↑(0 : Pipe)) (puw.ledgerAt 0 (0 : Word32)).frame) = [su]) ∧
    su.receiving = false := by
  and_intros <;> decide +kernel

/-- Concrete operands and states that meet the hypotheses of RoiTables. -/
theorem test_witness_RoiTables :
    (Runs up) ∧
    up.blocksUp = true ∧
    w01_79a.roiPending = true ∧
    ((0 : Int) ≤ BitVec.toInt ((9 : Word32) - w01_79a.pendTarget)) ∧
    (BitVec.toInt ((9 : Word32) - w01_79a.pendTarget) ≤ ↑4) ∧
    w01_80a.roiPending = false ∧
    w01_80a.roiValid = true ∧
    (↑4 < BitVec.toInt ((10 : Word32) - w01_80a.roiTgt)) := by
  and_intros <;> decide +kernel

/-- Concrete operands and states that meet the hypotheses of PrepJobs. -/
theorem test_witness_PrepJobs :
    (Runs pj) ∧
    ((pj.pipe ↑(0 : Pipe)).blob = some (blob3 [cfg0])) ∧
    (pj.freeUnit (blob3 [cfg0]) = some 0) ∧
    (pj.nextJob ↑(0 : Pipe) = some ((0 : Word32), cfg0, 0)) ∧
    (Runs up) ∧
    (up.prep ↑(0 : PrepUnit)).busy = false ∧
    (Runs pj0) ∧
    ((pj0.pipe ↑(0 : Pipe)).blob = some (blob3 [cfg0])) ∧
    (pj0.freeUnit (blob3 [cfg0]) = none ∨ pj0.nextJob ↑(0 : Pipe) = none) ∧
    (Runs pjb) ∧
    (pjb.prep ↑(0 : PrepUnit)).busy = true ∧
    ((pjb.pipe (pjb.prep ↑(0 : PrepUnit)).pipe.toNat).blob = some (blob3 [cfg0])) ∧
    pjb.sample (pjb.prep ↑(0 : PrepUnit)).pipe.toNat (pjb.prep ↑(0 : PrepUnit)).stream.toNat (pjb.prep ↑(0 : PrepUnit)).frame = some sjb ∧
    ((blob3 [cfg0]).cfg (pjb.prep ↑(0 : PrepUnit)).stream.toNat = some cfg0) ∧
    (sjb.reason = (0 : Byte)) ∧
    sjb.finished = false ∧
    cfg0.kind ≠ 2 ∧
    (Runs pjc) ∧
    (pjc.prep ↑(0 : PrepUnit)).busy = true ∧
    ((pjc.pipe (pjc.prep ↑(0 : PrepUnit)).pipe.toNat).blob = some (blob3 [cfg0])) ∧
    pjc.sample (pjc.prep ↑(0 : PrepUnit)).pipe.toNat (pjc.prep ↑(0 : PrepUnit)).stream.toNat (pjc.prep ↑(0 : PrepUnit)).frame = some w01_91a ∧
    ((blob3 [cfg0]).cfg (pjc.prep ↑(0 : PrepUnit)).stream.toNat = some cfg0) ∧
    (w01_91a.reason ≠ (0 : Byte) ∨ w01_91a.finished = true) ∧
    (Runs pjj) ∧
    (pjj.prep ↑(0 : PrepUnit)).busy = true ∧
    ((pjj.pipe (pjj.prep ↑(0 : PrepUnit)).pipe.toNat).blob = some (blob3 [cj])) ∧
    pjj.sample (pjj.prep ↑(0 : PrepUnit)).pipe.toNat (pjj.prep ↑(0 : PrepUnit)).stream.toNat (pjj.prep ↑(0 : PrepUnit)).frame = some sjb ∧
    ((blob3 [cj]).cfg (pjj.prep ↑(0 : PrepUnit)).stream.toNat = some cj) ∧
    cj.kind = 2 := by
  and_intros <;> decide +kernel

/-- Concrete operands and states that meet the hypotheses of SlotsAndSpans. -/
theorem test_witness_SlotsAndSpans :
    (Runs up) ∧
    up.blocksUp = true ∧
    ((up.frond ↑(143 : Frond)).slot ↑(1 : Slot)).st = SlotState.idle ∧
    (Runs w01_97a) ∧
    w01_97a.blocksUp = true ∧
    ((w01_97a.frond ↑(143 : Frond)).slot ↑(0 : Slot)).st ≠ SlotState.idle ∧
    (Runs w01_99a) ∧
    w01_99a.blocksUp = true ∧
    (((w01_99a.frond ↑(143 : Frond)).slot ↑(0 : Slot)).st ≠ SlotState.idle ∧ ((w01_99a.frond ↑(143 : Frond)).slot ↑(0 : Slot)).executing = false) ∧
    (Runs w01_100a) ∧
    w01_100a.blocksUp = true ∧
    (((w01_100a.frond ↑(143 : Frond)).slot ↑(1 : Slot)).st ≠ SlotState.idle ∧ ((w01_100a.frond ↑(143 : Frond)).slot ↑(1 : Slot)).executing = false) ∧
    (Runs w01_101a) ∧
    w01_101a.blocksUp = true ∧
    (((w01_101a.frond ↑(143 : Frond)).slot ↑(1 : Slot)).st ≠ SlotState.idle ∧ ((w01_101a.frond ↑(143 : Frond)).slot ↑(1 : Slot)).executing = true) ∧
    (RunsFab bq ↑(2 : Frond)) ∧
    (bq.frond ↑(2 : Frond)).slot0.st = SlotState.running ∧
    (bq.frond ↑(2 : Frond)).spanOpen 0 = true ∧
    (bq.frond ↑(2 : Frond)).slot0.spanNoted = false ∧
    (RunsFab b1q ↑(2 : Frond)) ∧
    (b1q.frond ↑(2 : Frond)).slot1.st = SlotState.running ∧
    (b1q.frond ↑(2 : Frond)).yieldAsked = true ∧
    (b1q.frond ↑(2 : Frond)).spanOpen 1 = true ∧
    (b1q.frond ↑(2 : Frond)).slot1.owner = SlotOwner.none ∧
    (∀ (d : QDesc), d ∈ (b1q.frond ↑(2 : Frond)).slot1.queue → d.hold = none) ∧
    (RunsFab w01_106a ↑(2 : Frond)) ∧
    (w01_106a.frond ↑(2 : Frond)).slot1.st = SlotState.running ∧
    (w01_106a.frond ↑(2 : Frond)).yieldAsked = true ∧
    (w01_106a.frond ↑(2 : Frond)).spanOpen 1 = true ∧
    (w01_106a.frond ↑(2 : Frond)).slot1.owner = SlotOwner.none ∧
    (∀ (d : QDesc), d ∈ (w01_106a.frond ↑(2 : Frond)).slot1.queue → d.hold = none) := by
  refine ⟨?_, ?_, ?_, ?_, ?_, ?_, ?_, ?_, ?_, ?_, ?_, ?_, ?_, ?_, ?_, ?_, ?_, ?_, ?_, ?_, ?_, ?_, ?_, ?_, ?_, ?_, ?_, ?_, ?_, ?_, ?_⟩
  · decide +kernel
  · decide +kernel
  · decide +kernel
  · decide +kernel
  · decide +kernel
  · decide +kernel
  · decide +kernel
  · decide +kernel
  · decide +kernel
  · decide +kernel
  · decide +kernel
  · decide +kernel
  · decide +kernel
  · decide +kernel
  · decide +kernel
  · decide +kernel
  · decide +kernel
  · decide +kernel
  · decide +kernel
  · decide +kernel
  · decide +kernel
  · decide +kernel
  · decide +kernel
  · decide +kernel
  · first | decide +kernel | rfl | (intros; decide +kernel) | (intros; rfl) | (intro n sh e; cases e)
  · decide +kernel
  · decide +kernel
  · decide +kernel
  · decide +kernel
  · decide +kernel
  · first | decide +kernel | rfl | (intros; decide +kernel) | (intros; rfl) | (intro n sh e; cases e)

end B01

/-! ### Witnesses: engines -/

namespace B02

def dPool := desc 5 [(8, 1, 1), (9, 1, 2), (0xC, 1, 1), (0xD, 1, 1), (0xE, 1, 1), (0xF, 1, 1), (0x10, 1, 1), (0x11, 1, 1), (0x1C, 2, 1), (0x1E, 2, 1), (0x22, 2, 4)]
def ePool := on7 [(1, hand 0 1 0 1 4 2 2 64), (2, hand 8 1 0 1 4 2 2 64)] [dPool]
def dArg := desc 6 [(8, 1, 1), (9, 1, 2), (0x10, 4, 3), (0x14, 4, 2)]
def eArg := on7 [(1, hand 0 1 0 1 4 2 2 64), (2, hand 8 1 8 0 1 1 1 1)] [dArg]
def dLoad := desc 7 [(8, 1, 1), (0xA, 2, 2), (0xC, 4, 32), (0x10, 5, 4096), (0x18, 4, 32), (0x1C, 4, 64), (0x24, 2, 1)]
def eLoad := on7 [(1, hand 0 1 0 0 4 2 2 64)] [dLoad]
def dStor := desc 8 [(8, 1, 1), (0xA, 2, 2), (0xC, 4, 32), (0x10, 5, 4096), (0x18, 4, 32), (0x1C, 4, 64)]
def eStor := on7 [(1, hand 0 1 0 0 4 2 2 64)] [dStor]
def dMove := desc 9 [(8, 1, 1), (9, 1, 2), (0xA, 1, 1), (0xC, 4, 2), (0x10, 4, 3)]
def eMove := on7 [(1, hand 0 1 0 0 4 2 2 64), (2, hand 8 1 0 0 4 2 2 64)] [dMove]
def dCb := desc 0x0A [(8, 1, 3), (9, 1, 6), (0xA, 1, 2), (0xB, 1, 1)]
def eCb := on7 [(1, hand 0 1 2 0 4 2 2 64)] [dCb]
def dSig := desc 0x0C [(8, 2, 9), (0xB, 1, 255), (0xC, 4, 3)]
def eSig := on7 [] [dSig]
def dOpt := desc 0x0D [(8, 1, 1), (9, 1, 2), (0xA, 1, 3), (0xB, 1, 4), (0xC, 1, 5), (0xD, 1, 6), (0xE, 1, 7), (0xF, 1, 8), (0x10, 1, 0x21), (0x11, 1, 2), (0x14, 4, 1), (0x18, 4, 2)]
def cbUnit : CbRec := { valid := true, efmt := 2, size := 7, entries := [(3, 0x3F80)] }
def eOpt := State.modFrond 7 (fun r => { r with cbs := [(1, cbUnit), (2, cbUnit)] })
  (on7 [(1, hand 0 1 2 0 2 1 1 2), (2, hand 1 1 5 0 2 1 1 2), (3, hand 2 1 9 0 2 1 1 2), (4, hand 3 1 7 0 2 1 1 2), (5, hand 4 1 9 0 2 1 1 2), (6, hand 5 1 7 0 2 1 1 2), (7, hand 6 1 9 0 2 1 1 2), (8, hand 7 1 0 0 2 1 1 64)] [dOpt])
def dBank := desc 0x10 [(8, 4, 0x80000001), (0xC, 1, 1)]
def eBank := on7 [] [dBank]
def vprog : Tab Word32 := [(0, 0x04000000), (1, 0x08000000), (2, 0xFC000000)]
def dVec := desc 4 [(8, 1, 1), (0xB, 1, 2), (0xC, 1, 0), (0xD, 1, 0), (0x10, 1, 2), (0x11, 1, 0), (0x12, 1, 2), (0x13, 1, 2), (0x14, 1, 2), (0x18, 4, 1), (0x1C, 4, 3)]
def eVec := State.modFrond 7 (fun r => { r with vec := { prog := vprog } }) (on7 [(1, hand 0 1 0 0 3 1 1 64), (2, hand 1 1 0 0 3 1 1 64)] [dVec])
def dPld := desc 4 [(8, 1, 1), (0xE, 1, 4)]
def ePld := State.modFrond 7 (fun r => { r with store := [(0, 1), (0x53, 0xFC)] }) (on7 [(1, hand 0 1 0 0 3 1 1 64)] [dPld])
def dMat := desc 1 [(8, 1, 1), (9, 1, 2), (0xA, 1, 3), (0x10, 1, 8), (0x12, 1, 2), (0x13, 1, 2), (0x14, 2, 2), (0x16, 1, 4)]
def eMat := State.modFrond 7 (fun r => { r with store := [(0, 1), (1, 2), (64, 3), (512, 5), (576, 7)] })
  (on7 [(1, hand 0 1 0 0 2 2 1 64), (2, hand 1 1 0 0 2 2 1 64), (3, hand 2 1 8 0 2 2 1 64)] [dMat])
def up7 : List Upset := [.cell 1 1 8, .word 0 [⟨0, 5⟩]]
def eMatU := State.modFrond 7 (upsetWords up7) eMat
def dConv := desc 2 [(8, 1, 1), (9, 1, 2), (0xA, 1, 3), (0xF, 1, 8), (0x10, 1, 4), (0x11, 1, 1), (0x12, 1, 1), (0x13, 1, 1), (0x14, 1, 1), (0x15, 1, 1), (0x16, 1, 1), (0x1D, 1, 2), (0x1E, 1, 2)]
def eConv := State.modFrond 7 (fun r => { r with store := [(0, 1), (1, 2), (512, 5), (513, 7)] })
  (on7 [(1, hand 0 1 0 1 2 2 2 64), (2, hand 1 1 0 0 2 2 1 64), (3, hand 2 1 8 1 2 2 2 64)] [dConv])
def dAttn := desc 3 [(8, 1, 1), (9, 1, 2), (0xA, 1, 3), (0xB, 1, 4), (0xC, 1, 5), (0xD, 1, 6), (0xF, 1, 5), (0x10, 1, 1), (0x12, 2, 1)]
/-- A parameter record of E4M3 operands, a BF16 output and head dimension 32, with scale 1. -/
def par7 : Memory := [(512 * 6, 0x11), (512 * 6 + 1, 0x21), (512 * 6 + 2, 1), (512 * 6 + 4, 1), (512 * 6 + 14, 0x80), (512 * 6 + 15, 0x3F)]
def eAttn := State.modFrond 7 (fun r => { r with store := [(512, 0x38), (1024, 0x38), (1536, 0x38)] ++ par7 })
  (on7 [(1, hand 1 1 1 0 32 1 1 32), (2, hand 2 1 1 0 32 1 1 32), (3, hand 3 1 1 0 32 1 1 32), (4, hand 4 1 2 0 32 1 1 32), (5, hand 5 1 4 0 36 1 1 36), (6, hand 6 1 0 0 64 1 1 64)] [dAttn])
def dBadArg := desc 6 [(8, 1, 1), (9, 1, 2)]
def w02_56a := on7 [(1, hand 0 1 0 1 4 2 2 64), (2, hand 8 1 8 0 1 1 1 1)] [dBadArg]
def dFar := desc 7 [(8, 1, 1), (0xA, 2, 2), (0xC, 4, 32), (0x10, 5, 4096), (0x18, 4, 32), (0x1C, 4, 512)]
def w02_58a := on7 [(1, hand 0 1 0 0 4 2 2 64)] [dFar]
def dSg (o g v : Nat) := desc 0x0C [(8, 2, 1000 + g * 32768), (0xA, 1, o), (0xB, 1, 255), (0xC, 4, v)]
def dSl (o ds v : Nat) := desc 0x0C [(8, 2, 63), (0xA, 1, o), (0xB, 1, ds), (0xC, 4, v)]
def w02_62a := on7 [] [dSg 0 1 7]
def w02_63a := on7 [] [dSg 1 1 7]
def w02_64a := on7 [] [dSl 0 143 0xFFFFFFFF]
def w02_65a := on7 [] [dSl 1 255 9]
def dWait (v : Nat) := desc 0x0B [(8, 2, 9), (0xC, 4, v)]
def w02_67a := on7 [] [dWait 0]
def w02_68a := on7 [] [dWait 1]
def nxt (c : Instr) (s : State) : State := match exec c s with | .next t => t | _ => s

/-- Concrete operands and states that meet the hypotheses of EngineOpcodesComplete. -/
theorem test_witness_EngineOpcodesComplete :
    (RunsFab ePool ↑(7 : Frond)) ∧
    (Starts ePool ↑(7 : Frond) ↑(1 : Slot) 5 dPool) ∧
    (((beginDesc (↑(7 : Frond)) (↑(1 : Slot)) dPool ePool).frond ↑(7 : Frond)).slot ↑(1 : Slot)).executing = true ∧
    (RunsFab eArg ↑(7 : Frond)) ∧
    (Starts eArg ↑(7 : Frond) ↑(1 : Slot) 6 dArg) ∧
    (((beginDesc (↑(7 : Frond)) (↑(1 : Slot)) dArg eArg).frond ↑(7 : Frond)).slot ↑(1 : Slot)).executing = true ∧
    (RunsFab eLoad ↑(7 : Frond)) ∧
    (Starts eLoad ↑(7 : Frond) ↑(1 : Slot) 7 dLoad) ∧
    (((beginDesc (↑(7 : Frond)) (↑(1 : Slot)) dLoad eLoad).frond ↑(7 : Frond)).slot ↑(1 : Slot)).executing = true ∧
    (RunsFab eStor ↑(7 : Frond)) ∧
    (Starts eStor ↑(7 : Frond) ↑(1 : Slot) 8 dStor) ∧
    (((beginDesc (↑(7 : Frond)) (↑(1 : Slot)) dStor eStor).frond ↑(7 : Frond)).slot ↑(1 : Slot)).executing = true ∧
    (RunsFab eMove ↑(7 : Frond)) ∧
    (Starts eMove ↑(7 : Frond) ↑(1 : Slot) 9 dMove) ∧
    (((beginDesc (↑(7 : Frond)) (↑(1 : Slot)) dMove eMove).frond ↑(7 : Frond)).slot ↑(1 : Slot)).executing = true ∧
    (RunsFab eCb ↑(7 : Frond)) ∧
    (Starts eCb ↑(7 : Frond) ↑(1 : Slot) 10 dCb) ∧
    (((beginDesc (↑(7 : Frond)) (↑(1 : Slot)) dCb eCb).frond ↑(7 : Frond)).slot ↑(1 : Slot)).executing = true ∧
    (RunsFab eSig ↑(7 : Frond)) ∧
    (Starts eSig ↑(7 : Frond) ↑(1 : Slot) 12 dSig) ∧
    (((beginDesc (↑(7 : Frond)) (↑(1 : Slot)) dSig eSig).frond ↑(7 : Frond)).slot ↑(1 : Slot)).executing = true ∧
    (RunsFab eOpt ↑(7 : Frond)) ∧
    (Starts eOpt ↑(7 : Frond) ↑(1 : Slot) 13 dOpt) ∧
    (((beginDesc (↑(7 : Frond)) (↑(1 : Slot)) dOpt eOpt).frond ↑(7 : Frond)).slot ↑(1 : Slot)).executing = true ∧
    (RunsFab eBank ↑(7 : Frond)) ∧
    (Starts eBank ↑(7 : Frond) ↑(1 : Slot) 16 dBank) ∧
    (((beginDesc (↑(7 : Frond)) (↑(1 : Slot)) dBank eBank).frond ↑(7 : Frond)).slot ↑(1 : Slot)).executing = true ∧
    (RunsFab eVec ↑(7 : Frond)) ∧
    (Starts eVec ↑(7 : Frond) ↑(1 : Slot) 4 dVec) ∧
    (((beginDesc (↑(7 : Frond)) (↑(1 : Slot)) dVec eVec).frond ↑(7 : Frond)).slot ↑(1 : Slot)).executing = true ∧
    (vecBody dVec).pload = false ∧
    (RunsFab ePld ↑(7 : Frond)) ∧
    (Starts ePld ↑(7 : Frond) ↑(1 : Slot) 4 dPld) ∧
    (((beginDesc (↑(7 : Frond)) (↑(1 : Slot)) dPld ePld).frond ↑(7 : Frond)).slot ↑(1 : Slot)).executing = true ∧
    (vecBody dPld).pload = true ∧
    (RunsFab eMat ↑(7 : Frond)) ∧
    ((Instr.matmul (7 : Frond) (1 : Slot) []).wf = true) ∧
    (Starts (State.modFrond (↑(7 : Frond)) (upsetWords []) eMat) ↑(7 : Frond) ↑(1 : Slot) 1 dMat) ∧
    ((((beginDesc (↑(7 : Frond)) (↑(1 : Slot)) dMat (State.modFrond (↑(7 : Frond)) (upsetWords []) eMat)).frond ↑(7 : Frond)).slot ↑(1 : Slot)).executing = true) ∧
    (Instr.matmul (7 : Frond) (1 : Slot) up7).wf = true ∧
    (Starts (State.modFrond (↑(7 : Frond)) (upsetWords up7) eMat) ↑(7 : Frond) ↑(1 : Slot) 1 dMat) ∧
    (((beginDesc (↑(7 : Frond)) (↑(1 : Slot)) dMat (State.modFrond (↑(7 : Frond)) (upsetWords up7) eMat)).frond ↑(7 : Frond)).slot ↑(1 : Slot)).executing = true ∧
    (RunsFab eConv ↑(7 : Frond)) ∧
    ((Instr.convtap (7 : Frond) (1 : Slot) []).wf = true) ∧
    (Starts (State.modFrond (↑(7 : Frond)) (upsetWords []) eConv) ↑(7 : Frond) ↑(1 : Slot) 2 dConv) ∧
    ((((beginDesc (↑(7 : Frond)) (↑(1 : Slot)) dConv (State.modFrond (↑(7 : Frond)) (upsetWords []) eConv)).frond ↑(7 : Frond)).slot ↑(1 : Slot)).executing = true) ∧
    (RunsFab eAttn ↑(7 : Frond)) ∧
    ((Instr.attn (7 : Frond) (1 : Slot) []).wf = true) ∧
    (Starts (State.modFrond (↑(7 : Frond)) (upsetWords []) eAttn) ↑(7 : Frond) ↑(1 : Slot) 3 dAttn) ∧
    ((((beginDesc (↑(7 : Frond)) (↑(1 : Slot)) dAttn (State.modFrond (↑(7 : Frond)) (upsetWords []) eAttn)).frond ↑(7 : Frond)).slot ↑(1 : Slot)).executing = true) := by
  and_intros <;> decide +kernel

/-- Concrete operands and states that meet the hypotheses of DescriptorFaultsHalt. -/
theorem test_witness_DescriptorFaultsHalt :
    (RunsFab (on7 [] [dPool]) ↑(7 : Frond)) ∧
    ((on7 [] [dPool]).frameOf ↑(7 : Frond) ↑(1 : Slot) = none) ∧
    ((on7 [] [dPool]).ready ↑(7 : Frond) ↑(1 : Slot) 5 = some dPool) ∧
    ((on7 [] [dPool]).judge (↑(7 : Frond)) (↑(1 : Slot)) dPool = Verdict.halt (275 : BitVec 16) 0) ∧
    (RunsFab w02_56a ↑(7 : Frond)) ∧
    w02_56a.frameOf ↑(7 : Frond) ↑(1 : Slot) = none ∧
    w02_56a.ready ↑(7 : Frond) ↑(1 : Slot) 6 = some dBadArg ∧
    (w02_56a.judge (↑(7 : Frond)) (↑(1 : Slot)) dBadArg = Verdict.halt (274 : BitVec 16) 0) ∧
    (RunsFab w02_58a ↑(7 : Frond)) ∧
    w02_58a.frameOf ↑(7 : Frond) ↑(1 : Slot) = none ∧
    w02_58a.ready ↑(7 : Frond) ↑(1 : Slot) 7 = some dFar ∧
    (w02_58a.judge (↑(7 : Frond)) (↑(1 : Slot)) dFar = Verdict.halt (276 : BitVec 16) 274995347456) := by
  and_intros <;> decide +kernel

/-- Concrete operands and states that meet the hypotheses of SyncCounters. -/
theorem test_witness_SyncCounters :
    (RunsFab eSig ↑(7 : Frond)) ∧
    (Starts eSig ↑(7 : Frond) ↑(1 : Slot) 12 dSig) ∧
    (((beginDesc (↑(7 : Frond)) (↑(1 : Slot)) dSig eSig).frond ↑(7 : Frond)).slot ↑(1 : Slot)).executing = true ∧
    (syncBody dSig).glob = false ∧
    (syncBody dSig).op = 0 ∧
    (RunsFab w02_62a ↑(7 : Frond)) ∧
    (Starts w02_62a ↑(7 : Frond) ↑(1 : Slot) 12 (dSg 0 1 7)) ∧
    (((beginDesc (↑(7 : Frond)) (↑(1 : Slot)) (dSg 0 1 7) w02_62a).frond ↑(7 : Frond)).slot ↑(1 : Slot)).executing = true ∧
    (syncBody (dSg 0 1 7)).glob = true ∧
    (syncBody (dSg 0 1 7)).op = 0 ∧
    (RunsFab w02_63a ↑(7 : Frond)) ∧
    (Starts w02_63a ↑(7 : Frond) ↑(1 : Slot) 12 (dSg 1 1 7)) ∧
    (((beginDesc (↑(7 : Frond)) (↑(1 : Slot)) (dSg 1 1 7) w02_63a).frond ↑(7 : Frond)).slot ↑(1 : Slot)).executing = true ∧
    (syncBody (dSg 1 1 7)).glob = true ∧
    (syncBody (dSg 1 1 7)).op = 1 ∧
    (RunsFab w02_64a ↑(7 : Frond)) ∧
    (Starts w02_64a ↑(7 : Frond) ↑(1 : Slot) 12 (dSl 0 143 4294967295)) ∧
    (((beginDesc (↑(7 : Frond)) (↑(1 : Slot)) (dSl 0 143 4294967295) w02_64a).frond ↑(7 : Frond)).slot ↑(1 : Slot)).executing = true ∧
    (syncBody (dSl 0 143 4294967295)).glob = false ∧
    (syncBody (dSl 0 143 4294967295)).op = 0 ∧
    (RunsFab w02_65a ↑(7 : Frond)) ∧
    (Starts w02_65a ↑(7 : Frond) ↑(1 : Slot) 12 (dSl 1 255 9)) ∧
    (((beginDesc (↑(7 : Frond)) (↑(1 : Slot)) (dSl 1 255 9) w02_65a).frond ↑(7 : Frond)).slot ↑(1 : Slot)).executing = true ∧
    (syncBody (dSl 1 255 9)).glob = false ∧
    (syncBody (dSl 1 255 9)).op = 1 ∧
    (RunsFab w02_67a ↑(7 : Frond)) ∧
    (Starts w02_67a ↑(7 : Frond) ↑(1 : Slot) 11 (dWait 0)) ∧
    w02_67a.runBehind ↑(7 : Frond) ↑(1 : Slot) = none ∧
    ((0 : Int) ≤ BitVec.toInt (w02_67a.counter (↑(7 : Frond)) (syncBody (dWait 0)) - (syncBody (dWait 0)).value)) ∧
    (beginDesc (↑(7 : Frond)) (↑(1 : Slot)) (dWait 0) w02_67a).runBehind ↑(7 : Frond) ↑(1 : Slot) = none ∧
    (RunsFab w02_68a ↑(7 : Frond)) ∧
    (w02_68a.ready ↑(7 : Frond) ↑(1 : Slot) 11 = some (dWait 1)) ∧
    (viewWait (dWait 1)).fields = true ∧
    w02_68a.runBehind ↑(7 : Frond) ↑(1 : Slot) = none ∧
    (¬(0 : Int) ≤ BitVec.toInt (w02_68a.counter (↑(7 : Frond)) (syncBody (dWait 1)) - (syncBody (dWait 1)).value)) := by
  and_intros <;> decide +kernel

/-- Concrete operands and states that meet the hypotheses of EngineTouchesOnlyItsFrond. -/
theorem test_witness_EngineTouchesOnlyItsFrond :
    ePool.island.silent = false ∧
    ((ePool.frond ↑(7 : Frond)).slot1.cls ≠ (0 : BitVec 2)) ∧
    (Instr.pool (7 : Frond) (1 : Slot) ∈ [Instr.pool (7 : Frond) (1 : Slot), Instr.argmax (7 : Frond) (1 : Slot), Instr.move (7 : Frond) (1 : Slot), Instr.cbload (7 : Frond) (1 : Slot), Instr.optstep (7 : Frond) (1 : Slot), Instr.vec (7 : Frond) (1 : Slot), Instr.vecPload (7 : Frond) (1 : Slot), Instr.bankpwr (7 : Frond) (1 : Slot)]) ∧
    (∀ (n sh : Nat), (ePool.frond ↑(7 : Frond)).slot1.owner ≠ SlotOwner.run n sh) ∧
    (exec (Instr.pool (7 : Frond) (1 : Slot)) ePool = Host.Outcome.next (nxt (Instr.pool (7 : Frond) (1 : Slot)) ePool)) := by
  refine ⟨?_, ?_, ?_, ?_, ?_⟩
  · decide +kernel
  · decide +kernel
  · decide +kernel
  · first | decide +kernel | rfl | (intros; decide +kernel) | (intros; rfl) | (intro n sh e; cases e)
  · first | decide +kernel | rfl

/-- Concrete operands and states that meet the hypotheses of ArgmaxStoresOnlyItsOutput. -/
theorem test_witness_ArgmaxStoresOnlyItsOutput :
    (RunsFab eArg ↑(7 : Frond)) ∧
    (Starts eArg ↑(7 : Frond) ↑(1 : Slot) 6 dArg) ∧
    (eArg.frond ↑(7 : Frond)).firstPoison (viewOf eArg (↑(7 : Frond)) dArg).feet = none ∧
    (((beginDesc (↑(7 : Frond)) (↑(1 : Slot)) dArg eArg).frond ↑(7 : Frond)).slot ↑(1 : Slot)).executing = true := by
  and_intros <;> decide +kernel

end B02

/-! ### Witnesses: descriptors, banks, handles, KV -/

namespace B03

def dEnd := desc 0x10 [(2, 2, 4)]
def dSg5 := desc 0x0C [(8, 2, 9)]
def fet := inMem 0x1000 dSg5.body (inMem 0x1040 dEnd.body (State.modFrond 7 (fun r => { r with slot1 := { st := .running, cls := 1, fetchAddr := 0x1040, nextSeq := 5 } }) up))
def fetT := (readAll 7 1 0x1040 64 fet).2
def fet2 := inMem 0x1FC0 dSg5.body (State.modFrond 7 (fun r => { r with slot1 := { st := .running, cls := 1, fetchAddr := 0x1FC0, nextSeq := 5 } }) up)
def fetE := State.modFrond 7 (fun r => { r with slot1 := { st := .running, cls := 1, fetchAddr := 0x1000000000, nextSeq := 5 } }) up
def dSt : QDesc := { dSg5 with started := true }
def cmp := on7 [] [{ dSt with seq := 4 }, dSt]
def w03_12a := ({ dSt with seq := 4 } : QDesc)
def dEs : QDesc := { dEnd with started := true }
def w03_14a := State.modFrond 7 (fun r => { r with acc0 := { occupied := true } }) (on7 [] [dEs])
def dBank := desc 0x10 [(8, 4, 0x80000001), (0xC, 1, 1)]
def w03_16a := on7 [] [dBank]
def dBank2 := desc 0x10 [(8, 4, 0x80000001), (0xC, 1, 2)]
def w03_18a := on7 [] [dBank2]
def dBank0 := desc 0x10 [(8, 4, 0xFFFFFFFF), (0xC, 1, 0)]
def bk (x : BankRec) (s : State) : State := State.modFrond 7 (fun r => r.modBank 31 (fun _ => x)) s
def w03_21a := bk { st := .off } (on7 [] [dBank0])
def w03_22a := bk { st := .fencing, target := .ret } up
def w03_23a := bk { st := .fencing, target := .ret, claims := 1, since := 999900000 } up
def w03_24a := bk { st := .fencing, target := .off, inbound := 1 } up
def w03_25a := bk { st := .off, powering := true } (State.modFrond 7 (fun r => { r with store := [(31 * 262144, 9)] }) up)
def w03_26a := bk { st := .ret, powering := true } up
def w03_27a := bk { st := .off, moving := true } up
def cor := State.modFrond 7 (fun r => { r with store := [(96, 7)], errs := [(3, [⟨0, 5⟩])], pendingCorr := [3, 9] }) up
def hh := State.modFrond 7 (fun r => { r with handles := [(1, { hand 0 4 0 0 4 2 2 64 with lo0 := 0x10000, lo1 := 5 }), (2, hand 0 2 0 0 1 1 1 1)] }) up
def hb := State.modFrond 7 (fun r => { r with epoch := 1, epochBusy := true }) hh
def kctx : CtxRec := { st := .resident, cls := 1, model := 0, tokens := 31, root := 0x200, pool := 0, nhg := 2, kvf := 2, dh := 1, maxtok := 100, topk := 1 }
/-- Pool 0 of 8 blocks from frame 0x300, its block states at frame 0x100; context 9 with one page, in block 2, for each of head groups 0 and 1. -/
def kvs (x : CtxRec) (s : State) : State :=
  inMem 0x100010 [1, 0, 0, 0, 1] (inMem 0x200000 [0x01, 0x02, 0, 1] (inMem 0x201000 [0x02, 0x03, 0, 1]
    { s with sched := { s.sched with ctxs := [(9, x)], pools := [(0, { en := true, bfr := 1, base := 0x300, blocks := 8, metaPfn := 0x100, free := 6 })] } }))
def dApp := desc 0x0E [(8, 1, 1), (9, 1, 2), (0xC, 1, 0xFF), (0xD, 1, 1), (0x10, 2, 9)]
def kh : Tab HandleRec := [(1, hand 0 1 2 0 32 1 1 32), (2, hand 1 1 2 0 32 1 1 32), (3, hand 2 8 2 0 32 1 1 32), (4, hand 10 8 2 0 32 1 1 32), (5, hand 18 1 8 0 32 1 1 1)]
def kA (q : List QDesc) : State := kvs kctx (on7 kh q)
def w03_49a := kA [dApp]
def dSor := desc 0x0F [(8, 1, 1), (9, 1, 3), (0xA, 1, 4), (0xD, 1, 5), (0xE, 1, 0xFF), (0xF, 1, 0xFF), (0x10, 2, 9), (0x13, 1, 1), (0x14, 1, 2), (0x16, 1, 2)]
def w03_51a := kA [dSor]
def hold0 : KvHold := { ctx := 9, pool := 0, hg := 0, tokens := 31, pages := [], resolved := false, written := false }
def hold1 : KvHold := { hold0 with pages := [(0, 2)], resolved := true }
def hold2 : KvHold := { hold1 with written := true }
def hold3 : KvHold := { hold2 with pages := [] }
def ap (x : KvHold) : QDesc := { dApp with started := true, hold := some x }
def so (x : KvHold) : QDesc := { dSor with started := true, hold := some x }
def w03_58a := kA [ap hold1]
def w03_59a := kA [so hold1]
def kA0 := kA [ap hold0]
def okS {α : Type} (r : Eng (α × State)) (d : State) : State := match r with | .ok (_, t) => t | .error _ => d
def kS0 := kA [so hold0]
def w03_65a := kA [so hold2]
def w03_66a := kA [ap hold2]
def dark (s : State) : State := State.modFrond 7 (fun r => r.modBank 0 (fun _ => { st := .off })) s
def w03_68a := dark (kA [ap hold1])
def w03_69a := dark (kA [so hold1])
def w03_70a := kvs { kctx with st := .draining } (on7 kh [ap hold0])
def w03_71a := kvs { kctx with st := .draining } (on7 kh [so hold0])
def w03_72a := kA [ap hold3]
def w03_73a := kvs { kctx with appended := 2, pendNt := 1 } (on7 kh [ap hold3])
def w03_74a := kvs { kctx with st := .draining } (on7 kh [ap hold3])
def pl (x : PoolRec) : State := State.modPool 3 (fun _ => x) up
def w03_76a := pl { base := 0x100, blocks := 8, metaPfn := 0x104 }
def w03_77a := pl { en := true }
def w03_78a := pl { base := 0x100, blocks := 8, metaPfn := 0x108 }
def w03_79a := pl { en := true }
def w03_80a := kvs { kctx with pool := 3 } (pl { en := true })
def w03_81a := pl { en := true, busy := true }

/-- Concrete operands and states that meet the hypotheses of DescriptorFetchAndComplete. -/
theorem test_witness_DescriptorFetchAndComplete :
    (RunsFab fet ↑(7 : Frond)) ∧
    ((fet.frond ↑(7 : Frond)).slot ↑(1 : Slot)).st = SlotState.running ∧
    ((fet.frond ↑(7 : Frond)).slot ↑(1 : Slot)).aborting = false ∧
    ((fet.frond ↑(7 : Frond)).slot ↑(1 : Slot)).endFetched = false ∧
    ((fet.frond ↑(7 : Frond)).slot ↑(1 : Slot)).queue.length < 64 ∧
    (readAll (↑(7 : Frond)) (((fet.frond ↑(7 : Frond)).slot ↑(1 : Slot)).busClass ↑(1 : Slot)) ((fet.frond ↑(7 : Frond)).slot ↑(1 : Slot)).fetchAddr 64 fet = (some (clean dEnd.body), fetT)) ∧
    poisoned (clean dEnd.body) = false ∧
    (dEnd = { seq := BitVec.ofNat 32 (field (plain (clean dEnd.body)) 4 4), body := plain (clean dEnd.body) : QDesc }) ∧
    (dEnd.seq = ((fet.frond ↑(7 : Frond)).slot ↑(1 : Slot)).nextSeq) ∧
    unitOf dEnd.op ≠ none ∧
    classFits (↑(1 : Slot)) dEnd = true ∧
    (dEnd.last = true ∨ (((fet.frond ↑(7 : Frond)).slot ↑(1 : Slot)).fetchAddr + 64) % 4096 = 0) ∧
    (RunsFab fet2 ↑(7 : Frond)) ∧
    ((fet2.frond ↑(7 : Frond)).slot ↑(1 : Slot)).st = SlotState.running ∧
    ((fet2.frond ↑(7 : Frond)).slot ↑(1 : Slot)).aborting = false ∧
    ((fet2.frond ↑(7 : Frond)).slot ↑(1 : Slot)).endFetched = false ∧
    ((fet2.frond ↑(7 : Frond)).slot ↑(1 : Slot)).queue.length < 64 ∧
    (readAll (↑(7 : Frond)) (((fet2.frond ↑(7 : Frond)).slot ↑(1 : Slot)).busClass ↑(1 : Slot)) ((fet2.frond ↑(7 : Frond)).slot ↑(1 : Slot)).fetchAddr 64 fet2 = (some (clean dSg5.body), (readAll 7 1 8128 64 fet2).snd)) ∧
    poisoned (clean dSg5.body) = false ∧
    (dSg5 = { seq := BitVec.ofNat 32 (field (plain (clean dSg5.body)) 4 4), body := plain (clean dSg5.body) : QDesc }) ∧
    (dSg5.seq = ((fet2.frond ↑(7 : Frond)).slot ↑(1 : Slot)).nextSeq) ∧
    unitOf dSg5.op ≠ none ∧
    classFits (↑(1 : Slot)) dSg5 = true ∧
    (dSg5.last = true ∨ (((fet2.frond ↑(7 : Frond)).slot ↑(1 : Slot)).fetchAddr + 64) % 4096 = 0) ∧
    (RunsFab fetE ↑(7 : Frond)) ∧
    ((fetE.frond ↑(7 : Frond)).slot ↑(1 : Slot)).st = SlotState.running ∧
    ((fetE.frond ↑(7 : Frond)).slot ↑(1 : Slot)).aborting = false ∧
    ((fetE.frond ↑(7 : Frond)).slot ↑(1 : Slot)).endFetched = false ∧
    ((fetE.frond ↑(7 : Frond)).slot ↑(1 : Slot)).queue.length < 64 ∧
    (readAll (↑(7 : Frond)) (((fetE.frond ↑(7 : Frond)).slot ↑(1 : Slot)).busClass ↑(1 : Slot)) ((fetE.frond ↑(7 : Frond)).slot ↑(1 : Slot)).fetchAddr 64 fetE = (none, (readAll 7 1 68719476736 64 fetE).snd)) ∧
    (((readAll 7 1 68719476736 64 fetE).snd.frond ↑(7 : Frond)).slot ↑(1 : Slot)).owner = SlotOwner.none ∧
    (((readAll 7 1 68719476736 64 fetE).snd.frond ↑(7 : Frond)).slot ↑(1 : Slot)).st = SlotState.running ∧
    (RunsFab cmp ↑(7 : Frond)) ∧
    (List.find? (fun (e : QDesc) => decide (e.seq = (4 : Word32))) ((cmp.frond ↑(7 : Frond)).slot ↑(1 : Slot)).queue = some w03_12a) ∧
    (cmp.frond ↑(7 : Frond)).completable w03_12a = true ∧
    w03_12a.last = false ∧
    w03_12a.op ≠ 7 ∧
    ((cmp.frond ↑(7 : Frond)).slot ↑(1 : Slot)).aborting = false ∧
    ((((cmp.frond ↑(7 : Frond)).slot ↑(1 : Slot)).queue.any fun (e : QDesc) => decide (e.seq ≠ (4 : Word32)) && e.started) = true) ∧
    (RunsFab w03_14a ↑(7 : Frond)) ∧
    (((w03_14a.frond ↑(7 : Frond)).slot ↑(1 : Slot)).queue = [dEs]) ∧
    (dEs.seq = (5 : Word32)) ∧
    (w03_14a.frond ↑(7 : Frond)).completable dEs = true ∧
    dEs.last = true ∧
    dEs.op ≠ 7 ∧
    ((w03_14a.frond ↑(7 : Frond)).slot ↑(1 : Slot)).st = SlotState.running ∧
    ((w03_14a.frond ↑(7 : Frond)).slot ↑(1 : Slot)).aborting = false ∧
    ((w03_14a.frond ↑(7 : Frond)).slot ↑(1 : Slot)).owner = SlotOwner.none := by
  refine ⟨?_, ?_, ?_, ?_, ?_, ?_, ?_, ?_, ?_, ?_, ?_, ?_, ?_, ?_, ?_, ?_, ?_, ?_, ?_, ?_, ?_, ?_, ?_, ?_, ?_, ?_, ?_, ?_, ?_, ?_, ?_, ?_, ?_, ?_, ?_, ?_, ?_, ?_, ?_, ?_, ?_, ?_, ?_, ?_, ?_, ?_, ?_, ?_⟩
  · decide +kernel
  · decide +kernel
  · decide +kernel
  · decide +kernel
  · decide +kernel
  · first | exact pair_of (by decide +kernel) (by rfl) | decide +kernel | rfl
  · decide +kernel
  · decide +kernel
  · decide +kernel
  · decide +kernel
  · decide +kernel
  · decide +kernel
  · decide +kernel
  · decide +kernel
  · decide +kernel
  · decide +kernel
  · decide +kernel
  · first | exact pair_of (by decide +kernel) (by rfl) | decide +kernel | rfl
  · decide +kernel
  · decide +kernel
  · decide +kernel
  · decide +kernel
  · decide +kernel
  · decide +kernel
  · decide +kernel
  · decide +kernel
  · decide +kernel
  · decide +kernel
  · decide +kernel
  · first | exact pair_of (by decide +kernel) (by rfl) | decide +kernel | rfl
  · decide +kernel
  · decide +kernel
  · decide +kernel
  · decide +kernel
  · decide +kernel
  · decide +kernel
  · decide +kernel
  · decide +kernel
  · decide +kernel
  · decide +kernel
  · decide +kernel
  · decide +kernel
  · decide +kernel
  · decide +kernel
  · decide +kernel
  · decide +kernel
  · decide +kernel
  · decide +kernel

/-- Concrete operands and states that meet the hypotheses of BanksAndCorrection. -/
theorem test_witness_BanksAndCorrection :
    (RunsFab w03_16a ↑(7 : Frond)) ∧
    (Starts w03_16a ↑(7 : Frond) ↑(1 : Slot) 16 dBank) ∧
    (((beginDesc (↑(7 : Frond)) (↑(1 : Slot)) dBank w03_16a).frond ↑(7 : Frond)).slot ↑(1 : Slot)).executing = true ∧
    (RunsFab w03_18a ↑(7 : Frond)) ∧
    (Starts w03_18a ↑(7 : Frond) ↑(1 : Slot) 16 dBank2) ∧
    (((beginDesc (↑(7 : Frond)) (↑(1 : Slot)) dBank2 w03_18a).frond ↑(7 : Frond)).slot ↑(1 : Slot)).executing = true ∧
    (RunsFab w03_21a ↑(7 : Frond)) ∧
    (Starts w03_21a ↑(7 : Frond) ↑(1 : Slot) 16 dBank0) ∧
    (((beginDesc (↑(7 : Frond)) (↑(1 : Slot)) dBank0 w03_21a).frond ↑(7 : Frond)).slot ↑(1 : Slot)).executing = true ∧
    (RunsFab w03_22a ↑(7 : Frond)) ∧
    ((w03_22a.frond ↑(7 : Frond)).bank ↑(31 : Bank)).st = BankState.fencing ∧
    (((w03_22a.frond ↑(7 : Frond)).bank ↑(31 : Bank)).claims = (0 : BitVec 12)) ∧
    (((w03_22a.frond ↑(7 : Frond)).bank ↑(31 : Bank)).inbound = (0 : BitVec 12)) ∧
    (RunsFab w03_23a ↑(7 : Frond)) ∧
    ((w03_23a.frond ↑(7 : Frond)).bank ↑(31 : Bank)).st = BankState.fencing ∧
    (((w03_23a.frond ↑(7 : Frond)).bank ↑(31 : Bank)).claims ≠ (0 : BitVec 12) ∨ ((w03_23a.frond ↑(7 : Frond)).bank ↑(31 : Bank)).inbound ≠ (0 : BitVec 12)) ∧
    (BitVec.toNat ((w03_23a.frond ↑(7 : Frond)).bank ↑(31 : Bank)).since + 100000 ≤ BitVec.toNat w03_23a.gctl.time) ∧
    (RunsFab w03_24a ↑(7 : Frond)) ∧
    ((w03_24a.frond ↑(7 : Frond)).bank ↑(31 : Bank)).st = BankState.fencing ∧
    (((w03_24a.frond ↑(7 : Frond)).bank ↑(31 : Bank)).claims ≠ (0 : BitVec 12) ∨ ((w03_24a.frond ↑(7 : Frond)).bank ↑(31 : Bank)).inbound ≠ (0 : BitVec 12)) ∧
    (BitVec.toNat ((w03_24a.frond ↑(7 : Frond)).bank ↑(31 : Bank)).since + 100000 ≤ BitVec.toNat w03_24a.gctl.time) ∧
    (RunsFab w03_25a ↑(7 : Frond)) ∧
    ((w03_25a.frond ↑(7 : Frond)).bank ↑(31 : Bank)).powering = true ∧
    ((w03_25a.frond ↑(7 : Frond)).bank ↑(31 : Bank)).st = BankState.off ∧
    (RunsFab w03_26a ↑(7 : Frond)) ∧
    ((w03_26a.frond ↑(7 : Frond)).bank ↑(31 : Bank)).powering = true ∧
    ((w03_26a.frond ↑(7 : Frond)).bank ↑(31 : Bank)).st = BankState.ret ∧
    (RunsFab w03_27a ↑(7 : Frond)) ∧
    ((w03_27a.frond ↑(7 : Frond)).bank ↑(31 : Bank)).powering = false ∧
    (RunsFab up ↑(7 : Frond)) ∧
    ((up.frond ↑(7 : Frond)).pendingCorr = []) ∧
    (RunsFab cor ↑(7 : Frond)) ∧
    ((cor.frond ↑(7 : Frond)).pendingCorr = [3, 9]) := by
  and_intros <;> decide +kernel

/-- Concrete operands and states that meet the hypotheses of HandlesAndEpochs. -/
theorem test_witness_HandlesAndEpochs :
    (Runs up) ∧
    up.blocksUp = true ∧
    (Runs hh) ∧
    hh.blocksUp = true ∧
    (RunsFab hh ↑(7 : Frond)) ∧
    ((hh.frond ↑(7 : Frond)).epoch = (0 : BitVec 12)) ∧
    ((hh.frond ↑(7 : Frond)).epoch ≠ (1 : BitVec 12)) ∧
    (Runs hb) ∧
    (RunsFab hb ↑(7 : Frond)) ∧
    (hb.frond ↑(7 : Frond)).epochBusy = true := by
  and_intros <;> decide +kernel

/-- Concrete operands and states that meet the hypotheses of KvDescriptorCommands. -/
theorem test_witness_KvDescriptorCommands :
    (RunsFab w03_49a ↑(7 : Frond)) ∧
    w03_49a.running ↑(7 : Frond) ↑(1 : Slot) 14 = none ∧
    (Starts w03_49a ↑(7 : Frond) ↑(1 : Slot) 14 dApp) ∧
    (((beginDesc (↑(7 : Frond)) (↑(1 : Slot)) dApp w03_49a).frond ↑(7 : Frond)).slot ↑(1 : Slot)).executing = true ∧
    (RunsFab w03_51a ↑(7 : Frond)) ∧
    w03_51a.running ↑(7 : Frond) ↑(1 : Slot) 15 = none ∧
    (Starts w03_51a ↑(7 : Frond) ↑(1 : Slot) 15 dSor) ∧
    (((beginDesc (↑(7 : Frond)) (↑(1 : Slot)) dSor w03_51a).frond ↑(7 : Frond)).slot ↑(1 : Slot)).executing = true ∧
    (RunsFab w03_58a ↑(7 : Frond)) ∧
    (ap hold1).hold = some hold1 ∧
    (w03_58a.running ↑(7 : Frond) ↑(1 : Slot) 14 = some (ap hold1)) ∧
    hold1.resolved = true ∧
    hold1.written = false ∧
    ((w03_58a.frond ↑(7 : Frond)).seenBy (ap hold1)).lostBank (viewOf w03_58a (↑(7 : Frond)) (ap hold1)).feet = none ∧
    (RunsFab w03_59a ↑(7 : Frond)) ∧
    (so hold1).hold = some hold1 ∧
    (w03_59a.running ↑(7 : Frond) ↑(1 : Slot) 15 = some (so hold1)) ∧
    ((w03_59a.frond ↑(7 : Frond)).seenBy (so hold1)).lostBank (viewOf w03_59a (↑(7 : Frond)) (so hold1)).feet = none ∧
    (RunsFab kA0 ↑(7 : Frond)) ∧
    (ap hold0).hold = some hold0 ∧
    (kA0.running ↑(7 : Frond) ↑(1 : Slot) 14 = some (ap hold0)) ∧
    hold0.resolved = false ∧
    kA0.ctxActive hold0.ctx = true ∧
    (appendPages hold0.ctx hold0.hg (if hold0.tokens / 32 = (hold0.tokens + (appBody (kA0.frond ↑(7 : Frond)) (ap hold0)).nt - 1) / 32 then [hold0.tokens / 32] else [hold0.tokens / 32, (hold0.tokens + (appBody (kA0.frond ↑(7 : Frond)) (ap hold0)).nt - 1) / 32]) kA0 = Except.ok ([(0, 2)], okS (appendPages 9 0 [0] kA0) kA0)) ∧
    (RunsFab kS0 ↑(7 : Frond)) ∧
    (so hold0).hold = some hold0 ∧
    (kS0.running ↑(7 : Frond) ↑(1 : Slot) 15 = some (so hold0)) ∧
    kS0.ctxActive hold0.ctx = true ∧
    (pinPages hold0.ctx hold0.hg (List.range (cdiv (BitVec.toNat (kS0.ctx hold0.ctx).tokens) 32)) kS0 = Except.ok ([(0, 2)], okS (pinPages 9 0 [0] kS0) kS0)) ∧
    (RunsFab w03_65a ↑(7 : Frond)) ∧
    (so hold2).hold = some hold2 ∧
    w03_65a.running ↑(7 : Frond) ↑(1 : Slot) 14 = none ∧
    (w03_65a.running ↑(7 : Frond) ↑(1 : Slot) 15 = some (so hold2)) ∧
    hold2.written = true ∧
    (RunsFab w03_66a ↑(7 : Frond)) ∧
    (ap hold2).hold = some hold2 ∧
    (w03_66a.running ↑(7 : Frond) ↑(1 : Slot) 14 = some (ap hold2)) ∧
    w03_66a.running ↑(7 : Frond) ↑(1 : Slot) 15 = none ∧
    (RunsFab w03_68a ↑(7 : Frond)) ∧
    (w03_68a.running ↑(7 : Frond) ↑(1 : Slot) 14 = some (ap hold1)) ∧
    ((w03_68a.frond ↑(7 : Frond)).seenBy (ap hold1)).lostBank (viewOf w03_68a (↑(7 : Frond)) (ap hold1)).feet = some 0 ∧
    (RunsFab w03_69a ↑(7 : Frond)) ∧
    (w03_69a.running ↑(7 : Frond) ↑(1 : Slot) 15 = some (so hold1)) ∧
    ((w03_69a.frond ↑(7 : Frond)).seenBy (so hold1)).lostBank (viewOf w03_69a (↑(7 : Frond)) (so hold1)).feet = some 0 ∧
    (RunsFab w03_70a ↑(7 : Frond)) ∧
    (w03_70a.running ↑(7 : Frond) ↑(1 : Slot) 14 = some (ap hold0)) ∧
    w03_70a.ctxActive hold0.ctx = false ∧
    (RunsFab w03_71a ↑(7 : Frond)) ∧
    (w03_71a.running ↑(7 : Frond) ↑(1 : Slot) 15 = some (so hold0)) ∧
    w03_71a.ctxActive hold0.ctx = false := by
  refine ⟨?_, ?_, ?_, ?_, ?_, ?_, ?_, ?_, ?_, ?_, ?_, ?_, ?_, ?_, ?_, ?_, ?_, ?_, ?_, ?_, ?_, ?_, ?_, ?_, ?_, ?_, ?_, ?_, ?_, ?_, ?_, ?_, ?_, ?_, ?_, ?_, ?_, ?_, ?_, ?_, ?_, ?_, ?_, ?_, ?_, ?_, ?_, ?_, ?_, ?_⟩
  · decide +kernel
  · decide +kernel
  · decide +kernel
  · decide +kernel
  · decide +kernel
  · decide +kernel
  · decide +kernel
  · decide +kernel
  · decide +kernel
  · decide +kernel
  · decide +kernel
  · decide +kernel
  · decide +kernel
  · decide +kernel
  · decide +kernel
  · decide +kernel
  · decide +kernel
  · decide +kernel
  · decide +kernel
  · decide +kernel
  · decide +kernel
  · decide +kernel
  · decide +kernel
  · first | exact pair_of (by decide +kernel) (by rfl) | decide +kernel | rfl
  · decide +kernel
  · decide +kernel
  · decide +kernel
  · decide +kernel
  · first | decide +kernel | rfl
  · decide +kernel
  · decide +kernel
  · decide +kernel
  · decide +kernel
  · decide +kernel
  · decide +kernel
  · decide +kernel
  · decide +kernel
  · decide +kernel
  · decide +kernel
  · decide +kernel
  · decide +kernel
  · decide +kernel
  · decide +kernel
  · decide +kernel
  · decide +kernel
  · decide +kernel
  · decide +kernel
  · decide +kernel
  · decide +kernel
  · decide +kernel

/-- Concrete operands and states that meet the hypotheses of KvAppendCommits. -/
theorem test_witness_KvAppendCommits :
    (RunsFab w03_72a ↑(7 : Frond)) ∧
    (w03_72a.running ↑(7 : Frond) ↑(1 : Slot) 14 = some (ap hold3)) ∧
    (ap hold3).hold = some hold3 ∧
    hold3.written = true ∧
    (hold3.pages = []) ∧
    w03_72a.ctxActive hold3.ctx = true ∧
    (BitVec.toNat ((w03_72a.ctx hold3.ctx).appended ||| BitVec.ofNat 32 (2 ^ hold3.hg)) ≠ 2 ^ BitVec.toNat (w03_72a.ctx hold3.ctx).nhg - 1) ∧
    (RunsFab w03_73a ↑(7 : Frond)) ∧
    (w03_73a.running ↑(7 : Frond) ↑(1 : Slot) 14 = some (ap hold3)) ∧
    w03_73a.ctxActive hold3.ctx = true ∧
    (BitVec.toNat ((w03_73a.ctx hold3.ctx).appended ||| BitVec.ofNat 32 (2 ^ hold3.hg)) = 2 ^ BitVec.toNat (w03_73a.ctx hold3.ctx).nhg - 1) ∧
    (RunsFab w03_74a ↑(7 : Frond)) ∧
    (w03_74a.running ↑(7 : Frond) ↑(1 : Slot) 14 = some (ap hold3)) ∧
    w03_74a.ctxActive hold3.ctx = false := by
  and_intros <;> decide +kernel

/-- Concrete operands and states that meet the hypotheses of KvPools. -/
theorem test_witness_KvPools :
    (Runs w03_76a) ∧
    w03_76a.blocksUp = true ∧
    (w03_76a.pool ↑(3 : PoolNo)).en = false ∧
    (w03_76a.pool ↑(3 : PoolNo)).sound = false ∧
    (Runs w03_77a) ∧
    w03_77a.blocksUp = true ∧
    (w03_77a.pool ↑(3 : PoolNo)).en = true ∧
    (Runs w03_78a) ∧
    w03_78a.blocksUp = true ∧
    (w03_78a.pool ↑(3 : PoolNo)).en = false ∧
    (w03_78a.pool ↑(3 : PoolNo)).sound = true ∧
    (Runs w03_79a) ∧
    w03_79a.blocksUp = true ∧
    (∀ (e : Nat × CtxRec), e ∈ w03_79a.sched.ctxs → e.snd.st = CtxState.free ∨ e.snd.pool.toNat ≠ ↑(3 : PoolNo)) ∧
    (Runs w03_80a) ∧
    w03_80a.blocksUp = true ∧
    (∃ (e : Nat × CtxRec), e ∈ w03_80a.sched.ctxs ∧ e.snd.st ≠ CtxState.free ∧ e.snd.pool.toNat = ↑(3 : PoolNo)) ∧
    (Runs w03_81a) := by
  refine ⟨?_, ?_, ?_, ?_, ?_, ?_, ?_, ?_, ?_, ?_, ?_, ?_, ?_, ?_, ?_, ?_, ?_, ?_⟩
  · decide +kernel
  · decide +kernel
  · decide +kernel
  · decide +kernel
  · decide +kernel
  · decide +kernel
  · decide +kernel
  · decide +kernel
  · decide +kernel
  · decide +kernel
  · decide +kernel
  · decide +kernel
  · decide +kernel
  · first | decide +kernel | rfl | (intros; decide +kernel) | (intros; rfl) | (intro n sh e; cases e)
  · decide +kernel
  · decide +kernel
  · decide +kernel
  · decide +kernel

end B03

/-! ### Witnesses: Thallus and CAN -/

namespace B04

/-- Channel 0: CAN5 object 50 for the primary, CAN7 object 51 for Moss, identifier 0x123. -/
def chan0 : BitVec 128 := BitVec.ofNat 128 (1 + 5 * 2^16 + 50 * 2^24 + 1 * 2^32 + 51 * 2^40 + 0x123 * 2^96)
def fz (s : State) : State := { s with sec := { s.sec with fuses := [(0x170, chan0)], sensed := [(0x170, chan0)] } }
def b0 : PipeBlob := { blob3 [] with cls := 0 }
/-- Frame 0 of the class-0 pipeline 0, open since time 0, its stages completed as given. -/
def c0s (st : List Word32) : State := State.modLedger 0 0 (fun l => { l with valid := true, tStage := st }) (runs b0 up)
def n6 : List Word32 := List.replicate 6 0xFFFFFFFF
def c04 := State.modMoss 0 (fun m => { m with envelope := some (0, []) }) (c0s [1, 2, 3, 4, 0xFFFFFFFF, 0xFFFFFFFF])
def w04_10a := runs (blob3 []) up
def w04_11a := c0s n6
def c04w := State.modMoss 0 (fun m => { m with envelope := some (0, [(0, 0, 100, 200)]) }) (fz (c0s [1, 2, 3, 4, 0xFFFFFFFF, 0xFFFFFFFF]))
def c04s := State.modAuth 0 (fun a => { a with primary := true, winFrame := some 0, window := 2 }) c04w
def wd (i : Nat) : State := State.modWdog i (fun w => { w with armed := true, closeNs := 5 }) (c0s n6)
def w04_19a := wd 3
def w04_20a := wd 4
def w04_21a := wd 5
def rs (s : State) : State := { s with island := { s.island with restarting := true } }
def w04_23a := rs up
def b1s := State.modAuth 0 (fun a => { a with primary := true }) (c0s n6)
def noclk := { rs up with pwr := { up.pwr with lostDomains := [.noc] } }
def rsc := { rs b1s with cmdq := { up.cmdq with cmds := [{ tag := 1, sq := 0, pkt := List.replicate 64 0, stage := .started, reply := none }] } }
def sv := { up with island := { up.island with lastService := 1000000000 } }
def w04_37a := State.modCan 7 (fun r => { r with tec := 5 }) up
def fl1 := { up with thal := { up.thal with inFlight := [{ code := 7 }], flogWr := 1024, lostMark := true } }
def mo (m : MossRec) (s : State) : State := State.modMoss 0 (fun _ => m) { s with island := { s.island with mossReady := true } }
def w04_44a := mo { runningFrame := some 5 } up
def m3 := mo {} (c0s [1, 2, 3, 0xFFFFFFFF, 0xFFFFFFFF, 0xFFFFFFFF])
def m4 := mo { runningFrame := some 0, runStart := 999000000 } (c0s n6)
def m5 : State := { mo { fclk := 0 } up with island := { (mo {} up).island with mossReady := true, restarting := true, c0Running := [0] } }
def w04_52a := mo { runningFrame := some 0, runStart := 999000000, stopped := 1 } (c0s n6)
def w04_53a := mo { runningFrame := some 0, runStart := 999000001 } (c0s n6)
/-- CAN controller m with the record given. -/
def cn (m : Nat) (r : CanRec) : State := State.modCan m (fun _ => r) up
def w04_59a := cn 7 { nbt := 0 }
def w04_60a := cn 7 { st := .active }
def w04_61a := cn 0 { st := .integrating }
def w04_62a := cn 0 { st := .active, initPending := true, initBit := true }
def w04_64a := cn 0 { st := .active }
def w04_66a := cn 0 { st := .active, objs := [(3, { st := .held }), (4, { st := .pending })] }
def w04_67a := cn 0 { st := .active, onBus := some 4, objs := [(4, { st := .pending })] }
def w04_68a := cn 0 { st := .busoff }
def w04_70a := cn 0 { st := .recovering, tec := 256 }
def w04_72a := cn 0 { st := .active, tec := 120 }
def w04_73a := cn 0 { st := .active, tec := 127 }
def w04_74a := cn 0 { st := .passive, tec := 248 }
def w04_75a := cn 0 { st := .passive, tec := 255, boauto := true }
def ring := cn 0 { rxPut := 5, rxGet := 0xFFFFFFFE }
def w04_84a := cn 0 { st := .active }
def hd (i : Word32) (fl : BitVec 6) := cn 0 { st := .active, objs := [(4, { st := .held, id := i, flags := fl })] }
def w04_87a := hd 0x124 0
def w04_88a := fz (hd 0x123 0)
def w04_89a := cn 0 { st := .active }
def pd := cn 0 { st := .active, tec := 3, objs := [(4, { st := .pending, id := 0x300 }), (9, { st := .pending, id := 0x200, dlc := 1 })] }
def ob := cn 0 { st := .active, tec := 3, onBus := some 9, onBusAt := 77, objs := [(9, { st := .pending, id := 0x200, dlc := 1 })] }
def w04_95a := State.modCan 0 (fun r => { r with tec := 0 }) ob
def fr : CanFrame := { id := 0x55, ide := false, rtr := false, fdf := false, brs := false, esi := false, dlc := 2, data := [1, 2] }
def w04_98a := cn 0 { st := .active, rxPut := 0x40 }
def w04_99a := cn 0 { st := .active, rxPut := 0x3F }
def w04_100a := cn 0 { st := .active, rec_ := 127, rxPut := 0x41, rxGet := 2 }
def ms := cn 0 { st := .active, role := 2, tRef := some 1000, ttCycle := 500 }
def sy := cn 0 { st := .active, role := 1, sync := true, tRef := some 1000, ttTimeout := 500 }
def mi := cn 0 { st := .active, ttWin := 5, objs := [(9, { st := .pending, flags := 8, markDue := some 7 })] }
def w04_110a := let s := cn 0 { st := .active, role := 1, disc := true, sync := true, tRef := some 1000, ttTimeout := 500 }; { s with gctl := { s.gctl with timeSource := .can, locked := true } }

/-- Concrete operands and states that meet the hypotheses of WatchdogsAndCheck. -/
theorem test_witness_WatchdogsAndCheck :
    (Runs up) ∧
    ((Instr.checkComplete (0 : Pipe) []).wf = true) ∧
    ((up.pipe ↑(0 : Pipe)).running = false ∨ (up.pipe ↑(0 : Pipe)).cls ≠ 0) ∧
    (Runs w04_10a) ∧
    ((w04_10a.pipe ↑(0 : Pipe)).running = false ∨ (w04_10a.pipe ↑(0 : Pipe)).cls ≠ 0) ∧
    (Runs w04_11a) ∧
    ((w04_11a.frameWhere ↑(0 : Pipe) 4 fun (l : Ledger) => l.stageDone 3 && w04_11a.goldenAnswered (↑(0 : Pipe)) l.frame && w04_11a.twinSettled (↑(0 : Pipe)) l) = none) ∧
    (Runs c04) ∧
    (c04.pipe ↑(0 : Pipe)).running = true ∧
    (c04.pipe ↑(0 : Pipe)).cls = 0 ∧
    ((c04.frameWhere ↑(0 : Pipe) 4 fun (l : Ledger) => l.stageDone 3 && c04.goldenAnswered (↑(0 : Pipe)) l.frame && c04.twinSettled (↑(0 : Pipe)) l) = some (c04.ledgerAt 0 (0 : Word32))) ∧
    (c04.plausFails (↑(0 : Pipe)) (c04.ledgerAt 0 (0 : Word32)).frame [] = false) ∧
    ((markStage (↑(0 : Pipe)) (c04.ledgerAt 0 (0 : Word32)).frame 4 c04).pipe ↑(0 : Pipe)).running = true ∧
    (Runs c04w) ∧
    ((Instr.checkComplete (0 : Pipe) [((0 : Fin 16), [(3 : Byte)])]).wf = true) ∧
    (c04w.pipe ↑(0 : Pipe)).running = true ∧
    (c04w.pipe ↑(0 : Pipe)).cls = 0 ∧
    ((c04w.frameWhere ↑(0 : Pipe) 4 fun (l : Ledger) => l.stageDone 3 && c04w.goldenAnswered (↑(0 : Pipe)) l.frame && c04w.twinSettled (↑(0 : Pipe)) l) = some (c04w.ledgerAt 0 (0 : Word32))) ∧
    (c04w.plausFails (↑(0 : Pipe)) (c04w.ledgerAt 0 (0 : Word32)).frame [((0 : Fin 16), [(3 : Byte)])] = true) ∧
    ((doubt (↑(0 : Pipe)) (c04w.ledgerAt 0 (0 : Word32)).frame 3 (2308 : BitVec 16) (reportFrame (2308 : BitVec 16) (↑(0 : Pipe)) (c04w.ledgerAt 0 (0 : Word32)).frame true 0 c04w)).pipe ↑(0 : Pipe)).running = true ∧
    ((markStage (↑(0 : Pipe)) (c04w.ledgerAt 0 (0 : Word32)).frame 4 (doubt (↑(0 : Pipe)) (c04w.ledgerAt 0 (0 : Word32)).frame 3 (2308 : BitVec 16) (reportFrame (2308 : BitVec 16) (↑(0 : Pipe)) (c04w.ledgerAt 0 (0 : Word32)).frame true 0 c04w))).pipe ↑(0 : Pipe)).running = true ∧
    (Runs c04s) ∧
    (c04s.pipe ↑(0 : Pipe)).running = true ∧
    (c04s.pipe ↑(0 : Pipe)).cls = 0 ∧
    ((c04s.frameWhere ↑(0 : Pipe) 4 fun (l : Ledger) => l.stageDone 3 && c04s.goldenAnswered (↑(0 : Pipe)) l.frame && c04s.twinSettled (↑(0 : Pipe)) l) = some (c04s.ledgerAt 0 (0 : Word32))) ∧
    (c04s.plausFails (↑(0 : Pipe)) (c04s.ledgerAt 0 (0 : Word32)).frame [((0 : Fin 16), [(3 : Byte)])] = true) ∧
    ((doubt (↑(0 : Pipe)) (c04s.ledgerAt 0 (0 : Word32)).frame 3 (2308 : BitVec 16) (reportFrame (2308 : BitVec 16) (↑(0 : Pipe)) (c04s.ledgerAt 0 (0 : Word32)).frame true 0 c04s)).pipe ↑(0 : Pipe)).running = false ∧
    (up.wdog (wdogNo (↑(0 : Pipe)) (stageNo Stage.plan))).armed = false ∧
    (Runs w04_19a) ∧
    (w04_19a.wdog (wdogNo (↑(0 : Pipe)) (stageNo Stage.plan))).armed = true ∧
    ((w04_19a.frameWhere (↑(0 : Pipe)) (stageNo Stage.plan) fun (l : Ledger) => !(w04_19a.wdog (wdogNo (↑(0 : Pipe)) (stageNo Stage.plan))).lateFor.contains l.frame && decide (BitVec.toNat l.tEdge + w04_19a.closeOf (↑(0 : Pipe)) (stageNo Stage.plan) ≤ BitVec.toNat w04_19a.gctl.time)) = some ((c0s n6).ledgerAt 0 (0 : Word32))) ∧
    (((wdogLate (↑(0 : Pipe)) (stageNo Stage.plan) ((c0s n6).ledgerAt 0 (0 : Word32)) (if Stage.plan = Stage.check then checkUnverified (↑(0 : Pipe)) ((c0s n6).ledgerAt 0 (0 : Word32)).frame w04_19a else w04_19a)).pipe ↑(0 : Pipe)).running = true) ∧
    (Runs w04_20a) ∧
    (w04_20a.wdog (wdogNo (↑(0 : Pipe)) (stageNo Stage.check))).armed = true ∧
    ((w04_20a.frameWhere (↑(0 : Pipe)) (stageNo Stage.check) fun (l : Ledger) => !(w04_20a.wdog (wdogNo (↑(0 : Pipe)) (stageNo Stage.check))).lateFor.contains l.frame && decide (BitVec.toNat l.tEdge + w04_20a.closeOf (↑(0 : Pipe)) (stageNo Stage.check) ≤ BitVec.toNat w04_20a.gctl.time)) = some ((c0s n6).ledgerAt 0 (0 : Word32))) ∧
    (((wdogLate (↑(0 : Pipe)) (stageNo Stage.check) ((c0s n6).ledgerAt 0 (0 : Word32)) (if Stage.check = Stage.check then checkUnverified (↑(0 : Pipe)) ((c0s n6).ledgerAt 0 (0 : Word32)).frame w04_20a else w04_20a)).pipe ↑(0 : Pipe)).running = true) ∧
    (Runs w04_21a) ∧
    (w04_21a.wdog (wdogNo (↑(0 : Pipe)) (stageNo Stage.egress))).armed = true ∧
    ((w04_21a.frameWhere (↑(0 : Pipe)) (stageNo Stage.egress) fun (l : Ledger) => !(w04_21a.wdog (wdogNo (↑(0 : Pipe)) (stageNo Stage.egress))).expiredFor.contains l.frame && decide (BitVec.toNat l.tEdge + w04_21a.closeOf (↑(0 : Pipe)) (stageNo Stage.egress) + BitVec.toNat (w04_21a.fclk (w04_21a.pipe ↑(0 : Pipe)).fclk).inForce ≤ BitVec.toNat w04_21a.gctl.time)) = some ((c0s n6).ledgerAt 0 (0 : Word32))) := by
  and_intros <;> decide +kernel

/-- Concrete operands and states that meet the hypotheses of SafeStateAndRestart. -/
theorem test_witness_SafeStateAndRestart :
    (Runs w04_23a) ∧
    w04_23a.island.restarting = true ∧
    (Runs b1s) ∧
    b1s.island.restarting = false ∧
    (Runs up) ∧
    ((Instr.safeRestart [(3 : Frond)]).wf = true) ∧
    (up.island.restarting = false ∨ up.clocksMissing = true) ∧
    (Runs noclk) ∧
    ((Instr.safeRestart []).wf = true) ∧
    (noclk.island.restarting = false ∨ noclk.clocksMissing = true) ∧
    (Runs rsc) ∧
    ((Instr.safeRestart [(3 : Frond), (100 : Frond)]).wf = true) ∧
    rsc.island.restarting = true ∧
    rsc.clocksMissing = false := by
  and_intros <;> decide +kernel

/-- Concrete operands and states that meet the hypotheses of FailSilentDetectors. -/
theorem test_witness_FailSilentDetectors :
    (RunsSaf up) ∧
    (up.island.lastService + 2000000 ≤ up.safNow) ∧
    (RunsSaf sv) ∧
    (sv.safNow < sv.island.lastService + 2000000) ∧
    (RunsSaf w04_37a) := by
  and_intros <;> decide +kernel

/-- Concrete operands and states that meet the hypotheses of FaultLog. -/
theorem test_witness_FaultLog :
    (RunsSaf up) ∧
    (up.thal.inFlight = []) ∧
    (RunsSaf fl1) ∧
    (fl1.thal.inFlight = [{ code := (7 : BitVec 16) : FaultRec }]) := by
  and_intros <;> decide +kernel

/-- Concrete operands and states that meet the hypotheses of MossRuns. -/
theorem test_witness_MossRuns :
    (Runs up) ∧
    (up.island.mossReady = false ∨ (∃ (e : Nat × MossRec), e ∈ up.thal.moss ∧ e.snd.runningFrame ≠ none) ∨ (∃ (q : Nat), q < ↑(0 : Pipe) ∧ up.mossFrame q ≠ none) ∨ up.mossFrame ↑(0 : Pipe) = none) ∧
    (Runs w04_44a) ∧
    (w04_44a.island.mossReady = false ∨ (∃ (e : Nat × MossRec), e ∈ w04_44a.thal.moss ∧ e.snd.runningFrame ≠ none) ∨ (∃ (q : Nat), q < ↑(0 : Pipe) ∧ w04_44a.mossFrame q ≠ none) ∨ w04_44a.mossFrame ↑(0 : Pipe) = none) ∧
    (Runs m3) ∧
    m3.island.mossReady = true ∧
    (∀ (e : Nat × MossRec), e ∈ m3.thal.moss → e.snd.runningFrame = none) ∧
    (∀ (q : Nat), q < ↑(0 : Pipe) → m3.mossFrame q = none) ∧
    m3.island.restarting = false ∧
    (m3.pipe ↑(0 : Pipe)).running = true ∧
    (m3.pipe ↑(0 : Pipe)).cls = 0 ∧
    (List.find?     (fun (l : Ledger) =>       (decide ((m3.moss ↑(0 : Pipe)).doneFrame ≠ some l.frame) &&           match (m3.moss ↑(0 : Pipe)).doneFrame with           | some d => decide (BitVec.toNat (l.frame - d) < 2 ^ 31)           | none => true) &&         (l.stageDone 2 || decide (BitVec.toNat l.tEdge + m3.closeOf ↑(0 : Pipe) 2 ≤ BitVec.toNat m3.gctl.time)))     (m3.openFrames ↑(0 : Pipe)) =   some (m3.ledgerAt 0 (0 : Word32))) ∧
    (Runs m5) ∧
    m5.island.mossReady = true ∧
    (∀ (e : Nat × MossRec), e ∈ m5.thal.moss → e.snd.runningFrame = none) ∧
    (∀ (q : Nat), q < ↑(0 : Pipe) → m5.mossFrame q = none) ∧
    m5.island.restarting = true ∧
    m5.island.c0Running.contains ↑(0 : Pipe) = true ∧
    ((m5.moss ↑(0 : Pipe)).doneFrame ≠ some (m5.fclk (m5.moss ↑(0 : Pipe)).fclk).frame) ∧
    (Runs m4) ∧
    ((Instr.mossRunEnd (0 : Pipe) [((3 : Fin 16), [(1 : Byte), (2 : Byte)])] none 999).wf = true) ∧
    ((m4.moss ↑(0 : Pipe)).runningFrame = some (0 : Word32)) ∧
    (m4.moss ↑(0 : Pipe)).submitDue = false ∧
    m4.island.restarting = false ∧
    (BitVec.toNat (m4.moss ↑(0 : Pipe)).runStart + 1000000 ≤ BitVec.toNat m4.gctl.time) ∧
    (Runs w04_52a) ∧
    ((w04_52a.moss ↑(0 : Pipe)).runningFrame = some (0 : Word32)) ∧
    (BitVec.toNat (w04_52a.moss ↑(0 : Pipe)).runStart + 1000000 ≤ BitVec.toNat w04_52a.gctl.time) ∧
    (Runs w04_53a) ∧
    ((w04_53a.moss ↑(0 : Pipe)).runningFrame = some (0 : Word32)) ∧
    (BitVec.toNat w04_53a.gctl.time < BitVec.toNat (w04_53a.moss ↑(0 : Pipe)).runStart + 1000000) ∧
    (RunsSaf up) ∧
    ((Instr.imuTransfer true [(1 : Byte), (2 : Byte)]).wf = true) ∧
    ((Instr.imuTransfer false [(1 : Byte), (2 : Byte)]).wf = true) := by
  refine ⟨?_, ?_, ?_, ?_, ?_, ?_, ?_, ?_, ?_, ?_, ?_, ?_, ?_, ?_, ?_, ?_, ?_, ?_, ?_, ?_, ?_, ?_, ?_, ?_, ?_, ?_, ?_, ?_, ?_, ?_, ?_, ?_, ?_, ?_⟩
  · decide +kernel
  · decide +kernel
  · decide +kernel
  · decide +kernel
  · decide +kernel
  · decide +kernel
  · first | decide +kernel | rfl | (intros; decide +kernel) | (intros; rfl) | (intro n sh e; cases e)
  · first | decide +kernel | rfl | (intros; decide +kernel) | (intros; rfl) | (intro n sh e; cases e)
  · decide +kernel
  · decide +kernel
  · decide +kernel
  · decide +kernel
  · decide +kernel
  · decide +kernel
  · first | decide +kernel | rfl | (intros; decide +kernel) | (intros; rfl) | (intro n sh e; cases e)
  · first | decide +kernel | rfl | (intros; decide +kernel) | (intros; rfl) | (intro n sh e; cases e)
  · decide +kernel
  · decide +kernel
  · decide +kernel
  · decide +kernel
  · decide +kernel
  · decide +kernel
  · decide +kernel
  · decide +kernel
  · decide +kernel
  · decide +kernel
  · decide +kernel
  · decide +kernel
  · decide +kernel
  · decide +kernel
  · decide +kernel
  · decide +kernel
  · decide +kernel
  · decide +kernel

/-- Concrete operands and states that meet the hypotheses of CanModes. -/
theorem test_witness_CanModes :
    (RunsCan up ↑(7 : CanNo)) ∧
    (CanUp up (7 : CanNo)) ∧
    (up.canc ↑(7 : CanNo)).st = CanState.init ∧
    (up.canc ↑(7 : CanNo)).timingOk = true ∧
    (RunsCan w04_59a ↑(7 : CanNo)) ∧
    (CanUp w04_59a (7 : CanNo)) ∧
    (w04_59a.canc ↑(7 : CanNo)).st = CanState.init ∧
    (w04_59a.canc ↑(7 : CanNo)).timingOk = false ∧
    (RunsCan w04_60a ↑(7 : CanNo)) ∧
    (CanUp w04_60a (7 : CanNo)) ∧
    (w04_60a.canc ↑(7 : CanNo)).st ≠ CanState.init ∧
    (RunsCan w04_61a ↑(0 : CanNo)) ∧
    (w04_61a.canc ↑(0 : CanNo)).st = CanState.integrating ∧
    (w04_61a.canc ↑(0 : CanNo)).onBus = none ∧
    (w04_61a.canc ↑(0 : CanNo)).initPending = false ∧
    (RunsCan w04_62a ↑(0 : CanNo)) ∧
    (w04_62a.canc ↑(0 : CanNo)).onBus = none ∧
    (w04_62a.canc ↑(0 : CanNo)).initPending = true ∧
    (RunsCan up ↑(0 : CanNo)) ∧
    (up.canc ↑(0 : CanNo)).st ≠ CanState.integrating ∧
    (RunsCan w04_64a ↑(0 : CanNo)) ∧
    (CanUp w04_64a (0 : CanNo)) ∧
    ((w04_64a.canc ↑(0 : CanNo)).onBus ≠ none ∨ (w04_64a.canc ↑(0 : CanNo)).busBusy = true ∨ true = true) ∧
    (w04_64a.canc ↑(0 : CanNo)).st ≠ CanState.busoff ∧
    (w04_64a.canc ↑(0 : CanNo)).st ≠ CanState.init ∧
    (up.canc ↑(0 : CanNo)).st ≠ CanState.recovering ∧
    (RunsCan w04_66a ↑(0 : CanNo)) ∧
    (CanUp w04_66a (0 : CanNo)) ∧
    ((w04_66a.canc ↑(0 : CanNo)).onBus = none ∧ (w04_66a.canc ↑(0 : CanNo)).busBusy = false ∧ false = false ∨ (w04_66a.canc ↑(0 : CanNo)).st = CanState.busoff ∨ (w04_66a.canc ↑(0 : CanNo)).st = CanState.init) ∧
    (RunsCan w04_67a ↑(0 : CanNo)) ∧
    (CanUp w04_67a (0 : CanNo)) ∧
    ((w04_67a.canc ↑(0 : CanNo)).onBus ≠ none ∨ (w04_67a.canc ↑(0 : CanNo)).busBusy = true ∨ false = true) ∧
    (w04_67a.canc ↑(0 : CanNo)).st ≠ CanState.busoff ∧
    (w04_67a.canc ↑(0 : CanNo)).st ≠ CanState.init ∧
    (RunsCan w04_68a ↑(0 : CanNo)) ∧
    (CanUp w04_68a (0 : CanNo)) ∧
    (w04_68a.canc ↑(0 : CanNo)).st = CanState.busoff ∧
    (CanUp up (0 : CanNo)) ∧
    (up.canc ↑(0 : CanNo)).st ≠ CanState.busoff ∧
    (RunsCan w04_70a ↑(0 : CanNo)) ∧
    (w04_70a.canc ↑(0 : CanNo)).st = CanState.recovering ∧
    (w04_70a.canc ↑(0 : CanNo)).onBus = none ∧
    (w04_70a.canc ↑(0 : CanNo)).initPending = false ∧
    ((up.canc ↑(0 : CanNo)).onLine = false ∨ up.canQuiet ↑(0 : CanNo) = true) ∧
    (RunsCan w04_72a ↑(0 : CanNo)) ∧
    (w04_72a.canc ↑(0 : CanNo)).st = CanState.active ∧
    w04_72a.canQuiet ↑(0 : CanNo) = false ∧
    (w04_72a.canc ↑(0 : CanNo)).onBus = none ∧
    (w04_72a.canc ↑(0 : CanNo)).initPending = false ∧
    (w04_72a.canc ↑(0 : CanNo)).tec.toNat ≤ 127 ∧
    BitVec.toNat (w04_72a.canc ↑(0 : CanNo)).rec_ ≤ 127 ∧
    (120 ≤ (w04_72a.canc ↑(0 : CanNo)).tec.toNat) ∧
    (RunsCan w04_73a ↑(0 : CanNo)) ∧
    (w04_73a.canc ↑(0 : CanNo)).st = CanState.active ∧
    w04_73a.canQuiet ↑(0 : CanNo) = false ∧
    (w04_73a.canc ↑(0 : CanNo)).onBus = none ∧
    (w04_73a.canc ↑(0 : CanNo)).initPending = false ∧
    (w04_73a.canc ↑(0 : CanNo)).tec.toNat ≤ 127 ∧
    BitVec.toNat (w04_73a.canc ↑(0 : CanNo)).rec_ ≤ 127 ∧
    (120 ≤ (w04_73a.canc ↑(0 : CanNo)).tec.toNat) ∧
    (RunsCan w04_74a ↑(0 : CanNo)) ∧
    (w04_74a.canc ↑(0 : CanNo)).st = CanState.passive ∧
    w04_74a.canQuiet ↑(0 : CanNo) = false ∧
    (w04_74a.canc ↑(0 : CanNo)).onBus = none ∧
    (w04_74a.canc ↑(0 : CanNo)).initPending = false ∧
    (248 ≤ (w04_74a.canc ↑(0 : CanNo)).tec.toNat) ∧
    (RunsCan w04_75a ↑(0 : CanNo)) ∧
    (w04_75a.canc ↑(0 : CanNo)).st = CanState.passive ∧
    w04_75a.canQuiet ↑(0 : CanNo) = false ∧
    (w04_75a.canc ↑(0 : CanNo)).onBus = none ∧
    (w04_75a.canc ↑(0 : CanNo)).initPending = false ∧
    (248 ≤ (w04_75a.canc ↑(0 : CanNo)).tec.toNat) := by
  and_intros <;> decide +kernel

/-- Concrete operands and states that meet the hypotheses of CanMessages. -/
theorem test_witness_CanMessages :
    (RunsCan up ↑(0 : CanNo)) ∧
    ((2147483648 : Word32) = BitVec.ofNat 32 (2 ^ 31)) ∧
    ((up.canc ↑(0 : CanNo)).isRx (32 * ↑(1 : Fin 4) + ↑(31 : Fin 32)) = false) ∧
    (CanUp up (0 : CanNo)) ∧
    ((1 : Word32) = BitVec.ofNat 32 (2 ^ 0)) ∧
    ((up.canc ↑(0 : CanNo)).isRx (32 * ↑(1 : Fin 4) + ↑(0 : Fin 32)) = false) ∧
    (RunsCan ring ↑(0 : CanNo)) ∧
    (CanUp ring (0 : CanNo)) ∧
    (BitVec.toNat ((5 : Word32) - (ring.canc ↑(0 : CanNo)).rxGet) ≤ BitVec.toNat ((ring.canc ↑(0 : CanNo)).rxPut - (ring.canc ↑(0 : CanNo)).rxGet)) ∧
    (BitVec.toNat ((ring.canc ↑(0 : CanNo)).rxPut - (ring.canc ↑(0 : CanNo)).rxGet) < BitVec.toNat ((6 : Word32) - (ring.canc ↑(0 : CanNo)).rxGet)) ∧
    (up.canc ↑(0 : CanNo)).st = CanState.init ∧
    (bits (BitVec.toNat (16448 : Word32)) 6 0 + bits (BitVec.toNat (16448 : Word32)) 15 8 ≤ 128) ∧
    (ring.canc ↑(0 : CanNo)).st = CanState.init ∧
    (bits (BitVec.toNat (16193 : Word32)) 6 0 + bits (BitVec.toNat (16193 : Word32)) 15 8 ≤ 128) ∧
    (RunsCan w04_84a ↑(0 : CanNo)) ∧
    (w04_84a.canc ↑(0 : CanNo)).st ≠ CanState.init ∧
    (((up.canc ↑(0 : CanNo)).obj ↑(4 : ObjNo)).st ≠ ObjState.held ∨ (up.canc ↑(0 : CanNo)).onLine = false ∨ up.canQuiet ↑(0 : CanNo) = true ∨ (up.canc ↑(0 : CanNo)).timeOk ((up.canc ↑(0 : CanNo)).obj ↑(4 : ObjNo)) (BitVec.toNat up.gctl.time) = false) ∧
    (RunsCan w04_87a ↑(0 : CanNo)) ∧
    ((w04_87a.canc ↑(0 : CanNo)).obj ↑(4 : ObjNo)).st = ObjState.held ∧
    (w04_87a.canc ↑(0 : CanNo)).onLine = true ∧
    w04_87a.canQuiet ↑(0 : CanNo) = false ∧
    ((w04_87a.canc ↑(0 : CanNo)).obj ↑(4 : ObjNo)).tt = false ∧
    w04_87a.canOutput ↑(0 : CanNo) ↑(4 : ObjNo) = none ∧
    (w04_87a.guarded false (BitVec.toNat ((w04_87a.canc ↑(0 : CanNo)).obj ↑(4 : ObjNo)).id % 2 ^ 30) = none) ∧
    (RunsCan w04_88a ↑(0 : CanNo)) ∧
    ((w04_88a.canc ↑(0 : CanNo)).obj ↑(4 : ObjNo)).st = ObjState.held ∧
    (w04_88a.canc ↑(0 : CanNo)).onLine = true ∧
    w04_88a.canQuiet ↑(0 : CanNo) = false ∧
    ((w04_88a.canc ↑(0 : CanNo)).obj ↑(4 : ObjNo)).tt = false ∧
    w04_88a.canOutput ↑(0 : CanNo) ↑(4 : ObjNo) = none ∧
    (w04_88a.guarded false (BitVec.toNat ((w04_88a.canc ↑(0 : CanNo)).obj ↑(4 : ObjNo)).id % 2 ^ 30) = some 0) ∧
    (RunsCan w04_89a ↑(0 : CanNo)) ∧
    (w04_89a.canc ↑(0 : CanNo)).onLine = true ∧
    w04_89a.canQuiet ↑(0 : CanNo) = false ∧
    (w04_89a.canc ↑(0 : CanNo)).onBus = none ∧
    (w04_89a.canc ↑(0 : CanNo)).initPending = false ∧
    leastKey (w04_89a.canc ↑(0 : CanNo)).offers = none ∧
    (RunsCan pd ↑(0 : CanNo)) ∧
    (pd.canc ↑(0 : CanNo)).onLine = true ∧
    pd.canQuiet ↑(0 : CanNo) = false ∧
    (pd.canc ↑(0 : CanNo)).onBus = none ∧
    (pd.canc ↑(0 : CanNo)).initPending = false ∧
    (leastKey (pd.canc ↑(0 : CanNo)).offers = some (arbKey 512 false false 9, 9)) ∧
    9 < 128 ∧
    pd.txdHeld ↑(0 : CanNo) = false ∧
    (up.canc ↑(0 : CanNo)).onBus = none ∧
    (RunsCan ob ↑(0 : CanNo)) ∧
    ((ob.canc ↑(0 : CanNo)).onBus = some ↑(9 : ObjNo)) ∧
    ((ob.canc ↑(0 : CanNo)).obj ↑(9 : ObjNo)).st = ObjState.pending ∧
    (ob.canc ↑(0 : CanNo)).initPending = false ∧
    ob.canOutput ↑(0 : CanNo) ↑(9 : ObjNo) = none ∧
    ob.mossOutput ↑(0 : CanNo) ↑(9 : ObjNo) = none ∧
    (ob.canc ↑(0 : CanNo)).st = CanState.active ∧
    (ob.canc ↑(0 : CanNo)).tec.toNat ≤ 127 ∧
    BitVec.toNat (ob.canc ↑(0 : CanNo)).rec_ ≤ 127 ∧
    (RunsCan w04_95a ↑(0 : CanNo)) ∧
    ((w04_95a.canc ↑(0 : CanNo)).onBus = some ↑(9 : ObjNo)) ∧
    ((w04_95a.canc ↑(0 : CanNo)).obj ↑(9 : ObjNo)).st = ObjState.pending ∧
    (w04_95a.canc ↑(0 : CanNo)).initPending = false ∧
    w04_95a.canOutput ↑(0 : CanNo) ↑(9 : ObjNo) = none ∧
    w04_95a.mossOutput ↑(0 : CanNo) ↑(9 : ObjNo) = none ∧
    (w04_95a.canc ↑(0 : CanNo)).st = CanState.active ∧
    (w04_95a.canc ↑(0 : CanNo)).tec.toNat ≤ 127 ∧
    BitVec.toNat (w04_95a.canc ↑(0 : CanNo)).rec_ ≤ 127 ∧
    (RunsCan up ↑(6 : CanNo)) ∧
    fr.wf = true ∧
    (up.canc ↑(6 : CanNo)).onLine = false ∧
    (RunsCan w04_98a ↑(0 : CanNo)) ∧
    (w04_98a.canc ↑(0 : CanNo)).st = CanState.active ∧
    (w04_98a.canc ↑(0 : CanNo)).tec.toNat ≤ 127 ∧
    BitVec.toNat (w04_98a.canc ↑(0 : CanNo)).rec_ ≤ 127 ∧
    (w04_98a.canc ↑(0 : CanNo)).initPending = false ∧
    (w04_98a.canc ↑(0 : CanNo)).isReference fr = false ∧
    (BitVec.toNat ((w04_98a.canc ↑(0 : CanNo)).rxPut - (w04_98a.canc ↑(0 : CanNo)).rxGet) = BitVec.toNat (w04_98a.canc ↑(0 : CanNo)).rxCount) ∧
    (RunsCan w04_99a ↑(0 : CanNo)) ∧
    (w04_99a.canc ↑(0 : CanNo)).st = CanState.active ∧
    (w04_99a.canc ↑(0 : CanNo)).tec.toNat ≤ 127 ∧
    BitVec.toNat (w04_99a.canc ↑(0 : CanNo)).rec_ ≤ 127 ∧
    (w04_99a.canc ↑(0 : CanNo)).initPending = false ∧
    (w04_99a.canc ↑(0 : CanNo)).isReference fr = false ∧
    (BitVec.toNat ((w04_99a.canc ↑(0 : CanNo)).rxPut - (w04_99a.canc ↑(0 : CanNo)).rxGet) ≠ BitVec.toNat (w04_99a.canc ↑(0 : CanNo)).rxCount) ∧
    (RunsCan w04_100a ↑(0 : CanNo)) ∧
    (w04_100a.canc ↑(0 : CanNo)).st = CanState.active ∧
    (w04_100a.canc ↑(0 : CanNo)).tec.toNat ≤ 127 ∧
    BitVec.toNat (w04_100a.canc ↑(0 : CanNo)).rec_ ≤ 127 ∧
    (w04_100a.canc ↑(0 : CanNo)).initPending = false ∧
    (w04_100a.canc ↑(0 : CanNo)).isReference fr = false ∧
    (BitVec.toNat ((w04_100a.canc ↑(0 : CanNo)).rxPut - (w04_100a.canc ↑(0 : CanNo)).rxGet) ≠ BitVec.toNat (w04_100a.canc ↑(0 : CanNo)).rxCount) ∧
    ((up.canc ↑(0 : CanNo)).role ≠ (2 : BitVec 2)) ∧
    (RunsCan ms ↑(0 : CanNo)) ∧
    ((ms.canc ↑(0 : CanNo)).role = (2 : BitVec 2)) ∧
    (ms.canc ↑(0 : CanNo)).onLine = true ∧
    ms.canQuiet ↑(0 : CanNo) = false ∧
    (ms.canc ↑(0 : CanNo)).onBus = none ∧
    ((ms.canc ↑(0 : CanNo)).tRef = some (1000 : Word64)) ∧
    (BitVec.toNat (1000 : Word64) + BitVec.toNat (ms.canc ↑(0 : CanNo)).ttCycle ≤ BitVec.toNat ms.gctl.time) ∧
    (up.canc ↑(0 : CanNo)).sync = false ∧
    (RunsCan sy ↑(0 : CanNo)) ∧
    (sy.canc ↑(0 : CanNo)).sync = true ∧
    (sy.canc ↑(0 : CanNo)).disc = false ∧
    ((sy.canc ↑(0 : CanNo)).tRef = some (1000 : Word64)) ∧
    (BitVec.toNat (1000 : Word64) + BitVec.toNat (sy.canc ↑(0 : CanNo)).ttTimeout < BitVec.toNat sy.gctl.time) ∧
    ((up.canc ↑(0 : CanNo)).obj ↑(5 : ObjNo)).st ≠ ObjState.pending ∧
    (RunsCan mi ↑(0 : CanNo)) ∧
    ((mi.canc ↑(0 : CanNo)).obj ↑(9 : ObjNo)).st = ObjState.pending ∧
    ((mi.canc ↑(0 : CanNo)).onBus ≠ some ↑(9 : ObjNo)) ∧
    ((mi.canc ↑(0 : CanNo)).ttWin ≠ (0 : Word32)) ∧
    (((mi.canc ↑(0 : CanNo)).obj ↑(9 : ObjNo)).markDue = some (7 : Word64)) ∧
    (BitVec.toNat (7 : Word64) + BitVec.toNat (mi.canc ↑(0 : CanNo)).ttWin ≤ BitVec.toNat mi.gctl.time) ∧
    (RunsCan w04_110a ↑(0 : CanNo)) ∧
    (w04_110a.canc ↑(0 : CanNo)).sync = true ∧
    (w04_110a.canc ↑(0 : CanNo)).disciplines = true ∧
    w04_110a.gctl.timeSource = TimeSource.can ∧
    ((w04_110a.canc ↑(0 : CanNo)).tRef = some (1000 : Word64)) ∧
    (BitVec.toNat (1000 : Word64) + BitVec.toNat (w04_110a.canc ↑(0 : CanNo)).ttTimeout < BitVec.toNat w04_110a.gctl.time) := by
  and_intros <;> decide +kernel

end B04

/-! ### Witnesses: commands: judging, information, models -/

namespace B05

def cNop := mkCmd 1 []
def w05_3a := fly cNop up
def w05_4a := fly { cNop with stage := .started } up
def w05_4b := { cNop with stage := .started }
def cBad := mkCmd 0x32 [(0x18, 1, 64)]
def w05_6a := fly cBad up
def cFar := mkCmd 0x41 [(0x20, 8, 0x1000000000)]
def w05_8a := fly cFar up
def cFw := mkCmd 0x61 [(0x18, 4, 4194305)]
def w05_10a := fly cFw up
def w05_11a := fly cNop up
def cId := mkCmd 2 [(8, 8, 0x4000), (0x10, 4, 128)]
def sId := fly cId up
def cIdE := mkCmd 2 [(8, 8, 0xC000000000), (0x10, 4, 128)]
def sIdE := fly cIdE up
def cIdM := mkCmd 2 [(8, 8, 0x4000), (0x10, 4, 64), (0x18, 1, 1), (0x1A, 2, 1023)]
def w05_19a := fly cIdM up
def sIdM := State.modModel 1023 (fun m => { m with st := .cold, length := 4096 }) (fly cIdM up)
def cSt := mkCmd 3 [(8, 8, 0x4000), (0x10, 4, 64)]
def sSt := fly cSt up
def cSm := mkCmd 3 [(1, 1, 2), (4, 1, 15), (0x10, 4, 64)]
def w05_26a := fly cSm up
def cEv := mkCmd 0x70 [(0x18, 4, 0xFFFFFFFF)]
def w05_28a := fly cEv up
/-- An image of one model with one shard and its load stream, 448 bytes, signed under the identity key: the signature's point is the
identity too and its scalar 0. -/
def img : List Byte := bytesOf 448 [(0, 4, 0x4C444F4D), (4, 2, 1), (8, 4, 448), (0xC, 2, 1), (0xE, 2, 1024), (0x10, 4, 1), (0x20, 4, 128), (0x24, 4, 192),
  (138, 2, 1), (196, 4, 1), (200, 4, 256), (204, 1, 0xFF), (256, 1, 0x0C), (258, 2, 4), (320, 1, 1)]
/-- Firmware that carries that key in slot 0; pool 0 takes all of main memory above the first 4 KiB. -/
def fwk (s : State) : State := { s with
  sec := { s.sec with image := bytesOf 128 [(0x40, 1, 1)] }
  sched := { s.sched with pools := [(0, { en := true, bfr := 1, base := 1, blocks := 0xFFFFFF, metaPfn := 1 })] } }
def cReg := mkCmd 0x10 [(0x18, 2, 5), (0x1C, 4, 448), (0x20, 8, 0x8000)]
def sReg := inMem 0x8000 img (fwk (fly cReg up))
def sNoKey : State := { sReg with sec := up.sec }
def vReg := (readImage 28 0x8000 448 (taken sReg)).2
def w05_41a := State.modModel 5 (fun m => { m with st := .cold }) sReg
def cWm := mkCmd 0x11 [(0x18, 2, 5)]
def w05_44a := fly cWm up
def w05_45a := State.modModel 5 (fun m => { m with st := .warm }) (fly cWm up)
def w05_46a := State.modModel 5 (fun m => { m with st := .hot }) (fly cWm up)
def sWc := State.modModel 5 (fun m => { m with st := .cold, src := 0x8000, length := 448 }) (inMem 0x8000 img (fwk (fly cWm up)))
def vWc := (readImage 28 0x8000 448 (taken sWc)).2
def cEx := mkCmd 0x12 [(0x18, 2, 5)]
def w05_51a := fly cEx up
def sEx := State.modModel 5 (fun m => { m with st := .warm }) (fly cEx up)
def pin5 (s : State) : State := { s with sched := { s.sched with fps := [(7, { fl := 0, st := .mapped, res := [⟨5, 0, 0, 4, 0, 0, true, true, 0⟩] })], flMap := [(0, 7)] } }
def w05_55a := pin5 sEx
def cRt := mkCmd 0x13 [(0x18, 2, 5)]
def sRt := State.modModel 5 (fun m => { m with st := .warm }) (fly cRt up)
def inUse (s : State) : State := { s with sched := { s.sched with ctxs := [(3, { st := .idle, model := 5 })] } }
def w05_60a := inUse sRt

/-- Concrete operands and states that meet the hypotheses of CommandsAreJudged. -/
theorem test_witness_CommandsAreJudged :
    (Runs up) ∧
    up.cmd 1 = none ∧
    (Runs w05_3a) ∧
    w05_3a.cmd 1 = some cNop ∧
    (cNop.op ≠ 112 ∨ w05_3a.startable cNop = false) ∧
    (Runs w05_4a) ∧
    w05_4a.cmd 1 = some w05_4b ∧
    (w05_4b.op ≠ 1 ∨ w05_4a.startable w05_4b = false) ∧
    (Runs w05_6a) ∧
    w05_6a.cmd 1 = some cBad ∧
    cBad.op = 50 ∧
    w05_6a.startable cBad = true ∧
    w05_6a.checkPacket cBad = some 2 ∧
    (Runs w05_8a) ∧
    w05_8a.cmd 1 = some cFar ∧
    cFar.op = 65 ∧
    w05_8a.startable cFar = true ∧
    w05_8a.checkPacket cFar = some 3 ∧
    (Runs w05_10a) ∧
    w05_10a.cmd 1 = some cFw ∧
    cFw.op = 97 ∧
    w05_10a.startable cFw = true ∧
    w05_10a.checkPacket cFw = some 4 := by
  and_intros <;> decide +kernel

/-- Concrete operands and states that meet the hypotheses of InformationCommands. -/
theorem test_witness_InformationCommands :
    (Runs w05_11a) ∧
    (CmdStarts w05_11a 1 1 cNop) ∧
    cNop.mbox = false ∧
    (Runs sId) ∧
    (CmdStarts sId 2 1 cId) ∧
    cId.fld 24 1 = 0 ∧
    cId.mbox = false ∧
    (writeResult cId (clean sId.deviceRecord) (takeCmd cId sId) = (true, (writeResult cId (clean sId.deviceRecord) (taken sId)).snd)) ∧
    (Runs sIdE) ∧
    (CmdStarts sIdE 2 1 cIdE) ∧
    cIdE.fld 24 1 = 0 ∧
    cIdE.mbox = false ∧
    (writeResult cIdE (clean sIdE.deviceRecord) (takeCmd cIdE sIdE) = (false, (writeResult cIdE (clean sIdE.deviceRecord) (taken sIdE)).snd)) ∧
    (Runs w05_19a) ∧
    (CmdStarts w05_19a 2 1 cIdM) ∧
    cIdM.fld 24 1 ≠ 0 ∧
    (w05_19a.model (cIdM.fld 26 2)).st = ModelState.free ∧
    (Runs sIdM) ∧
    (CmdStarts sIdM 2 1 cIdM) ∧
    (sIdM.model (cIdM.fld 26 2)).st ≠ ModelState.free ∧
    cIdM.mbox = false ∧
    (writeResult cIdM (clean (sIdM.modelRecord (cIdM.fld 26 2))) (takeCmd cIdM sIdM) = (true, (writeResult cIdM (clean (sIdM.modelRecord 1023)) (taken sIdM)).snd)) ∧
    (Runs sSt) ∧
    (CmdStarts sSt 3 1 cSt) ∧
    cSt.mbox = false ∧
    (writeResult cSt (clean sSt.statusRecord) (takeCmd cSt sSt) = (true, (writeResult cSt (clean sSt.statusRecord) (taken sSt)).snd)) ∧
    (Runs w05_26a) ∧
    (CmdStarts w05_26a 3 1 cSm) ∧
    cSm.mbox = true ∧
    (Runs w05_28a) ∧
    (CmdStarts w05_28a 112 1 cEv) ∧
    cEv.mbox = false := by
  refine ⟨?_, ?_, ?_, ?_, ?_, ?_, ?_, ?_, ?_, ?_, ?_, ?_, ?_, ?_, ?_, ?_, ?_, ?_, ?_, ?_, ?_, ?_, ?_, ?_, ?_, ?_, ?_, ?_, ?_, ?_, ?_, ?_⟩
  · decide +kernel
  · decide +kernel
  · decide +kernel
  · decide +kernel
  · decide +kernel
  · decide +kernel
  · decide +kernel
  · first | exact pair_of (by decide +kernel) (by rfl) | decide +kernel | rfl
  · decide +kernel
  · decide +kernel
  · decide +kernel
  · decide +kernel
  · first | exact pair_of (by decide +kernel) (by rfl) | decide +kernel | rfl
  · decide +kernel
  · decide +kernel
  · decide +kernel
  · decide +kernel
  · decide +kernel
  · decide +kernel
  · decide +kernel
  · decide +kernel
  · first | exact pair_of (by decide +kernel) (by rfl) | decide +kernel | rfl
  · decide +kernel
  · decide +kernel
  · decide +kernel
  · first | exact pair_of (by decide +kernel) (by rfl) | decide +kernel | rfl
  · decide +kernel
  · decide +kernel
  · decide +kernel
  · decide +kernel
  · decide +kernel
  · decide +kernel

/-- Concrete operands and states that meet the hypotheses of ModelCommands. -/
theorem test_witness_ModelCommands :
    (Runs w05_41a) ∧
    (CmdStarts w05_41a 16 1 cReg) ∧
    (takeCmd cReg w05_41a).modelIdFor (cReg.fld 24 2) = none ∧
    (Runs sNoKey) ∧
    (CmdStarts sNoKey 16 1 cReg) ∧
    (takeCmd cReg sNoKey).modelIdFor (cReg.fld 24 2) = some 5 ∧
    (readImage 28 (cReg.fld 32 8) (cReg.fld 28 4) (takeCmd cReg sNoKey) = (some img, (readImage 28 32768 448 (taken sNoKey)).snd)) ∧
    imgHeaderOk img = true ∧
    (readImage 28 32768 448 (taken sNoKey)).snd.modelSigned (readImage 28 32768 448 (taken sNoKey)).snd.sec.image img = false ∧
    (Runs w05_44a) ∧
    (CmdStarts w05_44a 17 1 cWm) ∧
    (w05_44a.model (cWm.fld 24 2)).st = ModelState.free ∧
    (Runs w05_45a) ∧
    (CmdStarts w05_45a 17 1 cWm) ∧
    ((w05_45a.model (cWm.fld 24 2)).st = ModelState.warm ∨ (w05_45a.model (cWm.fld 24 2)).st = ModelState.hot) ∧
    (Runs w05_46a) ∧
    (CmdStarts w05_46a 17 1 cWm) ∧
    ((w05_46a.model (cWm.fld 24 2)).st = ModelState.warm ∨ (w05_46a.model (cWm.fld 24 2)).st = ModelState.hot) ∧
    (Runs sWc) ∧
    (CmdStarts sWc 17 1 cWm) ∧
    (sWc.model (cWm.fld 24 2)).st = ModelState.cold ∧
    (readImage 28 (sWc.model (cWm.fld 24 2)).src (sWc.model (cWm.fld 24 2)).length (takeCmd cWm sWc) = (some img, vWc)) ∧
    (shake256 img 32 ≠ (sWc.model (cWm.fld 24 2)).digest) ∧
    (Runs w05_51a) ∧
    (CmdStarts w05_51a 18 1 cEx) ∧
    (w05_51a.model (cEx.fld 24 2)).st = ModelState.free ∧
    (Runs sEx) ∧
    (CmdStarts sEx 18 1 cEx) ∧
    ((sEx.model (cEx.fld 24 2)).st = ModelState.warm ∨ (sEx.model (cEx.fld 24 2)).st = ModelState.hot) ∧
    sEx.pinned (cEx.fld 24 2) = false ∧
    (Runs w05_55a) ∧
    (CmdStarts w05_55a 18 1 cEx) ∧
    ((w05_55a.model (cEx.fld 24 2)).st = ModelState.warm ∨ (w05_55a.model (cEx.fld 24 2)).st = ModelState.hot) ∧
    w05_55a.pinned (cEx.fld 24 2) = true ∧
    (Runs sRt) ∧
    (CmdStarts sRt 19 1 cRt) ∧
    (sRt.model (cRt.fld 24 2)).st ≠ ModelState.free ∧
    sRt.modelInUse (cRt.fld 24 2) = false ∧
    (Runs w05_60a) ∧
    (CmdStarts w05_60a 19 1 cRt) ∧
    (w05_60a.model (cRt.fld 24 2)).st ≠ ModelState.free ∧
    w05_60a.modelInUse (cRt.fld 24 2) = true := by
  refine ⟨?_, ?_, ?_, ?_, ?_, ?_, ?_, ?_, ?_, ?_, ?_, ?_, ?_, ?_, ?_, ?_, ?_, ?_, ?_, ?_, ?_, ?_, ?_, ?_, ?_, ?_, ?_, ?_, ?_, ?_, ?_, ?_, ?_, ?_, ?_, ?_, ?_, ?_, ?_, ?_, ?_, ?_⟩
  · decide +kernel
  · decide +kernel
  · decide +kernel
  · decide +kernel
  · decide +kernel
  · decide +kernel
  · first | exact pair_of (by decide +kernel) (by rfl) | decide +kernel | rfl
  · decide +kernel
  · decide +kernel
  · decide +kernel
  · decide +kernel
  · decide +kernel
  · decide +kernel
  · decide +kernel
  · decide +kernel
  · decide +kernel
  · decide +kernel
  · decide +kernel
  · decide +kernel
  · decide +kernel
  · decide +kernel
  · first | exact pair_of (by decide +kernel) (by rfl) | decide +kernel | rfl
  · decide +kernel
  · decide +kernel
  · decide +kernel
  · decide +kernel
  · decide +kernel
  · decide +kernel
  · decide +kernel
  · decide +kernel
  · decide +kernel
  · decide +kernel
  · decide +kernel
  · decide +kernel
  · decide +kernel
  · decide +kernel
  · decide +kernel
  · decide +kernel
  · decide +kernel
  · decide +kernel
  · decide +kernel
  · decide +kernel

end B05

/-! ### Witnesses: models registered and warmed -/

namespace B06

def img : List Byte := bytesOf 448 [(0, 4, 0x4C444F4D), (4, 2, 1), (8, 4, 448), (0xC, 2, 1), (0xE, 2, 1024), (0x10, 4, 1), (0x20, 4, 128), (0x24, 4, 192),
  (138, 2, 1), (196, 4, 1), (200, 4, 256), (204, 1, 0xFF), (256, 1, 0x0C), (258, 2, 4), (320, 1, 1)]
def fwk (s : State) : State := State.modDma 28 (fun r => { r with vector := 1 }) { s with
  sec := { s.sec with image := bytesOf 128 [(0x40, 1, 1)] }
  sched := { s.sched with pools := [(0, { en := true, bfr := 1, base := 1, blocks := 0xFFFFFF, metaPfn := 1 })] } }
def cReg := mkCmd 0x10 [(0x18, 2, 5), (0x1C, 4, 448), (0x20, 8, 0x8000)]
def sReg := inMem 0x8000 img (fwk (fly cReg up))
def vReg := (readImage 28 0x8000 448 (taken sReg)).2
def yReg := (draw 40 vReg).2
theorem reg_sync : findPlace vReg.syncUsed 1024 1 1024 vReg = (some 0, yReg) := by
  have e : vReg.syncUsed = [] := by decide +kernel
  rw [e]
  exact place_zero _ _ _ _ _ (by intro a h; simp [fitsAt] at h; omega) (by decide)
theorem reg_signed : vReg.modelSigned vReg.sec.image img = true := by
  have e : vReg.acceptedKeyOf vReg.sec.image (sigSlot (img.drop (img.length - 128))) = some (1 :: List.replicate 56 0) := by decide +kernel
  unfold State.modelSigned
  simp only [e]
  exact ed_neutral _ _ (by decide +kernel)
def recReg := imgRecord 0x8000 0 img
def zReg := (draw 40 yReg).2
def xReg := State.modModel 5 (fun _ => { recReg with st := .warm, base := 0, placed := [] })
  (writeImage 28 0 (recReg.relocs.foldl (applyReloc 0 recReg.syncBase) img) zReg).2
theorem mem_full (s t : State) (h : s.memUsed = [(4096, 16777215 * 4096), (4096, 16777215 * 8)]) (ht : t = (draw 40 s).2) :
    findPlace s.memUsed 0x1000000000 4096 4096 s = (some 0, t) := by
  rw [h, ht]
  exact place_zero _ _ _ _ _ (by intro a h; simp [fitsAt] at h; omega) (by decide)
theorem reg_copy : warmCopy 5 recReg img yReg = (none, xReg) := by
  have h : findPlace yReg.memUsed 0x1000000000 4096 recReg.bytes yReg = (some 0, zReg) := by
    have hb : recReg.bytes = 4096 := by decide +kernel
    rw [hb]
    exact mem_full _ _ (by decide +kernel) rfl
  have hw : (writeImage 28 0 (recReg.relocs.foldl (applyReloc 0 recReg.syncBase) img) zReg).1 = true := by
    decide +kernel
  unfold warmCopy
  rw [h]
  simp only [hw, if_true]
  rfl
def cWm := mkCmd 0x11 [(0x18, 2, 5)]
def wmRec : ModelRec := { st := .cold, src := 0x8000, length := 448, digest := shake256 img 32 }
def sWd := State.modModel 5 (fun _ => wmRec) (inMem 0x8000 img (fwk (fly cWm up)))
def vWd := (readImage 28 0x8000 448 (taken sWd)).2
def zWd := (draw 40 vWd).2
def xWd := State.modModel 5 (fun _ => { wmRec with st := .warm, base := 0, placed := [] }) (writeImage 28 0 img zWd).2
theorem warm_copy : warmCopy 5 (sWd.model 5) img vWd = (none, xWd) := by
  have hm : sWd.model 5 = wmRec := rfl
  have h : findPlace vWd.memUsed 0x1000000000 4096 wmRec.bytes vWd = (some 0, zWd) := by
    have hb : wmRec.bytes = 4096 := by decide +kernel
    rw [hb]
    exact mem_full _ _ (by decide +kernel) rfl
  have hw : (writeImage 28 0 img zWd).1 = true := by decide +kernel
  rw [hm]
  unfold warmCopy
  rw [h]
  simp only [wmRec, List.foldl_nil] at hw ⊢
  simp only [hw, if_true]
  rfl
theorem warm_digest : shake256 img 32 = (sWd.model 5).digest := by
  have hm : sWd.model 5 = wmRec := rfl
  rw [hm]
  rfl

/-- Concrete operands and states that meet the hypotheses of ModelCommands. -/
theorem test_witness_ModelCommands_2 :
    (Runs sReg) ∧
    (CmdStarts sReg 16 1 cReg) ∧
    (takeCmd cReg sReg).modelIdFor (cReg.fld 24 2) = some 5 ∧
    (readImage 28 (cReg.fld 32 8) (cReg.fld 28 4) (takeCmd cReg sReg) = (some img, vReg)) ∧
    imgHeaderOk img = true ∧
    vReg.modelSigned vReg.sec.image img = true ∧
    imgRulesOk img = true ∧
    (findPlace vReg.syncUsed 1024 1 (field img 14 2) vReg = (some 0, yReg)) ∧
    (warmCopy 5 (imgRecord (cReg.fld 32 8) 0 img) img yReg = (none, xReg)) ∧
    (Runs sWd) ∧
    (CmdStarts sWd 17 1 cWm) ∧
    (sWd.model (cWm.fld 24 2)).st = ModelState.cold ∧
    (readImage 28 (sWd.model (cWm.fld 24 2)).src (sWd.model (cWm.fld 24 2)).length (takeCmd cWm sWd) = (some img, vWd)) ∧
    (shake256 img 32 = (sWd.model (cWm.fld 24 2)).digest) ∧
    (warmCopy (cWm.fld 24 2) (sWd.model (cWm.fld 24 2)) img vWd = (none, xWd)) := by
  refine ⟨?_, ?_, ?_, ?_, ?_, ?_, ?_, ?_, ?_, ?_, ?_, ?_, ?_, ?_, ?_⟩
  · decide +kernel
  · decide +kernel
  · decide +kernel
  · first | exact pair_of (by decide +kernel) (by rfl) | decide +kernel | rfl
  · decide +kernel
  · exact reg_signed
  · decide +kernel
  · exact reg_sync
  · exact reg_copy
  · decide +kernel
  · decide +kernel
  · decide +kernel
  · first | exact pair_of (by decide +kernel) (by rfl) | decide +kernel | rfl
  · exact warm_digest
  · exact warm_copy

end B06

/-! ### Witnesses: contexts -/

namespace B07

/-- A WARM model 5 of one shard; pool 0 is one block of four frames. -/
def pool1 (s : State) : State := { s with sched := { s.sched with
  models := [(5, { st := .warm, shards := [⟨0, 0, 0, 0, 4, 0, 0, 0, 0⟩], streams := [⟨0, 1, 0xFF, 1, 256, 0xFF⟩] })], pools := [(0, { en := true, bfr := 4, base := 0x300, blocks := 1, metaPfn := 0x100, free := 1 })] } }
def cCt := mkCmd 0x20 [(0x18, 1, 1), (0x1A, 2, 5), (0x1C, 1, 1), (0x1D, 1, 2), (0x1E, 1, 1), (0x24, 4, 32)]
def sq0 (s : State) : State := State.modSq 0 (fun q => { q with cls := 0 }) s
def sCt := sq0 (pool1 (fly cCt up))
def uCt := taken sCt
/-- What a context's taking the one block of its pool leaves. -/
def tookBlock (c : Nat) (s : State) : State :=
  let x := s.ctx c
  let p := x.pool.toNat
  State.modCtx c (fun y => { y with pages := y.pages + 1, reserved := y.reserved - 1 })
    (State.modPool p (fun y => { y with free := y.free - 1, resv := if x.reserved ≠ 0 then y.resv - 1 else y.resv })
      (putBlock p 0 { ref := 1, pin := 0, alloc := true, next := 0 } (draw 24 s).2))
/-- The state of block 0 of pool p can be read, and says the block is free. -/
def blockFree (p : Nat) (s : State) : Bool := match blockEnt p 0 s with | .ok (e, t) => !e.alloc && decide (t = s) | .error _ => false
/-- A pool of one free block gives block 0, whatever the free value is. -/
theorem alloc_one (c : Nat) (s : State)
    (h : (decide (s.available (s.ctx c).pool.toNat (s.ctx c).cls.toNat ≠ 0) && decide (((draw 24 s).2.pool (s.ctx c).pool.toNat).blocks.toNat = 1) &&
      blockFree (s.ctx c).pool.toNat (draw 24 s).2) = true) :
    allocBlock c s = .ok (0, tookBlock c s) := by
  unfold allocBlock tookBlock
  simp only [Bool.and_eq_true, decide_eq_true_eq] at h
  obtain ⟨⟨ha, hb⟩, hf⟩ := h
  generalize draw 24 s = d at hb hf ⊢
  unfold blockFree at hf
  simp only [ha, if_false, hb, findFree, Nat.mod_one, Nat.max_self]
  revert hf
  cases blockEnt (s.ctx c).pool.toNat 0 d.2 with
  | error e => intro hf; cases hf
  | ok x =>
    intro hf
    simp only [Bool.and_eq_true, Bool.not_eq_true', decide_eq_true_eq] at hf
    simp only [bind, Except.bind, pure, Except.pure, hf.1, hf.2, if_false, Bool.false_eq_true]
/-- The state with that block as the context's root table. -/
def rooted (c : Nat) (s : State) : State :=
  let t := tookBlock c s
  let p := (t.pool (t.ctx c).pool.toNat).pfn 0
  State.modCtx c (fun y => { y with root := BitVec.ofNat 24 p }) (clearTable p t)
theorem root_one (c : Nat) (s : State)
    (h : (decide (s.available (s.ctx c).pool.toNat (s.ctx c).cls.toNat ≠ 0) && decide (((draw 24 s).2.pool (s.ctx c).pool.toNat).blocks.toNat = 1) &&
      blockFree (s.ctx c).pool.toNat (draw 24 s).2) = true) : allocRoot c s = .ok ((), rooted c s) := by
  unfold allocRoot
  rw [alloc_one c s h]
  rfl
def nCt := newCtx cCt uCt.gctl.time
def tCt := rooted 0 (State.modCtx 0 (fun y => { nCt with gen := y.gen, reserved := 0 }) (reserve 0 0 uCt))
theorem ct_made : makeCtx 0 nCt uCt = some tCt := by
  have hr : allocRoot 0 (State.modCtx 0 (fun y => { nCt with gen := y.gen, reserved := 0 }) (reserve 0 0 uCt)) = .ok ((), tCt) :=
    root_one _ _ (by decide +kernel)
  show (match allocRoot 0 (State.modCtx 0 (fun y => { nCt with gen := y.gen, reserved := 0 }) (reserve 0 0 uCt)) with
    | .ok (_, t) => some t | .error _ => none) = some tCt
  rw [hr]
def cC0 := mkCmd 0x20 [(0x18, 1, 0), (0x1A, 2, 5), (0x1C, 1, 1), (0x1D, 1, 2), (0x1E, 1, 1), (0x24, 4, 32)]
/-- Model 5 is a class-0 model with its shard pinned on Frond 7, hot or not. -/
def c0m (hot : Bool) (s : State) : State := { s with sched := { s.sched with
  models := [(5, { st := .hot, flags := 1, shards := [⟨0, 0, 0, 0, 4, 0, 0, 0, 0⟩] })], pools := [(0, { en := true, bfr := 4, base := 0x300, blocks := 1, metaPfn := 0x100, free := 9 })]
  fps := [(7, { fl := 0, st := .mapped, res := [⟨5, 0, 0, 4, 0, 0, hot, true, 0⟩] })], flMap := [(0, 7)] } }
def sC0 (hot : Bool) := sq0 (c0m hot (fly cC0 up))
def uC0 (hot : Bool) := taken (sC0 hot)
def nC0 := newCtx cC0 up.gctl.time
def tC0 (hot : Bool) := rooted 0 (State.modCtx 0 (fun y => { nC0 with gen := y.gen, reserved := 3 }) (reserve 0 3 (uC0 hot)))
theorem c0_made (hot : Bool) : makeCtx 0 nC0 (uC0 hot) = some (tC0 hot) := by
  have hr : allocRoot 0 (State.modCtx 0 (fun y => { nC0 with gen := y.gen, reserved := 3 }) (reserve 0 3 (uC0 hot))) = .ok ((), tC0 hot) :=
    root_one _ _ (by revert hot; decide +kernel)
  have hc : (nC0.cls = 0 && !(uC0 hot).canReserve 0 3) = false := by cases hot <;> decide +kernel
  have h3 : (if nC0.cls = 0 then reserveBlocks nC0.nhg.toNat nC0.maxtok.toNat else 0) = 3 := by decide +kernel
  have hp : nC0.pool.toNat = 0 := by decide +kernel
  unfold makeCtx
  simp only [h3, hp]
  rw [hc, hr]
  rfl
def w07_76a := sq0 (fly cCt up)
def withCtx (x : CtxRec) (s : State) : State := { s with sched := { s.sched with ctxs := [(3, x)] } }
def x3 : CtxRec := { st := .idle, cls := 1, model := 5, tokens := 40, root := 0x200, pool := 0, nhg := 1, kvf := 2, dh := 1, maxtok := 100 }
def cDe := mkCmd 0x21 [(0x18, 2, 3)]
def sDe := withCtx x3 (pool1 (fly cDe up))
def vDe := State.modCtx 3 (fun x => { x with destroyed := true, destroyTags := [1] }) (setCtxState 3 .draining (taken sDe))
def tDe := okT (engTry (dropData 3 vDe) vDe)
def w07_84a := fly cDe up
def cFo := mkCmd 0x22 [(0x18, 2, 3)]
def sFo := withCtx x3 (pool1 (fly cFo up))
def uFo := taken sFo
def vFo := State.modCtx 0 (fun z => { childCtx 3 (uFo.ctx 3) sFo.gctl.time with gen := z.gen, reserved := 0 }) (reserve 0 0 uFo)
/-- A context has no level-2 table. -/
def noTables (c : Nat) (s : State) : Bool := match ctxTables c s with | .ok (l, t) => l.isEmpty && decide (t = s) | .error _ => false
theorem forked (c child : Nat) (s : State) (h : noTables c s = true)
    (hr : allocRoot child s = .ok ((), rooted child s)) : engTry (forkInto c child s) s = .ok ((), rooted child s) := by
  unfold noTables at h
  unfold forkInto engTry
  revert h
  cases ctxTables c s with
  | error e => intro h; cases h
  | ok x =>
    obtain ⟨l, t⟩ := x
    intro h
    simp only [Bool.and_eq_true, List.isEmpty_iff, decide_eq_true_eq] at h
    obtain ⟨rfl, rfl⟩ := h
    simp only [bind, Except.bind, hr, engEach]
theorem fo_forked : engTry (forkInto 3 0 vFo) vFo = .ok ((), rooted 0 vFo) :=
  forked 3 0 vFo (by decide +kernel) (root_one _ _ (by decide +kernel))
def cTr := mkCmd 0x23 [(0x18, 2, 3), (0x1C, 4, 32)]
def sTr := withCtx x3 (pool1 (fly cTr up))
def tTr := okT (engTry (trimPages 3 32 (taken sTr)) (taken sTr))
def cTs := mkCmd 0x23 [(0x18, 2, 3), (0x1C, 4, 41)]
def w07_112a := withCtx x3 (pool1 (fly cTs up))
def w07_114a := withCtx { x3 with st := .draining, destroyed := true } (pool1 (fly cTr up))
def w07_115a := withCtx { x3 with st := .draining } (pool1 (fly cTr up))

/-- Concrete operands and states that meet the hypotheses of ContextCommands. -/
theorem test_witness_ContextCommands :
    (Runs sCt) ∧
    (CmdStarts sCt 32 1 cCt) ∧
    (takeCmd cCt sCt).createStatus cCt = none ∧
    (takeCmd cCt sCt).freeCtx = some 0 ∧
    makeCtx 0 (newCtx cCt sCt.gctl.time) (takeCmd cCt sCt) = some tCt ∧
    cCt.fld 24 1 ≠ 0 ∧
    (Runs (sC0 true)) ∧
    (CmdStarts (sC0 true) 32 1 cC0) ∧
    (takeCmd cC0 (sC0 true)).createStatus cC0 = none ∧
    (takeCmd cC0 (sC0 true)).freeCtx = some 0 ∧
    (makeCtx 0 (newCtx cC0 (sC0 true).gctl.time) (takeCmd cC0 (sC0 true)) = some (tC0 true)) ∧
    cC0.fld 24 1 = 0 ∧
    (class0Shards (cC0.fld 26 2) (tC0 true) = Except.ok (tC0 true)) ∧
    (tC0 true).allHot (cC0.fld 26 2) = true ∧
    (Runs (sC0 false)) ∧
    (CmdStarts (sC0 false) 32 1 cC0) ∧
    (takeCmd cC0 (sC0 false)).createStatus cC0 = none ∧
    (takeCmd cC0 (sC0 false)).freeCtx = some 0 ∧
    (makeCtx 0 (newCtx cC0 (sC0 false).gctl.time) (takeCmd cC0 (sC0 false)) = some (tC0 false)) ∧
    (class0Shards (cC0.fld 26 2) (tC0 false) = Except.ok (tC0 false)) ∧
    (tC0 false).allHot (cC0.fld 26 2) = false ∧
    (Runs w07_76a) ∧
    (CmdStarts w07_76a 32 1 cCt) ∧
    (takeCmd cCt w07_76a).createStatus cCt = some 64 ∧
    (Runs sDe) ∧
    (CmdStarts sDe 33 1 cDe) ∧
    (sDe.ctx (cDe.fld 24 2)).st ≠ CtxState.free ∧
    (sDe.ctx (cDe.fld 24 2)).st ≠ CtxState.draining ∧
    (∀ (r : RunRec), r ∈ sDe.sched.runs → r.ctxs.contains (cDe.fld 24 2) = false) ∧
    (engTry (dropData (cDe.fld 24 2) (State.modCtx (cDe.fld 24 2) (fun (x : CtxRec) => { st := x.st, cls := x.cls, model := x.model, tokens := x.tokens, root := x.root, pool := x.pool, nhg := x.nhg, kvf := x.kvf, dh := x.dh, bucket := x.bucket, topk := x.topk, wrec := x.wrec, pfx := x.pfx, normw := x.normw, appended := x.appended, pendNt := x.pendNt, parent := x.parent, forked := x.forked, pages := x.pages, maxtok := x.maxtok, tState := x.tState, tag := x.tag, gen := x.gen, destroyed := true, reserved := x.reserved, destroyTags := [1], createTag := x.createTag : CtxRec }) (setCtxState (cDe.fld 24 2) CtxState.draining (takeCmd cDe sDe)))) (State.modCtx (cDe.fld 24 2) (fun (x : CtxRec) => { st := x.st, cls := x.cls, model := x.model, tokens := x.tokens, root := x.root, pool := x.pool, nhg := x.nhg, kvf := x.kvf, dh := x.dh, bucket := x.bucket, topk := x.topk, wrec := x.wrec, pfx := x.pfx, normw := x.normw, appended := x.appended, pendNt := x.pendNt, parent := x.parent, forked := x.forked, pages := x.pages, maxtok := x.maxtok, tState := x.tState, tag := x.tag, gen := x.gen, destroyed := true, reserved := x.reserved, destroyTags := [1], createTag := x.createTag : CtxRec }) (setCtxState (cDe.fld 24 2) CtxState.draining (takeCmd cDe sDe))) = Except.ok ((), tDe)) ∧
    (Runs w07_84a) ∧
    (CmdStarts w07_84a 33 1 cDe) ∧
    (w07_84a.ctx (cDe.fld 24 2)).st = CtxState.free ∧
    (Runs sFo) ∧
    (CmdStarts sFo 34 1 cFo) ∧
    ((sFo.ctx (cFo.fld 24 2)).st = CtxState.idle ∨ (sFo.ctx (cFo.fld 24 2)).st = CtxState.runnable) ∧
    (takeCmd cFo sFo).freeCtx = some 0 ∧
    ((sFo.ctx (cFo.fld 24 2)).cls ≠ (0 : BitVec 2) ∨ sFo.canReserve (sFo.ctx (cFo.fld 24 2)).pool.toNat (if (sFo.ctx (cFo.fld 24 2)).cls = (0 : BitVec 2) then reserveBlocks (BitVec.toNat (sFo.ctx (cFo.fld 24 2)).nhg) (BitVec.toNat (sFo.ctx (cFo.fld 24 2)).maxtok) else 0) = true) ∧
    (Runs sTr) ∧
    (CmdStarts sTr 35 1 cTr) ∧
    ((sTr.ctx (cTr.fld 24 2)).st = CtxState.idle ∨ (sTr.ctx (cTr.fld 24 2)).st = CtxState.runnable) ∧
    (cTr.fld 28 4 ≤ BitVec.toNat (sTr.ctx (cTr.fld 24 2)).tokens) ∧
    (engTry (trimPages (cTr.fld 24 2) (cTr.fld 28 4) (takeCmd cTr sTr)) (takeCmd cTr sTr) = Except.ok ((), tTr)) ∧
    (Runs w07_112a) ∧
    (CmdStarts w07_112a 35 1 cTs) ∧
    ((w07_112a.ctx (cTs.fld 24 2)).st = CtxState.idle ∨ (w07_112a.ctx (cTs.fld 24 2)).st = CtxState.runnable) ∧
    BitVec.toNat (w07_112a.ctx (cTs.fld 24 2)).tokens < cTs.fld 28 4 ∧
    ((sTr.ctx ↑(3 : Ctx)).st ≠ CtxState.draining ∨ sTr.drained ↑(3 : Ctx) = false) ∧
    (Runs w07_114a) ∧
    (w07_114a.ctx ↑(3 : Ctx)).st = CtxState.draining ∧
    w07_114a.drained ↑(3 : Ctx) = true ∧
    (w07_114a.ctx ↑(3 : Ctx)).destroyed = true ∧
    (Runs w07_115a) ∧
    (w07_115a.ctx ↑(3 : Ctx)).st = CtxState.draining ∧
    w07_115a.drained ↑(3 : Ctx) = true ∧
    (w07_115a.ctx ↑(3 : Ctx)).destroyed = false := by
  refine ⟨?_, ?_, ?_, ?_, ?_, ?_, ?_, ?_, ?_, ?_, ?_, ?_, ?_, ?_, ?_, ?_, ?_, ?_, ?_, ?_, ?_, ?_, ?_, ?_, ?_, ?_, ?_, ?_, ?_, ?_, ?_, ?_, ?_, ?_, ?_, ?_, ?_, ?_, ?_, ?_, ?_, ?_, ?_, ?_, ?_, ?_, ?_, ?_, ?_, ?_, ?_, ?_, ?_, ?_, ?_, ?_⟩
  · decide +kernel
  · decide +kernel
  · decide +kernel
  · decide +kernel
  · exact ct_made
  · decide +kernel
  · decide +kernel
  · decide +kernel
  · decide +kernel
  · decide +kernel
  · exact c0_made true
  · decide +kernel
  · first | decide +kernel | rfl
  · decide +kernel
  · decide +kernel
  · decide +kernel
  · decide +kernel
  · decide +kernel
  · exact c0_made false
  · first | decide +kernel | rfl
  · decide +kernel
  · decide +kernel
  · decide +kernel
  · decide +kernel
  · decide +kernel
  · decide +kernel
  · decide +kernel
  · decide +kernel
  · first | decide +kernel | rfl | (intros; decide +kernel) | (intros; rfl) | (intro n sh e; cases e)
  · first | exact ok_of (by decide +kernel) (by rfl) | decide +kernel | rfl
  · decide +kernel
  · decide +kernel
  · decide +kernel
  · decide +kernel
  · decide +kernel
  · decide +kernel
  · decide +kernel
  · decide +kernel
  · decide +kernel
  · decide +kernel
  · decide +kernel
  · decide +kernel
  · first | exact ok_of (by decide +kernel) (by rfl) | decide +kernel | rfl
  · decide +kernel
  · decide +kernel
  · decide +kernel
  · decide +kernel
  · decide +kernel
  · decide +kernel
  · decide +kernel
  · decide +kernel
  · decide +kernel
  · decide +kernel
  · decide +kernel
  · decide +kernel
  · decide +kernel

end B07

/-! ### Witnesses: runs and pipelines -/

namespace B08

/-- A queue of class 0 and context 3 of class 3 on a WARM model 5 with a stream for every bucket. -/
def mRun : ModelRec := { st := .warm, shards := [⟨0, 0, 0, 0, 4, 0, 0, 0, 0⟩], streams := [⟨0, 1, 0xFF, 1, 256, 0xFF⟩], base := 0x40000 }
def rIdle : CtxRec := { st := .idle, cls := 3, model := 5, tokens := 0, maxtok := 100, nhg := 1 }
def runWorld (s : State) : State := { s with sched := { s.sched with models := [(5, mRun)], ctxs := [(3, rIdle)] } }
def cRu := mkCmd 0x30 [(0x18, 1, 1), (0x1A, 2, 5), (0x20, 2, 3)]
def pRu : RunParams := ⟨5, [3], 0⟩
def w08_7a := runWorld (fly cRu up)
def w08_8a := fly cRu up
/-- A chain of one run at 0x8000. -/
def cRc := mkCmd 0x31 [(0x18, 1, 1), (0x20, 8, 0x8000)]
def elemRc := bytesOf 64 [(0x18, 1, 1), (0x1A, 2, 5), (0x20, 2, 3)]
def sRc := inMem 0x8000 elemRc (runWorld (fly cRc up))
def vRc := (readNamed cRc (cRc.fld 0x20 8) 64 (taken sRc)).2
def cCa := mkCmd 0x32 [(0x18, 1, 2), (0x1A, 2, 77)]
def w08_16a := fly cCa up
def dRun : Cmd := { tag := 9, sq := 2, pkt := bytesOf 64 [(0, 1, 0x30), (2, 2, 77)], stage := .started, reply := none }
def sCa := runWorld { up with cmdq := { up.cmdq with cmds := [dRun, cCa] }, sched := { up.sched with runs := [{ num := 4, cmd := some 9, model := 5, ctxs := [3] }] } }
def w08_20a := { up with gctl := { up.gctl with ready := false } }
/-- A queued run of class 3 whose model is hot on Frond 7. -/
def sRd := (fun s : State => { s with sched := { s.sched with
  runs := [{ num := 4, cmd := some 1, model := 5, ctxs := [3] }]
  models := [(5, { mRun with st := .hot })]
  ctxs := [(3, { rIdle with st := .runnable })]
  fps := [(7, { fl := 0, st := .mapped, res := [⟨5, 0, 0, 4, 0, 3, true, false, 0⟩] })], flMap := [(0, 7)] } }) (fly { cRu with stage := .started } up)
def oRd := firstPlaced (restartLoads sRd).tryOrder (restartLoads sRd)
def rDone : RunRec := { num := 4, cmd := some 1, model := 5, ctxs := [3], st := .ended }
def rDisp : RunRec := { rDone with st := .dispatched }
def rHalt : RunRec := { rDisp with fault := some (0x103, 7) }
def rPipe : RunRec := { rDone with cmd := none, pipe := some (2, 9) }
def sRe (r : RunRec) := (fun s : State => { s with sched := { s.sched with runs := [r], ctxs := [(3, { rIdle with st := .resident })] } }) (fly { cRu with stage := .started } up)
def sLd := State.modFrond 7 (fun r => { r with slot1 := { r.slot1 with owner := .load 5 0 } }) (State.modFp 7 (fun _ => { fl := 0, st := .mapped, res := [⟨5, 0, 0, 4, 0, 3, false, false, 0⟩] })
  { up with sched := { up.sched with models := [(5, mRun)] } })
/-- A blob of pipeline 2: one UDP stream of plain data, and its CRC. -/
def rawBlob := bytesOf 240 [(0, 4, 0x4243504B), (4, 2, 1), (6, 1, 2), (8, 1, 1), (0xB, 1, 1), (0xC, 1, 3), (0x10, 4, 1000), (0x14, 2, 1), (0x20, 4, 240),
  (64, 1, 32), (65, 1, 1), (71, 1, 1), (64 + 0x14, 4, 64), (64 + 0x20, 1, 1), (64 + 0x48, 4, 1000)]
def goodBlob := putAt rawBlob (0x24, 4, crc32 rawBlob)
def cPc := mkCmd 0x40 [(0x18, 1, 2), (0x1C, 4, 240), (0x20, 8, 0x8000)]
def sPc := inMem 0x8000 goodBlob (fly cPc up)
def vPc (s : State) := (readNamed cPc 0x8000 240 (taken s)).2
def w08_49a := State.modPipe 2 (fun r => { r with running := true }) sPc
def sPb := inMem 0x8000 rawBlob (fly cPc up)
def cPs := mkCmd 0x41 [(0x18, 1, 2), (0x20, 8, 0x8000)]
def w08_54a := fly cPs up
def bPs := parseBlob true goodBlob
def sPs0 := State.modPipe 2 (fun r => { r with blob := some bPs }) (fly cPs up)
def startBlk := bytesOf 128 [(0x38, 1, 1), (0x40, 2, 3)]
def sPs := State.modFclk 0 (fun c => { c with en := true }) (inMem 0x8000 startBlk (runWorld sPs0))
def w08_60a := (readNamed cPs 0x8000 128 (taken sPs)).2
def sPs0c := State.modPipe 2 (fun r => { r with blob := some { bPs with cls := 0 } }) sPs
def s0w (s : State) : State := { s with sched := { s.sched with ctxs := [(3, { rIdle with cls := 0 })] } }
def w08_63a := { bPs with cls := 0 }
def w08_63b := (readNamed cPs 0x8000 128 (taken (s0w sPs0c))).2
def cPt := mkCmd 0x42 [(0x18, 1, 2)]
def w08_65a := fly cPt up
def sPt := State.modPipe 2 (fun r => { r with blob := some bPs, running := true }) (runWorld (fly cPt up))
def sPo := State.modLedger 2 0 (fun l => { l with valid := true, pipe := 2 }) (State.modPipe 2 (fun r => { r with cur := some 0 }) sPt)
def cRo := mkCmd 0x43 [(0x18, 1, 0), (0x1C, 4, 9), (0x20, 8, 0x8000)]
def bRo := blob3 [cfg0]
def sRo := inMem 0x8000 [7, 8, 9] (State.modPipe 2 (fun r => { r with blob := some bRo }) (fly cRo up))
def w08_73a := (readNamed cRo 0x8000 512 (taken sRo)).1.getD []
def w08_73b := (readNamed cRo 0x8000 512 (taken sRo)).2

/-- Concrete operands and states that meet the hypotheses of RunCommands. -/
theorem test_witness_RunCommands :
    (Runs w08_7a) ∧
    (CmdStarts w08_7a 48 1 cRu) ∧
    cRu.fld 24 1 ≤ 8 ∧
    ((takeCmd cRu w08_7a).runStatus (w08_7a.sq cRu.sq).cls.toNat { model := cRu.fld 26 2, ctxs := List.map (fun (i : Nat) => cRu.fld (32 + 2 * i) 2) (List.range (cRu.fld 24 1)), rsrc := cRu.fld 56 8 : RunParams } = none) ∧
    ((w08_7a.model { model := cRu.fld 26 2, ctxs := List.map (fun (i : Nat) => cRu.fld (32 + 2 * i) 2) (List.range (cRu.fld 24 1)), rsrc := cRu.fld 56 8 : RunParams }.model).st = ModelState.warm ∨ (w08_7a.model { model := cRu.fld 26 2, ctxs := List.map (fun (i : Nat) => cRu.fld (32 + 2 * i) 2) (List.range (cRu.fld 24 1)), rsrc := cRu.fld 56 8 : RunParams }.model).st = ModelState.hot) ∧
    (Runs w08_8a) ∧
    (CmdStarts w08_8a 48 1 cRu) ∧
    ((takeCmd cRu w08_8a).runStatus (w08_8a.sq cRu.sq).cls.toNat { model := cRu.fld 26 2, ctxs := List.map (fun (i : Nat) => cRu.fld (32 + 2 * i) 2) (List.range (cRu.fld 24 1)), rsrc := cRu.fld 56 8 : RunParams } = some 64) ∧
    (Runs sRc) ∧
    (CmdStarts sRc 49 1 cRc) ∧
    (readNamed cRc (cRc.fld 32 8) 64 (takeCmd cRc sRc) = (some elemRc, vRc)) ∧
    chainElemStatus cRc elemRc = none ∧
    (reachRun cRc elemRc 0 vRc = (none, (reachRun cRc elemRc 0 vRc).snd)) ∧
    (Runs w08_16a) ∧
    (CmdStarts w08_16a 50 1 cCa) ∧
    (takeCmd cCa w08_16a).cancelTarget (cCa.fld 24 1) (cCa.fld 26 2) = none ∧
    (Runs sCa) ∧
    (CmdStarts sCa 50 1 cCa) ∧
    (takeCmd cCa sCa).cancelTarget (cCa.fld 24 1) (cCa.fld 26 2) = some dRun ∧
    (Runs w08_20a) ∧
    w08_20a.interpRuns = false ∧
    (Runs sRd) ∧
    sRd.interpRuns = true ∧
    (firstPlaced (restartLoads sRd).tryOrder (restartLoads sRd) = (some (oRd.fst.getD up), oRd.snd)) ∧
    (Runs up) ∧
    up.interpRuns = true ∧
    ((restartLoads up).tryOrder = []) ∧
    (Runs (sRe rDisp)) ∧
    (sRe rDisp).run 4 = some rDisp ∧
    rDisp.pipe = none ∧
    rDisp.cmd = some 1 ∧
    rDisp.st ≠ RunState.ended ∧
    rDisp.fault = none ∧
    (Runs (sRe rDone)) ∧
    (sRe rDone).run 4 = some rDone ∧
    rDone.pipe = none ∧
    rDone.cmd = some 1 ∧
    (rDone.st = RunState.ended ∨ rDone.fault ≠ none) ∧
    (abortRun 4 (sRe rDone)).runOwns 4 = false ∧
    (Runs (sRe rHalt)) ∧
    (sRe rHalt).run 4 = some rHalt ∧
    rHalt.pipe = none ∧
    rHalt.cmd = some 1 ∧
    (rHalt.st = RunState.ended ∨ rHalt.fault ≠ none) ∧
    (abortRun 4 (sRe rHalt)).runOwns 4 = false ∧
    (Runs (sRe rPipe)) ∧
    (sRe rPipe).run 4 = some rPipe ∧
    (rPipe.pipe = some (2, (9 : Word32))) ∧
    (rPipe.st = RunState.ended ∨ rPipe.fault ≠ none) ∧
    (abortRun 4 (sRe rPipe)).runOwns 4 = false ∧
    (Runs sLd) ∧
    (RunsFab sLd ↑(7 : Frond)) ∧
    ((sLd.frond ↑(7 : Frond)).slot ↑(1 : Fin 2)).owner = SlotOwner.load 5 0 ∧
    ((sLd.frond ↑(7 : Frond)).slot ↑(1 : Fin 2)).st = SlotState.idle := by
  refine ⟨?_, ?_, ?_, ?_, ?_, ?_, ?_, ?_, ?_, ?_, ?_, ?_, ?_, ?_, ?_, ?_, ?_, ?_, ?_, ?_, ?_, ?_, ?_, ?_, ?_, ?_, ?_, ?_, ?_, ?_, ?_, ?_, ?_, ?_, ?_, ?_, ?_, ?_, ?_, ?_, ?_, ?_, ?_, ?_, ?_, ?_, ?_, ?_, ?_, ?_, ?_, ?_, ?_, ?_⟩
  · decide +kernel
  · decide +kernel
  · decide +kernel
  · decide +kernel
  · decide +kernel
  · decide +kernel
  · decide +kernel
  · decide +kernel
  · decide +kernel
  · decide +kernel
  · first | exact pair_of (by decide +kernel) (by rfl) | decide +kernel | rfl
  · decide +kernel
  · first | exact pair_of (by decide +kernel) (by rfl) | decide +kernel | rfl
  · decide +kernel
  · decide +kernel
  · decide +kernel
  · decide +kernel
  · decide +kernel
  · decide +kernel
  · decide +kernel
  · decide +kernel
  · decide +kernel
  · decide +kernel
  · first | exact pair_of (by decide +kernel) (by rfl) | decide +kernel | rfl
  · decide +kernel
  · decide +kernel
  · decide +kernel
  · decide +kernel
  · decide +kernel
  · decide +kernel
  · decide +kernel
  · decide +kernel
  · decide +kernel
  · decide +kernel
  · decide +kernel
  · decide +kernel
  · decide +kernel
  · decide +kernel
  · decide +kernel
  · decide +kernel
  · decide +kernel
  · decide +kernel
  · decide +kernel
  · decide +kernel
  · decide +kernel
  · decide +kernel
  · decide +kernel
  · decide +kernel
  · decide +kernel
  · decide +kernel
  · decide +kernel
  · decide +kernel
  · decide +kernel
  · decide +kernel

/-- Concrete operands and states that meet the hypotheses of PipeCommands. -/
theorem test_witness_PipeCommands :
    (Runs w08_49a) ∧
    (CmdStarts w08_49a 64 1 cPc) ∧
    (w08_49a.pipe (cPc.fld 24 1)).running = true ∧
    (Runs sPc) ∧
    (CmdStarts sPc 64 1 cPc) ∧
    (sPc.pipe (cPc.fld 24 1)).running = false ∧
    (readNamed cPc (cPc.fld 32 8) (cPc.fld 28 4) (takeCmd cPc sPc) = (some goodBlob, vPc sPc)) ∧
    (vPc sPc).checkBlob (cPc.fld 24 1) goodBlob (cPc.fld 28 4) = none ∧
    (Runs sPb) ∧
    (CmdStarts sPb 64 1 cPc) ∧
    (sPb.pipe (cPc.fld 24 1)).running = false ∧
    (readNamed cPc (cPc.fld 32 8) (cPc.fld 28 4) (takeCmd cPc sPb) = (some rawBlob, vPc sPb)) ∧
    (vPc sPb).checkBlob (cPc.fld 24 1) rawBlob (cPc.fld 28 4) = some 5 ∧
    (Runs w08_54a) ∧
    (CmdStarts w08_54a 65 1 cPs) ∧
    (w08_54a.pipe (cPs.fld 24 1)).blob = none ∧
    (Runs sPs0) ∧
    (CmdStarts sPs0 65 1 cPs) ∧
    (sPs0.pipe (cPs.fld 24 1)).blob = some bPs ∧
    (sPs0.pipe (cPs.fld 24 1)).running = false ∧
    (sPs0.fclk bPs.fclk).en = false ∧
    (Runs sPs) ∧
    (CmdStarts sPs 65 1 cPs) ∧
    (sPs.pipe (cPs.fld 24 1)).blob = some bPs ∧
    (sPs.pipe (cPs.fld 24 1)).running = false ∧
    (sPs.fclk bPs.fclk).en = true ∧
    (readNamed cPs (cPs.fld 32 8) 128 (takeCmd cPs sPs) = (some startBlk, w08_60a)) ∧
    startFieldsOk startBlk (parseStart startBlk) bPs (BitVec.toNat (sPs.fclk bPs.fclk).inForce) = true ∧
    bPs.cls ≠ 0 ∧
    w08_60a.startCtxStatus bPs.cls (parseStart startBlk).ctxs = none ∧
    (Runs (s0w sPs0c)) ∧
    (CmdStarts (s0w sPs0c) 65 1 cPs) ∧
    ((s0w sPs0c).pipe (cPs.fld 24 1)).blob = some w08_63a ∧
    ((s0w sPs0c).pipe (cPs.fld 24 1)).running = false ∧
    ((s0w sPs0c).fclk w08_63a.fclk).en = true ∧
    (readNamed cPs (cPs.fld 32 8) 128 (takeCmd cPs (s0w sPs0c)) = (some startBlk, w08_63b)) ∧
    startFieldsOk startBlk (parseStart startBlk) w08_63a (BitVec.toNat ((s0w sPs0c).fclk w08_63a.fclk).inForce) = true ∧
    windowsOk (parseStart startBlk).windows (BitVec.toNat ((s0w sPs0c).fclk w08_63a.fclk).inForce) = true ∧
    w08_63b.startCtxStatus w08_63a.cls (parseStart startBlk).ctxs = none ∧
    (Runs w08_65a) ∧
    (CmdStarts w08_65a 66 1 cPt) ∧
    (w08_65a.pipe (cPt.fld 24 1)).running = false ∧
    (Runs sPt) ∧
    (CmdStarts sPt 66 1 cPt) ∧
    (sPt.pipe (cPt.fld 24 1)).running = true ∧
    ((State.modPipe (cPt.fld 24 1) (fun (r : PipeRec) => { blob := r.blob, running := r.running, ringWritten := r.ringWritten, start := r.start, firstFrame := r.firstFrame, cur := r.cur, last := r.last, stopping := true, stopTags := r.stopTags ++ [1], dmaTaken := r.dmaTaken, dmaWanted := r.dmaWanted : PipeRec }) (takeCmd cPt sPt)).openFrames (cPt.fld 24 1) = []) ∧
    (Runs sPo) ∧
    (CmdStarts sPo 66 1 cPt) ∧
    (sPo.pipe (cPt.fld 24 1)).running = true ∧
    ((State.modPipe (cPt.fld 24 1) (fun (r : PipeRec) => { blob := r.blob, running := r.running, ringWritten := r.ringWritten, start := r.start, firstFrame := r.firstFrame, cur := r.cur, last := r.last, stopping := true, stopTags := r.stopTags ++ [1], dmaTaken := r.dmaTaken, dmaWanted := r.dmaWanted : PipeRec }) (takeCmd cPt sPo)).openFrames (cPt.fld 24 1) ≠ []) ∧
    (Runs sRo) ∧
    (CmdStarts sRo 67 1 cRo) ∧
    (sRo.boundTo (cRo.fld 24 1) = some (2, bRo, cfg0)) ∧
    cfg0.kind ≠ 1 ∧
    (readNamed cRo (cRo.fld 32 8) 512 (takeCmd cRo sRo) = (some w08_73a, w08_73b)) := by
  refine ⟨?_, ?_, ?_, ?_, ?_, ?_, ?_, ?_, ?_, ?_, ?_, ?_, ?_, ?_, ?_, ?_, ?_, ?_, ?_, ?_, ?_, ?_, ?_, ?_, ?_, ?_, ?_, ?_, ?_, ?_, ?_, ?_, ?_, ?_, ?_, ?_, ?_, ?_, ?_, ?_, ?_, ?_, ?_, ?_, ?_, ?_, ?_, ?_, ?_, ?_, ?_, ?_, ?_, ?_, ?_⟩
  · decide +kernel
  · decide +kernel
  · decide +kernel
  · decide +kernel
  · decide +kernel
  · decide +kernel
  · first | exact pair_of (by decide +kernel) (by rfl) | decide +kernel | rfl
  · decide +kernel
  · decide +kernel
  · decide +kernel
  · decide +kernel
  · first | exact pair_of (by decide +kernel) (by rfl) | decide +kernel | rfl
  · decide +kernel
  · decide +kernel
  · decide +kernel
  · decide +kernel
  · decide +kernel
  · decide +kernel
  · decide +kernel
  · decide +kernel
  · decide +kernel
  · decide +kernel
  · decide +kernel
  · decide +kernel
  · decide +kernel
  · decide +kernel
  · first | exact pair_of (by decide +kernel) (by rfl) | decide +kernel | rfl
  · decide +kernel
  · decide +kernel
  · decide +kernel
  · decide +kernel
  · decide +kernel
  · decide +kernel
  · decide +kernel
  · decide +kernel
  · first | exact pair_of (by decide +kernel) (by rfl) | decide +kernel | rfl
  · decide +kernel
  · decide +kernel
  · decide +kernel
  · decide +kernel
  · decide +kernel
  · decide +kernel
  · decide +kernel
  · decide +kernel
  · decide +kernel
  · decide +kernel
  · decide +kernel
  · decide +kernel
  · decide +kernel
  · decide +kernel
  · decide +kernel
  · decide +kernel
  · decide +kernel
  · decide +kernel
  · first | exact pair_of (by decide +kernel) (by rfl) | decide +kernel | rfl

end B08

/-! ### Witnesses: queues -/

namespace B09

def sqOn (s : State) : State := State.modSq 5 (fun q => { q with en := true, size := 3, cls := 1, base := 0x9000 }) s
def w09_4a := sqOn up
def w09_5a := sqOn up
def cqOn (s : State) : State := State.modCq 0 (fun q => { q with en := true, size := 1, base := 0xA000 }) s
def w09_9a := sqOn (cqOn up)
def w09_10a := cqOn up
def w09_11a := sqOn up
def w09_12a := sqOn up
def cqAt (t : BitVec 12) : State := State.modCq 0 (fun q => { q with en := true, size := 2, tail := t }) up
def evAt (t : BitVec 12) : State := State.modCq 64 (fun q => { q with en := true, size := 2, tail := t }) up
def idleUp : State := { up with gctl := { up.gctl with ready := false } }
def many : List Cmd := (List.range 1024).map (fun i => { tag := i, sq := 0, pkt := 1 :: List.replicate 63 0, stage := .done 0 0 0, reply := none })
def w09_24a := { up with cmdq := { up.cmdq with cmds := many } }
def ready5 (s : State) : State := State.modSq 5 (fun q => { q with tail := 0, head := 7 }) (inMem 0x91C0 [1, 2, 3] (sqOn s))
def w09_27a := (readAll 0x9F 1 0x91C0 64 (ready5 up)).1.getD []
def w09_27b := (readAll 0x9F 1 0x91C0 64 (ready5 up)).2
def bad5 := (fun s : State => { s with mem := { s.mem with lines := [(0x91C0 / 64, { poison := true })] } }) (ready5 up)
def w09_29a := (readAll 0x9F 1 0x91C0 64 bad5).1.getD []
def w09_29b := (readAll 0x9F 1 0x91C0 64 bad5).2
def cEnd : Cmd := { mkCmd 1 [(2, 2, 77)] with stage := .done 0x4C 5 6 }
def sEnd := cqOn (fly cEnd up)
def w09_32a := (busWrite 0x9F 3 0xA000 (clean (withPhase 6 true (completionEntry cEnd 0x4C 5 6 0 up.gctl.time))) sEnd).2
def xSt : StuckPost := { q := 0, entry := List.replicate 32 0, noirq := false, cmd := some 1 }
def w09_35a := { sEnd with cmdq := { sEnd.cmdq with stuck := [xSt] } }
def w09_36a := { up with cmdq := { up.cmdq with stuck := [xSt] } }
def src1 : PeerAddr := { ipv6 := false, ip := 0x0A000001, mac := 0, udp := 9000 }
def frOk := bytesOf 80 [(0, 4, 0x4B434D44), (4, 2, 1), (6, 1, 1), (8, 4, 33), (0xC, 1, 5), (16, 1, 1)]
def linkUp (s : State) : State := State.modPort 2 (fun r => { r with link := .up }) { s with eth := { s.eth with cmdPort := 5000 } }
def w09_41a := { linkUp up with eth := { (linkUp up).eth with cmdPort := 0 } }
def w09_42a := State.modPort 2 (fun r => { r with maxFrame := 125 }) (linkUp up)
def w09_43a := linkUp (sqOn up)
def sPeer := State.modSq 5 (fun q => { q with source := true, port := 2 }) (linkUp (sqOn up))

/-- Concrete operands and states that meet the hypotheses of CommandQueues. -/
theorem test_witness_CommandQueues :
    (Runs up) ∧
    up.blocksUp = true ∧
    (up.sq ↑(5 : SqNo)).en = false ∧
    (sizeOk (BitVec.toNat ((50594049 : Word32) ||| (1 : Word32))) = true) ∧
    (sizeOk (BitVec.toNat ((262401 : Word32) ||| (1 : Word32))) = false) ∧
    (Runs w09_4a) ∧
    w09_4a.blocksUp = true ∧
    (w09_4a.sq ↑(5 : SqNo)).en = true ∧
    (Runs w09_5a) ∧
    w09_5a.blocksUp = true ∧
    (w09_5a.sq ↑(5 : SqNo)).en = true ∧
    (up.cq ↑(64 : CqOrEvq)).en = false ∧
    (sizeOk (BitVec.toNat ((201654274 : Word32) ||| (1 : Word32))) = true) ∧
    (up.cq ↑(0 : CqOrEvq)).en = false ∧
    (sizeOk (BitVec.toNat ((218431490 : Word32) ||| (1 : Word32))) = false) ∧
    (Runs w09_9a) ∧
    w09_9a.blocksUp = true ∧
    (w09_9a.cq ↑(0 : CqOrEvq)).en = true ∧
    w09_9a.cqNamed ↑(0 : CqOrEvq) = true ∧
    (Runs w09_10a) ∧
    w09_10a.blocksUp = true ∧
    (w09_10a.cq ↑(0 : CqOrEvq)).en = true ∧
    w09_10a.cqNamed ↑(0 : CqOrEvq) = false ∧
    (Runs w09_11a) ∧
    w09_11a.blocksUp = true ∧
    (w09_11a.sq ↑(5 : SqNo)).en = true ∧
    (w09_11a.sq ↑(5 : SqNo)).source = false ∧
    (bits (BitVec.toNat (4294963207 : Word32)) 11 0 < (w09_11a.sq ↑(5 : SqNo)).entries) ∧
    (Runs w09_12a) ∧
    w09_12a.blocksUp = true ∧
    (w09_12a.sq ↑(5 : SqNo)).en = true ∧
    (w09_12a.sq ↑(5 : SqNo)).source = false ∧
    ((w09_12a.sq ↑(5 : SqNo)).entries ≤ bits (BitVec.toNat (8 : Word32)) 11 0) ∧
    (Runs (cqAt (3 : BitVec 12))) ∧
    (cqAt (3 : BitVec 12)).blocksUp = true ∧
    ((cqAt (3 : BitVec 12)).cq ↑(0 : CqNo)).en = true ∧
    ((cqAt (3 : BitVec 12)).cq ↑(0 : CqNo)).reaches (bits (BitVec.toNat (3 : Word32)) 11 0) = true ∧
    (Runs (cqAt (2 : BitVec 12))) ∧
    (cqAt (2 : BitVec 12)).blocksUp = true ∧
    ((cqAt (2 : BitVec 12)).cq ↑(0 : CqNo)).en = true ∧
    ((cqAt (2 : BitVec 12)).cq ↑(0 : CqNo)).reaches (bits (BitVec.toNat (3 : Word32)) 11 0) = false ∧
    (Runs (evAt (3 : BitVec 12))) ∧
    (evAt (3 : BitVec 12)).blocksUp = true ∧
    ((evAt (3 : BitVec 12)).cq 64).en = true ∧
    ((evAt (3 : BitVec 12)).cq 64).reaches (bits (BitVec.toNat (3 : Word32)) 11 0) = true ∧
    (Runs (evAt (2 : BitVec 12))) ∧
    (evAt (2 : BitVec 12)).blocksUp = true ∧
    ((evAt (2 : BitVec 12)).cq 64).en = true ∧
    ((evAt (2 : BitVec 12)).cq 64).reaches (bits (BitVec.toNat (4 : Word32)) 11 0) = false := by
  and_intros <;> decide +kernel

/-- Concrete operands and states that meet the hypotheses of FetchAndPost. -/
theorem test_witness_FetchAndPost :
    (Runs idleUp) ∧
    idleUp.fetchRuns = false ∧
    (Runs w09_24a) ∧
    w09_24a.fetchRuns = true ∧
    (∀ (c : Cmd), c ∈ w09_24a.cmdq.cmds → knownOp c.op = true) ∧
    1024 ≤ w09_24a.cmdq.cmds.length ∧
    (Runs up) ∧
    up.fetchRuns = true ∧
    (∀ (c : Cmd), c ∈ up.cmdq.cmds → knownOp c.op = true) ∧
    up.cmdq.cmds.length < 1024 ∧
    up.nextQueue = none ∧
    (Runs (ready5 up)) ∧
    (ready5 up).fetchRuns = true ∧
    (∀ (c : Cmd), c ∈ (ready5 up).cmdq.cmds → knownOp c.op = true) ∧
    (ready5 up).cmdq.cmds.length < 1024 ∧
    ((ready5 up).nextQueue = some ↑(5 : SqNo)) ∧
    (readAll 159 ((ready5 up).sq ↑(5 : SqNo)).cls.toNat (((ready5 up).sq ↑(5 : SqNo)).base.toNat + 64 * ((ready5 up).sq ↑(5 : SqNo)).head.toNat) 64 (ready5 up) = (some w09_27a, w09_27b)) ∧
    poisoned w09_27a = false ∧
    (Runs bad5) ∧
    bad5.fetchRuns = true ∧
    (∀ (c : Cmd), c ∈ bad5.cmdq.cmds → knownOp c.op = true) ∧
    bad5.cmdq.cmds.length < 1024 ∧
    (bad5.nextQueue = some ↑(5 : SqNo)) ∧
    (readAll 159 (bad5.sq ↑(5 : SqNo)).cls.toNat ((bad5.sq ↑(5 : SqNo)).base.toNat + 64 * (bad5.sq ↑(5 : SqNo)).head.toNat) 64 bad5 = (some w09_29a, w09_29b)) ∧
    poisoned w09_29a = true ∧
    (Runs sEnd) ∧
    sEnd.fetchRuns = true ∧
    (∀ (c : Cmd), c ∈ sEnd.cmdq.cmds → knownOp c.op = true) ∧
    sEnd.cqOpen ↑(0 : CqNo) = true ∧
    (List.find? (fun (c : Cmd) => sEnd.postable c && decide ((sEnd.sq c.sq).cq.toNat = ↑(0 : CqNo))) sEnd.cmdq.cmds = some cEnd) ∧
    (cEnd.stage = CmdStage.done (76 : Byte) (5 : Word64) (6 : Word64)) ∧
    cEnd.reply = none ∧
    sEnd.cmd cEnd.tag = some cEnd ∧
    (busWrite 159 (sEnd.dmac 31).cls.toNat ((sEnd.cq ↑(0 : CqNo)).base.toNat + 32 * (sEnd.cq ↑(0 : CqNo)).tail.toNat) (clean (withPhase 6 (sEnd.cq ↑(0 : CqNo)).phase (completionEntry cEnd (76 : Byte) (5 : Word64) (6 : Word64) (sEnd.sq cEnd.sq).head.toNat sEnd.gctl.time))) sEnd = (true, w09_32a)) ∧
    up.cqOpen ↑(3 : CqNo) = false ∧
    (Runs w09_35a) ∧
    w09_35a.fetchRuns = true ∧
    (w09_35a.cmdq.stuck = [xSt]) ∧
    (Runs w09_36a) ∧
    w09_36a.fetchRuns = true ∧
    (w09_36a.cmdq.stuck = [xSt]) ∧
    (Instr.peerCommandFrame (2 : EthPort) frOk src1).wf = true ∧
    (up.port ↑(2 : EthPort)).link ≠ LinkState.up ∧
    (Runs w09_41a) ∧
    (w09_41a.eth.cmdPort = (0 : BitVec 16)) ∧
    (Runs w09_42a) ∧
    (w09_42a.port ↑(2 : EthPort)).link = LinkState.up ∧
    (w09_42a.eth.cmdPort ≠ (0 : BitVec 16)) ∧
    ((w09_42a.port ↑(2 : EthPort)).maxFrame.toNat < max 64 (frOk.length + if src1.ipv6 = true then 66 else 46)) ∧
    (Runs w09_43a) ∧
    (max 64 (frOk.length + if src1.ipv6 = true then 66 else 46) ≤ (w09_43a.port ↑(2 : EthPort)).maxFrame.toNat) ∧
    (w09_43a.port ↑(2 : EthPort)).link = LinkState.up ∧
    (w09_43a.eth.cmdPort ≠ (0 : BitVec 16)) ∧
    ((peerFrameOk frOk && w09_43a.peerQueueOk (↑(2 : EthPort)) frOk) = false) ∧
    (Runs sPeer) ∧
    (max 64 (frOk.length + if src1.ipv6 = true then 66 else 46) ≤ (sPeer.port ↑(2 : EthPort)).maxFrame.toNat) ∧
    (sPeer.port ↑(2 : EthPort)).link = LinkState.up ∧
    (sPeer.eth.cmdPort ≠ (0 : BitVec 16)) ∧
    peerFrameOk frOk = true ∧
    sPeer.peerQueueOk (↑(2 : EthPort)) frOk = true ∧
    (sPeer.fwMmio (177 + ↑(2 : EthPort)) true 1114112 4 = true) := by
  refine ⟨?_, ?_, ?_, ?_, ?_, ?_, ?_, ?_, ?_, ?_, ?_, ?_, ?_, ?_, ?_, ?_, ?_, ?_, ?_, ?_, ?_, ?_, ?_, ?_, ?_, ?_, ?_, ?_, ?_, ?_, ?_, ?_, ?_, ?_, ?_, ?_, ?_, ?_, ?_, ?_, ?_, ?_, ?_, ?_, ?_, ?_, ?_, ?_, ?_, ?_, ?_, ?_, ?_, ?_, ?_, ?_, ?_, ?_, ?_, ?_, ?_⟩
  · decide +kernel
  · decide +kernel
  · decide +kernel
  · decide +kernel
  · first | decide +kernel | rfl | (intros; decide +kernel) | (intros; rfl) | (intro n sh e; cases e)
  · decide +kernel
  · decide +kernel
  · decide +kernel
  · first | decide +kernel | rfl | (intros; decide +kernel) | (intros; rfl) | (intro n sh e; cases e)
  · decide +kernel
  · decide +kernel
  · decide +kernel
  · decide +kernel
  · first | decide +kernel | rfl | (intros; decide +kernel) | (intros; rfl) | (intro n sh e; cases e)
  · decide +kernel
  · decide +kernel
  · first | exact pair_of (by decide +kernel) (by rfl) | decide +kernel | rfl
  · decide +kernel
  · decide +kernel
  · decide +kernel
  · first | decide +kernel | rfl | (intros; decide +kernel) | (intros; rfl) | (intro n sh e; cases e)
  · decide +kernel
  · decide +kernel
  · first | exact pair_of (by decide +kernel) (by rfl) | decide +kernel | rfl
  · decide +kernel
  · decide +kernel
  · decide +kernel
  · first | decide +kernel | rfl | (intros; decide +kernel) | (intros; rfl) | (intro n sh e; cases e)
  · decide +kernel
  · decide +kernel
  · decide +kernel
  · decide +kernel
  · decide +kernel
  · first | exact pair_of (by decide +kernel) (by rfl) | decide +kernel | rfl
  · decide +kernel
  · decide +kernel
  · decide +kernel
  · decide +kernel
  · decide +kernel
  · decide +kernel
  · decide +kernel
  · decide +kernel
  · decide +kernel
  · decide +kernel
  · decide +kernel
  · decide +kernel
  · decide +kernel
  · decide +kernel
  · decide +kernel
  · decide +kernel
  · decide +kernel
  · decide +kernel
  · decide +kernel
  · decide +kernel
  · decide +kernel
  · decide +kernel
  · decide +kernel
  · decide +kernel
  · decide +kernel
  · decide +kernel
  · decide +kernel

end B09

/-! ### Witnesses: memory -/

namespace B10

def e1 : SymErr := ⟨3, 0x55⟩
def e2 : SymErr := ⟨40, 0x01⟩
def line9 (s : State) : State := inMem 0x240 ((List.range 64).map (fun i => BitVec.ofNat 8 (i + 1))) s
def badClock (s : State) : State := State.modGroup 2 (fun r => { r with clockLost := true }) s
def lostCh (s : State) : State := State.modChmap (lchOf 0x240) (fun m => { m with lost := true }) s
def w10_6a := { up with mem := { up.mem with groups := [(0, { clockLost := true }), (1, { clockLost := true }), (2, { clockLost := true }), (3, { clockLost := true })] } }
def w10_7a := lostCh (line9 up)
def w10_8a := line9 up
def w10_9a := line9 up
def w10_10a := line9 up
def w10_11a := { up with mem := { up.mem with groups := [(0, { clockLost := true }), (1, { clockLost := true }), (2, { clockLost := true }), (3, { clockLost := true })] } }
def w10_12a := lostCh (line9 up)
def whole : List Byte := (List.range 64).map (fun i => BitVec.ofNat 8 (200 - i))
def w10_14a := line9 up
def w10_15a := line9 up
def w10_16a := line9 up
def w10_17a := line9 up
def w10_18a := line9 up
def lk : LinkErr := [(0, 1)]
def w10_20a := line9 up
def retr := State.modPch 40 (fun r => { r with retrained := true }) up
def scr (n : BitVec 23) (s : State) : State := { s with mem := { s.mem with line := n } }
def w10_30a := { up with mem := { up.mem with scrubPeriod := 0 } }
def w10_31a := { up with gctl := { up.gctl with bootStage := 3 } }
def w10_32a := { up with mem := { up.mem with selfRefresh := true } }
def w10_34a := scr 0x7FFFFF up
def sp1 := State.modPch 40 (fun r => { r with sparing := [524287, 3] }) up
def w10_39a := State.modGroup 3 (fun r => { r with spares := 0 }) (forUpTo 36 (fun i t => State.modPch (108 + i) (fun r => { r with st := .active }) t) up)
def w10_40a := (up.spareOf 3).getD 0
def mig (n : Nat) : State := State.modGroup 1 (fun r => { r with migFrom := 40, migTo := 70, migBlocks := n, migLch := 36 }) up
def w10_43a := { mig 3 with mem := { (mig 3).mem with selfRefresh := true } }
def w10_46a := State.modGroup 1 (fun r => { r with clockLost := true, held := [⟨0x90, 1, 0x240, none, [], []⟩] }) up
def w10_47a := State.modGroup 1 (fun r => { r with c0Now := 70000 }) up

/-- Concrete operands and states that meet the hypotheses of MemoryAccess. -/
theorem test_witness_MemoryAccess :
    (Runs w10_6a) ∧
    ((Instr.memRead (144 : Initiator) (1 : Fin 4) (576 : Addr) { : LineErrs }).wf = true) ∧
    w10_6a.initIssued (BitVec.toNat (144 : Initiator)) = true ∧
    (w10_6a.lineWaits (576 / 64 : Addr) = true) ∧
    (Runs w10_7a) ∧
    w10_7a.initIssued (BitVec.toNat (144 : Initiator)) = true ∧
    (w10_7a.lineWaits (576 / 64 : Addr) = false) ∧
    (w10_7a.lineLost (576 / 64 : Addr) = true) ∧
    class0Read (BitVec.toNat (144 : Initiator)) ↑(1 : Fin 4) = false ∧
    (Runs w10_8a) ∧
    w10_8a.initIssued (BitVec.toNat (144 : Initiator)) = true ∧
    (w10_8a.lineWaits (576 / 64 : Addr) = false) ∧
    (w10_8a.lineLost (576 / 64 : Addr) = false) ∧
    ((w10_8a.lineMeta (576 / 64 : Addr)).poison = false) ∧
    ({ : LineErrs }.syms = []) ∧
    (Runs w10_9a) ∧
    ((Instr.memRead (144 : Initiator) (1 : Fin 4) (576 : Addr) { syms := [e1] : LineErrs }).wf = true) ∧
    w10_9a.initIssued (BitVec.toNat (144 : Initiator)) = true ∧
    (w10_9a.lineWaits (576 / 64 : Addr) = false) ∧
    (w10_9a.lineLost (576 / 64 : Addr) = false) ∧
    ((w10_9a.lineMeta (576 / 64 : Addr)).poison = false) ∧
    ({ syms := [e1] : LineErrs }.syms.length = 1) ∧
    (Runs w10_10a) ∧
    ((Instr.memRead (144 : Initiator) (1 : Fin 4) (576 : Addr) { syms := [e1, e2] : LineErrs }).wf = true) ∧
    w10_10a.initIssued (BitVec.toNat (144 : Initiator)) = true ∧
    (w10_10a.lineWaits (576 / 64 : Addr) = false) ∧
    (w10_10a.lineLost (576 / 64 : Addr) = false) ∧
    ((w10_10a.lineMeta (576 / 64 : Addr)).poison = false) ∧
    ({ syms := [e1, e2] : LineErrs }.syms.length = 2) ∧
    (Runs w10_11a) ∧
    ((Instr.memWrite (144 : Initiator) (1 : Fin 4) (576 : Addr) [(1 : Byte), (2 : Byte)] true { : LineErrs }).wf = true) ∧
    w10_11a.initIssued (BitVec.toNat (144 : Initiator)) = true ∧
    (w10_11a.lineWaits (576 / 64 : Addr) = true) ∧
    (Runs w10_12a) ∧
    w10_12a.initIssued (BitVec.toNat (144 : Initiator)) = true ∧
    (w10_12a.lineWaits (576 / 64 : Addr) = false) ∧
    (w10_12a.lineLost (576 / 64 : Addr) = true) ∧
    (Runs w10_14a) ∧
    ((Instr.memWrite (144 : Initiator) (1 : Fin 4) (576 : Addr) whole true { syms := [e1, e2] : LineErrs }).wf = true) ∧
    w10_14a.initIssued (BitVec.toNat (144 : Initiator)) = true ∧
    (w10_14a.lineWaits (576 / 64 : Addr) = false) ∧
    (w10_14a.lineLost (576 / 64 : Addr) = false) ∧
    (Runs w10_15a) ∧
    ((Instr.memWrite (144 : Initiator) (1 : Fin 4) (592 : Addr) [(5 : Byte), (6 : Byte), (7 : Byte)] false { : LineErrs }).wf = true) ∧
    w10_15a.initIssued (BitVec.toNat (144 : Initiator)) = true ∧
    (w10_15a.lineWaits (592 / 64 : Addr) = false) ∧
    (w10_15a.lineLost (592 / 64 : Addr) = false) ∧
    (Runs w10_16a) ∧
    ((Instr.memWrite (144 : Initiator) (1 : Fin 4) (592 : Addr) [(5 : Byte), (6 : Byte), (7 : Byte)] true { : LineErrs }).wf = true) ∧
    w10_16a.initIssued (BitVec.toNat (144 : Initiator)) = true ∧
    (w10_16a.lineWaits (592 / 64 : Addr) = false) ∧
    (w10_16a.lineLost (592 / 64 : Addr) = false) ∧
    (Runs w10_17a) ∧
    ((Instr.memWrite (144 : Initiator) (1 : Fin 4) (592 : Addr) [(5 : Byte), (6 : Byte), (7 : Byte)] false { syms := [e1] : LineErrs }).wf = true) ∧
    w10_17a.initIssued (BitVec.toNat (144 : Initiator)) = true ∧
    (w10_17a.lineWaits (592 / 64 : Addr) = false) ∧
    (w10_17a.lineLost (592 / 64 : Addr) = false) ∧
    (Runs w10_18a) ∧
    ((Instr.memWrite (144 : Initiator) (1 : Fin 4) (592 : Addr) [(5 : Byte), (6 : Byte), (7 : Byte)] false { syms := [e1, e2] : LineErrs }).wf = true) ∧
    w10_18a.initIssued (BitVec.toNat (144 : Initiator)) = true ∧
    (w10_18a.lineWaits (592 / 64 : Addr) = false) ∧
    (w10_18a.lineLost (592 / 64 : Addr) = false) ∧
    (Runs w10_20a) ∧
    ((Instr.memRead (144 : Initiator) (1 : Fin 4) (576 : Addr) { link := [lk, lk] : LineErrs }).wf = true) ∧
    w10_20a.initIssued (BitVec.toNat (144 : Initiator)) = true ∧
    (w10_20a.lineWaits (576 / 64 : Addr) = false) ∧
    (w10_20a.lineLost (576 / 64 : Addr) = false) ∧
    ((w10_20a.lineMeta (576 / 64 : Addr)).poison = false) ∧
    ({ link := [lk, lk] : LineErrs }.syms = []) ∧
    (Runs up) ∧
    ((Instr.memRead (255 : Initiator) (1 : Fin 4) (576 : Addr) { : LineErrs }).wf = true) ∧
    up.initIssued (BitVec.toNat (255 : Initiator)) = false ∧
    ((Instr.memWrite (255 : Initiator) (1 : Fin 4) (576 : Addr) [(1 : Byte), (2 : Byte)] true { : LineErrs }).wf = true) := by
  and_intros <;> decide +kernel

/-- Concrete operands and states that meet the hypotheses of MemoryMaintenance. -/
theorem test_witness_MemoryMaintenance :
    (Runs up) ∧
    (up.pch ↑(40 : PhysChan)).st ≠ ChanState.failed ∧
    (up.pch ↑(40 : PhysChan)).retrained = false ∧
    ((up.group (↑(40 : PhysChan) / 36)).migFrom = (255 : Byte)) ∧
    (Runs retr) ∧
    (retr.pch ↑(40 : PhysChan)).st ≠ ChanState.failed ∧
    (retr.pch ↑(40 : PhysChan)).retrained = true ∧
    ((retr.group (↑(40 : PhysChan) / 36)).migFrom = (255 : Byte)) ∧
    (Runs w10_30a) ∧
    ((Instr.scrubStep []).wf = true) ∧
    (w10_30a.mem.scrubPeriod = (0 : Byte)) ∧
    (Runs w10_31a) ∧
    (w10_31a.gctl.bootStage ≠ (4 : BitVec 3)) ∧
    (Runs w10_32a) ∧
    w10_32a.mem.selfRefresh = true ∧
    ((Instr.scrubStep [((4 : LogChan), [e1])]).wf = true) ∧
    (up.mem.scrubPeriod ≠ (0 : Byte)) ∧
    (up.gctl.bootStage = (4 : BitVec 3)) ∧
    up.mem.selfRefresh = false ∧
    (Runs w10_34a) ∧
    ((Instr.scrubStep [((4 : LogChan), [e1, e2])]).wf = true) ∧
    (w10_34a.mem.scrubPeriod ≠ (0 : Byte)) ∧
    (w10_34a.gctl.bootStage = (4 : BitVec 3)) ∧
    w10_34a.mem.selfRefresh = false ∧
    ((Instr.rowSpareDone (40 : PhysChan) { row := 524287 : RowCopy }).wf = true) ∧
    ((up.pch ↑(40 : PhysChan)).sparing.contains { row := 524287 : RowCopy }.row = false) ∧
    (Runs sp1) ∧
    ((sp1.pch ↑(40 : PhysChan)).sparing.contains { row := 524287 : RowCopy }.row = true) ∧
    up.barUp = true ∧
    BitVec.getLsbD (127 : Word32) 7 = false ∧
    (Runs w10_39a) ∧
    w10_39a.barUp = true ∧
    BitVec.getLsbD (255 : Word32) 7 = true ∧
    (w10_39a.chmap (bits (BitVec.toNat (255 : Word32)) 6 0)).lost = false ∧
    ((w10_39a.group (bits (BitVec.toNat (255 : Word32)) 6 0 / 32)).migFrom = (255 : Byte)) ∧
    ((w10_39a.group (bits (BitVec.toNat (255 : Word32)) 6 0 / 32)).waiting = []) ∧
    (w10_39a.spareOf (bits (BitVec.toNat (255 : Word32)) 6 0 / 32) = none) ∧
    (up.chmap (bits (BitVec.toNat (255 : Word32)) 6 0)).lost = false ∧
    ((up.group (bits (BitVec.toNat (255 : Word32)) 6 0 / 32)).migFrom = (255 : Byte)) ∧
    ((up.group (bits (BitVec.toNat (255 : Word32)) 6 0 / 32)).waiting = []) ∧
    (up.spareOf (bits (BitVec.toNat (255 : Word32)) 6 0 / 32) = some w10_40a) ∧
    ((Instr.migrationBlockCopy { group := (3 : Group) : GroupCopy }).wf = true) ∧
    ((up.group ↑{ group := (3 : Group) : GroupCopy }.group).migFrom = (255 : Byte)) ∧
    (Runs w10_43a) ∧
    ((Instr.migrationBlockCopy { group := (1 : Group) : GroupCopy }).wf = true) ∧
    w10_43a.mem.selfRefresh = true ∧
    (Runs (mig 3)) ∧
    (((mig 3).group ↑{ group := (1 : Group) : GroupCopy }.group).migFrom ≠ (255 : Byte)) ∧
    (mig 3).mem.selfRefresh = false ∧
    (((mig 3).group ↑{ group := (1 : Group) : GroupCopy }.group).migBlocks + 1 < chanBlocks) ∧
    (Runs (mig 2097151)) ∧
    (((mig 2097151).group ↑{ group := (1 : Group) : GroupCopy }.group).migFrom ≠ (255 : Byte)) ∧
    (mig 2097151).mem.selfRefresh = false ∧
    (chanBlocks ≤ ((mig 2097151).group ↑{ group := (1 : Group) : GroupCopy }.group).migBlocks + 1) ∧
    (((mig 2097151).group ↑{ group := (1 : Group) : GroupCopy }.group).waiting = []) ∧
    (((mig 2097151).group ↑{ group := (1 : Group) : GroupCopy }.group).migFrom ≠ ((mig 2097151).group ↑{ group := (1 : Group) : GroupCopy }.group).migTo) ∧
    ({ group := (1 : Group) : GroupCopy }.errs = []) ∧
    (Runs w10_46a) ∧
    (w10_46a.group ↑(1 : Group)).clockLost = true ∧
    ((w10_46a.group ↑(1 : Group)).held ≠ []) ∧
    (Runs w10_47a) ∧
    (up.group ↑(1 : Group)).clockLost = false := by
  and_intros <;> decide +kernel

end B10

/-! ### Witnesses: twin -/

namespace B11

def tl (f : Twin → Twin) : State := { up with twin := f up.twin }
def w11_3a := { tl (fun t => { t with link := .training }) with pwr := { up.pwr with holdSaf := true } }
def w11_4a := tl (fun t => { t with link := .training })
def w11_5a := tl (fun t => { t with link := .training })
def w11_6a := tl (fun t => { t with link := .training, spared := 2 })
def w11_9a := tl (fun t => { t with link := .up })
def w11_10a := tl (fun t => { t with link := .up })
def w11_11a := tl (fun t => { t with link := .up, lostLanes := 16 })
def w11_12a := tl (fun t => { t with link := .up, sendSeq := 0xFFFFFFFF })
def w11_14a := { tl (fun t => { t with link := .up }) with island := { up.island with silent := true, mode := .silent } }
def hbOk : PeerHeartbeat := { seq := 4, time := 77, mode := 0, runMask := 3, frames := [1, 2, 3, 4, 5, 6, 7, 8], crcOk := true }
def w11_17a := tl (fun t => { t with link := .up })
def w11_17b := { hbOk with crcOk := false }
def w11_18a := tl (fun t => { t with link := .up })
def w11_19a := tl (fun t => { t with peerAlive := true })
def w11_21a := tl (fun t => { t with hbTime := 999700001, peerAlive := true })
/-- Pipeline 3 is a running class-0 pipeline whose frame 6 has completed PLAN; its command region is 32 bytes. -/
def planned (s : State) : State := State.modLedger 3 6 (fun l => { l with frame := 6, pipe := 3, valid := true, twinPresent := true, tStage := [1, 1, 1, 1000, 0xFFFFFFFF, 0xFFFFFFFF] })
  (State.modPipe 3 (fun r => { r with blob := some { blob3 [] with cls := 0 }, running := true, cur := some 6 })
  (State.modTwinPipe 3 (fun t => { t with digBase := 0x4000, digLen := 32 }) { s with twin := { s.twin with link := .up } }))
def sDg := inMem 0x4000 [1, 2, 3] (planned up)
def rDg (s : State) := readAll 0xD0 0 0x4000 32 s
def lDg := sDg.ledgerAt 3 6
def sDp := { sDg with mem := { sDg.mem with lines := [(0x4000 / 64, { poison := true })] } }
def sDn := State.modTwinPipe 3 (fun t => { t with digBase := 0x1000004000 }) sDg
def own6 : Word32 × List Byte := (6, List.replicate 32 9)
def w11_35a := State.modTwinPipe 3 (fun t => { t with local_ := [own6], resendDue := true }) sDg
def w11_39a := State.modTwinPipe 3 (fun t => { t with judged := [6] }) sDg
def w11_40a := State.modTwinPipe 3 (fun t => { t with local_ := [own6] }) sDg
def w11_41a := State.modTwinPipe 3 (fun t => { t with local_ := [own6] }) sDg
def w11_42a := { sDg with gctl := { sDg.gctl with time := 500999 } }
def w11_46a := tl (fun t => { t with armed := true, lowSamples := 1 })
def w11_47a := tl (fun t => { t with armed := true })
def w11_48a := { up with pins := { up.pins with peerFaultN := false } }
def w11_49a := tl (fun t => { t with readyAt := 600000001 })
def w11_51a := tl (fun t => { t with killOut := true })

/-- Concrete operands and states that meet the hypotheses of TwinLink. -/
theorem test_witness_TwinLink :
    (RunsSaf up) ∧
    up.twin.roleSet = true ∧
    up.twin.link ≠ LinkState.training ∧
    (RunsSaf w11_3a) ∧
    w11_3a.twin.roleSet = true ∧
    w11_3a.twinTrains = false ∧
    (RunsSaf w11_4a) ∧
    w11_4a.twin.roleSet = true ∧
    w11_4a.twin.link = LinkState.training ∧
    w11_4a.twinTrains = true ∧
    (w11_4a.twin.spared = (7 : BitVec 3)) ∧
    (4 ≤ BitVec.toNat (4 : BitVec 3)) ∧
    (RunsSaf w11_5a) ∧
    w11_5a.twin.roleSet = true ∧
    w11_5a.twin.link = LinkState.training ∧
    w11_5a.twinTrains = true ∧
    (w11_5a.twin.spared = (7 : BitVec 3)) ∧
    BitVec.toNat (3 : BitVec 3) < 4 ∧
    (RunsSaf w11_6a) ∧
    w11_6a.twin.roleSet = true ∧
    w11_6a.twin.link = LinkState.training ∧
    w11_6a.twinTrains = true ∧
    w11_6a.twin.spared.toNat < 4 ∧
    up.twin.link = LinkState.down ∧
    up.twinTrains = true ∧
    (4 ≤ BitVec.toNat (7 : BitVec 3)) ∧
    (RunsSaf w11_9a) ∧
    w11_9a.twin.roleSet = true ∧
    w11_9a.twin.link = LinkState.up ∧
    (w11_9a.twin.lostLanes = (0 : BitVec 5)) ∧
    ↑(3 : Fin 5) < 4 ∧
    (RunsSaf w11_10a) ∧
    w11_10a.twin.roleSet = true ∧
    w11_10a.twin.link = LinkState.up ∧
    (w11_10a.twin.lostLanes = (0 : BitVec 5)) ∧
    (RunsSaf w11_11a) ∧
    w11_11a.twin.roleSet = true ∧
    w11_11a.twin.link = LinkState.up ∧
    (w11_11a.twin.lostLanes = BitVec.ofNat 5 (2 ^ 4)) ∧
    ((3 : Fin 5) ≠ (4 : Fin 5)) := by
  and_intros <;> decide +kernel

/-- Concrete operands and states that meet the hypotheses of TwinHeartbeats. -/
theorem test_witness_TwinHeartbeats :
    (RunsSaf w11_12a) ∧
    w11_12a.twin.roleSet = true ∧
    w11_12a.twin.link = LinkState.up ∧
    w11_12a.island.silent = false ∧
    w11_12a.island.inReset = false ∧
    (RunsSaf up) ∧
    up.twin.roleSet = true ∧
    up.twin.link ≠ LinkState.up ∧
    (RunsSaf w11_14a) ∧
    w11_14a.twin.roleSet = true ∧
    w11_14a.island.silent = true ∧
    (Instr.heartbeatReceive hbOk).wf = true ∧
    (RunsSaf w11_17a) ∧
    w11_17a.twin.roleSet = true ∧
    (Instr.heartbeatReceive w11_17b).wf = true ∧
    w11_17a.twin.link = LinkState.up ∧
    w11_17b.crcOk = false ∧
    (RunsSaf w11_18a) ∧
    w11_18a.twin.roleSet = true ∧
    w11_18a.twin.link = LinkState.up ∧
    hbOk.crcOk = true ∧
    (RunsSaf w11_19a) ∧
    w11_19a.twin.roleSet = true ∧
    w11_19a.twin.peerAlive = true ∧
    (w11_19a.twin.hbTime + 300000 ≤ w11_19a.safNow) ∧
    up.twin.peerAlive = false ∧
    (RunsSaf w11_21a) ∧
    w11_21a.twin.roleSet = true ∧
    (w11_21a.safNow < w11_21a.twin.hbTime + 300000) := by
  and_intros <;> decide +kernel

/-- Concrete operands and states that meet the hypotheses of TwinDigests. -/
theorem test_witness_TwinDigests :
    (Runs sDg) ∧
    (sDg.pipe ↑(3 : Pipe)).running = true ∧
    (sDg.pipe ↑(3 : Pipe)).cls = 0 ∧
    ((sDg.twinPipe ↑(3 : Pipe)).digLen ≠ (0 : BitVec 17)) ∧
    sDg.digestFrame ↑(3 : Pipe) = some lDg ∧
    (readAll 208 0 (sDg.twinPipe ↑(3 : Pipe)).digBase.toNat (sDg.twinPipe ↑(3 : Pipe)).digLen.toNat sDg = ((rDg sDg).fst, (rDg sDg).snd)) ∧
    ((rDg sDg).fst = some ((rDg sDg).fst.getD [])) ∧
    (poisoned ((rDg sDg).fst.getD []) = false) ∧
    (Runs sDp) ∧
    (sDp.pipe ↑(3 : Pipe)).running = true ∧
    (sDp.pipe ↑(3 : Pipe)).cls = 0 ∧
    ((sDp.twinPipe ↑(3 : Pipe)).digLen ≠ (0 : BitVec 17)) ∧
    sDp.digestFrame ↑(3 : Pipe) = some lDg ∧
    (readAll 208 0 (sDp.twinPipe ↑(3 : Pipe)).digBase.toNat (sDp.twinPipe ↑(3 : Pipe)).digLen.toNat sDp = ((rDg sDp).fst, (rDg sDp).snd)) ∧
    ((rDg sDp).fst = some ((rDg sDp).fst.getD [])) ∧
    (poisoned ((rDg sDp).fst.getD []) = true) ∧
    (Runs sDn) ∧
    (sDn.pipe ↑(3 : Pipe)).running = true ∧
    (sDn.pipe ↑(3 : Pipe)).cls = 0 ∧
    ((sDn.twinPipe ↑(3 : Pipe)).digLen ≠ (0 : BitVec 17)) ∧
    sDn.digestFrame ↑(3 : Pipe) = some lDg ∧
    (readAll 208 0 (sDn.twinPipe ↑(3 : Pipe)).digBase.toNat (sDn.twinPipe ↑(3 : Pipe)).digLen.toNat sDn = ((readAll 208 0 68719493120 32 sDn).fst, (readAll 208 0 68719493120 32 sDn).snd)) ∧
    (readAll 208 0 68719493120 32 sDn).fst = none ∧
    (RunsSaf w11_35a) ∧
    ((w11_35a.twinPipe ↑(3 : Pipe)).local_ = [own6]) ∧
    (w11_35a.twinPipe ↑(3 : Pipe)).resendDue = true ∧
    (RunsSaf sDg) ∧
    (sDg.twinPipe ↑(3 : Pipe)).resendDue = false ∧
    (RunsSaf up) ∧
    up.twin.link ≠ LinkState.up ∧
    sDg.twin.link = LinkState.up ∧
    (RunsSaf w11_39a) ∧
    w11_39a.twin.link = LinkState.up ∧
    w11_39a.digestLate ↑(3 : Pipe) (6 : Word32) = true ∧
    (RunsSaf w11_40a) ∧
    w11_40a.twin.link = LinkState.up ∧
    w11_40a.digestLate ↑(3 : Pipe) (6 : Word32) = false ∧
    (RunsSaf w11_41a) ∧
    ([lDg] = List.filter (fun (l : Ledger) => decide (BitVec.toNat l.tEdge + BitVec.toNat (l.tStage.getD 3 (0 : Word32)) + 1000 * max 1 w11_41a.twin.digwait.toNat ≤ BitVec.toNat w11_41a.gctl.time)) (w11_41a.plannedFrames ↑(3 : Pipe))) ∧
    ([lDg] ≠ []) ∧
    (RunsSaf w11_42a) ∧
    ([] = List.filter (fun (l : Ledger) => decide (BitVec.toNat l.tEdge + BitVec.toNat (l.tStage.getD 3 (0 : Word32)) + 1000 * max 1 w11_42a.twin.digwait.toNat ≤ BitVec.toNat w11_42a.gctl.time)) (w11_42a.plannedFrames ↑(3 : Pipe))) ∧
    ([] = List.filter (fun (l : Ledger) => decide (BitVec.toNat l.tEdge + BitVec.toNat (l.tStage.getD 3 (0 : Word32)) + 1000 * max 1 up.twin.digwait.toNat ≤ BitVec.toNat up.gctl.time)) (up.plannedFrames ↑(3 : Pipe))) := by
  refine ⟨?_, ?_, ?_, ?_, ?_, ?_, ?_, ?_, ?_, ?_, ?_, ?_, ?_, ?_, ?_, ?_, ?_, ?_, ?_, ?_, ?_, ?_, ?_, ?_, ?_, ?_, ?_, ?_, ?_, ?_, ?_, ?_, ?_, ?_, ?_, ?_, ?_, ?_, ?_, ?_, ?_, ?_, ?_⟩
  · decide +kernel
  · decide +kernel
  · decide +kernel
  · decide +kernel
  · decide +kernel
  · first | exact pair_of (by rfl) (by rfl) | decide +kernel
  · decide +kernel
  · decide +kernel
  · decide +kernel
  · decide +kernel
  · decide +kernel
  · decide +kernel
  · decide +kernel
  · first | exact pair_of (by rfl) (by rfl) | decide +kernel
  · decide +kernel
  · decide +kernel
  · decide +kernel
  · decide +kernel
  · decide +kernel
  · decide +kernel
  · decide +kernel
  · first | exact pair_of (by rfl) (by rfl) | decide +kernel
  · decide +kernel
  · decide +kernel
  · decide +kernel
  · decide +kernel
  · decide +kernel
  · decide +kernel
  · decide +kernel
  · decide +kernel
  · decide +kernel
  · decide +kernel
  · decide +kernel
  · decide +kernel
  · decide +kernel
  · decide +kernel
  · decide +kernel
  · decide +kernel
  · decide +kernel
  · decide +kernel
  · decide +kernel
  · decide +kernel
  · decide +kernel

/-- Concrete operands and states that meet the hypotheses of TwinTakeover. -/
theorem test_witness_TwinTakeover :
    (RunsSaf up) ∧
    up.twin.roleSet = true ∧
    (up.runningPipes = []) ∧
    (RunsSaf w11_46a) ∧
    w11_46a.twin.roleSet = true ∧
    (w11_46a.runningPipes = []) ∧
    w11_46a.fit = true ∧
    w11_46a.island.mode = GovMode.standby ∧
    w11_46a.twin.armed = true ∧
    1 ≤ w11_46a.twin.lowSamples ∧
    (RunsSaf w11_47a) ∧
    w11_47a.twin.roleSet = true ∧
    (w11_47a.runningPipes = []) ∧
    w11_47a.twin.lowSamples = 0 ∧
    w11_47a.fit = true ∧
    (RunsSaf w11_48a) ∧
    w11_48a.twin.roleSet = true ∧
    (w11_48a.runningPipes = []) ∧
    w11_48a.fit = true ∧
    w11_48a.island.mode = GovMode.standby ∧
    w11_48a.twin.armed = false ∧
    w11_48a.pins.peerFaultN = false ∧
    (max w11_48a.twin.readyAt w11_48a.twin.lowSince + 400000000 ≤ w11_48a.safNow) ∧
    (RunsSaf w11_49a) ∧
    w11_49a.twin.roleSet = true ∧
    (w11_49a.runningPipes = []) ∧
    (w11_49a.safNow < max w11_49a.twin.readyAt w11_49a.twin.lowSince + 400000000) ∧
    up.twin.killOut = false ∧
    up.twin.killed = false ∧
    (RunsSaf w11_51a) ∧
    w11_51a.twin.roleSet = true ∧
    (w11_51a.runningPipes = []) ∧
    w11_51a.twin.killOut = true := by
  and_intros <;> decide +kernel

end B11

/-! ### Witnesses: Ethernet -/

namespace B12

def pt (f : EthRec → EthRec) : State := State.modPort 2 f up
def w12_3a := pt (fun r => { r with en := true })
def w12_4a := pt (fun r => { r with en := true, link := .up })
def w12_5a := pt (fun r => { r with link := .training, rate := 1 })
def w12_6a := pt (fun r => { r with link := .training, rate := 3 })
def w12_8a := pt (fun r => { r with link := .training })
def w12_9a := { pt (fun r => { r with link := .training }) with pwr := { up.pwr with lostDomains := [.eth 2] } }
def w12_10a := { pt (fun r => { r with link := .training }) with pwr := { up.pwr with holdSoc := true } }
def upPort : State := pt (fun r => { r with link := .up, en := true, ip4 := 0x0A000001 })
def txp (f : TxRec → TxRec) : State := State.modTx 2 15 (fun x => f { x with payload := [(0, 7), (3, 9)], tmpl := [(0x1A, 0x34), (0x1B, 0x12)] }) upPort
def w12_22a := txp (fun x => { x with st := .pending })
def w12_23a := txp id
def guard5 (s : State) : State := { s with sec := { s.sec with sensed := [(0x170, BitVec.ofNat 128 (3 + 0x1234 * 2 ^ 96))] } }
def w12_25a := guard5 (txp id)
def w12_26a := txp id
def w12_27a := State.modTx 2 15 (fun x => { x with st := .pending, len := 4 }) up
def w12_28a := State.modPort 2 (fun r => { r with operLen := 1, operTab := [(0, 0x01000000)] }) (State.modTx 2 15 (fun x => { x with st := .pending, len := 4, tmpl := [(6, 0), (7, 0xE0)] }) upPort)
def w12_29a := txp (fun x => { x with st := .pending, len := 4 })
def w12_32a := pt (fun r => { r with gatePending := true, commitBase := 1000000001 })
def w12_33a := pt (fun r => { r with gatePending := true, commitBase := 999998480, gateLen := 2, gcl := [(0, 0x01000100), (1, 0x020000FA)], operTab := [(0, 0x05)] })
def w12_34a := pt (fun r => { r with gatePending := true, commitBase := 0, gateLen := 1, gcl := [(0, 0x010003E8)] })
def w12_36a := pt (fun r => { r with operLen := 2, operAt := 999999999, operTab := [(1, 0x01000002)], operEntry := 1 })
def w12_37a := pt (fun r => { r with operLen := 2, operAt := 999999998, operTab := [(1, 0x01000002)], operEntry := 1 })
def ptp (f : Eth → Eth) : State := { upPort with eth := f { upPort.eth with ptpEn := true, ptpPorts := 4, ptpDomain := 3 } }
def w12_51a := { ptp (fun e => { e with ptpLastSync := some 5 }) with gctl := { up.gctl with timeSource := .gptp, locked := true } }

/-- Concrete operands and states that meet the hypotheses of EthernetPorts. -/
theorem test_witness_EthernetPorts :
    (Runs up) ∧
    up.barUp = true ∧
    (up.port ↑(2 : EthPort)).en = false ∧
    BitVec.getLsbD (2245792261 : Word32) 31 = true ∧
    (Runs w12_3a) ∧
    w12_3a.barUp = true ∧
    (w12_3a.port ↑(2 : EthPort)).en = true ∧
    (Runs w12_4a) ∧
    w12_4a.barUp = true ∧
    (w12_4a.port ↑(2 : EthPort)).en = true ∧
    BitVec.getLsbD (98308613 : Word32) 31 = false ∧
    (Runs w12_5a) ∧
    (w12_5a.port ↑(2 : EthPort)).link = LinkState.training ∧
    ((1 : BitVec 2) ≠ (3 : BitVec 2)) ∧
    ((w12_5a.port ↑(2 : EthPort)).rate = (1 : BitVec 2)) ∧
    ((1 : BitVec 2) = fecFor (BitVec.toNat (1 : BitVec 2)) (decide ((w12_5a.port ↑(2 : EthPort)).fec = (1 : BitVec 2)))) ∧
    w12_5a.pwr.holdSoc = false ∧
    w12_5a.ethStopped ↑(2 : EthPort) = false ∧
    (Runs w12_6a) ∧
    (w12_6a.port ↑(2 : EthPort)).link = LinkState.training ∧
    ((0 : BitVec 2) ≠ (3 : BitVec 2)) ∧
    ((w12_6a.port ↑(2 : EthPort)).rate = (3 : BitVec 2)) ∧
    ((2 : BitVec 2) = fecFor (BitVec.toNat (0 : BitVec 2)) (decide ((w12_6a.port ↑(2 : EthPort)).fec = (1 : BitVec 2)))) ∧
    w12_6a.pwr.holdSoc = false ∧
    w12_6a.ethStopped ↑(2 : EthPort) = false ∧
    (up.port ↑(2 : EthPort)).link ≠ LinkState.training ∧
    (Runs w12_8a) ∧
    ((3 : BitVec 2) = (3 : BitVec 2)) ∧
    (Runs w12_9a) ∧
    w12_9a.ethStopped ↑(2 : EthPort) = true ∧
    (Runs w12_10a) ∧
    (w12_10a.pwr.holdSoc = true ∨ w12_10a.ethStopped ↑(2 : EthPort) = true) ∧
    (up.port ↑(2 : EthPort)).link ≠ LinkState.up ∧
    (Runs upPort) ∧
    (upPort.port ↑(2 : EthPort)).link = LinkState.up ∧
    (∀ (i : TxStream), ((upPort.port ↑(2 : EthPort)).txs ↑i).st ≠ TxState.pending) ∧
    RxDiscard.fragment ≠ RxDiscard.noClass ∧
    ((167772161 : BitVec 128) = if false = true then (upPort.port ↑(2 : EthPort)).ip6 else BitVec.setWidth 128 (upPort.port ↑(2 : EthPort)).ip4) ∧
    ((if false = true then (upPort.port ↑(2 : EthPort)).ip6 else BitVec.setWidth 128 (upPort.port ↑(2 : EthPort)).ip4) ≠ (0 : BitVec 128)) ∧
    ((167772161 : BitVec 128) ≠ if true = true then (upPort.port ↑(2 : EthPort)).ip6 else BitVec.setWidth 128 (upPort.port ↑(2 : EthPort)).ip4) ∧
    upPort.barUp = true ∧
    bits (BitVec.toNat (512 : Word32)) 8 0 = 0 ∧
    (256 < bits (BitVec.toNat (257 : Word32)) 8 0) ∧
    (Runs w12_22a) ∧
    w12_22a.barUp = true ∧
    ((w12_22a.port ↑(2 : EthPort)).txs ↑(15 : TxStream)).st = TxState.pending ∧
    (Runs w12_23a) ∧
    w12_23a.barUp = true ∧
    ((w12_23a.port ↑(2 : EthPort)).txs ↑(15 : TxStream)).st ≠ TxState.pending ∧
    (1 ≤ bits (BitVec.toNat (256 : Word32)) 8 0) ∧
    bits (BitVec.toNat (256 : Word32)) 8 0 ≤ 256 ∧
    w12_23a.ethOutput ↑(2 : EthPort) ↑(15 : TxStream) = none ∧
    w12_23a.guarded true ((w12_23a.port ↑(2 : EthPort)).txs ↑(15 : TxStream)).dport = none ∧
    (Runs w12_25a) ∧
    w12_25a.barUp = true ∧
    ((w12_25a.port ↑(2 : EthPort)).txs ↑(15 : TxStream)).st ≠ TxState.pending ∧
    w12_25a.ethOutput ↑(2 : EthPort) ↑(15 : TxStream) = none ∧
    w12_25a.guarded true ((w12_25a.port ↑(2 : EthPort)).txs ↑(15 : TxStream)).dport = some 0 ∧
    (Runs w12_26a) ∧
    ((w12_26a.port ↑(2 : EthPort)).txs ↑(15 : TxStream)).st ≠ TxState.pending ∧
    (Runs w12_27a) ∧
    (w12_27a.port ↑(2 : EthPort)).link ≠ LinkState.up ∧
    (Runs w12_28a) ∧
    (w12_28a.port ↑(2 : EthPort)).gateOpen ((w12_28a.port ↑(2 : EthPort)).txs ↑(15 : TxStream)).prio = false ∧
    (Runs w12_29a) ∧
    ((w12_29a.port ↑(2 : EthPort)).txs ↑(15 : TxStream)).st = TxState.pending ∧
    (w12_29a.port ↑(2 : EthPort)).link = LinkState.up ∧
    (w12_29a.port ↑(2 : EthPort)).gateOpen ((w12_29a.port ↑(2 : EthPort)).txs ↑(15 : TxStream)).prio = true ∧
    w12_29a.ethOutput ↑(2 : EthPort) ↑(15 : TxStream) = none := by
  refine ⟨?_, ?_, ?_, ?_, ?_, ?_, ?_, ?_, ?_, ?_, ?_, ?_, ?_, ?_, ?_, ?_, ?_, ?_, ?_, ?_, ?_, ?_, ?_, ?_, ?_, ?_, ?_, ?_, ?_, ?_, ?_, ?_, ?_, ?_, ?_, ?_, ?_, ?_, ?_, ?_, ?_, ?_, ?_, ?_, ?_, ?_, ?_, ?_, ?_, ?_, ?_, ?_, ?_, ?_, ?_, ?_, ?_, ?_, ?_, ?_, ?_, ?_, ?_, ?_, ?_, ?_, ?_, ?_, ?_⟩
  · decide +kernel
  · decide +kernel
  · decide +kernel
  · decide +kernel
  · decide +kernel
  · decide +kernel
  · decide +kernel
  · decide +kernel
  · decide +kernel
  · decide +kernel
  · decide +kernel
  · decide +kernel
  · decide +kernel
  · decide +kernel
  · decide +kernel
  · first | exact pair_of (by decide +kernel) (by rfl) | decide +kernel | rfl
  · decide +kernel
  · decide +kernel
  · decide +kernel
  · decide +kernel
  · decide +kernel
  · decide +kernel
  · first | exact pair_of (by decide +kernel) (by rfl) | decide +kernel | rfl
  · decide +kernel
  · decide +kernel
  · decide +kernel
  · decide +kernel
  · decide +kernel
  · decide +kernel
  · decide +kernel
  · decide +kernel
  · decide +kernel
  · decide +kernel
  · decide +kernel
  · decide +kernel
  · first | decide +kernel | rfl | (intros; decide +kernel) | (intros; rfl) | (intro n sh e; cases e)
  · decide +kernel
  · decide +kernel
  · decide +kernel
  · decide +kernel
  · decide +kernel
  · decide +kernel
  · decide +kernel
  · decide +kernel
  · decide +kernel
  · decide +kernel
  · decide +kernel
  · decide +kernel
  · decide +kernel
  · decide +kernel
  · decide +kernel
  · decide +kernel
  · decide +kernel
  · decide +kernel
  · decide +kernel
  · decide +kernel
  · decide +kernel
  · decide +kernel
  · decide +kernel
  · decide +kernel
  · decide +kernel
  · decide +kernel
  · decide +kernel
  · decide +kernel
  · decide +kernel
  · decide +kernel
  · decide +kernel
  · decide +kernel
  · decide +kernel

/-- Concrete operands and states that meet the hypotheses of GatesAndTime. -/
theorem test_witness_GatesAndTime :
    (Runs up) ∧
    up.barUp = true ∧
    (up.port ↑(2 : EthPort)).gatePending = false ∧
    (Runs w12_32a) ∧
    (w12_32a.port ↑(2 : EthPort)).switchNow (BitVec.toNat w12_32a.gctl.time) = false ∧
    (Runs w12_33a) ∧
    (w12_33a.port ↑(2 : EthPort)).gatePending = true ∧
    (w12_33a.port ↑(2 : EthPort)).switchNow (BitVec.toNat w12_33a.gctl.time) = true ∧
    (Runs w12_34a) ∧
    (w12_34a.port ↑(2 : EthPort)).gatePending = true ∧
    (w12_34a.port ↑(2 : EthPort)).switchNow (BitVec.toNat w12_34a.gctl.time) = true ∧
    ((up.port ↑(2 : EthPort)).operLen = (0 : BitVec 9)) ∧
    (Runs w12_36a) ∧
    (BitVec.toNat w12_36a.gctl.time < BitVec.toNat (w12_36a.port ↑(2 : EthPort)).operAt + gateInterval (tget (4278190080 : Word32) (w12_36a.port ↑(2 : EthPort)).operTab (w12_36a.port ↑(2 : EthPort)).operEntry)) ∧
    (Runs w12_37a) ∧
    ((w12_37a.port ↑(2 : EthPort)).operLen ≠ (0 : BitVec 9)) ∧
    (BitVec.toNat (w12_37a.port ↑(2 : EthPort)).operAt + gateInterval (tget (4278190080 : Word32) (w12_37a.port ↑(2 : EthPort)).operTab (w12_37a.port ↑(2 : EthPort)).operEntry) ≤ BitVec.toNat w12_37a.gctl.time) ∧
    up.gptpOn ↑(2 : EthPort) = false ∧
    (up.port ↑(2 : EthPort)).link ≠ LinkState.up ∧
    (Runs upPort) ∧
    upPort.gptpOn ↑(2 : EthPort) = false ∧
    (upPort.port ↑(2 : EthPort)).link = LinkState.up ∧
    (Runs (ptp id)) ∧
    (ptp id).gptpOn ↑(2 : EthPort) = true ∧
    ((4 : Byte) ≠ (ptp id).eth.ptpDomain) ∧
    (ptp id).eth.ptpGmcap = false ∧
    (ptp id).eth.ptpBest = none ∧
    ((ptp id).eth.ptpSlave.toNat ≠ ↑(2 : EthPort)) ∧
    (Runs (ptp fun (e : Eth) => { ports := e.ports, flows := e.flows, cmdPort := e.cmdPort, ptpEn := e.ptpEn, ptpDisc := true, ptpGmcap := e.ptpGmcap, ptpPorts := e.ptpPorts, ptpPriority := e.ptpPriority, ptpDomain := e.ptpDomain, ptpSlave := (2 : BitVec 4), ptpGm := e.ptpGm, ptpBest := e.ptpBest, ptpRate := (4 : BitVec 4), ptpLastSync := e.ptpLastSync, qpcBase := e.qpcBase, roceEn := e.roceEn, roceMtu := e.roceMtu, mkeys := e.mkeys, qps := e.qps : Eth })) ∧
    ((ptp fun (e : Eth) => { ports := e.ports, flows := e.flows, cmdPort := e.cmdPort, ptpEn := e.ptpEn, ptpDisc := true, ptpGmcap := e.ptpGmcap, ptpPorts := e.ptpPorts, ptpPriority := e.ptpPriority, ptpDomain := e.ptpDomain, ptpSlave := (2 : BitVec 4), ptpGm := e.ptpGm, ptpBest := e.ptpBest, ptpRate := (4 : BitVec 4), ptpLastSync := e.ptpLastSync, qpcBase := e.qpcBase, roceEn := e.roceEn, roceMtu := e.roceMtu, mkeys := e.mkeys, qps := e.qps : Eth }).gptpOn ↑(2 : EthPort) = true) ∧
    ((ptp fun (e : Eth) => { ports := e.ports, flows := e.flows, cmdPort := e.cmdPort, ptpEn := e.ptpEn, ptpDisc := true, ptpGmcap := e.ptpGmcap, ptpPorts := e.ptpPorts, ptpPriority := e.ptpPriority, ptpDomain := e.ptpDomain, ptpSlave := (2 : BitVec 4), ptpGm := e.ptpGm, ptpBest := e.ptpBest, ptpRate := (4 : BitVec 4), ptpLastSync := e.ptpLastSync, qpcBase := e.qpcBase, roceEn := e.roceEn, roceMtu := e.roceMtu, mkeys := e.mkeys, qps := e.qps : Eth }).eth.ptpSlave.toNat = ↑(2 : EthPort)) ∧
    ((ptp fun (e : Eth) => { ports := e.ports, flows := e.flows, cmdPort := e.cmdPort, ptpEn := e.ptpEn, ptpDisc := true, ptpGmcap := e.ptpGmcap, ptpPorts := e.ptpPorts, ptpPriority := e.ptpPriority, ptpDomain := e.ptpDomain, ptpSlave := (2 : BitVec 4), ptpGm := e.ptpGm, ptpBest := e.ptpBest, ptpRate := (4 : BitVec 4), ptpLastSync := e.ptpLastSync, qpcBase := e.qpcBase, roceEn := e.roceEn, roceMtu := e.roceMtu, mkeys := e.mkeys, qps := e.qps : Eth }).eth.ptpRate.getLsbD ↑(2 : EthPort) = true) ∧
    ((ptp fun (e : Eth) => { ports := e.ports, flows := e.flows, cmdPort := e.cmdPort, ptpEn := e.ptpEn, ptpDisc := true, ptpGmcap := e.ptpGmcap, ptpPorts := e.ptpPorts, ptpPriority := e.ptpPriority, ptpDomain := e.ptpDomain, ptpSlave := (2 : BitVec 4), ptpGm := e.ptpGm, ptpBest := e.ptpBest, ptpRate := (4 : BitVec 4), ptpLastSync := e.ptpLastSync, qpcBase := e.qpcBase, roceEn := e.roceEn, roceMtu := e.roceMtu, mkeys := e.mkeys, qps := e.qps : Eth }).eth.ptpDisc = true) ∧
    (Runs (ptp fun (e : Eth) => { ports := e.ports, flows := e.flows, cmdPort := e.cmdPort, ptpEn := e.ptpEn, ptpDisc := e.ptpDisc, ptpGmcap := e.ptpGmcap, ptpPorts := e.ptpPorts, ptpPriority := e.ptpPriority, ptpDomain := e.ptpDomain, ptpSlave := e.ptpSlave, ptpGm := true, ptpBest := e.ptpBest, ptpRate := e.ptpRate, ptpLastSync := e.ptpLastSync, qpcBase := e.qpcBase, roceEn := e.roceEn, roceMtu := e.roceMtu, mkeys := e.mkeys, qps := e.qps : Eth })) ∧
    ((ptp fun (e : Eth) => { ports := e.ports, flows := e.flows, cmdPort := e.cmdPort, ptpEn := e.ptpEn, ptpDisc := e.ptpDisc, ptpGmcap := e.ptpGmcap, ptpPorts := e.ptpPorts, ptpPriority := e.ptpPriority, ptpDomain := e.ptpDomain, ptpSlave := e.ptpSlave, ptpGm := true, ptpBest := e.ptpBest, ptpRate := e.ptpRate, ptpLastSync := e.ptpLastSync, qpcBase := e.qpcBase, roceEn := e.roceEn, roceMtu := e.roceMtu, mkeys := e.mkeys, qps := e.qps : Eth }).gptpOn ↑(2 : EthPort) = true) ∧
    ((ptp fun (e : Eth) => { ports := e.ports, flows := e.flows, cmdPort := e.cmdPort, ptpEn := e.ptpEn, ptpDisc := e.ptpDisc, ptpGmcap := e.ptpGmcap, ptpPorts := e.ptpPorts, ptpPriority := e.ptpPriority, ptpDomain := e.ptpDomain, ptpSlave := e.ptpSlave, ptpGm := true, ptpBest := e.ptpBest, ptpRate := e.ptpRate, ptpLastSync := e.ptpLastSync, qpcBase := e.qpcBase, roceEn := e.roceEn, roceMtu := e.roceMtu, mkeys := e.mkeys, qps := e.qps : Eth }).eth.ptpGm = true) ∧
    up.eth.ptpLastSync = none ∧
    (Runs w12_51a) ∧
    w12_51a.eth.ptpLastSync ≠ none ∧
    w12_51a.gctl.timeSource = TimeSource.gptp ∧
    w12_51a.gctl.locked = true := by
  and_intros <;> decide +kernel

end B12

/-! ### Witnesses: RoCE and PCIe -/

namespace B13

/-- The context of queue pair 9: port 2, RETRY 7, rings of 4, 4 and 4. -/
def ctx9 : List Byte := bytesOf 64 [(1, 1, 2), (2, 1, 7), (3, 1, 0x22), (4, 3, 77), (0x1E, 1, 2), (0x20, 8, 0x5000), (0x28, 8, 0x6000), (0x30, 8, 0x7000), (0x38, 3, 0xFFFFFF), (0x3C, 3, 5)]
def q9 (f : QpRec → QpRec) : State := State.modQp 9 (fun r => f { r with loaded := true, st := .ready, ctx := ctx9, sendPsn := 0xFFFFFF, expPsn := 5 })
  (State.modPort 2 (fun r => { r with link := .up }) { up with eth := { up.eth with roceEn := true, qpcBase := 0x10000 } })
def sQl := inMem 0x10240 ctx9 (State.modQp 9 (fun _ => {}) (q9 id))
def rQl := busRead 0xB3 1 0x10240 64 sQl
def wrBytes := bytesOf 64 [(0, 1, 4), (1, 1, 1), (4, 4, 3), (8, 8, 99), (0x10, 8, 0x3000), (0x24, 4, 8)]
def sWr := inMem 0x3000 [9, 8, 7] (inMem 0x5000 wrBytes (q9 (fun r => { r with sqTail := 1 })))
def rWr (s : State) := readAll 0xB3 1 0x5000 64 s
def sWe := State.modQp 9 (fun r => { r with st := .error }) sWr
def req9 : RoceReq := { wr := wrBytes, psn := 4, pkts := 1 }
def w13_27a := q9 (fun r => { r with unacked := [req9], retries := 7 })
def w13_28a := q9 (fun r => { r with unacked := [req9], rnr := true, retries := 7, rnrRetries := 6 })
def w13_29a := q9 (fun r => { r with unacked := [req9], retries := 6 })
def w13_30a := q9 (fun r => { r with rate := 970000 })
def pk (op : BitVec 8) : RocePkt := { rocePkt 0 9 5 with opcode := op }
def w13_33a := { q9 id with eth := { (q9 id).eth with roceEn := false } }
def w13_34a := { pk 4 with qpn := 1024 }
def w13_35a := { pk 4 with qpn := 8 }
def w13_36a := q9 (fun r => { r with st := .error })
def w13_37a := State.modPort 1 (fun r => { r with link := .up }) (q9 id)
def rst9 : State := { q9 id with island := { (q9 id).island with restarting := true } }
def w13_41a := { pk 0x0A with dmaLen := 1, payload := [1] }
def obs (tag : Nat) (s : State) : State := { s with gctl := { s.gctl with pcieUp := true, obReqs := [(tag, { init := 0x91, addr := 0x2000000000, len := 2 })] } }
def pcu (s : State) : State := { s with gctl := { s.gctl with pcieUp := true } }
def w13_45a := pcu up
def early : State := pcu { up with gctl := { up.gctl with bootStage := 2 } }
def hostw : State := pcu { up with sec := { up.sec with phase := .hostWait } }
def rB2 (s : State) := readBlocks 0xB0 3 2 0x1F 4 s
def sB2 := inMem 0x20 [1, 2] (pcu up)
def sB3 : State := { sB2 with mem := { sB2.mem with lines := [(0, { poison := true })] } }
def dead : State := { sB2 with mem := { sB2.mem with chmap := (List.range 128).map (fun l => (l, { ({} : ChMap) with lost := true })) } }
def w13_60a := { up with gctl := { up.gctl with obNextTag := 4 } }
def w13_61a := { up with gctl := { up.gctl with obNextTag := 4 } }
def req2 : ObReq := { init := 0x91, addr := 0x2000000000, len := 2 }
def w13_65a := obs 3 up
def w13_66a := obs 3 up
def w13_67a := obs 3 up
def w13_68a := obs 3 up
def w13_69a := obs 3 up
def w13_71a := { up with pwr := { up.pwr with lostDomains := [.pcie] } }

/-- Concrete operands and states that meet the hypotheses of RoceQueuePairs. -/
theorem test_witness_RoceQueuePairs :
    (Runs up) ∧
    up.barUp = true ∧
    (up.qp ↑(9 : Qpn)).loaded = false ∧
    (Runs (q9 id)) ∧
    (q9 id).barUp = true ∧
    ((q9 id).qp ↑(9 : Qpn)).loaded = true ∧
    (bits (BitVec.toNat (3 : BitVec 16)) 12 0 < ((q9 id).qp ↑(9 : Qpn)).sqSize) ∧
    (((q9 id).qp ↑(9 : Qpn)).sqSize ≤ bits (BitVec.toNat (4 : BitVec 16)) 12 0) ∧
    (bits (BitVec.toNat (3 : BitVec 16)) 12 0 < ((q9 id).qp ↑(9 : Qpn)).rqSize) ∧
    (((q9 id).qp ↑(9 : Qpn)).rqSize ≤ bits (BitVec.toNat (4 : BitVec 16)) 12 0) ∧
    (bits (BitVec.toNat (3 : BitVec 16)) 12 0 < ((q9 id).qp ↑(9 : Qpn)).cqSize) ∧
    (((q9 id).qp ↑(9 : Qpn)).cqWait = []) ∧
    (((q9 id).qp ↑(9 : Qpn)).cqSize ≤ bits (BitVec.toNat (4 : BitVec 16)) 12 0) ∧
    (up.barUp = false ∨ up.eth.roceEn = false) ∧
    (Runs sQl) ∧
    sQl.barUp = true ∧
    sQl.eth.roceEn = true ∧
    (busRead (177 + bits (tget (0 : BitVec 8) sQl.mem.bytes (sQl.qpcAddr ↑(9 : Qpn) + 1)).toNat 1 0) 1 (sQl.qpcAddr ↑(9 : Qpn)) 64 sQl = (some (rQl.fst.getD []), rQl.snd)) ∧
    (poisoned (rQl.fst.getD []) = false) ∧
    (qpcOk (plain (rQl.fst.getD [])) = true) ∧
    (((q9 id).qp ↑(9 : Qpn)).sqHead = ((q9 id).qp ↑(9 : Qpn)).sqTail) ∧
    (Runs sWr) ∧
    sWr.roceRuns = true ∧
    (sWr.qp ↑(9 : Qpn)).loaded = true ∧
    ((sWr.qp ↑(9 : Qpn)).sqHead ≠ (sWr.qp ↑(9 : Qpn)).sqTail) ∧
    (sWr.port (sWr.qp ↑(9 : Qpn)).port).link = LinkState.up ∧
    (readAll (sWr.qp ↑(9 : Qpn)).init 1 (field (sWr.qp ↑(9 : Qpn)).ctx 32 8 + 64 * (sWr.qp ↑(9 : Qpn)).sqHead) 64 sWr = (some ((rWr sWr).fst.getD []), (rWr sWr).snd)) ∧
    (poisoned ((rWr sWr).fst.getD []) = false) ∧
    ((rWr sWr).snd.qp ↑(9 : Qpn) = sWr.qp ↑(9 : Qpn)) ∧
    (sWr.qp ↑(9 : Qpn)).st ≠ QpState.error ∧
    (wrOk (plain ((rWr sWr).fst.getD [])) = true) ∧
    ((sWr.qp ↑(9 : Qpn)).unacked = []) ∧
    (Runs sWe) ∧
    sWe.roceRuns = true ∧
    (sWe.qp ↑(9 : Qpn)).loaded = true ∧
    ((sWe.qp ↑(9 : Qpn)).sqHead ≠ (sWe.qp ↑(9 : Qpn)).sqTail) ∧
    (sWe.port (sWe.qp ↑(9 : Qpn)).port).link = LinkState.up ∧
    (readAll (sWe.qp ↑(9 : Qpn)).init 1 (field (sWe.qp ↑(9 : Qpn)).ctx 32 8 + 64 * (sWe.qp ↑(9 : Qpn)).sqHead) 64 sWe = (some ((rWr sWe).fst.getD []), (rWr sWe).snd)) ∧
    (poisoned ((rWr sWe).fst.getD []) = false) ∧
    ((rWr sWe).snd.qp ↑(9 : Qpn) = sWe.qp ↑(9 : Qpn)) ∧
    (sWe.qp ↑(9 : Qpn)).st = QpState.error ∧
    (((q9 id).qp ↑(9 : Qpn)).unacked = []) ∧
    (Runs w13_27a) ∧
    ((w13_27a.qp ↑(9 : Qpn)).unacked = [req9]) ∧
    (w13_27a.qp ↑(9 : Qpn)).st = QpState.ready ∧
    w13_27a.roceRuns = true ∧
    ((w13_27a.qp ↑(9 : Qpn)).retry ≤ if (w13_27a.qp ↑(9 : Qpn)).rnr = true then (w13_27a.qp ↑(9 : Qpn)).rnrRetries else (w13_27a.qp ↑(9 : Qpn)).retries) ∧
    (Runs w13_28a) ∧
    ((w13_28a.qp ↑(9 : Qpn)).unacked = [req9]) ∧
    (w13_28a.qp ↑(9 : Qpn)).st = QpState.ready ∧
    w13_28a.roceRuns = true ∧
    (w13_28a.qp ↑(9 : Qpn)).rnr = true ∧
    ((w13_28a.qp ↑(9 : Qpn)).rnrRetries < (w13_28a.qp ↑(9 : Qpn)).retry) ∧
    (Runs w13_29a) ∧
    ((w13_29a.qp ↑(9 : Qpn)).unacked = [req9]) ∧
    (w13_29a.qp ↑(9 : Qpn)).st = QpState.ready ∧
    w13_29a.roceRuns = true ∧
    (w13_29a.qp ↑(9 : Qpn)).rnr = false ∧
    ((w13_29a.qp ↑(9 : Qpn)).retries < (w13_29a.qp ↑(9 : Qpn)).retry) ∧
    (Runs w13_30a) ∧
    (pk (4 : BitVec 8)).payload.length ≤ 4096 ∧
    ((pk (4 : BitVec 8)).payload.length + 62 ≤ (up.port ↑(2 : EthPort)).maxFrame.toNat) ∧
    (64 ≤ (up.port ↑(2 : EthPort)).maxFrame.toNat) ∧
    (up.port ↑(2 : EthPort)).link ≠ LinkState.up ∧
    (Runs w13_33a) ∧
    ((pk (4 : BitVec 8)).payload.length + 62 ≤ (w13_33a.port ↑(2 : EthPort)).maxFrame.toNat) ∧
    (64 ≤ (w13_33a.port ↑(2 : EthPort)).maxFrame.toNat) ∧
    (w13_33a.port ↑(2 : EthPort)).link = LinkState.up ∧
    w13_33a.eth.roceEn = false ∧
    w13_34a.payload.length ≤ 4096 ∧
    (w13_34a.payload.length + 62 ≤ ((q9 id).port ↑(2 : EthPort)).maxFrame.toNat) ∧
    (64 ≤ ((q9 id).port ↑(2 : EthPort)).maxFrame.toNat) ∧
    ((q9 id).port ↑(2 : EthPort)).link = LinkState.up ∧
    1024 ≤ w13_34a.qpn.toNat ∧
    w13_35a.payload.length ≤ 4096 ∧
    (w13_35a.payload.length + 62 ≤ ((q9 id).port ↑(2 : EthPort)).maxFrame.toNat) ∧
    ((q9 id).qp w13_35a.qpn.toNat).loaded = false ∧
    (Runs w13_36a) ∧
    ((pk (4 : BitVec 8)).payload.length + 62 ≤ (w13_36a.port ↑(2 : EthPort)).maxFrame.toNat) ∧
    (64 ≤ (w13_36a.port ↑(2 : EthPort)).maxFrame.toNat) ∧
    (w13_36a.port ↑(2 : EthPort)).link = LinkState.up ∧
    (w13_36a.qp (pk (4 : BitVec 8)).qpn.toNat).st ≠ QpState.ready ∧
    (Runs w13_37a) ∧
    ((pk (4 : BitVec 8)).payload.length + 62 ≤ (w13_37a.port ↑(1 : EthPort)).maxFrame.toNat) ∧
    (64 ≤ (w13_37a.port ↑(1 : EthPort)).maxFrame.toNat) ∧
    (w13_37a.port ↑(1 : EthPort)).link = LinkState.up ∧
    ((w13_37a.qp (pk (4 : BitVec 8)).qpn.toNat).port ≠ ↑(1 : EthPort)) ∧
    (pk (129 : BitVec 8)).payload.length ≤ 4096 ∧
    ((pk (129 : BitVec 8)).payload.length + 62 ≤ ((q9 id).port ↑(2 : EthPort)).maxFrame.toNat) ∧
    (q9 id).eth.roceEn = true ∧
    (pk (129 : BitVec 8)).qpn.toNat < 1024 ∧
    ((q9 id).qp (pk (129 : BitVec 8)).qpn.toNat).loaded = true ∧
    ((q9 id).qp (pk (129 : BitVec 8)).qpn.toNat).st = QpState.ready ∧
    (((q9 id).qp (pk (129 : BitVec 8)).qpn.toNat).port = ↑(2 : EthPort)) ∧
    ((pk (129 : BitVec 8)).opcode = (129 : BitVec 8)) ∧
    (Runs rst9) ∧
    (pk (12 : BitVec 8)).payload.length ≤ 4096 ∧
    ((pk (12 : BitVec 8)).payload.length + 62 ≤ (rst9.port ↑(2 : EthPort)).maxFrame.toNat) ∧
    (64 ≤ (rst9.port ↑(2 : EthPort)).maxFrame.toNat) ∧
    (rst9.port ↑(2 : EthPort)).link = LinkState.up ∧
    rst9.eth.roceEn = true ∧
    (pk (12 : BitVec 8)).qpn.toNat < 1024 ∧
    (rst9.qp (pk (12 : BitVec 8)).qpn.toNat).loaded = true ∧
    (rst9.qp (pk (12 : BitVec 8)).qpn.toNat).st = QpState.ready ∧
    ((rst9.qp (pk (12 : BitVec 8)).qpn.toNat).port = ↑(2 : EthPort)) ∧
    (pk (12 : BitVec 8)).opcode.toNat ≤ 12 ∧
    (pk (12 : BitVec 8)).ecnMarked = false ∧
    rst9.island.restarting = true ∧
    w13_41a.payload.length ≤ 4096 ∧
    (w13_41a.payload.length + 62 ≤ ((q9 id).port ↑(2 : EthPort)).maxFrame.toNat) ∧
    w13_41a.qpn.toNat < 1024 ∧
    ((q9 id).qp w13_41a.qpn.toNat).loaded = true ∧
    ((q9 id).qp w13_41a.qpn.toNat).st = QpState.ready ∧
    (((q9 id).qp w13_41a.qpn.toNat).port = ↑(2 : EthPort)) ∧
    (w13_41a.opcode = (10 : BitVec 8)) ∧
    w13_41a.ecnMarked = false ∧
    (q9 id).island.restarting = false ∧
    (w13_41a.psn = ((q9 id).qp w13_41a.qpn.toNat).expPsn) ∧
    ((q9 id).qp w13_41a.qpn.toNat).writeLeft = 0 ∧
    ((q9 id).qp w13_41a.qpn.toNat).recvOffset = 0 ∧
    (q9 id).keyGrants w13_41a.rkey true (BitVec.toNat w13_41a.va) (BitVec.toNat w13_41a.dmaLen) = false ∧
    (q9 id).guarded true 4791 = none := by
  refine ⟨?_, ?_, ?_, ?_, ?_, ?_, ?_, ?_, ?_, ?_, ?_, ?_, ?_, ?_, ?_, ?_, ?_, ?_, ?_, ?_, ?_, ?_, ?_, ?_, ?_, ?_, ?_, ?_, ?_, ?_, ?_, ?_, ?_, ?_, ?_, ?_, ?_, ?_, ?_, ?_, ?_, ?_, ?_, ?_, ?_, ?_, ?_, ?_, ?_, ?_, ?_, ?_, ?_, ?_, ?_, ?_, ?_, ?_, ?_, ?_, ?_, ?_, ?_, ?_, ?_, ?_, ?_, ?_, ?_, ?_, ?_, ?_, ?_, ?_, ?_, ?_, ?_, ?_, ?_, ?_, ?_, ?_, ?_, ?_, ?_, ?_, ?_, ?_, ?_, ?_, ?_, ?_, ?_, ?_, ?_, ?_, ?_, ?_, ?_, ?_, ?_, ?_, ?_, ?_, ?_, ?_, ?_, ?_, ?_, ?_, ?_, ?_, ?_, ?_, ?_, ?_, ?_, ?_, ?_, ?_, ?_, ?_⟩
  · decide +kernel
  · decide +kernel
  · decide +kernel
  · decide +kernel
  · decide +kernel
  · decide +kernel
  · decide +kernel
  · decide +kernel
  · decide +kernel
  · decide +kernel
  · decide +kernel
  · decide +kernel
  · decide +kernel
  · decide +kernel
  · decide +kernel
  · decide +kernel
  · decide +kernel
  · first | exact pair_of (by decide +kernel) (by rfl) | decide +kernel | rfl
  · decide +kernel
  · decide +kernel
  · decide +kernel
  · decide +kernel
  · decide +kernel
  · decide +kernel
  · decide +kernel
  · decide +kernel
  · first | exact pair_of (by decide +kernel) (by rfl) | decide +kernel | rfl
  · decide +kernel
  · decide +kernel
  · decide +kernel
  · decide +kernel
  · decide +kernel
  · decide +kernel
  · decide +kernel
  · decide +kernel
  · decide +kernel
  · decide +kernel
  · first | exact pair_of (by decide +kernel) (by rfl) | decide +kernel | rfl
  · decide +kernel
  · decide +kernel
  · decide +kernel
  · decide +kernel
  · decide +kernel
  · decide +kernel
  · decide +kernel
  · decide +kernel
  · decide +kernel
  · decide +kernel
  · decide +kernel
  · decide +kernel
  · decide +kernel
  · decide +kernel
  · decide +kernel
  · decide +kernel
  · decide +kernel
  · decide +kernel
  · decide +kernel
  · decide +kernel
  · decide +kernel
  · decide +kernel
  · decide +kernel
  · decide +kernel
  · decide +kernel
  · decide +kernel
  · decide +kernel
  · decide +kernel
  · decide +kernel
  · decide +kernel
  · decide +kernel
  · decide +kernel
  · decide +kernel
  · decide +kernel
  · decide +kernel
  · decide +kernel
  · decide +kernel
  · decide +kernel
  · decide +kernel
  · decide +kernel
  · decide +kernel
  · decide +kernel
  · decide +kernel
  · decide +kernel
  · decide +kernel
  · decide +kernel
  · decide +kernel
  · decide +kernel
  · decide +kernel
  · decide +kernel
  · decide +kernel
  · decide +kernel
  · decide +kernel
  · decide +kernel
  · decide +kernel
  · decide +kernel
  · decide +kernel
  · decide +kernel
  · decide +kernel
  · decide +kernel
  · decide +kernel
  · decide +kernel
  · decide +kernel
  · decide +kernel
  · decide +kernel
  · decide +kernel
  · decide +kernel
  · decide +kernel
  · decide +kernel
  · decide +kernel
  · decide +kernel
  · decide +kernel
  · decide +kernel
  · decide +kernel
  · decide +kernel
  · decide +kernel
  · decide +kernel
  · decide +kernel
  · decide +kernel
  · decide +kernel
  · decide +kernel
  · decide +kernel
  · decide +kernel
  · decide +kernel

/-- Concrete operands and states that meet the hypotheses of PcieEndpoint. -/
theorem test_witness_PcieEndpoint :
    (Runs up) ∧
    (BusAcc.read 1).wf = true ∧
    up.gctl.pcieUp = false ∧
    (Runs w13_45a) ∧
    w13_45a.gctl.pcieUp = true ∧
    (68719476736 < 68719476736 + (BusAcc.read 1).len) ∧
    (Runs early) ∧
    early.gctl.pcieUp = true ∧
    1 ≤ 1 ∧
    1 ≤ 4096 ∧
    (68719476735 + 1 ≤ 68719476736) ∧
    early.sec.phase ≠ BootPhase.hostWait ∧
    early.gctl.bootStage.toNat < 3 ∧
    (Runs hostw) ∧
    hostw.gctl.pcieUp = true ∧
    (4194303 + 1 ≤ 68719476736) ∧
    hostw.sec.phase = BootPhase.hostWait ∧
    (4194303 + 1 ≤ 4194304) ∧
    (Runs sB2) ∧
    sB2.gctl.pcieUp = true ∧
    1 ≤ 4 ∧
    4 ≤ 4096 ∧
    (31 + 4 ≤ 68719476736) ∧
    sB2.sec.phase ≠ BootPhase.hostWait ∧
    3 ≤ sB2.gctl.bootStage.toNat ∧
    (readBlocks 176 3 ((4 / 64 : Nat) + 2) 31 4 sB2 = ((rB2 sB2).fst, (rB2 sB2).snd)) ∧
    poisoned (List.flatMap bar2Data (rB2 sB2).fst) = false ∧
    (Runs sB3) ∧
    sB3.gctl.pcieUp = true ∧
    sB3.sec.phase ≠ BootPhase.hostWait ∧
    3 ≤ sB3.gctl.bootStage.toNat ∧
    (readBlocks 176 3 ((4 / 64 : Nat) + 2) 31 4 sB3 = ((rB2 sB3).fst, (rB2 sB3).snd)) ∧
    poisoned (List.flatMap bar2Data (rB2 sB3).fst) = true ∧
    (1 ≤ [(1 : Byte)].length) ∧
    ([(1 : Byte)].length ≤ 4096) ∧
    (0 + [(1 : Byte)].length ≤ 68719476736) ∧
    (4194303 + [(1 : Byte)].length ≤ 68719476736) ∧
    (4194303 + [(1 : Byte)].length ≤ 4194304) ∧
    (1 ≤ [(1 : Byte), (2 : Byte)].length) ∧
    ([(1 : Byte), (2 : Byte)].length ≤ 4096) ∧
    (63 + [(1 : Byte), (2 : Byte)].length ≤ 68719476736) ∧
    (writeAll 176 3 63 (clean [(1 : Byte), (2 : Byte)]) sB2 = (true, (writeAll 176 3 63 (clean [(1 : Byte), (2 : Byte)]) sB2).snd)) ∧
    (Runs dead) ∧
    dead.gctl.pcieUp = true ∧
    dead.sec.phase ≠ BootPhase.hostWait ∧
    3 ≤ dead.gctl.bootStage.toNat ∧
    (writeAll 176 3 63 (clean [(1 : Byte), (2 : Byte)]) dead = (false, (writeAll 176 3 63 (clean [(1 : Byte), (2 : Byte)]) dead).snd)) ∧
    (Runs w13_60a) ∧
    w13_60a.outReq 3 = none ∧
    3 < w13_60a.gctl.obNextTag ∧
    (Runs w13_61a) ∧
    w13_61a.outReq 3 = none ∧
    3 < w13_61a.gctl.obNextTag ∧
    up.outReq 3 = none ∧
    up.gctl.obNextTag ≤ 3 ∧
    (Runs w13_65a) ∧
    w13_65a.outReq 3 = some req2 ∧
    (req2.flitErrs = []) ∧
    (Runs w13_66a) ∧
    w13_66a.outReq 3 = some req2 ∧
    (Runs w13_67a) ∧
    w13_67a.outReq 3 = some req2 ∧
    (Runs w13_68a) ∧
    w13_68a.outReq 3 = some req2 ∧
    (Runs w13_69a) ∧
    up.pwr.lostDomains.contains ClockDomain.pcie = false ∧
    (BitVec.toNat (4 : BitVec 4) ∈ [1, 2, 4, 8]) ∧
    (1 ≤ BitVec.toNat (5 : BitVec 3)) ∧
    BitVec.toNat (5 : BitVec 3) ≤ 5 ∧
    (Runs w13_71a) ∧
    w13_71a.pwr.lostDomains.contains ClockDomain.pcie = true ∧
    (¬BitVec.toNat (3 : BitVec 4) ∈ [1, 2, 4, 8]) ∧
    ((0 : BitVec 3) = (0 : BitVec 3)) ∧
    ((6 : BitVec 3) = (0 : BitVec 3) ∨ 5 < BitVec.toNat (6 : BitVec 3)) := by
  refine ⟨?_, ?_, ?_, ?_, ?_, ?_, ?_, ?_, ?_, ?_, ?_, ?_, ?_, ?_, ?_, ?_, ?_, ?_, ?_, ?_, ?_, ?_, ?_, ?_, ?_, ?_, ?_, ?_, ?_, ?_, ?_, ?_, ?_, ?_, ?_, ?_, ?_, ?_, ?_, ?_, ?_, ?_, ?_, ?_, ?_, ?_, ?_, ?_, ?_, ?_, ?_, ?_, ?_, ?_, ?_, ?_, ?_, ?_, ?_, ?_, ?_, ?_, ?_, ?_, ?_, ?_, ?_, ?_, ?_, ?_, ?_, ?_, ?_, ?_⟩
  · decide +kernel
  · decide +kernel
  · decide +kernel
  · decide +kernel
  · decide +kernel
  · decide +kernel
  · decide +kernel
  · decide +kernel
  · decide +kernel
  · decide +kernel
  · decide +kernel
  · decide +kernel
  · decide +kernel
  · decide +kernel
  · decide +kernel
  · decide +kernel
  · decide +kernel
  · decide +kernel
  · decide +kernel
  · decide +kernel
  · decide +kernel
  · decide +kernel
  · decide +kernel
  · decide +kernel
  · decide +kernel
  · first | exact pair_of (by rfl) (by rfl) | decide +kernel
  · decide +kernel
  · decide +kernel
  · decide +kernel
  · decide +kernel
  · decide +kernel
  · first | exact pair_of (by rfl) (by rfl) | decide +kernel
  · decide +kernel
  · decide +kernel
  · decide +kernel
  · decide +kernel
  · decide +kernel
  · decide +kernel
  · decide +kernel
  · decide +kernel
  · decide +kernel
  · first | exact pair_of (by decide +kernel) (by rfl) | decide +kernel | rfl
  · decide +kernel
  · decide +kernel
  · decide +kernel
  · decide +kernel
  · first | exact pair_of (by decide +kernel) (by rfl) | decide +kernel | rfl
  · decide +kernel
  · decide +kernel
  · decide +kernel
  · decide +kernel
  · decide +kernel
  · decide +kernel
  · decide +kernel
  · decide +kernel
  · decide +kernel
  · decide +kernel
  · decide +kernel
  · decide +kernel
  · decide +kernel
  · decide +kernel
  · decide +kernel
  · decide +kernel
  · decide +kernel
  · decide +kernel
  · decide +kernel
  · decide +kernel
  · decide +kernel
  · decide +kernel
  · decide +kernel
  · decide +kernel
  · decide +kernel
  · decide +kernel
  · first | exact pair_of (by decide +kernel) (by rfl) | decide +kernel | rfl

end B13

/-! ### Witnesses: DMA, levels, clocks -/

namespace B14

def ch (n : Nat) (f : DmaRec → DmaRec) : State := State.modDma n f up
/-- A linear copy of 3 bytes from 0x4000 to 0x6000, the last of its list. -/
def ddOk : List Byte := bytesOf 32 [(0, 5, 0x4000), (5, 1, 4), (8, 5, 0x6000), (0x10, 3, 3)]
def fl0 : DmaFlight := { addr := 0x8000, desc := ddOk, claimFp := 0, claims := [] }
def fl1 : DmaFlight := { fl0 with line := 1 }
def w14_6a := ch 3 (fun c => { c with base := 0x8000 })
def w14_7a := ch 3 (fun c => { c with st := .running })
def w14_9a := ch 3 (fun c => { c with st := .halted, fault := 9 })
def w14_10a := ch 3 (fun c => { c with st := .running, flight := [fl0] })
def w14_12a := inMem 0x8000 (putAt ddOk (5, 1, 0x84)) (ch 3 (fun c => { c with st := .halted, cur := 0x8000 }))
def w14_13a := ch 31 (fun c => { c with st := .halted, fault := 0x0C06 })
def w14_14a := ch 3 (fun c => { c with owner := 1 })
def w14_15a := ch 3 (fun c => { c with owner := 1 })
def w14_16a := ch 3 (fun c => { c with owner := 1, st := .halted })
def run3 (f : DmaRec → DmaRec) (d : List Byte) : State := inMem 0x8000 d (ch 3 (fun c => f { c with st := .running, nextFetch := some 0x8000 }))
def rd3 (s : State) := busRead (dmaInit 3) 3 0x8000 32 s
def sRun := run3 id ddOk
def sRunF := run3 (fun c => { c with flight := [fl0] }) ddOk
def ddF := putAt ddOk (6, 2, 0x8000)
def sRunB := run3 id (putAt ddOk (0x10, 3, 0))
def sF := run3 (fun c => { c with flight := [fl0] }) ddF
def ddB := putAt ddOk (0x10, 3, 0)
def goD (n : Nat) (f : DmaRec → DmaRec) : State := inMem 0x4000 [7, 8, 9] (inMem 0x8000 ddOk (ch n (fun c => f { c with st := .running, flight := [fl0] })))
def w14_35a := goD 3 id
def w14_35b := (moveAll 3 (dmaDesc ddOk) 2 (goD 3 id)).2
def w14_36a := goD 15 id
def w14_37a := goD 16 id
def w14_38a := goD 20 (fun c => { c with retryAddr := some (0x4000, false), attempts := 1 })
def w14_39a := goD 20 (fun c => { c with retryAddr := some (0x4000, false), attempts := 1, flight := [fl1] })
def cPl := mkCmd 0x51 [(0x18, 1, 5), (0x19, 1, 3)]
def plUp (s : State) : State := { s with pwr := { s.pwr with quads := [(0, { forcedCal := false }), (1, { forcedCal := false }), (2, { forcedCal := false }), (3, { forcedCal := false })], rail := 0 } }
def cls0 (s : State) : State := State.modPipe 3 (fun r => { r with blob := some { blob3 [] with cls := 0 }, running := true }) s
def w14_43a := cls0 (fly cPl up)
def cPl0 := mkCmd 0x51 [(0x18, 1, 5), (0x19, 1, 0)]
def w14_45a := plUp (fly cPl0 up)
def pw (f : Pwr → Pwr) : State := { up with pwr := f up.pwr }
def w14_47a := pw (fun p => { p with pmicFailed := true })
def w14_49a := pw (fun p => { p with step := some (.rail 2 1), railWanted := 1 })
def w14_50a := pw (fun p => { p with step := some (.rail 2 1), railWanted := 1 })
def w14_51a := pw (fun p => { p with step := some (.rail 2 1), railWanted := 1, pmicFailed := true })
def w14_52a := pw (fun p => { p with step := some (.settle 2 1 0) })
def w14_53a := pw (fun p => { p with step := some (.settle 2 1 (pw id).safNow) })
def qd (f : QuadRec → QuadRec) : State := State.modQuad 2 f up
def w14_58a := qd (fun r => { r with clockStopped := true })
def w14_60a := { plUp up with pwr := { (plUp up).pwr with step := some (.lock 2 1) } }
def w14_61a := qd (fun r => { r with clockStopped := true })
def w14_62a := qd (fun r => { r with stbyLock := true })
def w14_65a := qd (fun r => { r with clockStopped := true })
def lost (d : ClockDomain) : State := pw (fun p => { p with lostDomains := [d] })
def w14_76a := State.modGroup 2 (fun r => { r with clockLost := true }) (lost (.mcg 2))
def w14_79a := State.modQuad 2 (fun r => { r with level := 0 }) (plUp up)
def w14_82a := qd (fun r => { r with forcedCal := false, thermCap := 2, coolSince := some 990000000 })
def w14_83a := qd (fun r => { r with powered := false })
def w14_84a := qd (fun r => { r with clockStopped := true })
def w14_85a := qd (fun r => { r with stretch := 0xFFFFFFFF })

/-- Concrete operands and states that meet the hypotheses of DmaChannels. -/
theorem test_witness_DmaChannels :
    (Runs w14_6a) ∧
    w14_6a.blocksUp = true ∧
    ((w14_6a.dmac ↑(3 : DmaChan)).owner ≠ (1 : BitVec 2)) ∧
    (w14_6a.dmac ↑(3 : DmaChan)).st = DmaState.idle ∧
    (Runs w14_7a) ∧
    w14_7a.blocksUp = true ∧
    ((w14_7a.dmac ↑(3 : DmaChan)).owner ≠ (1 : BitVec 2)) ∧
    (w14_7a.dmac ↑(3 : DmaChan)).st ≠ DmaState.idle ∧
    (Runs up) ∧
    up.blocksUp = true ∧
    ((up.dmac ↑(3 : DmaChan)).owner ≠ (1 : BitVec 2)) ∧
    (up.dmac ↑(3 : DmaChan)).st = DmaState.idle ∧
    (Runs w14_9a) ∧
    w14_9a.blocksUp = true ∧
    ((w14_9a.dmac ↑(3 : DmaChan)).owner ≠ (1 : BitVec 2)) ∧
    (w14_9a.dmac ↑(3 : DmaChan)).st = DmaState.halted ∧
    (Runs w14_10a) ∧
    w14_10a.blocksUp = true ∧
    ((w14_10a.dmac ↑(3 : DmaChan)).owner ≠ (1 : BitVec 2)) ∧
    (w14_10a.dmac ↑(3 : DmaChan)).st = DmaState.running ∧
    (up.dmac ↑(3 : DmaChan)).st ≠ DmaState.halted ∧
    (Runs w14_12a) ∧
    w14_12a.blocksUp = true ∧
    ((w14_12a.dmac ↑(3 : DmaChan)).owner ≠ (1 : BitVec 2)) ∧
    (w14_12a.dmac ↑(3 : DmaChan)).st = DmaState.halted ∧
    ↑(3 : DmaChan) < 28 ∧
    (Runs w14_13a) ∧
    w14_13a.blocksUp = true ∧
    ((w14_13a.dmac ↑(31 : DmaChan)).owner ≠ (1 : BitVec 2)) ∧
    (w14_13a.dmac ↑(31 : DmaChan)).st = DmaState.halted ∧
    (28 ≤ ↑(31 : DmaChan)) ∧
    (Runs w14_14a) ∧
    ((w14_14a.dmac ↑(3 : DmaChan)).owner = (1 : BitVec 2)) ∧
    (Runs w14_15a) ∧
    ((w14_15a.dmac ↑(3 : DmaChan)).owner = (1 : BitVec 2)) ∧
    (Runs w14_16a) ∧
    ((w14_16a.dmac ↑(3 : DmaChan)).owner = (1 : BitVec 2)) ∧
    (up.dmac ↑(3 : DmaChan)).nextFetch = none ∧
    (Runs sRun) ∧
    (sRun.dmac ↑(3 : DmaChan)).nextFetch = some 32768 ∧
    (sRun.dmac ↑(3 : DmaChan)).st = DmaState.running ∧
    (sRun.dmac ↑(3 : DmaChan)).flight.length < 2 ∧
    sRun.dmaRuns = true ∧
    (32768 + 32 ≤ 68719476736) ∧
    (busRead (dmaInit ↑(3 : DmaChan)) (sRun.dmac ↑(3 : DmaChan)).cls.toNat 32768 32 sRun = (some ((rd3 sRun).fst.getD []), (rd3 sRun).snd)) ∧
    (poisoned ((rd3 sRun).fst.getD []) = false) ∧
    ((dmaDesc (plain ((rd3 sRun).fst.getD []))).ok = true) ∧
    ((sRun.dmac ↑(3 : DmaChan)).flight = []) ∧
    (Runs sRunF) ∧
    (sRunF.dmac ↑(3 : DmaChan)).nextFetch = some 32768 ∧
    (sRunF.dmac ↑(3 : DmaChan)).st = DmaState.running ∧
    (sRunF.dmac ↑(3 : DmaChan)).flight.length < 2 ∧
    sRunF.dmaRuns = true ∧
    (busRead (dmaInit ↑(3 : DmaChan)) (sRunF.dmac ↑(3 : DmaChan)).cls.toNat 32768 32 sRunF = (some ((rd3 sRunF).fst.getD []), (rd3 sRunF).snd)) ∧
    (poisoned ((rd3 sRunF).fst.getD []) = false) ∧
    ((dmaDesc (plain ((rd3 sRunF).fst.getD []))).ok = true) ∧
    ((dmaDesc (plain ((rd3 sRunF).fst.getD []))).fence = false) ∧
    (Runs sF) ∧
    (sF.dmac ↑(3 : DmaChan)).nextFetch = some 32768 ∧
    (sF.dmac ↑(3 : DmaChan)).st = DmaState.running ∧
    (sF.dmac ↑(3 : DmaChan)).flight.length < 2 ∧
    sF.dmaRuns = true ∧
    (busRead (dmaInit ↑(3 : DmaChan)) (sF.dmac ↑(3 : DmaChan)).cls.toNat 32768 32 sF = (some ((rd3 sF).fst.getD []), (rd3 sF).snd)) ∧
    (poisoned ((rd3 sF).fst.getD []) = false) ∧
    ((dmaDesc (plain ((rd3 sF).fst.getD []))).ok = true) ∧
    ((dmaDesc (plain ((rd3 sF).fst.getD []))).fence = true) ∧
    ((sF.dmac ↑(3 : DmaChan)).flight ≠ []) ∧
    (Runs sRunB) ∧
    (sRunB.dmac ↑(3 : DmaChan)).nextFetch = some 32768 ∧
    (sRunB.dmac ↑(3 : DmaChan)).st = DmaState.running ∧
    (sRunB.dmac ↑(3 : DmaChan)).flight.length < 2 ∧
    sRunB.dmaRuns = true ∧
    (busRead (dmaInit ↑(3 : DmaChan)) (sRunB.dmac ↑(3 : DmaChan)).cls.toNat 32768 32 sRunB = (some ((rd3 sRunB).fst.getD []), (rd3 sRunB).snd)) ∧
    (poisoned ((rd3 sRunB).fst.getD []) = false) ∧
    ((dmaDesc (plain ((rd3 sRunB).fst.getD []))).ok = false) ∧
    ((sRunB.dmac ↑(3 : DmaChan)).flight = []) ∧
    (∀ (p : Pipe), ((rd3 sRunB).snd.pipe ↑p).dmaWanted.contains ↑(3 : DmaChan) = false) ∧
    ((up.dmac ↑(3 : DmaChan)).flight = []) ∧
    ((1099511627775 : Addr) < (2 : Addr) ^ 40) ∧
    (Runs w14_35a) ∧
    ((w14_35a.dmac ↑(3 : DmaChan)).flight = [fl0]) ∧
    (w14_35a.dmac ↑(3 : DmaChan)).st = DmaState.running ∧
    (w14_35a.dmac ↑(3 : DmaChan)).retryAddr = none ∧
    (moveAll (↑(3 : DmaChan)) (dmaDesc fl0.desc) ((dmaDesc fl0.desc).lines * ((dmaDesc fl0.desc).len / 64 + 2)) w14_35a = (DmaEnd.done, w14_35b)) ∧
    (Runs w14_36a) ∧
    ((w14_36a.dmac ↑(15 : DmaChan)).flight = [fl0]) ∧
    (w14_36a.dmac ↑(15 : DmaChan)).st = DmaState.running ∧
    (w14_36a.dmac ↑(15 : DmaChan)).retryAddr = none ∧
    ((16384 : Addr) < (2 : Addr) ^ 40) ∧
    ↑(15 : DmaChan) < 16 ∧
    (Runs w14_37a) ∧
    ((w14_37a.dmac ↑(16 : DmaChan)).flight = [fl0]) ∧
    (w14_37a.dmac ↑(16 : DmaChan)).st = DmaState.running ∧
    (w14_37a.dmac ↑(16 : DmaChan)).retryAddr = none ∧
    (16 ≤ ↑(16 : DmaChan)) ∧
    ((w14_37a.dmac ↑(16 : DmaChan)).attempts < (w14_37a.dmac ↑(16 : DmaChan)).retries) ∧
    (Runs w14_38a) ∧
    ((w14_38a.dmac ↑(20 : DmaChan)).flight = [fl0]) ∧
    (w14_38a.dmac ↑(20 : DmaChan)).st = DmaState.running ∧
    ((w14_38a.dmac ↑(20 : DmaChan)).retryAddr = some (16384, false)) ∧
    ((w14_38a.dmac ↑(20 : DmaChan)).attempts < (w14_38a.dmac ↑(20 : DmaChan)).retries) ∧
    (Runs w14_39a) ∧
    ((w14_39a.dmac ↑(20 : DmaChan)).flight = [fl1]) ∧
    (w14_39a.dmac ↑(20 : DmaChan)).st = DmaState.running ∧
    ((w14_39a.dmac ↑(20 : DmaChan)).retryAddr = some (16384, false)) ∧
    (dmaDesc fl1.desc).lines ≤ fl1.line := by
  refine ⟨?_, ?_, ?_, ?_, ?_, ?_, ?_, ?_, ?_, ?_, ?_, ?_, ?_, ?_, ?_, ?_, ?_, ?_, ?_, ?_, ?_, ?_, ?_, ?_, ?_, ?_, ?_, ?_, ?_, ?_, ?_, ?_, ?_, ?_, ?_, ?_, ?_, ?_, ?_, ?_, ?_, ?_, ?_, ?_, ?_, ?_, ?_, ?_, ?_, ?_, ?_, ?_, ?_, ?_, ?_, ?_, ?_, ?_, ?_, ?_, ?_, ?_, ?_, ?_, ?_, ?_, ?_, ?_, ?_, ?_, ?_, ?_, ?_, ?_, ?_, ?_, ?_, ?_, ?_, ?_, ?_, ?_, ?_, ?_, ?_, ?_, ?_, ?_, ?_, ?_, ?_, ?_, ?_, ?_, ?_, ?_, ?_, ?_, ?_, ?_, ?_, ?_, ?_, ?_, ?_, ?_⟩
  · decide +kernel
  · decide +kernel
  · decide +kernel
  · decide +kernel
  · decide +kernel
  · decide +kernel
  · decide +kernel
  · decide +kernel
  · decide +kernel
  · decide +kernel
  · decide +kernel
  · decide +kernel
  · decide +kernel
  · decide +kernel
  · decide +kernel
  · decide +kernel
  · decide +kernel
  · decide +kernel
  · decide +kernel
  · decide +kernel
  · decide +kernel
  · decide +kernel
  · decide +kernel
  · decide +kernel
  · decide +kernel
  · decide +kernel
  · decide +kernel
  · decide +kernel
  · decide +kernel
  · decide +kernel
  · decide +kernel
  · decide +kernel
  · decide +kernel
  · decide +kernel
  · decide +kernel
  · decide +kernel
  · decide +kernel
  · decide +kernel
  · decide +kernel
  · decide +kernel
  · decide +kernel
  · decide +kernel
  · decide +kernel
  · decide +kernel
  · first | exact pair_of (by decide +kernel) (by rfl) | decide +kernel | rfl
  · decide +kernel
  · decide +kernel
  · decide +kernel
  · decide +kernel
  · decide +kernel
  · decide +kernel
  · decide +kernel
  · decide +kernel
  · first | exact pair_of (by decide +kernel) (by rfl) | decide +kernel | rfl
  · decide +kernel
  · decide +kernel
  · decide +kernel
  · decide +kernel
  · decide +kernel
  · decide +kernel
  · decide +kernel
  · decide +kernel
  · first | exact pair_of (by decide +kernel) (by rfl) | decide +kernel | rfl
  · decide +kernel
  · decide +kernel
  · decide +kernel
  · decide +kernel
  · decide +kernel
  · decide +kernel
  · decide +kernel
  · decide +kernel
  · decide +kernel
  · first | exact pair_of (by decide +kernel) (by rfl) | decide +kernel | rfl
  · decide +kernel
  · decide +kernel
  · decide +kernel
  · first | decide +kernel | rfl | (intros; decide +kernel) | (intros; rfl) | (intro n sh e; cases e)
  · decide +kernel
  · decide +kernel
  · decide +kernel
  · decide +kernel
  · decide +kernel
  · decide +kernel
  · first | exact pair_of (by decide +kernel) (by rfl) | decide +kernel | rfl
  · decide +kernel
  · decide +kernel
  · decide +kernel
  · decide +kernel
  · decide +kernel
  · decide +kernel
  · decide +kernel
  · decide +kernel
  · decide +kernel
  · decide +kernel
  · decide +kernel
  · decide +kernel
  · decide +kernel
  · decide +kernel
  · decide +kernel
  · decide +kernel
  · decide +kernel
  · decide +kernel
  · decide +kernel
  · decide +kernel
  · decide +kernel
  · decide +kernel

/-- Concrete operands and states that meet the hypotheses of PerformanceLevels. -/
theorem test_witness_PerformanceLevels :
    (Runs w14_43a) ∧
    (CmdStarts w14_43a 81 1 cPl) ∧
    w14_43a.sched.c0Floor.toNat < cPl.fld 25 1 ∧
    (w14_43a.class0Pipes ≠ []) ∧
    (Runs w14_45a) ∧
    (CmdStarts w14_45a 81 1 cPl0) ∧
    cPl0.fld 25 1 ≤ w14_45a.sched.c0Floor.toNat ∧
    (RunsSaf w14_47a) ∧
    w14_47a.pwr.pmicFailed = true ∧
    (RunsSaf up) ∧
    up.pwr.pmicFailed = false ∧
    (RunsSaf w14_49a) ∧
    (w14_49a.pwr.step = some (LevelStep.rail 2 1)) ∧
    w14_49a.pwr.pmicFailed = false ∧
    (RunsSaf w14_50a) ∧
    (w14_50a.pwr.step = some (LevelStep.rail 2 1)) ∧
    w14_50a.pwr.pmicFailed = false ∧
    (RunsSaf w14_51a) ∧
    (w14_51a.pwr.step = some (LevelStep.rail 2 1)) ∧
    w14_51a.pwr.pmicFailed = true ∧
    (RunsSaf w14_52a) ∧
    (w14_52a.pwr.step = some (LevelStep.settle 2 1 0)) ∧
    (0 + 10000 * max 1 (BitVec.toNat w14_52a.pwr.settle) ≤ w14_52a.safNow) ∧
    (RunsSaf w14_53a) ∧
    (w14_53a.pwr.step = some (LevelStep.settle 2 1 (pw id).safNow)) ∧
    (w14_53a.safNow < (pw id).safNow + 10000 * max 1 (BitVec.toNat w14_53a.pwr.settle)) ∧
    up.pwr.step = none ∧
    (Runs up) ∧
    (false = (up.quad ↑(2 : Quad)).pll) ∧
    (Runs w14_58a) ∧
    (w14_58a.quad ↑(2 : Quad)).clockStopped = true ∧
    (up.quad ↑(2 : Quad)).clockStopped = false ∧
    (Runs w14_60a) ∧
    (w14_60a.quad ↑(2 : Quad)).clockStopped = false ∧
    (w14_60a.pwr.step = some (LevelStep.lock ↑(2 : Quad) 1)) ∧
    (Runs w14_61a) ∧
    (w14_61a.quad ↑(2 : Quad)).clockStopped = true ∧
    (Runs w14_62a) ∧
    (w14_62a.quad ↑(2 : Quad)).clockStopped = false ∧
    (w14_62a.quad ↑(2 : Quad)).stbyLock = true ∧
    (up.quad ↑(2 : Quad)).stbyLock = false ∧
    (Runs w14_65a) ∧
    (w14_65a.quad ↑(2 : Quad)).clockStopped = true := by
  and_intros <;> decide +kernel

/-- Concrete operands and states that meet the hypotheses of ClocksThermalDroop. -/
theorem test_witness_ClocksThermalDroop :
    (RunsSaf up) ∧
    silentDomain (ClockDomain.csig (2 : Fin 4)) = true ∧
    (RunsSaf (lost ClockDomain.noc)) ∧
    (lost ClockDomain.noc).pwr.lostDomains.contains ClockDomain.noc = true ∧
    up.pwr.lostDomains.contains ClockDomain.noc = false ∧
    up.pwr.lostDomains.contains ClockDomain.loop = false ∧
    (ClockDomain.loop ∈ [ClockDomain.noc, ClockDomain.loop, ClockDomain.prep]) ∧
    up.pwr.lostDomains.contains ClockDomain.can = false ∧
    ClockDomain.can = ClockDomain.can ∧
    up.pwr.lostDomains.contains ClockDomain.time = false ∧
    ClockDomain.time = ClockDomain.time ∧
    up.pwr.lostDomains.contains (ClockDomain.mcg (2 : Group)) = false ∧
    (ClockDomain.mcg (2 : Group) = ClockDomain.mcg (2 : Group)) ∧
    up.pwr.lostDomains.contains ClockDomain.saf = false ∧
    ClockDomain.saf = ClockDomain.saf ∧
    (RunsSaf (lost ClockDomain.prep)) ∧
    (lost ClockDomain.prep).pwr.lostDomains.contains ClockDomain.prep = true ∧
    (∀ (g : Group), ClockDomain.prep ≠ ClockDomain.mcg g) ∧
    (RunsSaf w14_76a) ∧
    w14_76a.pwr.lostDomains.contains (ClockDomain.mcg (2 : Group)) = true ∧
    ((w14_76a.group ↑(2 : Group)).held = []) ∧
    (Runs up) ∧
    (BitVec.toInt (919 : BitVec 16) < (8 : Int) * ↑(BitVec.toNat up.pwr.throttle)) ∧
    (3 ≤ (up.quad ↑(2 : Quad)).want) ∧
    (Runs w14_79a) ∧
    ((8 : Int) * ↑(BitVec.toNat w14_79a.pwr.throttle) ≤ BitVec.toInt (920 : BitVec 16)) ∧
    (w14_79a.quad ↑(2 : Quad)).want < 3 ∧
    ((8 : Int) * (↑(BitVec.toNat up.pwr.throttle) - ↑(BitVec.toNat up.pwr.hyst)) ≤ BitVec.toInt (880 : BitVec 16)) ∧
    (up.quad ↑(2 : Quad)).thermCap = 0 ∧
    (Runs w14_82a) ∧
    (BitVec.toInt (879 : BitVec 16) < (8 : Int) * (↑(BitVec.toNat w14_82a.pwr.throttle) - ↑(BitVec.toNat w14_82a.pwr.hyst))) ∧
    ((w14_82a.quad ↑(2 : Quad)).coolSince = some (990000000 : Word64)) ∧
    (w14_82a.quad ↑(2 : Quad)).thermCap ≠ 0 ∧
    (BitVec.toNat (990000000 : Word64) + 10000000 ≤ BitVec.toNat w14_82a.gctl.time) ∧
    (Runs w14_83a) ∧
    (7 < 2 ^ 32) ∧
    (w14_83a.quad ↑(2 : Quad)).powered = false ∧
    (Runs w14_84a) ∧
    (w14_84a.quad ↑(2 : Quad)).clockStopped = true ∧
    (Runs w14_85a) ∧
    (w14_85a.quad ↑(2 : Quad)).powered = true ∧
    (w14_85a.quad ↑(2 : Quad)).clockStopped = false := by
  refine ⟨?_, ?_, ?_, ?_, ?_, ?_, ?_, ?_, ?_, ?_, ?_, ?_, ?_, ?_, ?_, ?_, ?_, ?_, ?_, ?_, ?_, ?_, ?_, ?_, ?_, ?_, ?_, ?_, ?_, ?_, ?_, ?_, ?_, ?_, ?_, ?_, ?_, ?_, ?_, ?_, ?_, ?_⟩
  · decide +kernel
  · decide +kernel
  · decide +kernel
  · decide +kernel
  · decide +kernel
  · decide +kernel
  · decide +kernel
  · decide +kernel
  · decide +kernel
  · decide +kernel
  · decide +kernel
  · decide +kernel
  · decide +kernel
  · decide +kernel
  · decide +kernel
  · decide +kernel
  · decide +kernel
  · first | decide +kernel | rfl | (intros; decide +kernel) | (intros; rfl) | (intro n sh e; cases e)
  · decide +kernel
  · decide +kernel
  · decide +kernel
  · decide +kernel
  · decide +kernel
  · decide +kernel
  · decide +kernel
  · decide +kernel
  · decide +kernel
  · decide +kernel
  · decide +kernel
  · decide +kernel
  · decide +kernel
  · decide +kernel
  · decide +kernel
  · decide +kernel
  · decide +kernel
  · decide +kernel
  · decide +kernel
  · decide +kernel
  · decide +kernel
  · decide +kernel
  · decide +kernel
  · decide +kernel

end B14

/-! ### Witnesses: sleep, boot, fuses -/

namespace B15

/-- What a loop makes true of each index in turn holds of all of them after it. -/
theorem forUpTo_all {σ : Type} (f : Nat → σ → σ) (I Q : Nat → σ → Prop) (hI : ∀ i s, I i s → I (i + 1) (f i s))
    (h1 : ∀ i s, I i s → Q i (f i s)) (h2 : ∀ i j s, j < i → Q j s → Q j (f i s)) (s : σ) (h : I 0 s) :
    ∀ n, I n (forUpTo n f s) ∧ ∀ j < n, Q j (forUpTo n f s)
  | 0 => ⟨h, fun j hj => absurd hj (Nat.not_lt_zero j)⟩
  | n + 1 => by
    obtain ⟨a, b⟩ := forUpTo_all f I Q hI h1 h2 s h n
    have e : forUpTo (n + 1) f s = f n (forUpTo n f s) := by unfold forUpTo; rw [List.range_succ, List.foldl_append]; rfl
    rw [e]
    refine ⟨hI n _ a, fun j hj => ?_⟩
    by_cases hn : j = n
    · exact hn ▸ h1 n _ a
    · exact h2 n j _ (by omega) (b j (by omega))

/-- With every bank ON and nothing held, the fences of a sleep entry end at once and every bank is in RET (R150, R565). -/
theorem fenced_down (s : State) (h : ∀ f b, (s.frond f).bank b = {}) : (fenceAll s).banksDown = true := by
  have one : ∀ (now : Word64) (r : FrondRec), (∀ b, r.bank b = {}) → ∀ b < 32,
      ((forUpTo 32 (fun b x => x.modBank b (fenceBank now)) r).bank b).serves = false := by
    intro now r hr
    refine (forUpTo_all _ (fun i x => ∀ c, i ≤ c → x.bank c = {}) (fun i x => (x.bank i).serves = false) ?_ ?_ ?_ r (fun c _ => hr c) 32).2
    · intro i x hx c hc
      have hne : c ≠ i := by omega
      simpa [FrondRec.modBank, FrondRec.bank, tget_tset_ne _ _ _ _ _ hne] using hx c (by omega)
    · intro i x hx
      have h0 := hx i (Nat.le_refl i)
      simp only [FrondRec.modBank, FrondRec.bank, tget_tset_self]
      rw [show tget {} x.banks i = {} from h0]
      rfl
    · intro i j x hj hx
      have hne : j ≠ i := by omega
      simpa [FrondRec.modBank, FrondRec.bank, tget_tset_ne _ _ _ _ _ hne] using hx
  have all := (forUpTo_all (fun f t => State.modFrond f (fun r => forUpTo 32 (fun b x => x.modBank b (fenceBank t.gctl.time)) r) t)
    (fun i t => ∀ g, i ≤ g → ∀ b, (t.frond g).bank b = {}) (fun i t => ∀ b < 32, ((t.frond i).bank b).serves = false) ?_ ?_ ?_ s
    (fun g _ b => h g b) 144).2
  · simp only [State.banksDown, List.all_eq_true, List.mem_range, Bool.not_eq_true']
    exact all
  · intro i t ht g hg b
    have hne : g ≠ i := by omega
    simpa [State.modFrond, State.frond, tget_tset_ne _ _ _ _ _ hne] using ht g (by omega) b
  · intro i t ht b hb
    simpa [State.modFrond, State.frond] using one t.gctl.time (t.frond i) (ht i (Nat.le_refl i)) b hb
  · intro i j t hj ht b hb
    have hne : j ≠ i := by omega
    simpa [State.modFrond, State.frond, tget_tset_ne _ _ _ _ _ hne] using ht b hb
def enter2 : State := { up with pwr := { up.pwr with phase := .entering, sleepTo := 2 } }
theorem enter2_down : (fenceAll enter2).banksDown = true := fenced_down _ (by intros; rfl)
def cSl := mkCmd 0x50 [(0x18, 1, 2)]
def w15_48a := fly cSl up
def w15_49a := State.modPipe 3 (fun r => { r with running := true }) (fly cSl up)
def w15_50a := fly cSl up
def pz (f : Pwr → Pwr) : State := { up with pwr := f up.pwr }
def w15_53a := State.modSlot 7 1 (fun r => { r with aborting := true }) (pz (fun p => { p with phase := .entering, sleepTo := 1 }))
def w15_54a := pz (fun p => { p with phase := .entering, sleepTo := 1 })
def slp (n : BitVec 3) (f : Pwr → Pwr) : State := pz (fun p => f { p with sleep := n })
def w15_58a := slp 4 id
def w15_59a := slp 4 id
def w15_60a := slp 4 (fun p => { p with wakeNEn := false })
def w15_61a := slp 3 (fun p => { p with wakeTimerEn := true, wakeTimer := 32768, aonNs := 1000000000 })
def w15_62a := slp 3 (fun p => { p with wakeTimerEn := true, wakeTimer := 32768, aonNs := 999999998 })
def w15_63a := pz (fun p => { p with phase := .entering, sleepTo := 2 })
def w15_64a := slp 1 (fun p => { p with phase := .waking })
def w15_65a := slp 4 (fun p => { p with phase := .waking })
def w15_66a := pz (fun p => { p with holdSoc := true, holdSaf := true })
def w15_67a := pz (fun p => { p with holdSoc := true, holdSaf := true })
def w15_68a := (fun s : State => { s with gctl := { s.gctl with bootStage := 1 } }) (pz (fun p => { p with holdSoc := true }))
def both (p q : Bool) : State := { up with pins := { up.pins with porstN := p, sysrstN := q }, island := { up.island with silent := true, mode := .silent } }
def sc (f : Sec → Sec) : State := { up with sec := f up.sec }
def w15_85a := sc (fun c => { c with phase := .hostWait })
/-- A firmware image of 1,024 bytes whose MOSS section is a class-0 model, signed under the identity key. -/
def mossImg : List Byte := bytesOf 448 [(0, 4, 0x4C444F4D), (4, 2, 1), (6, 2, 1), (8, 4, 448), (0xC, 2, 1), (0xE, 2, 1024), (0x10, 4, 1), (0x20, 4, 128), (0x24, 4, 192),
  (138, 2, 1), (196, 4, 1), (200, 4, 256), (204, 1, 0xFF), (256, 1, 0x0C), (258, 2, 4), (320, 1, 1)]
def fwImg : List Byte := bytesOf 320 [(0, 4, 0x5746534B), (4, 2, 1), (8, 4, 1024), (0x14, 4, 320), (0x1C, 4, 320), (0x24, 4, 320), (0x28, 4, 448), (0x2C, 4, 768), (0x40, 1, 1)] ++
  mossImg ++ bytesOf 128 [(0, 1, 1), (114, 1, 0xFF)] ++ List.replicate 128 0
def keyed0 (s : State) : State := { s with sec := { s.sec with malsureKey := 1 :: List.replicate 56 0 } }
/-- The image passes every check of a part with that key and no fuse blown. -/
theorem image_good (s : State) (hk : s.sec.malsureKey = 1 :: List.replicate 56 0) (hf : s.sec.sensed = []) : s.checkImage fwImg = none := by
  have h0 : fwHeaderOk fwImg = true := by decide +kernel
  have h1 : vendorOk (1 :: List.replicate 56 0) fwImg = true := by
    have e : (sigSlot (slice fwImg (field fwImg 0x2C 4) 128) = 0xFF) = True := by decide +kernel
    unfold vendorOk
    simp only [e, decide_true, Bool.true_and]
    exact ed_neutral _ _ (by decide +kernel)
  have h2 : edVerify (1 :: List.replicate 56 0) (mossImg.take (mossImg.length - 128)) (sigOf (mossImg.drop (mossImg.length - 128))) = true :=
    ed_neutral _ _ (by decide +kernel)
  have h3 : fwSection fwImg 2 = mossImg := by decide +kernel
  have h4 : (imgHeaderOk mossImg && imgC0 mossImg && imgRulesOk mossImg) = true := by decide +kernel
  have h5 : carriedKey fwImg (sigSlot (mossImg.drop (mossImg.length - 128))) = some (1 :: List.replicate 56 0) := by decide +kernel
  have h6 : decide (4 ≤ sigSlot (mossImg.drop (mossImg.length - 128))) = false := by decide +kernel
  have fz : ∀ w, s.fuse w = 0 := fun w => by simp [State.fuse, hf, tget]
  have fu : ∀ i, s.slotFused i = false := fun i => by simp [State.slotFused, fz]
  have hu : s.unprovisioned = true := by simp [State.unprovisioned, fu]
  have hb : s.badSlot fwImg = none := by simp [State.badSlot, fu]
  have hr : s.rollbackCount = 0 := by simp [State.rollbackCount, fz, bit, List.range_succ_eq_map]
  have hm : s.modelSigned fwImg mossImg = true := by
    unfold State.modelSigned State.acceptedKeyOf
    simp only [h6, hu, h5, h2, if_true, Bool.false_eq_true, if_false]
  simp only [Bool.and_eq_true] at h4
  unfold State.checkImage
  simp only [h0, hk, h1, hb, hu, hr, h3, h4, hm, Bool.not_true, Bool.false_eq_true, if_false, Nat.not_lt_zero, Bool.and_self,
    Bool.false_and, if_true]
def sPush : State := { keyed0 (sc (fun c => { c with phase := .hostWait, staging := twriteN 0 [] 0 fwImg })) with gctl := { up.gctl with bootStage := 0, ready := false } }
theorem push_good : sPush.checkImage (treadN 0 sPush.sec.staging 0 (1024 : Word32).toNat) = none := by
  have h : treadN 0 sPush.sec.staging 0 (1024 : Word32).toNat = fwImg :=
    (congrArg (treadN 0 sPush.sec.staging 0) (by decide +kernel : (1024 : Word32).toNat = fwImg.length)).trans (treadN_twriteN 0 fwImg [] 0)
  rw [h]
  exact image_good _ rfl rfl
def w15_126a := sc (fun c => { c with source := 2 })
def w15_127a := sc (fun c => { c with source := 2, phase := .loading })
def w15_128a := keyed0 { sc (fun c => { c with source := 2, phase := .loading }) with twin := { up.twin with link := .up } }
def w15_129a := { sc (fun c => { c with flash := fwImg }) with twin := { up.twin with link := .up } }
def at_ (n : BitVec 3) : State := { up with gctl := { up.gctl with bootStage := n, ready := false } }
def at3 (r : Nat) (c : Bool) : State := { at_ 3 with pwr := { (at_ 3).pwr with rail := r, calDone := c } }
def cFw := mkCmd 0x61 [(0x18, 4, 1024), (0x20, 8, 0x8000)]
def w15_141a := { fly cFw up with sec := { up.sec with flashWrite := .inProgress } }
def sFw (d : List Byte) := inMem 0x8000 d (keyed0 (fly cFw up))
def rFw (s : State) := readImage 29 0x8000 1024 (taken s)
theorem rfw (s : State) (h : s.cmd 1 = some cFw) :
    readImage 29 (cFw.fld 0x20 8) (cFw.fld 0x18 4) (takeCmd cFw s) = ((rFw s).1, (rFw s).2) := by
  have h1 : cFw.fld 0x20 8 = 0x8000 := by decide +kernel
  have h2 : cFw.fld 0x18 4 = 1024 := by decide +kernel
  simp only [rFw, taken, h, h1, h2]
def sFwL : State := { sFw [] with mem := { (sFw []).mem with chmap := [(lchOf 0x8000, { lost := true })] } }
def sFwG := sFw fwImg
theorem fw_key : (rFw sFwG).2.sec.malsureKey = 1 :: List.replicate 56 0 := by decide +kernel
theorem fw_fuses : (rFw sFwG).2.sec.fuses = [] := by decide +kernel
theorem fw_good : (rFw sFwG).2.withCurrentFuses.checkImage fwImg = none := image_good _ fw_key fw_fuses
def cFu := mkCmd 0x62 [(0x18, 2, 0x10A), (0x20, 8, 0xF0)]
def w15_158a := fly cFu up
def cFv := mkCmd 0x62 [(0x18, 2, 0x102), (0x20, 8, 0xF0)]
def w15_160a := { fly cFv up with sec := { up.sec with fuses := [(0x102, 1)] } }
def cAt := mkCmd 0x60 [(8, 8, 0x4000), (0x10, 4, 528)]
def w15_162a := fly cAt up
def w15_164a := sc (fun c => { c with flashWrite := .inProgress, flashImage := fwImg })
def w15_165a := sc (fun c => { c with flashWrite := .inProgress, flashImage := fwImg, flash := [1] })
def w15_166a := State.modPipe 3 (fun r => { r with running := true }) up
def sUn : State := keyed0 (sc (fun c => { c with token := [(0, 1)] }))
theorem un_token : edVerify sUn.sec.malsureKey sUn.unlockMessage sUn.unlockToken = true := ed_neutral _ _ (by decide +kernel)

/-- Concrete operands and states that meet the hypotheses of SleepStates. -/
theorem test_witness_SleepStates :
    (Runs w15_48a) ∧
    (CmdStarts w15_48a 80 1 cSl) ∧
    true = true ∧
    (Runs w15_49a) ∧
    (CmdStarts w15_49a 80 1 cSl) ∧
    (w15_49a.runningPipes ≠ []) ∧
    (Runs w15_50a) ∧
    (CmdStarts w15_50a 80 1 cSl) ∧
    false = false ∧
    (w15_50a.runningPipes = []) ∧
    (w15_50a.sched.runs = []) ∧
    (RunsSaf up) ∧
    up.pwr.phase ≠ SleepPhase.entering ∧
    (RunsSaf w15_53a) ∧
    w15_53a.quiesced = false ∧
    (RunsSaf w15_54a) ∧
    w15_54a.pwr.phase = SleepPhase.entering ∧
    w15_54a.quiesced = true ∧
    (w15_54a.pwr.sleepTo = (1 : BitVec 3)) ∧
    w15_54a.pwr.sleepCmd = none ∧
    (RunsSaf enter2) ∧
    enter2.pwr.phase = SleepPhase.entering ∧
    enter2.quiesced = true ∧
    (enter2.pwr.sleepTo = (2 : BitVec 3)) ∧
    enter2.pwr.sleepCmd = none ∧
    (fenceAll enter2).banksDown = true ∧
    (RunsAon up) ∧
    up.pwr.phase = SleepPhase.steady ∧
    (up.pwr.sleep = (0 : BitVec 3)) ∧
    (RunsAon w15_58a) ∧
    w15_58a.pwr.phase = SleepPhase.steady ∧
    (w15_58a.pwr.sleep ≠ (0 : BitVec 3)) ∧
    (RunsAon w15_59a) ∧
    w15_59a.pwr.phase = SleepPhase.steady ∧
    (w15_59a.pwr.sleep ≠ (0 : BitVec 3)) ∧
    w15_59a.pwr.wakeNEn = true ∧
    (RunsAon w15_60a) ∧
    w15_60a.pwr.phase = SleepPhase.steady ∧
    (w15_60a.pwr.sleep ≠ (0 : BitVec 3)) ∧
    w15_60a.pwr.wakeNEn = false ∧
    (RunsAon w15_61a) ∧
    w15_61a.pwr.phase = SleepPhase.steady ∧
    (w15_61a.pwr.sleep ≠ (0 : BitVec 3)) ∧
    w15_61a.pwr.wakeTimerEn = true ∧
    (w15_61a.pwr.wakeTimer ≠ (0 : Word32)) ∧
    BitVec.toNat w15_61a.pwr.wakeTimer ≤ w15_61a.pwr.aonTicks ∧
    (RunsAon w15_62a) ∧
    w15_62a.pwr.phase = SleepPhase.steady ∧
    (w15_62a.pwr.sleep ≠ (0 : BitVec 3)) ∧
    w15_62a.pwr.aonTicks < BitVec.toNat w15_62a.pwr.wakeTimer ∧
    (RunsAon w15_63a) ∧
    w15_63a.pwr.phase = SleepPhase.entering ∧
    (w15_63a.pwr.sleepTo ≠ (0 : BitVec 3)) ∧
    (RunsAon w15_64a) ∧
    w15_64a.pwr.phase = SleepPhase.waking ∧
    (w15_64a.pwr.sleep = (1 : BitVec 3)) ∧
    (RunsAon w15_65a) ∧
    w15_65a.pwr.phase = SleepPhase.waking ∧
    (w15_65a.pwr.sleep = (4 : BitVec 3)) ∧
    (RunsSaf w15_66a) ∧
    ((192 : Initiator) = (192 : Initiator)) ∧
    (RunsSaf w15_67a) ∧
    w15_67a.barUp = true ∧
    (RunsSaf w15_68a) ∧
    ((176 : Initiator) ≠ (192 : Initiator)) ∧
    w15_68a.barUp = false := by
  refine ⟨?_, ?_, ?_, ?_, ?_, ?_, ?_, ?_, ?_, ?_, ?_, ?_, ?_, ?_, ?_, ?_, ?_, ?_, ?_, ?_, ?_, ?_, ?_, ?_, ?_, ?_, ?_, ?_, ?_, ?_, ?_, ?_, ?_, ?_, ?_, ?_, ?_, ?_, ?_, ?_, ?_, ?_, ?_, ?_, ?_, ?_, ?_, ?_, ?_, ?_, ?_, ?_, ?_, ?_, ?_, ?_, ?_, ?_, ?_, ?_, ?_, ?_, ?_, ?_, ?_, ?_⟩
  · decide +kernel
  · decide +kernel
  · decide +kernel
  · decide +kernel
  · decide +kernel
  · decide +kernel
  · decide +kernel
  · decide +kernel
  · decide +kernel
  · decide +kernel
  · decide +kernel
  · decide +kernel
  · decide +kernel
  · decide +kernel
  · decide +kernel
  · decide +kernel
  · decide +kernel
  · decide +kernel
  · decide +kernel
  · decide +kernel
  · decide +kernel
  · decide +kernel
  · decide +kernel
  · decide +kernel
  · decide +kernel
  · exact enter2_down
  · decide +kernel
  · decide +kernel
  · decide +kernel
  · decide +kernel
  · decide +kernel
  · decide +kernel
  · decide +kernel
  · decide +kernel
  · decide +kernel
  · decide +kernel
  · decide +kernel
  · decide +kernel
  · decide +kernel
  · decide +kernel
  · decide +kernel
  · decide +kernel
  · decide +kernel
  · decide +kernel
  · decide +kernel
  · decide +kernel
  · decide +kernel
  · decide +kernel
  · decide +kernel
  · decide +kernel
  · decide +kernel
  · decide +kernel
  · decide +kernel
  · decide +kernel
  · decide +kernel
  · decide +kernel
  · decide +kernel
  · decide +kernel
  · decide +kernel
  · decide +kernel
  · decide +kernel
  · decide +kernel
  · decide +kernel
  · decide +kernel
  · decide +kernel
  · decide +kernel

/-- Concrete operands and states that meet the hypotheses of ResetAndStartUp. -/
theorem test_witness_ResetAndStartUp :
    up.pins.porstN = true ∧
    up.pins.sysrstN = true ∧
    State.reset.pins.porstN = false ∧
    State.reset.pins.sysrstN = true ∧
    (both true false).pins.porstN = true ∧
    (both true false).pins.sysrstN = false ∧
    (both false false).pins.porstN = false ∧
    (both false false).pins.sysrstN = false ∧
    (both true true).pins.porstN = true ∧
    (both true true).pins.sysrstN = true ∧
    ((if State.reset.sec.bootNext = (1 : BitVec 2) ∨ State.reset.sec.bootNext = (2 : BitVec 2) then State.reset.sec.bootNext else if true = true then (1 : BitVec 2) else (0 : BitVec 2)) = (1 : BitVec 2)) ∧
    (State.reset.sec.bootNext = (0 : BitVec 2)) ∧
    false = false ∧
    State.reset.sec.flashSpoiled = false ∧
    field State.reset.sec.flash 0 4 ≠ 1464226635 ∧
    (Runs up) ∧
    up.sec.phase ≠ BootPhase.hostWait ∧
    (Runs w15_85a) ∧
    w15_85a.sec.phase = BootPhase.hostWait ∧
    ((4194368 : Word32) = (0 : Word32) ∨ 4194304 < BitVec.toNat (4194368 : Word32) ∨ BitVec.toNat (4194368 : Word32) % 64 ≠ 0) ∧
    (Runs sPush) ∧
    sPush.sec.phase = BootPhase.hostWait ∧
    ((1024 : Word32) ≠ (0 : Word32)) ∧
    BitVec.toNat (1024 : Word32) ≤ 4194304 ∧
    (BitVec.toNat (1024 : Word32) % 64 = 0) ∧
    sPush.checkImage (treadN (0 : Byte) sPush.sec.staging 0 (BitVec.toNat (1024 : Word32))) = none ∧
    sPush.pins.xtal = true ∧
    fwImg.length ≤ 4194304 ∧
    (up.sec.source ≠ (2 : BitVec 2)) ∧
    (Runs w15_126a) ∧
    w15_126a.sec.phase ≠ BootPhase.loading ∧
    (Runs w15_127a) ∧
    w15_127a.twin.link ≠ LinkState.up ∧
    (Runs w15_128a) ∧
    (w15_128a.sec.source = (2 : BitVec 2)) ∧
    w15_128a.sec.phase = BootPhase.loading ∧
    w15_128a.twin.link = LinkState.up ∧
    (Runs w15_129a) ∧
    w15_129a.sec.phase = BootPhase.verified ∧
    w15_129a.twin.link = LinkState.up ∧
    up.twin.link ≠ LinkState.up ∧
    ([(3 : PhysChan), (40 : PhysChan)].Nodup) ∧
    up.bootAt 2 = false ∧
    (Runs (at_ (2 : BitVec 3))) ∧
    (at_ (2 : BitVec 3)).bootAt 2 = true ∧
    (Runs (at3 3 false)) ∧
    (at3 3 false).bootAt 3 = true ∧
    ((at3 3 false).quad ↑(2 : Quad)).forcedCal = true ∧
    (at3 3 false).pwr.rail ≤ 3 ∧
    true = true ∧
    (at3 3 false).sec.trimsFused = true ∧
    (({ failed := [(7 : Frond)] : SelfTest }.failed ++ { failed := [(7 : Frond)] : SelfTest }.goldenBad).Nodup) ∧
    (at3 3 false).pwr.calDone = false ∧
    up.bootAt 3 = false ∧
    (Runs (at3 3 true)) ∧
    (({ failed := [(7 : Frond)], goldenBad := [(143 : Frond)], spared := [((3 : Frond), (5 : Fin 32), (7 : Fin 17))] : SelfTest }.failed ++ { failed := [(7 : Frond)], goldenBad := [(143 : Frond)], spared := [((3 : Frond), (5 : Fin 32), (7 : Fin 17))] : SelfTest }.goldenBad).Nodup) ∧
    (at3 3 true).bootAt 3 = true ∧
    (at3 3 true).pwr.calDone = true := by
  refine ⟨?_, ?_, ?_, ?_, ?_, ?_, ?_, ?_, ?_, ?_, ?_, ?_, ?_, ?_, ?_, ?_, ?_, ?_, ?_, ?_, ?_, ?_, ?_, ?_, ?_, ?_, ?_, ?_, ?_, ?_, ?_, ?_, ?_, ?_, ?_, ?_, ?_, ?_, ?_, ?_, ?_, ?_, ?_, ?_, ?_, ?_, ?_, ?_, ?_, ?_, ?_, ?_, ?_, ?_, ?_, ?_, ?_, ?_⟩
  · decide +kernel
  · decide +kernel
  · decide +kernel
  · decide +kernel
  · decide +kernel
  · decide +kernel
  · decide +kernel
  · decide +kernel
  · decide +kernel
  · decide +kernel
  · decide +kernel
  · decide +kernel
  · decide +kernel
  · decide +kernel
  · decide +kernel
  · decide +kernel
  · decide +kernel
  · decide +kernel
  · decide +kernel
  · decide +kernel
  · decide +kernel
  · decide +kernel
  · decide +kernel
  · decide +kernel
  · decide +kernel
  · exact push_good
  · decide +kernel
  · decide +kernel
  · decide +kernel
  · decide +kernel
  · decide +kernel
  · decide +kernel
  · decide +kernel
  · decide +kernel
  · decide +kernel
  · decide +kernel
  · decide +kernel
  · decide +kernel
  · decide +kernel
  · decide +kernel
  · decide +kernel
  · decide +kernel
  · decide +kernel
  · decide +kernel
  · decide +kernel
  · decide +kernel
  · decide +kernel
  · decide +kernel
  · decide +kernel
  · decide +kernel
  · decide +kernel
  · decide +kernel
  · decide +kernel
  · decide +kernel
  · decide +kernel
  · decide +kernel
  · decide +kernel
  · decide +kernel

/-- Concrete operands and states that meet the hypotheses of FusesAndFlash. -/
theorem test_witness_FusesAndFlash :
    (Runs w15_141a) ∧
    (CmdStarts w15_141a 97 1 cFw) ∧
    w15_141a.sec.flashWrite = FlashWrite.inProgress ∧
    (Runs sFwL) ∧
    (CmdStarts sFwL 97 1 cFw) ∧
    sFwL.sec.flashWrite ≠ FlashWrite.inProgress ∧
    (readImage 29 (cFw.fld 32 8) (cFw.fld 24 4) (takeCmd cFw sFwL) = ((rFw sFwL).fst, (rFw sFwL).snd)) ∧
    (rFw sFwL).fst = none ∧
    (Runs (sFw [])) ∧
    (CmdStarts (sFw []) 97 1 cFw) ∧
    ((sFw []).sec.flashWrite ≠ FlashWrite.inProgress) ∧
    (readImage 29 (cFw.fld 32 8) (cFw.fld 24 4) (takeCmd cFw (sFw [])) = ((rFw (sFw [])).fst, (rFw (sFw [])).snd)) ∧
    ((rFw (sFw [])).fst = some ((rFw (sFw [])).fst.getD [])) ∧
    ((rFw (sFw [])).snd.withCurrentFuses.checkImage ((rFw (sFw [])).fst.getD []) = some (2818, 255)) ∧
    (Runs sFwG) ∧
    (CmdStarts sFwG 97 1 cFw) ∧
    sFwG.sec.flashWrite ≠ FlashWrite.inProgress ∧
    (readImage 29 (cFw.fld 32 8) (cFw.fld 24 4) (takeCmd cFw sFwG) = ((rFw sFwG).fst, (rFw sFwG).snd)) ∧
    (rFw sFwG).fst = some fwImg ∧
    (rFw sFwG).snd.withCurrentFuses.checkImage fwImg = none ∧
    (Runs w15_158a) ∧
    (CmdStarts w15_158a 98 1 cFu) ∧
    w15_158a.fuseAllowed (cFu.fld 24 2) (BitVec.ofNat 128 (fuseBits (cFu.fld 24 2) (cFu.fld 32 16))).toNat = true ∧
    (Runs w15_160a) ∧
    (CmdStarts w15_160a 98 1 cFv) ∧
    w15_160a.fuseAllowed (cFv.fld 24 2) (BitVec.ofNat 128 (fuseBits (cFv.fld 24 2) (cFv.fld 32 16))).toNat = false ∧
    (Runs w15_162a) ∧
    (CmdStarts w15_162a 96 1 cAt) ∧
    (RunsSaf up) ∧
    up.sec.flashWrite ≠ FlashWrite.inProgress ∧
    (RunsSaf w15_164a) ∧
    w15_164a.sec.flashWrite = FlashWrite.inProgress ∧
    (RunsSaf w15_165a) ∧
    w15_165a.sec.flashWrite = FlashWrite.inProgress ∧
    (Runs w15_166a) ∧
    (w15_166a.runningPipes ≠ []) ∧
    (Runs up) ∧
    edVerify up.sec.malsureKey up.unlockMessage up.unlockToken = false ∧
    (Runs sUn) ∧
    (sUn.runningPipes = []) ∧
    edVerify sUn.sec.malsureKey sUn.unlockMessage sUn.unlockToken = true := by
  refine ⟨?_, ?_, ?_, ?_, ?_, ?_, ?_, ?_, ?_, ?_, ?_, ?_, ?_, ?_, ?_, ?_, ?_, ?_, ?_, ?_, ?_, ?_, ?_, ?_, ?_, ?_, ?_, ?_, ?_, ?_, ?_, ?_, ?_, ?_, ?_, ?_, ?_, ?_, ?_, ?_, ?_⟩
  · decide +kernel
  · decide +kernel
  · decide +kernel
  · decide +kernel
  · decide +kernel
  · decide +kernel
  · exact rfw sFwL (by rfl)
  · decide +kernel
  · decide +kernel
  · decide +kernel
  · decide +kernel
  · exact rfw (sFw []) (by rfl)
  · decide +kernel
  · decide +kernel
  · decide +kernel
  · decide +kernel
  · decide +kernel
  · exact rfw sFwG (by rfl)
  · decide +kernel
  · exact fw_good
  · decide +kernel
  · decide +kernel
  · decide +kernel
  · decide +kernel
  · decide +kernel
  · decide +kernel
  · decide +kernel
  · decide +kernel
  · decide +kernel
  · decide +kernel
  · decide +kernel
  · decide +kernel
  · decide +kernel
  · decide +kernel
  · decide +kernel
  · decide +kernel
  · decide +kernel
  · decide +kernel
  · decide +kernel
  · decide +kernel
  · exact un_token

end B15

/-! ### Witnesses: bus, step, whole device -/

namespace B16

def rd (a n : Nat) : NocAccess := { init := 0x91, vc := 2, addr := a, acc := .read n, flitErrs := [], storeErrs := [] }
def wr (a : Nat) (d : List Byte) : NocAccess := { init := 0x91, vc := 2, addr := a, acc := .write d, flitErrs := [], storeErrs := [] }
def w16_3a := { rd 0x4000 4 with init := 0xFE }
def w16_4a := { rd 0x4000 4 with init := 0xB0 }
def sM := inMem 0x4000 [1, 2, 3] up
def bM (a n : Nat) (s : State) := busRead 0x91 2 a n s
def hostUp (s : State) : State := { s with gctl := { s.gctl with pcieUp := true } }
def w16_10a := { rd 0 16 with init := 0xB0, bar4 := true }
def w16_11a := { wr 0 [1, 2, 3, 4] with init := 0xB0, bar4 := true }
def aF : Nat := 0x4007000100
def rF := busRead 0x91 2 aF 4 (placeStoreErrs 7 [(64, [⟨3, 0x55⟩])] up)
def w16_14a := { rd aF 4 with storeErrs := [(64, [⟨3, 0x55⟩])] }
def bW (a : Nat) (d : List Byte) (s : State) := busWrite 0x91 2 a (clean d) s
def f1 : SymErr := ⟨66, 0x55⟩
def f2 : SymErr := ⟨0, 0x02⟩
def sM1 : State := { sM with gctl := { sM.gctl with nocCorr := 1 } }
def w16_22a := { wr 0x403F [7, 8] with flitErrs := [[f1]] }
def w16_23a := { wr 0x403F [7, 8] with flitErrs := [[f1, f2]] }
def fw_ (s : State) : State := { s with sec := { s.sec with sensed := [(0x100, 0x100)] } }
def latched : State := { up with island := { up.island with silent := true, mode := .silent }, pins := { up.pins with faultN := false }, pending := [.peerFaultNLow] }
def stepped (s : State) : State := match step s with | .next t => t | _ => s
def w16_42a := { up with pwr := { up.pwr with sleep := 3 } }
def restarting : State := { up with island := { up.island with restarting := true } }
def unbooted : State := { up with gctl := { up.gctl with bootStage := 1, ready := false } }
def w16_51a := { up with pwr := { up.pwr with sleep := 4 } }
def w16_52a := { up with pwr := { up.pwr with sleep := 4 } }
def msg3 : List Byte := [0x12, 0x34, 0x56]
def ma : List (List (List Int)) := [[[127, -128], [3, 4]], [[5], [-6]]]
def mb : List (List (List Int)) := [[[-128, -128], [1, 2]], [[7], [8]]]

/-- Concrete operands and states that meet the hypotheses of TransactionsAndRegisters. -/
theorem test_witness_TransactionsAndRegisters :
    (Runs up) ∧
    w16_3a.wf = true ∧
    up.initIssued (BitVec.toNat w16_3a.init) = false ∧
    w16_4a.wf = true ∧
    (w16_4a.init = (176 : Initiator)) ∧
    up.gctl.pcieUp = false ∧
    (Runs sM) ∧
    (rd 16384 4).wf = true ∧
    sM.initIssued (BitVec.toNat (rd 16384 4).init) = true ∧
    ((rd 16384 4).init = (176 : Initiator) → sM.gctl.pcieUp = true) ∧
    (rd 16384 4).bar4 = false ∧
    (rd 16384 4).acc = BusAcc.read 4 ∧
    ((rd 16384 4).flitErrs = []) ∧
    targetRange (rd 16384 4).addr 4 = Target.main ∧
    (busRead (BitVec.toNat (rd 16384 4).init) (↑(rd 16384 4).vc) (rd 16384 4).addr 4 sM = (some ((bM 16384 4 sM).fst.getD []), (bM 16384 4 sM).snd)) ∧
    (rd 68719476736 4).wf = true ∧
    sM.initIssued (BitVec.toNat (rd 68719476736 4).init) = true ∧
    ((rd 68719476736 4).init = (176 : Initiator) → sM.gctl.pcieUp = true) ∧
    (rd 68719476736 4).bar4 = false ∧
    (rd 68719476736 4).acc = BusAcc.read 4 ∧
    ((rd 68719476736 4).flitErrs = []) ∧
    targetRange (rd 68719476736 4).addr 4 = Target.unmapped ∧
    (busRead (BitVec.toNat (rd 68719476736 4).init) (↑(rd 68719476736 4).vc) (rd 68719476736 4).addr 4 sM = (none, (bM 68719476736 4 sM).snd)) ∧
    (Runs (hostUp up)) ∧
    w16_10a.wf = true ∧
    (hostUp up).initIssued (BitVec.toNat w16_10a.init) = true ∧
    (w16_10a.init = (176 : Initiator) → (hostUp up).gctl.pcieUp = true) ∧
    w16_10a.bar4 = true ∧
    (w16_10a.flitErrs = []) ∧
    w16_10a.acc = BusAcc.read 16 ∧
    ((hostUp up).mmioDenied (BitVec.toNat w16_10a.init) false (2097152 + w16_10a.addr) 16 = false) ∧
    w16_11a.wf = true ∧
    (hostUp up).initIssued (BitVec.toNat w16_11a.init) = true ∧
    (w16_11a.init = (176 : Initiator) → (hostUp up).gctl.pcieUp = true) ∧
    w16_11a.bar4 = true ∧
    (w16_11a.flitErrs = []) ∧
    (w16_11a.acc = BusAcc.write [(1 : Byte), (2 : Byte), (3 : Byte), (4 : Byte)]) ∧
    ((hostUp up).mmioDenied (BitVec.toNat w16_11a.init) true (2097152 + w16_11a.addr) [(1 : Byte), (2 : Byte), (3 : Byte), (4 : Byte)].length = false) ∧
    w16_14a.wf = true ∧
    up.initIssued (BitVec.toNat w16_14a.init) = true ∧
    (w16_14a.init = (176 : Initiator) → up.gctl.pcieUp = true) ∧
    w16_14a.bar4 = false ∧
    w16_14a.acc = BusAcc.read 4 ∧
    (w16_14a.flitErrs = []) ∧
    targetRange w16_14a.addr 4 = Target.frond 7 256 ∧
    (busRead (BitVec.toNat w16_14a.init) (↑w16_14a.vc) w16_14a.addr 4 (placeStoreErrs 7 w16_14a.storeErrs up) = (some (rF.fst.getD []), rF.snd)) ∧
    (rd 549755813888 4).wf = true ∧
    up.initIssued (BitVec.toNat (rd 549755813888 4).init) = true ∧
    ((rd 549755813888 4).init = (176 : Initiator) → up.gctl.pcieUp = true) ∧
    (rd 549755813888 4).bar4 = false ∧
    (rd 549755813888 4).acc = BusAcc.read 4 ∧
    ((rd 549755813888 4).flitErrs = []) ∧
    targetRange (rd 549755813888 4).addr 4 = Target.mmio 0 ∧
    up.mmioDenied (BitVec.toNat (rd 549755813888 4).init) false 0 4 = false ∧
    ((wr 16447 [(7 : Byte), (8 : Byte)]).wf = true) ∧
    (sM.initIssued (BitVec.toNat (wr 16447 [(7 : Byte), (8 : Byte)]).init) = true) ∧
    ((wr 16447 [(7 : Byte), (8 : Byte)]).init = (176 : Initiator) → sM.gctl.pcieUp = true) ∧
    ((wr 16447 [(7 : Byte), (8 : Byte)]).bar4 = false) ∧
    ((wr 16447 [(7 : Byte), (8 : Byte)]).acc = BusAcc.write [(7 : Byte), (8 : Byte)]) ∧
    (targetRange (wr 16447 [(7 : Byte), (8 : Byte)]).addr [(7 : Byte), (8 : Byte)].length = Target.main) ∧
    ((wr 16447 [(7 : Byte), (8 : Byte)]).flitErrs = []) ∧
    (busWrite (BitVec.toNat (wr 16447 [(7 : Byte), (8 : Byte)]).init) (↑(wr 16447 [(7 : Byte), (8 : Byte)]).vc) (wr 16447 [(7 : Byte), (8 : Byte)]).addr (clean [(7 : Byte), (8 : Byte)]) sM = (true, (bW 16447 [(7 : Byte), (8 : Byte)] sM).snd)) ∧
    ((wr 68719476735 [(7 : Byte), (8 : Byte)]).wf = true) ∧
    (sM.initIssued (BitVec.toNat (wr 68719476735 [(7 : Byte), (8 : Byte)]).init) = true) ∧
    ((wr 68719476735 [(7 : Byte), (8 : Byte)]).init = (176 : Initiator) → sM.gctl.pcieUp = true) ∧
    ((wr 68719476735 [(7 : Byte), (8 : Byte)]).bar4 = false) ∧
    ((wr 68719476735 [(7 : Byte), (8 : Byte)]).acc = BusAcc.write [(7 : Byte), (8 : Byte)]) ∧
    (targetRange (wr 68719476735 [(7 : Byte), (8 : Byte)]).addr [(7 : Byte), (8 : Byte)].length = Target.unmapped) ∧
    ((wr 68719476735 [(7 : Byte), (8 : Byte)]).flitErrs = []) ∧
    (busWrite (BitVec.toNat (wr 68719476735 [(7 : Byte), (8 : Byte)]).init) (↑(wr 68719476735 [(7 : Byte), (8 : Byte)]).vc) (wr 68719476735 [(7 : Byte), (8 : Byte)]).addr (clean [(7 : Byte), (8 : Byte)]) sM = (false, (bW 68719476735 [(7 : Byte), (8 : Byte)] sM).snd)) ∧
    w16_22a.wf = true ∧
    sM.initIssued (BitVec.toNat w16_22a.init) = true ∧
    (w16_22a.init = (176 : Initiator) → sM.gctl.pcieUp = true) ∧
    w16_22a.bar4 = false ∧
    (w16_22a.acc = BusAcc.write [(7 : Byte), (8 : Byte)]) ∧
    (targetRange w16_22a.addr [(7 : Byte), (8 : Byte)].length = Target.main) ∧
    ([(7 : Byte), (8 : Byte)].length ≤ 64) ∧
    (w16_22a.flitErrs = [[f1]]) ∧
    (busWrite (BitVec.toNat w16_22a.init) (↑w16_22a.vc) w16_22a.addr (clean [(7 : Byte), (8 : Byte)]) { pins := sM.pins, gctl := { grade := sM.gctl.grade, stream := sM.gctl.stream, aq := sM.gctl.aq, bootFault := sM.gctl.bootFault, flCount := sM.gctl.flCount, bootStage := sM.gctl.bootStage, bootFailed := sM.gctl.bootFailed, short := sM.gctl.short, ready := sM.gctl.ready, time := sM.gctl.time, timeSource := sM.gctl.timeSource, slewLeft := sM.gctl.slewLeft, slewWait := sM.gctl.slewWait, locked := sM.gctl.locked, everLocked := sM.gctl.everLocked, nocCorr := satInc sM.gctl.nocCorr, pcieWidth := sM.gctl.pcieWidth, pcieSpeed := sM.gctl.pcieSpeed, pcieUp := sM.gctl.pcieUp, obw := sM.gctl.obw, obReqs := sM.gctl.obReqs, obNextTag := sM.gctl.obNextTag, hostCpl := sM.gctl.hostCpl : Gctl }, loop := sM.loop, sched := sM.sched, fronds := sM.fronds, island := sM.island, thal := sM.thal, can := sM.can, cmdq := sM.cmdq, dma := sM.dma, mem := sM.mem, twin := sM.twin, eth := sM.eth, pwr := sM.pwr, sec := sM.sec, hostMem := sM.hostMem, out := sM.out, freeCtr := sM.freeCtr, pending := sM.pending : State } = (true, (bW 16447 [(7 : Byte), (8 : Byte)] sM1).snd)) ∧
    w16_23a.wf = true ∧
    sM.initIssued (BitVec.toNat w16_23a.init) = true ∧
    (w16_23a.init = (176 : Initiator) → sM.gctl.pcieUp = true) ∧
    w16_23a.bar4 = false ∧
    (w16_23a.acc = BusAcc.write [(7 : Byte), (8 : Byte)]) ∧
    (targetRange w16_23a.addr [(7 : Byte), (8 : Byte)].length = Target.main) ∧
    (w16_23a.flitErrs = [[f1, f2]]) ∧
    class0Read (BitVec.toNat w16_23a.init) ↑w16_23a.vc = false ∧
    (sM.fwMem (BitVec.toNat w16_23a.init) true w16_23a.addr [(7 : Byte), (8 : Byte)].length = true) ∧
    (∀ (i : Nat), i ∈ linesOf w16_23a.addr [(7 : Byte), (8 : Byte)].length → sM.lineLost i = false ∧ sM.lineStopped i = false) ∧
    (Runs (fw_ sM)) ∧
    ((fw_ sM).initIssued (BitVec.toNat (wr 16447 [(7 : Byte), (8 : Byte)]).init) = true) ∧
    ((wr 16447 [(7 : Byte), (8 : Byte)]).init = (176 : Initiator) → (fw_ sM).gctl.pcieUp = true) ∧
    ((fw_ sM).fwMem (BitVec.toNat (wr 16447 [(7 : Byte), (8 : Byte)]).init) true (wr 16447 [(7 : Byte), (8 : Byte)]).addr [(7 : Byte), (8 : Byte)].length = false) ∧
    ((wr 68719476736 [(7 : Byte), (8 : Byte)]).wf = true) ∧
    (sM.initIssued (BitVec.toNat (wr 68719476736 [(7 : Byte), (8 : Byte)]).init) = true) ∧
    ((wr 68719476736 [(7 : Byte), (8 : Byte)]).init = (176 : Initiator) → sM.gctl.pcieUp = true) ∧
    ((wr 68719476736 [(7 : Byte), (8 : Byte)]).bar4 = false) ∧
    ((wr 68719476736 [(7 : Byte), (8 : Byte)]).acc = BusAcc.write [(7 : Byte), (8 : Byte)]) ∧
    (targetRange (wr 68719476736 [(7 : Byte), (8 : Byte)]).addr [(7 : Byte), (8 : Byte)].length = Target.unmapped) ∧
    ((wr 68719476736 [(7 : Byte), (8 : Byte)]).flitErrs = []) ∧
    32 < 67108864 ∧
    up.initIssued (BitVec.toNat (254 : Initiator)) = false ∧
    ((176 : Initiator) = (176 : Initiator)) ∧
    34 < 67108864 ∧
    up.initIssued (BitVec.toNat (145 : Initiator)) = true ∧
    ((145 : Initiator) = (176 : Initiator) → up.gctl.pcieUp = true) ∧
    mmioAligned 34 (widthBytes AccessWidth.w32) = false ∧
    up.mmioDenied (BitVec.toNat (145 : Initiator)) true 32 (widthBytes AccessWidth.w32) = false ∧
    AccessWidth.w32 = AccessWidth.w32 ∧
    (32 % 4 = 0) ∧
    up.mmioDenied (BitVec.toNat (145 : Initiator)) true 32 (widthBytes AccessWidth.w64) = false ∧
    AccessWidth.w64 = AccessWidth.w64 ∧
    (32 % 8 = 0) ∧
    10485760 < 67108864 ∧
    up.mmioDenied (BitVec.toNat (145 : Initiator)) true 10485760 (widthBytes AccessWidth.w32) = false ∧
    (10485760 ≤ 10485760 ∧ 10485760 < 11534336) ∧
    3145724 < 67108864 ∧
    up.mmioDenied (BitVec.toNat (145 : Initiator)) true 3145724 (widthBytes AccessWidth.w32) = false ∧
    (2097152 ≤ 3145724 ∧ 3145724 < 3145728) ∧
    33554432 < 67108864 ∧
    up.mmioDenied (BitVec.toNat (145 : Initiator)) true 33554432 (widthBytes AccessWidth.w32) = false ∧
    (33554432 ≤ 33554432 ∧ 33554432 < 34603008) ∧
    (Runs (fw_ up)) ∧
    (fw_ up).initIssued (BitVec.toNat (145 : Initiator)) = true ∧
    ((145 : Initiator) = (176 : Initiator) → (fw_ up).gctl.pcieUp = true) ∧
    (fw_ up).mmioDenied (BitVec.toNat (145 : Initiator)) true 32 (widthBytes AccessWidth.w32) = true ∧
    ((145 : Initiator) ≠ (176 : Initiator)) ∧
    (Runs (fw_ (hostUp up))) ∧
    (fw_ (hostUp up)).initIssued (BitVec.toNat (176 : Initiator)) = true ∧
    ((176 : Initiator) = (176 : Initiator) → (fw_ (hostUp up)).gctl.pcieUp = true) ∧
    (fw_ (hostUp up)).mmioDenied (BitVec.toNat (176 : Initiator)) true 32 (widthBytes AccessWidth.w32) = true := by
  refine ⟨?_, ?_, ?_, ?_, ?_, ?_, ?_, ?_, ?_, ?_, ?_, ?_, ?_, ?_, ?_, ?_, ?_, ?_, ?_, ?_, ?_, ?_, ?_, ?_, ?_, ?_, ?_, ?_, ?_, ?_, ?_, ?_, ?_, ?_, ?_, ?_, ?_, ?_, ?_, ?_, ?_, ?_, ?_, ?_, ?_, ?_, ?_, ?_, ?_, ?_, ?_, ?_, ?_, ?_, ?_, ?_, ?_, ?_, ?_, ?_, ?_, ?_, ?_, ?_, ?_, ?_, ?_, ?_, ?_, ?_, ?_, ?_, ?_, ?_, ?_, ?_, ?_, ?_, ?_, ?_, ?_, ?_, ?_, ?_, ?_, ?_, ?_, ?_, ?_, ?_, ?_, ?_, ?_, ?_, ?_, ?_, ?_, ?_, ?_, ?_, ?_, ?_, ?_, ?_, ?_, ?_, ?_, ?_, ?_, ?_, ?_, ?_, ?_, ?_, ?_, ?_, ?_, ?_, ?_, ?_, ?_, ?_, ?_, ?_, ?_, ?_, ?_, ?_, ?_, ?_, ?_⟩
  · decide +kernel
  · decide +kernel
  · decide +kernel
  · decide +kernel
  · decide +kernel
  · decide +kernel
  · decide +kernel
  · decide +kernel
  · decide +kernel
  · first | decide +kernel | rfl | (intros; decide +kernel) | (intros; rfl) | (intro n sh e; cases e)
  · decide +kernel
  · decide +kernel
  · decide +kernel
  · decide +kernel
  · first | exact pair_of (by decide +kernel) (by rfl) | decide +kernel | rfl
  · decide +kernel
  · decide +kernel
  · first | decide +kernel | rfl | (intros; decide +kernel) | (intros; rfl) | (intro n sh e; cases e)
  · decide +kernel
  · decide +kernel
  · decide +kernel
  · decide +kernel
  · first | exact pair_of (by decide +kernel) (by rfl) | decide +kernel | rfl
  · decide +kernel
  · decide +kernel
  · decide +kernel
  · first | decide +kernel | rfl | (intros; decide +kernel) | (intros; rfl) | (intro n sh e; cases e)
  · decide +kernel
  · decide +kernel
  · decide +kernel
  · decide +kernel
  · decide +kernel
  · decide +kernel
  · first | decide +kernel | rfl | (intros; decide +kernel) | (intros; rfl) | (intro n sh e; cases e)
  · decide +kernel
  · decide +kernel
  · decide +kernel
  · decide +kernel
  · decide +kernel
  · decide +kernel
  · first | decide +kernel | rfl | (intros; decide +kernel) | (intros; rfl) | (intro n sh e; cases e)
  · decide +kernel
  · decide +kernel
  · decide +kernel
  · decide +kernel
  · first | exact pair_of (by decide +kernel) (by rfl) | decide +kernel | rfl
  · decide +kernel
  · decide +kernel
  · first | decide +kernel | rfl | (intros; decide +kernel) | (intros; rfl) | (intro n sh e; cases e)
  · decide +kernel
  · decide +kernel
  · decide +kernel
  · decide +kernel
  · decide +kernel
  · decide +kernel
  · decide +kernel
  · first | decide +kernel | rfl | (intros; decide +kernel) | (intros; rfl) | (intro n sh e; cases e)
  · decide +kernel
  · decide +kernel
  · decide +kernel
  · decide +kernel
  · first | exact pair_of (by decide +kernel) (by rfl) | decide +kernel | rfl
  · decide +kernel
  · decide +kernel
  · first | decide +kernel | rfl | (intros; decide +kernel) | (intros; rfl) | (intro n sh e; cases e)
  · decide +kernel
  · decide +kernel
  · decide +kernel
  · decide +kernel
  · first | exact pair_of (by decide +kernel) (by rfl) | decide +kernel | rfl
  · decide +kernel
  · decide +kernel
  · first | decide +kernel | rfl | (intros; decide +kernel) | (intros; rfl) | (intro n sh e; cases e)
  · decide +kernel
  · decide +kernel
  · decide +kernel
  · decide +kernel
  · decide +kernel
  · first | exact pair_of (by decide +kernel) (by rfl) | decide +kernel | rfl
  · decide +kernel
  · decide +kernel
  · first | decide +kernel | rfl | (intros; decide +kernel) | (intros; rfl) | (intro n sh e; cases e)
  · decide +kernel
  · decide +kernel
  · decide +kernel
  · decide +kernel
  · decide +kernel
  · decide +kernel
  · first | decide +kernel | rfl | (intros; decide +kernel) | (intros; rfl) | (intro n sh e; cases e)
  · decide +kernel
  · decide +kernel
  · first | decide +kernel | rfl | (intros; decide +kernel) | (intros; rfl) | (intro n sh e; cases e)
  · decide +kernel
  · decide +kernel
  · decide +kernel
  · first | decide +kernel | rfl | (intros; decide +kernel) | (intros; rfl) | (intro n sh e; cases e)
  · decide +kernel
  · decide +kernel
  · decide +kernel
  · decide +kernel
  · decide +kernel
  · decide +kernel
  · decide +kernel
  · decide +kernel
  · decide +kernel
  · first | decide +kernel | rfl | (intros; decide +kernel) | (intros; rfl) | (intro n sh e; cases e)
  · decide +kernel
  · decide +kernel
  · decide +kernel
  · decide +kernel
  · decide +kernel
  · decide +kernel
  · decide +kernel
  · decide +kernel
  · decide +kernel
  · decide +kernel
  · decide +kernel
  · decide +kernel
  · decide +kernel
  · decide +kernel
  · decide +kernel
  · decide +kernel
  · decide +kernel
  · decide +kernel
  · first | decide +kernel | rfl | (intros; decide +kernel) | (intros; rfl) | (intro n sh e; cases e)
  · decide +kernel
  · decide +kernel
  · decide +kernel
  · decide +kernel
  · first | decide +kernel | rfl | (intros; decide +kernel) | (intros; rfl) | (intro n sh e; cases e)
  · decide +kernel

/-- Concrete operands and states that meet the hypotheses of StepRunsFrontCommand. -/
theorem test_witness_StepRunsFrontCommand :
    (up.pending = []) ∧
    (State.reset.pending = []) ∧
    (w16_42a.pending = []) := by
  and_intros <;> decide +kernel

/-- Concrete operands and states that meet the hypotheses of LatchKeptByStep. -/
theorem test_witness_LatchKeptByStep :
    (LatchHolds latched) ∧
    (step latched = Host.Outcome.next (stepped latched)) := by
  refine ⟨?_, ?_⟩
  · decide +kernel
  · first | decide +kernel | rfl

/-- Concrete operands and states that meet the hypotheses of HeldDeviceIgnoresCommands. -/
theorem test_witness_HeldDeviceIgnoresCommands :
    (Runs restarting) ∧
    blkWrite (Instr.slotGo (143 : Frond) (1 : Slot)) = true ∧
    restarting.blocksUp = false ∧
    (Runs unbooted) ∧
    blkWrite (Instr.dmaGo (3 : DmaChan)) = true ∧
    unbooted.blocksUp = false ∧
    barWrite (Instr.ethGateCommit (2 : EthPort)) = true ∧
    unbooted.barUp = false ∧
    (RunsCan restarting ↑(5 : CanNo)) ∧
    (canWrite (Instr.canLeaveInit (5 : CanNo)) = some (5 : CanNo)) ∧
    ↑(5 : CanNo) < 6 ∧
    State.reset.held = true ∧
    Instr.commandFetch.wf = true ∧
    w16_51a.held = false ∧
    w16_51a.asleep 4 = true ∧
    w16_52a.held = false ∧
    w16_52a.asleep 4 = true ∧
    (rd 16384 4).wf = true := by
  and_intros <;> decide +kernel

/-- Concrete operands and states that meet the hypotheses of EveryCommandAnswers. -/
theorem test_witness_EveryCommandAnswers :
    Instr.commandFetch.wf = true ∧
    ((Instr.memRead (145 : Initiator) (1 : Fin 4) (65 : Addr) { : LineErrs }).wf = false) := by
  and_intros <;> decide +kernel

/-- Concrete operands and states that meet the hypotheses of SymbolCode. -/
theorem test_witness_SymbolCode :
    (gfEval (gfPow 0) (rsEncode msg3) = (0 : Byte)) ∧
    (gfEval (gfPow 1) (rsEncode msg3) = (0 : Byte)) ∧
    (gfEval (gfPow 2) (rsEncode msg3) = (0 : Byte)) ∧
    ((applyErrs (rsEncode msg3) [(1, (128 : Byte))]).length ≤ 68) ∧
    (4 < (applyErrs (rsEncode msg3) [(1, (128 : Byte))]).length) ∧
    (gfEval (gfPow 0) (applyErrs (rsEncode msg3) [(1, (128 : Byte))]) ≠ (0 : Byte)) ∧
    (gfEval (gfPow 1) (applyErrs (rsEncode msg3) [(1, (128 : Byte))]) ≠ (0 : Byte)) ∧
    (gfEval (gfPow 2) (applyErrs (rsEncode msg3) [(1, (128 : Byte))]) ≠ (0 : Byte)) ∧
    (gfMul (gfEval (gfPow 1) (applyErrs (rsEncode msg3) [(1, (128 : Byte))])) (gfEval (gfPow 1) (applyErrs (rsEncode msg3) [(1, (128 : Byte))])) = gfMul (gfEval (gfPow 0) (applyErrs (rsEncode msg3) [(1, (128 : Byte))])) (gfEval (gfPow 2) (applyErrs (rsEncode msg3) [(1, (128 : Byte))]))) ∧
    (gfMul (gfEval (gfPow 0) (applyErrs (rsEncode msg3) [(1, (128 : Byte))])) (gfPow 4) = gfEval (gfPow 1) (applyErrs (rsEncode msg3) [(1, (128 : Byte))])) ∧
    (¬(gfEval (gfPow 0) (applyErrs (rsEncode msg3) [(1, (128 : Byte)), (4, (7 : Byte))]) = (0 : Byte) ∧ gfEval (gfPow 1) (applyErrs (rsEncode msg3) [(1, (128 : Byte)), (4, (7 : Byte))]) = (0 : Byte) ∧ gfEval (gfPow 2) (applyErrs (rsEncode msg3) [(1, (128 : Byte)), (4, (7 : Byte))]) = (0 : Byte))) ∧
    (¬(gfEval (gfPow 0) (applyErrs (rsEncode msg3) [(1, (128 : Byte)), (4, (7 : Byte))]) ≠ (0 : Byte) ∧ gfEval (gfPow 1) (applyErrs (rsEncode msg3) [(1, (128 : Byte)), (4, (7 : Byte))]) ≠ (0 : Byte) ∧ gfEval (gfPow 2) (applyErrs (rsEncode msg3) [(1, (128 : Byte)), (4, (7 : Byte))]) ≠ (0 : Byte) ∧ gfMul (gfEval (gfPow 1) (applyErrs (rsEncode msg3) [(1, (128 : Byte)), (4, (7 : Byte))])) (gfEval (gfPow 1) (applyErrs (rsEncode msg3) [(1, (128 : Byte)), (4, (7 : Byte))])) = gfMul (gfEval (gfPow 0) (applyErrs (rsEncode msg3) [(1, (128 : Byte)), (4, (7 : Byte))])) (gfEval (gfPow 2) (applyErrs (rsEncode msg3) [(1, (128 : Byte)), (4, (7 : Byte))])) ∧ ∃ (l : Nat), l < (applyErrs (rsEncode msg3) [(1, (128 : Byte)), (4, (7 : Byte))]).length ∧ gfMul (gfEval (gfPow 0) (applyErrs (rsEncode msg3) [(1, (128 : Byte)), (4, (7 : Byte))])) (gfPow l) = gfEval (gfPow 1) (applyErrs (rsEncode msg3) [(1, (128 : Byte)), (4, (7 : Byte))]))) ∧
    msg3.length ≤ 65 ∧
    (5 < msg3.length + 3) ∧
    ((128 : Byte) ≠ (0 : Byte)) ∧
    4 < 5 ∧
    ((1 : Byte) ≠ (0 : Byte)) := by
  refine ⟨?_, ?_, ?_, ?_, ?_, ?_, ?_, ?_, ?_, ?_, ?_, ?_, ?_, ?_, ?_, ?_, ?_⟩
  · decide +kernel
  · decide +kernel
  · decide +kernel
  · decide +kernel
  · decide +kernel
  · decide +kernel
  · decide +kernel
  · decide +kernel
  · decide +kernel
  · decide +kernel
  · first | exact pair_of (by decide +kernel) (by rfl) | decide +kernel | rfl
  · decide +kernel
  · decide +kernel
  · decide +kernel
  · decide +kernel
  · decide +kernel
  · decide +kernel

/-- Concrete operands and states that meet the hypotheses of IntegerAbftExact. -/
theorem test_witness_IntegerAbftExact :
    1 ≤ 2 ∧
    2 ≤ 32 ∧
    2 ≤ 64 ∧
    ma.length = mb.length ∧
    (ma ≠ []) ∧
    (∀ (q : Nat), q < ma.length → 1 ≤ ((ma.getD q []).headD []).length ∧ (ma.getD q []).length = 2 ∧ (mb.getD q []).length = 2 ∧ (∀ (r : List Int), r ∈ ma.getD q [] → r.length = ((ma.getD q []).headD []).length ∧ ∀ (x : Int), x ∈ r → (-128 : Int) ≤ x ∧ x ≤ (127 : Int)) ∧ ∀ (c : List Int), c ∈ mb.getD q [] → c.length = ((ma.getD q []).headD []).length ∧ ∀ (x : Int), x ∈ c → (-128 : Int) ≤ x ∧ x ≤ (127 : Int)) ∧
    1 < 2 ∧
    0 < 2 ∧
    ↑(1 : Fin 33) < 2 ∧
    ↑(0 : Fin 65) < 2 ∧
    ((2147483648 : Word32) ≠ (0 : Word32)) := by
  refine ⟨?_, ?_, ?_, ?_, ?_, ?_, ?_, ?_, ?_, ?_, ?_⟩
  · decide +kernel
  · decide +kernel
  · decide +kernel
  · decide +kernel
  · decide +kernel
  · first | decide +kernel | rfl | (intros; decide +kernel) | (intros; rfl) | (intro n sh e; cases e)
  · decide +kernel
  · decide +kernel
  · decide +kernel
  · decide +kernel
  · decide +kernel

/-- Concrete operands and states that meet the hypotheses of IdentityRegisters. -/
theorem test_witness_IdentityRegisters :
    (0 < [((7 : Byte), false)].length) ∧
    ([((7 : Byte), false)].length ≤ 64) ∧
    (↑{ pos := (66 : Fin 68), flip := (5 : Byte) : SymErr }.pos < 67) ∧
    ({ pos := (66 : Fin 68), flip := (5 : Byte) : SymErr }.flip ≠ (0 : Byte)) := by
  and_intros <;> decide +kernel

end B16

end Sys2Proof.Tests
end

section
/-! PROOFS. The scope of the block: every command gives a next state, or its term is refused by name (R9, R26). -/

namespace Sys2Proof.Machine

/-! ### Every command answers (log 4, log 87) -/

/-- An outcome is a next state where the term is well-formed and the refusal by name where it is not. -/
abbrev Answers (ok : Bool) (r : Host.Outcome State Fault Refusal) : Prop :=
  (ok = true → ∃ t, r = .next t) ∧ (ok = false → r = .refused .illFormed)

section
variable (f : State → State) (s : State)

theorem answers_next (t : State) : Answers true (.next t) := ⟨fun _ => ⟨t, rfl⟩, nofun⟩

theorem performUnless_answers (off : Bool) : Answers true (performUnless off f s) := by
  cases off <;> exact answers_next _

theorem perform_answers : Answers true (perform f s) := performUnless_answers f s _
theorem performReg_answers : Answers true (performReg f s) := perform_answers _ s
theorem performBar_answers : Answers true (performBar f s) := performReg_answers _ s
theorem performBlk_answers : Answers true (performBlk f s) := performReg_answers _ s
theorem performAon_answers : Answers true (performAon f s) := performUnless_answers f s _
theorem performSaf_answers : Answers true (performSaf f s) := performUnless_answers f s _
theorem performFab_answers (k : Nat) : Answers true (performFab k f s) := performUnless_answers f s _

theorem performCan_answers (m : Nat) : Answers true (performCan m f s) := by
  unfold performCan
  split
  · exact performUnless_answers f s _
  · exact performSaf_answers f s

theorem performCanReg_answers (m : Nat) : Answers true (performCanReg m f s) := performCan_answers _ s m

/-- The test of a term's form in front of a meaning that answers. -/
theorem answers_ite (ok : Bool) {r : Host.Outcome State Fault Refusal} (h : Answers true r) :
    Answers ok (if ok then r else .refused .illFormed) := by
  cases ok
  · exact ⟨nofun, fun _ => rfl⟩
  · exact h

theorem performWf_answers (ok : Bool) : Answers ok (performWf ok f s) := answers_ite ok (perform_answers f s)
theorem performWfFab_answers (ok : Bool) (k : Nat) : Answers ok (performWfFab ok k f s) := answers_ite ok (performFab_answers f s k)
theorem performWfSaf_answers (ok : Bool) : Answers ok (performWfSaf ok f s) := answers_ite ok (performSaf_answers f s)

end

/-- A register write answers in whichever domain its register lies. -/
theorem execRegisterWrite_answers (init : Initiator) (off : Nat) (w : AccessWidth) (v : Word64) (s : State) :
    Answers (Instr.wf (.registerWrite init off w v)) (execRegisterWrite init off w v s) := by
  unfold execRegisterWrite
  split
  · exact performWfSaf_answers _ s _
  · exact performWf_answers _ s _

/-- Every command's meaning is one of the shared shapes, and its form is tested exactly where WellFormed tests it. -/
theorem exec_answers (c : Instr) (s : State) : Answers c.wf (exec c s) := by
  cases c with
  | porstNRelease | sysrstNRelease | porstNAssert | sysrstNAssert | peerFaultNHigh | peerFaultNLow =>
    exact answers_next _
  | droopCalibrationDone | fclkEdge | goldenClockEdge | goldenDeadline | csiFrameStart | csiFrameEnd | ingestDeadline | udpWindowClose
  | prepJobDispatch | prepJobDone | modelRegister | modelWarm | modelEvict | modelRetire | ctxCreate | ctxDestroy | ctxFork | ctxTrim
  | contextDrained | run | runChain | runDispatch | runComplete | cancel | kvpoolBuildDone | pipeConfig | pipeStart | pipeStop | roiSeed
  | nop | identify | getStatus | setSleep | setPlevel | attest | fwWrite | fuseProgram | eventArm | commandFetch | completionPost
  | wdogClose | wdogExpiry | mossRunStart | mossOverrun | ethLinkUp | ethLinkDown | ethTxDone | ethGateSwitch | ethGateInterval
  | gptpMessage | gptpSyncTimeout | roceWorkRequest | roceAckTimeout | roceRateRecovery | pcieCompletion | pcieCompletionTimeout
  | pcieLinkReset | dmaDescriptorFetch | dmaDescriptorComplete | dmaRetry | memChannelRetrain | sparePoisonFillDone | tokenPeriod
  | digestComputeDone | pllLock | pllLockLost | pllRelockRetry | mcgClockWaitExpiry | thermalForceStep | thermalLiftStep | droopRecover
  | rhizomeLockstepMismatch | pcieLinkUp | arpRequest | ethRxDiscard | gptpSyncInterval | postingRepeat =>
    exact perform_answers _ s
  | pushLenDoorbell | unlock =>
    exact performReg_answers _ s
  | ethPortEnable | ethTxSend | ethGateCommit | qpSqDoorbell | qpRqDoorbell | qpCqDoorbell | qpLoadContext | migrateRequest =>
    exact performBar_answers _ s
  | fclkEnable | fclkDisable | fclkPeriodWrite | hostSubmit | roiWindowWrite | roiCommit | slotGo | slotAbort | frndEpochWrite
  | frndFill | handleEntryWrite | kvpoolEnable | kvpoolDisable | sqTailDoorbell | cqHeadDoorbell | evqHeadDoorbell | sqEnable
  | sqDisable | cqEnable | cqDisable | dmaGo | dmaAbort | dmaResume =>
    exact performBlk_answers _ s
  | fwFlashWriteDone | lockstep | clkloss | heartbeat | heartbeatService | vddSafUndervoltage | faultRecord | twinLinkUp | twinLaneLoss
  | twinTrainRetry | heartbeatSend | heartbeatLoss | digestResend | digestReceive | digwaitExpiry | takeoverWaitExpiry | peerKill
  | pmicWriteDone | pmicRetry | pmicSettleExpiry | domainClockLoss | sleepEntryComplete | domainClockReturn
  | twinImageRequest | vddSafRestored =>
    exact performSaf_answers _ s
  | golden | goldenResult | descriptorFetch | descriptorComplete | spanTimerExpiry | vec | vecPload | pool | argmax | loadm | storem
  | move | cbload | wait | signal | optstep | kvappend | sorus | bankpwr | bankFenceResolve | bankFenceAbandon | bankTransitionDone
  | storeCorrectionWriteback | fillRaise | shardLoadDone | kvPageResolve | sorusWalk | kvUnpin | kvAppendCommit | epochInvalidationDone =>
    exact performFab_answers _ s _
  | canIntegrationDone | canRecoveryDone | canBusError | canSubmit | canArbitration | canTxDone | canReferenceSend | canSyncTimeout
  | canTtMissed =>
    exact performCan_answers _ s _
  | canLeaveInit | canEnterInit | borec | txreq | txabort | canRxGet | canRxcfgWrite =>
    exact performCanReg_answers _ s _
  | vehMotionRise | wakeNLow | wakeTimerExpiry | sleepExitComplete =>
    exact performAon_answers _ s
  | memoryTrainingDone | fabricSelfTestDone | csiLongPacket | udpIngestPayload | nocTransaction | peerCommandFrame | checkComplete
  | safeRestart | mossRunEnd | rocePacket | bar2Access | dmaBusError | memRead | memWrite | scrubStep | rowSpareDone
  | migrationBlockCopy | droopDetect | twinImageReceived =>
    exact performWf_answers _ s _
  | matmul | convtap | attn =>
    exact performWfFab_answers _ s _ _
  | heartbeatReceive =>
    exact performWfSaf_answers _ s _
  | padHoldRelease init v => exact performSaf_answers (fun t => wakeEvent 1 (opPadRelease init.toNat v.toNat t)) s
  | registerWrite init off w v => exact execRegisterWrite_answers init off w v s
  | canFrameReceive => exact answers_ite _ (performCan_answers _ s _)
  | imuTransfer => exact answers_ite _ (performSaf_answers _ s)

/-- Settles O58: a case for each domain in which a command may act. -/
theorem everyCommandAnswers : Obligations.EveryCommandAnswers := by
  unfold Obligations.EveryCommandAnswers
  exact exec_answers

end Sys2Proof.Machine
end

section
/-! PROOFS. The ROI tables: writes, commits and the choice at an edge (R76 to R78). -/

namespace Sys2Proof.Machine

/-! ### ROI tables (R76 to R78) -/

section
variable (r : StreamRec)

@[simp] theorem StreamRec.setPending_pendingBank (t : Tab Word32) : (r.setPending t).pendingBank = t := by
  unfold StreamRec.setPending StreamRec.pendingBank; split <;> simp_all

@[simp] theorem StreamRec.setPending_activeBank (t : Tab Word32) : (r.setPending t).activeBank = r.activeBank := by
  unfold StreamRec.setPending StreamRec.activeBank; split <;> simp_all

/-- At an edge the TARGET of a commit has come to, the banks swap; a table no older than MAX_AGE is the frame's (R78). -/
theorem StreamRec.choose_swap {maxAge : Nat} {k : Word32} (hp : r.roiPending = true)
    (h0 : 0 ≤ (k - r.pendTarget).toInt) (hage : (k - r.pendTarget).toInt ≤ maxAge) :
    r.choose maxAge k = { r with roiBank := !r.roiBank, roiPending := false, roiTgt := r.pendTarget, roiValid := true,
                                 roiAge := BitVec.ofInt 8 (k - r.pendTarget).toInt } := by
  have hn : ¬ (maxAge : Int) < (k - r.pendTarget).toInt := by omega
  simp [-BitVec.toInt_sub, StreamRec.choose, hp, h0, hn]

/-- With no commit pending, a table older than MAX_AGE gives way to the whole frame (R78). -/
theorem StreamRec.choose_tooOld {maxAge : Nat} {k : Word32} (hp : r.roiPending = false)
    (hage : (maxAge : Int) < (k - r.roiTgt).toInt) :
    r.choose maxAge k = { r with roiValid := false, roiAge := 0xFF } := by
  simp [-BitVec.toInt_sub, StreamRec.choose, hp, hage]

end

/-- Settles O39: the write and the commit by what one update of a stream's record does, the edge by the two cases of `choose`. -/
theorem roiTables : Obligations.RoiTables := by
  unfold Obligations.RoiTables
  refine ⟨fun s st w v target hs hup => ⟨?_, ?_⟩, fun r maxAge k => ⟨fun hp h0 hage => ?_, fun hp _ hage => ?_⟩⟩
  · refine ⟨_, performBlk_runs s (roiWrite st w v) hs hup, ?_⟩
    have hst : (roiWrite st w v s).stream st = (s.stream st).setPending (tset 0 (s.stream st).pendingBank w (v &&& roiMask w)) :=
      State.modStream_stream s _ _
    have hne : ∀ i, i ≠ st.val → (roiWrite st w v s).stream i = s.stream i := fun i => State.modStream_stream_ne s _ _ i
    have hwake : ∀ i, (wakeEvent 1 (roiWrite st w v s)).stream i = (roiWrite st w v s).stream i :=
      State.stream_congr _ (wakeEvent_loop _ 1)
    simp only [keepLatch_stream, hwake, hst, StreamRec.setPending_pendingBank, StreamRec.setPending_activeBank, tget_tset_self]
    exact ⟨trivial, trivial, fun i hi => tget_tset_ne 0 _ _ i _ hi, hne⟩
  · exact performBlk_runs s (roiCommit st target) hs hup
  · rw [r.choose_swap hp h0 hage]
    refine ⟨?_, rfl, rfl⟩
    unfold StreamRec.activeBank StreamRec.pendingBank
    cases r.roiBank <;> rfl
  · rw [r.choose_tooOld hp hage]
    exact ⟨rfl, rfl⟩

end Sys2Proof.Machine
end

section
/-! PROOFS. The symbol code: arithmetic in GF(2^8), syndromes, and what the decoder does with one or two symbols in error (R469 to R471). -/

namespace Sys2Proof.Machine

/-! ### Multiplication by powers of alpha (R469) -/

theorem gfDouble_xor (a b : Byte) : gfDouble (a ^^^ b) = gfDouble a ^^^ gfDouble b := by
  unfold gfDouble
  rw [BitVec.getLsbD_xor, BitVec.shiftLeft_xor_distrib]
  generalize (0x1D : Byte) = c
  cases a.getLsbD 7 <;> cases b.getLsbD 7 <;>
    simp only [Bool.bne_false, Bool.bne_true, Bool.not_true, Bool.not_false, if_true, Bool.false_eq_true, if_false]
  · ac_rfl
  · ac_rfl
  · rw [show a <<< 1 ^^^ c ^^^ (b <<< 1 ^^^ c) = (a <<< 1 ^^^ b <<< 1) ^^^ (c ^^^ c) by ac_rfl]
    simp

theorem gfDouble_eq_zero {a : Byte} : gfDouble a = 0 → a = 0 := by
  revert a; decide +kernel

theorem gfDouble_injective : Function.Injective gfDouble := fun a b h =>
  BitVec.xor_eq_zero_iff.mp (gfDouble_eq_zero (by rw [gfDouble_xor, h]; exact BitVec.xor_self))

theorem iterate_gfDouble_xor (n : Nat) (a b : Byte) : gfDouble^[n] (a ^^^ b) = gfDouble^[n] a ^^^ gfDouble^[n] b := by
  induction n generalizing a b with
  | zero => rfl
  | succ n ih => simp only [Function.iterate_succ_apply, gfDouble_xor, ih]

theorem iterate_gfDouble_zero (n : Nat) : gfDouble^[n] 0 = 0 := Function.iterate_fixed (by decide) n

theorem gfPow_eq_iterate (n : Nat) : gfPow n = gfDouble^[n] 1 := by
  induction n with
  | zero => rfl
  | succ n ih => rw [Function.iterate_succ_apply', ← ih]; rfl

/-- Every byte but 0 is a power of alpha. -/
theorem exists_eq_iterate_gfDouble {a : Byte} (h : a ≠ 0) : ∃ n, a = gfDouble^[n] 1 := by
  have hall : ∀ a : Byte, a = 0 ∨ a ∈ List.iterate gfDouble 1 255 := by decide +kernel
  obtain ⟨n, -, hn⟩ := List.mem_iterate.mp ((hall a).resolve_left h)
  exact ⟨n, hn⟩

/-- Alpha has order 255: a smaller power fixes no byte but 0. -/
theorem iterate_gfDouble_ne_self {a : Byte} (h : a ≠ 0) {n : Nat} (h0 : 0 < n) (hn : n < 255) : gfDouble^[n] a ≠ a := by
  have hone : (1 : Byte) ∉ List.iterate gfDouble 2 254 := by decide +kernel
  intro he
  obtain ⟨k, rfl⟩ := exists_eq_iterate_gfDouble h
  rw [← Function.iterate_add_apply, Nat.add_comm, Function.iterate_add_apply] at he
  have h1 : gfDouble^[n] 1 = 1 := gfDouble_injective.iterate k he
  obtain ⟨m, rfl⟩ := Nat.exists_eq_add_one.mpr h0
  exact hone (List.mem_iterate.mpr ⟨m, by omega, h1.symm⟩)

/-- Below the order the multiples of a byte are distinct. -/
theorem iterate_gfDouble_ne {a : Byte} (h : a ≠ 0) {m n : Nat} (hm : m < n) (hn : n < 255) : gfDouble^[m] a ≠ gfDouble^[n] a := by
  intro he
  rw [show n = m + (n - m) by omega, Function.iterate_add_apply] at he
  exact iterate_gfDouble_ne_self h (by omega) (by omega) (gfDouble_injective.iterate m he).symm

/-! ### The product of two bytes (R469) -/

/-- One bit of the second factor in gfMul: the sum so far and the next multiple of the first. -/
def gfMulStep (b : Byte) (x : Byte × Byte) (i : Nat) : Byte × Byte := (if b.getLsbD i then x.1 ^^^ x.2 else x.1, gfDouble x.2)

theorem gfMul_eq_foldl (a b : Byte) : gfMul a b = ((List.range 8).foldl (gfMulStep b) (0, a)).1 := rfl

theorem foldl_gfMulStep_xor (c : Byte) (l : List Nat) (x y : Byte × Byte) :
    (l.foldl (gfMulStep c) (x.1 ^^^ y.1, x.2 ^^^ y.2)).1 = (l.foldl (gfMulStep c) x).1 ^^^ (l.foldl (gfMulStep c) y).1 := by
  induction l generalizing x y with
  | nil => rfl
  | cons i l ih =>
    have hstep : gfMulStep c (x.1 ^^^ y.1, x.2 ^^^ y.2) i =
        ((gfMulStep c x i).1 ^^^ (gfMulStep c y i).1, (gfMulStep c x i).2 ^^^ (gfMulStep c y i).2) := by
      unfold gfMulStep
      cases c.getLsbD i
      · simp [gfDouble_xor]
      · simp only [gfDouble_xor, if_true, Prod.mk.injEq, and_true]; ac_rfl
    rw [List.foldl_cons, hstep, ih]; rfl

theorem foldl_gfMulStep_double (c : Byte) (l : List Nat) (x : Byte × Byte) :
    (l.foldl (gfMulStep c) (gfDouble x.1, gfDouble x.2)).1 = gfDouble (l.foldl (gfMulStep c) x).1 := by
  induction l generalizing x with
  | nil => rfl
  | cons i l ih =>
    have hstep : gfMulStep c (gfDouble x.1, gfDouble x.2) i = (gfDouble (gfMulStep c x i).1, gfDouble (gfMulStep c x i).2) := by
      unfold gfMulStep
      cases c.getLsbD i
      · rfl
      · simp [gfDouble_xor]
    rw [List.foldl_cons, hstep, ih]; rfl

theorem gfMul_xor_left (a b c : Byte) : gfMul (a ^^^ b) c = gfMul a c ^^^ gfMul b c := by
  have h0 : (0 ^^^ 0 : Byte) = 0 := by decide
  simpa only [gfMul_eq_foldl, h0] using foldl_gfMulStep_xor c (List.range 8) (0, a) (0, b)

theorem gfMul_iterate_left (n : Nat) (a b : Byte) : gfMul (gfDouble^[n] a) b = gfDouble^[n] (gfMul a b) := by
  induction n generalizing a with
  | zero => rfl
  | succ n ih =>
    rw [Function.iterate_succ_apply, Function.iterate_succ_apply, ih]
    have h0 : gfDouble 0 = 0 := by decide
    have hdouble := foldl_gfMulStep_double b (List.range 8) (0, a)
    rw [h0] at hdouble
    exact congrArg _ hdouble

theorem gfMul_one_left : ∀ b : Byte, gfMul 1 b = b := by decide +kernel
theorem gfMul_zero_left : ∀ b : Byte, gfMul 0 b = 0 := by decide +kernel
theorem gfMul_zero_right : ∀ a : Byte, gfMul a 0 = 0 := by decide +kernel

theorem gfMul_comm (a b : Byte) : gfMul a b = gfMul b a := by
  by_cases ha : a = 0
  · rw [ha, gfMul_zero_left, gfMul_zero_right]
  by_cases hb : b = 0
  · rw [hb, gfMul_zero_left, gfMul_zero_right]
  obtain ⟨m, rfl⟩ := exists_eq_iterate_gfDouble ha
  obtain ⟨n, rfl⟩ := exists_eq_iterate_gfDouble hb
  rw [gfMul_iterate_left, gfMul_iterate_left, gfMul_one_left, gfMul_one_left, ← Function.iterate_add_apply, Nat.add_comm,
    Function.iterate_add_apply]

theorem gfMul_iterate_right (n : Nat) (a b : Byte) : gfMul a (gfDouble^[n] b) = gfDouble^[n] (gfMul a b) := by
  rw [gfMul_comm, gfMul_iterate_left, gfMul_comm]

theorem gfMul_xor_right (a b c : Byte) : gfMul a (b ^^^ c) = gfMul a b ^^^ gfMul a c := by
  rw [gfMul_comm, gfMul_xor_left, gfMul_comm b, gfMul_comm c]

theorem gfMul_gfPow (a : Byte) (n : Nat) : gfMul a (gfPow n) = gfDouble^[n] a := by
  rw [gfPow_eq_iterate, gfMul_iterate_right, gfMul_comm, gfMul_one_left]

theorem gfMul_ne_zero {a b : Byte} (ha : a ≠ 0) (hb : b ≠ 0) : gfMul a b ≠ 0 := by
  obtain ⟨m, rfl⟩ := exists_eq_iterate_gfDouble ha
  rw [gfMul_iterate_left, gfMul_one_left]
  intro h
  exact hb (gfDouble_injective.iterate m (h.trans (iterate_gfDouble_zero m).symm))

/-! ### Syndromes (R469, R470) -/

/-- The value at alpha^j of a polynomial whose higher coefficients have given acc. -/
def gfEvalFrom (j : Nat) (acc : Byte) (l : List Byte) : Byte := l.foldl (fun acc b => gfDouble^[j] acc ^^^ b) acc

theorem gfEval_gfPow (j : Nat) (l : List Byte) : gfEval (gfPow j) l = gfEvalFrom j 0 l := by
  simp only [gfEval, gfEvalFrom, gfMul_gfPow]

@[simp] theorem gfEvalFrom_cons (j : Nat) (acc b : Byte) (l : List Byte) :
    gfEvalFrom j acc (b :: l) = gfEvalFrom j (gfDouble^[j] acc ^^^ b) l := rfl

theorem gfEvalFrom_xor (j : Nat) (a c : Byte) (l : List Byte) :
    gfEvalFrom j (a ^^^ c) l = gfEvalFrom j a l ^^^ gfDouble^[j * l.length] c := by
  induction l generalizing a c with
  | nil => rfl
  | cons b l ih =>
    rw [gfEvalFrom_cons, gfEvalFrom_cons, iterate_gfDouble_xor,
      show gfDouble^[j] a ^^^ gfDouble^[j] c ^^^ b = (gfDouble^[j] a ^^^ b) ^^^ gfDouble^[j] c by ac_rfl, ih,
      ← Function.iterate_add_apply, List.length_cons, Nat.mul_succ]

/-- A symbol in error adds its value times alpha^(j·l), l counted from the last symbol. -/
theorem gfEvalFrom_set (j : Nat) (e : Byte) (l : List Byte) (a : Byte) (i : Nat) (hi : i < l.length) :
    gfEvalFrom j a (l.set i (l.getD i 0 ^^^ e)) = gfEvalFrom j a l ^^^ gfDouble^[j * (l.length - 1 - i)] e := by
  induction l generalizing a i with
  | nil => exact absurd hi (Nat.not_lt_zero i)
  | cons b l ih =>
    cases i with
    | zero => simp [← BitVec.xor_assoc, gfEvalFrom_xor]
    | succ i =>
      have hi' : i < l.length := by simpa using hi
      rw [show (b :: l).length - 1 - (i + 1) = l.length - 1 - i by rw [List.length_cons]; omega]
      exact ih _ i hi'

theorem gfEval_set (j : Nat) (e : Byte) (l : List Byte) (i : Nat) (hi : i < l.length) :
    gfEval (gfPow j) (l.set i (l.getD i 0 ^^^ e)) = gfEval (gfPow j) l ^^^ gfDouble^[j * (l.length - 1 - i)] e := by
  rw [gfEval_gfPow, gfEval_gfPow, gfEvalFrom_set j e l 0 i hi]

/-- A word whose three syndromes are 0. -/
def IsCodeword (w : List Byte) : Prop := ∀ j < 3, gfEval (gfPow j) w = 0

/-- The value at alpha^j of the division's register, p_2 first. -/
def rsRegister (j : Nat) (p : Byte × Byte × Byte) : Byte := gfDouble^[j + j] p.1 ^^^ gfDouble^[j] p.2.1 ^^^ p.2.2

/-- alpha^j is a root of g for j below 3: x^3 = 7 x^2 + 14 x + 8 there (R470). -/
theorem generator_root {j : Nat} (hj : j < 3) (f : Byte) :
    gfDouble^[j + j] (gfMul f 0x07) ^^^ gfDouble^[j] (gfMul f 0x0E) ^^^ gfMul f 0x08 = gfDouble^[j + j + j] f := by
  have h : ∀ j < 3, ∀ f : Byte,
      gfDouble^[j + j] (gfMul f 0x07) ^^^ gfDouble^[j] (gfMul f 0x0E) ^^^ gfMul f 0x08 = gfDouble^[j + j + j] f := by decide +kernel
  exact h j hj f

theorem rsRegister_rsStep {j : Nat} (hj : j < 3) (p : Byte × Byte × Byte) (u : Byte) :
    rsRegister j (rsStep p u) = gfDouble^[j] (rsRegister j p) ^^^ gfDouble^[j + j + j] u := by
  have hroot := generator_root hj (p.1 ^^^ u)
  simp only [rsRegister, rsStep, iterate_gfDouble_xor, ← Function.iterate_add_apply] at hroot ⊢
  rw [show j + (j + j) = j + j + j by omega]
  calc _ = (gfDouble^[j + j] (gfMul (p.1 ^^^ u) 0x07) ^^^ gfDouble^[j] (gfMul (p.1 ^^^ u) 0x0E) ^^^ gfMul (p.1 ^^^ u) 0x08) ^^^
        (gfDouble^[j + j] p.2.1 ^^^ gfDouble^[j] p.2.2) := by ac_rfl
    _ = _ := by rw [hroot]; ac_rfl

/-- The register holds the remainder: at a root of g it has the value of what was divided. -/
theorem rsRegister_foldl {j : Nat} (hj : j < 3) (u : List Byte) (acc : Byte) (p : Byte × Byte × Byte)
    (h : rsRegister j p = gfDouble^[j + j + j] acc) :
    rsRegister j (u.foldl rsStep p) = gfDouble^[j + j + j] (gfEvalFrom j acc u) := by
  induction u generalizing acc p with
  | nil => exact h
  | cons b u ih =>
    refine ih _ _ ?_
    rw [rsRegister_rsStep hj, h, iterate_gfDouble_xor, ← Function.iterate_add_apply, ← Function.iterate_add_apply,
      Nat.add_comm j (j + j + j)]

theorem isCodeword_rsEncode (u : List Byte) : IsCodeword (rsEncode u) := by
  intro j hj
  have hreg := rsRegister_foldl hj u 0 (0, 0, 0) (by simp only [rsRegister, iterate_gfDouble_zero]; rfl)
  have hval : gfEval (gfPow j) (rsEncode u) =
      gfDouble^[j + j + j] (gfEvalFrom j 0 u) ^^^ rsRegister j (u.foldl rsStep (0, 0, 0)) := by
    rw [gfEval_gfPow]
    simp only [gfEvalFrom, rsEncode, rsCheck, rsRegister, List.foldl_append, List.foldl_cons, List.foldl_nil, iterate_gfDouble_xor,
      ← Function.iterate_add_apply]
    ac_rfl
  rw [hval, hreg]
  exact BitVec.xor_self

@[simp] theorem applyErrs_length (w : List Byte) (errs : List (Nat × Byte)) : (applyErrs w errs).length = w.length := by
  unfold applyErrs
  induction errs generalizing w with
  | nil => rfl
  | cons e errs ih => rw [List.foldl_cons, ih, List.length_set]

@[simp] theorem rsEncode_length (u : List Byte) : (rsEncode u).length = u.length + 3 := by simp [rsEncode, rsCheck]

/-! ### Decoding (R471) -/

theorem rsDecode_eq (w : List Byte) :
    rsDecode w = rsOutcome w.length (gfEval (gfPow 0) w) (gfEval (gfPow 1) w) (gfEval (gfPow 2) w) := rfl

theorem rsLocate_none {s0 s1 : Byte} {n : Nat} (h : ∀ m < n, gfDouble^[m] s0 ≠ s1) : rsLocate s0 s1 n = none := by
  induction n with
  | zero => rfl
  | succ n ih =>
    simp [rsLocate, ih (fun m hm => h m (by omega)), gfMul_gfPow, h n (by omega)]

/-- The decoder finds the least power that fits. -/
theorem rsLocate_some {s0 s1 : Byte} {l n : Nat} (hl : gfDouble^[l] s0 = s1) (hmin : ∀ m < l, gfDouble^[m] s0 ≠ s1) (hn : l < n) :
    rsLocate s0 s1 n = some l := by
  induction n with
  | zero => exact absurd hn (Nat.not_lt_zero l)
  | succ n ih =>
    rcases Nat.lt_succ_iff_lt_or_eq.mp hn with h | rfl
    · simp [rsLocate, ih h]
    · simp [rsLocate, rsLocate_none hmin, gfMul_gfPow, hl]

/-- One symbol in error is found, with its place and its value. -/
theorem rsDecode_one {w : List Byte} (hw : IsCodeword w) (hlen : w.length ≤ 255) {i : Nat} (hi : i < w.length) {e : Byte} (he : e ≠ 0) :
    rsDecode (applyErrs w [(i, e)]) = .corrected i e := by
  obtain ⟨l, hl⟩ : ∃ l, l = w.length - 1 - i := ⟨_, rfl⟩
  have hsyn : ∀ j < 3, gfEval (gfPow j) (applyErrs w [(i, e)]) = gfDouble^[j * l] e := fun j hj => by
    change gfEval (gfPow j) (w.set i (w.getD i 0 ^^^ e)) = _
    rw [gfEval_set j e w i hi, hw j hj, hl]; simp
  have hne : ∀ n, gfDouble^[n] e ≠ 0 := fun n h => he (gfDouble_injective.iterate n (h.trans (iterate_gfDouble_zero n).symm))
  have hsq : gfMul (gfDouble^[l] e) (gfDouble^[l] e) = gfMul e (gfDouble^[2 * l] e) := by
    rw [gfMul_iterate_left, gfMul_iterate_right, gfMul_iterate_right, ← Function.iterate_add_apply, Nat.two_mul]
  have hloc : rsLocate e (gfDouble^[l] e) w.length = some l :=
    rsLocate_some rfl (fun m hm => iterate_gfDouble_ne he hm (by omega)) (by omega)
  rw [rsDecode_eq, applyErrs_length, hsyn 0 (by omega), hsyn 1 (by omega), hsyn 2 (by omega), Nat.zero_mul, Nat.one_mul,
    Function.iterate_zero_apply]
  simp only [rsOutcome, he, hne, hsq, hloc, if_false, ne_eq, not_false_eq_true, and_self, if_true]
  rw [show w.length - 1 - l = i by omega]

/-- A correction gives back the codeword. -/
theorem rsCorrected_one {w : List Byte} (hw : IsCodeword w) (hlen : w.length ≤ 255) {i : Nat} (hi : i < w.length) {e : Byte}
    (he : e ≠ 0) :
    rsCorrected (applyErrs w [(i, e)]) = w := by
  unfold rsCorrected
  rw [rsDecode_one hw hlen hi he]
  simp [applyErrs, hi]

theorem rsCorrected_uncorrectable {w : List Byte} (h : rsDecode w = .uncorrectable) : rsCorrected w = w := by
  unfold rsCorrected; rw [h]

/-- The syndromes of two errors never fit one: s1² + s0·s2 is the product of their values and the square of their places' difference. -/
theorem syndromes_of_two {e f : Byte} (he : e ≠ 0) (hf : f ≠ 0) {k l : Nat} (hkl : k ≠ l) (hk : k < 128) (hl : l < 128) :
    gfMul (gfDouble^[k] e ^^^ gfDouble^[l] f) (gfDouble^[k] e ^^^ gfDouble^[l] f) ≠
      gfMul (e ^^^ f) (gfDouble^[2 * k] e ^^^ gfDouble^[2 * l] f) := by
  intro h
  simp only [gfMul_xor_left, gfMul_xor_right, gfMul_iterate_left, gfMul_iterate_right, iterate_gfDouble_xor,
    ← Function.iterate_add_apply, ← Nat.two_mul, gfMul_comm f e, Nat.add_comm l k] at h
  generalize gfDouble^[2 * k] (gfMul e e) = x at h
  generalize gfDouble^[2 * l] (gfMul f f) = y at h
  generalize gfDouble^[k + l] (gfMul e f) = z at h
  have hcross : gfDouble^[2 * k] (gfMul e f) = gfDouble^[2 * l] (gfMul e f) := by
    rw [show x ^^^ z ^^^ (z ^^^ y) = x ^^^ (z ^^^ z) ^^^ y by ac_rfl, BitVec.xor_self,
      show ∀ p q, x ^^^ p ^^^ (q ^^^ y) = x ^^^ (p ^^^ q) ^^^ y by intros; ac_rfl] at h
    exact BitVec.xor_eq_zero_iff.mp ((BitVec.xor_right_inj _).mp ((BitVec.xor_left_inj _).mp h)).symm
  rcases Nat.lt_or_gt_of_ne hkl with hlt | hlt
  · exact iterate_gfDouble_ne (gfMul_ne_zero he hf) (by omega : 2 * k < 2 * l) (by omega) hcross
  · exact iterate_gfDouble_ne (gfMul_ne_zero he hf) (by omega : 2 * l < 2 * k) (by omega) hcross.symm

/-- Two symbols in error are reported. -/
theorem rsDecode_two {w : List Byte} (hw : IsCodeword w) (hlen : w.length ≤ 128) {i j : Nat} (hij : i ≠ j) (hi : i < w.length)
    (hj : j < w.length) {e f : Byte} (he : e ≠ 0) (hf : f ≠ 0) : rsDecode (applyErrs w [(i, e), (j, f)]) = .uncorrectable := by
  obtain ⟨k, hk⟩ : ∃ k, k = w.length - 1 - i := ⟨_, rfl⟩
  obtain ⟨l, hl⟩ : ∃ l, l = w.length - 1 - j := ⟨_, rfl⟩
  have hsyn : ∀ n < 3, gfEval (gfPow n) (applyErrs w [(i, e), (j, f)]) = gfDouble^[n * k] e ^^^ gfDouble^[n * l] f := fun n hn => by
    let v := w.set i (w.getD i 0 ^^^ e)
    have hv : v.length = w.length := by simp [v]
    change gfEval (gfPow n) (v.set j (v.getD j 0 ^^^ f)) = _
    rw [gfEval_set n f v j (by omega), gfEval_set n e w i (by omega), hw n hn, hv, hk, hl]
    simp
  have hsq := syndromes_of_two he hf (by omega : k ≠ l) (by omega) (by omega)
  rw [rsDecode_eq, hsyn 0 (by omega), hsyn 1 (by omega), hsyn 2 (by omega), Nat.zero_mul, Nat.zero_mul, Nat.one_mul, Nat.one_mul,
    Function.iterate_zero_apply, Function.iterate_zero_apply]
  unfold rsOutcome
  rw [if_neg, if_neg (fun h => hsq h.2.2.2)]
  rintro ⟨h0, h1, -⟩
  rw [h0, h1] at hsq
  exact hsq (by rw [gfMul_zero_left, gfMul_zero_left])

end Sys2Proof.Machine
end

section
/-! PROOFS. What a transaction is made of: flits as they arrive, poison in main memory, the bytes of a number (R7, R33, R475). -/

namespace Sys2Proof.Machine

/-! ### Flits (R33) -/

section
variable (init cls a : Nat)

theorem flits_noErrs (n : Nat) (d : List PByte) (s : State) : flits init cls a n d [] s = (d, s) := by
  induction n generalizing d with
  | zero => rfl
  | succ n ih =>
    unfold flits
    split
    · next h => rw [h]
    · simp [flitReceive, ih]

/-- The first bytes of a flit's code word are its payload. -/
theorem take_rsEncode_slice (d : List Byte) (h : d.length ≤ 64) : (rsEncode (slice d 0 64)).take d.length = d := by
  simp [rsEncode, slice, List.take_of_length_le h]

theorem length_rsEncode_slice (d : List Byte) : (rsEncode (slice d 0 64)).length = 67 := by simp [slice]

@[simp] theorem plain_length (d : List PByte) : (plain d).length = d.length := List.length_map ..
@[simp] theorem clean_length (d : List Byte) : (clean d).length = d.length := List.length_map ..
@[simp] theorem plain_clean (d : List Byte) : plain (clean d) = d := by simp [plain, clean, Function.comp_def]
@[simp] theorem poisoned_clean (d : List Byte) : poisoned (clean d) = false := by simp [poisoned, clean]

/-- One symbol in error is corrected (R33). -/
theorem flitReceive_one {d : List PByte} (h : d.length ≤ 64) {e : SymErr} (hpos : e.pos.val < 67) (hflip : e.flip ≠ 0) :
    flitReceive d [e] = (d, true, false) := by
  have hlen := length_rsEncode_slice (plain d)
  have hw := isCodeword_rsEncode (slice (plain d) 0 64)
  have htake := take_rsEncode_slice (plain d) (by simpa using h)
  rw [plain_length] at htake
  have hzip : (plain d).zip (d.map (·.2)) = d := by simp [plain, List.zip_map']
  simp only [flitReceive, reduceCtorEq, if_false, List.map_cons, List.map_nil]
  rw [rsDecode_one hw (by omega) (by omega) hflip, rsCorrected_one hw (by omega) (by omega) hflip, htake]
  simp only [hzip]

/-- Two symbols in error poison the flit (R33). -/
theorem flitReceive_two {d : List PByte} (h : d.length ≤ 64) {e f : SymErr} (hne : e.pos ≠ f.pos) (he : e.pos.val < 67)
    (hf : f.pos.val < 67) (hflipe : e.flip ≠ 0) (hflipf : f.flip ≠ 0) :
    ∃ got : List Byte, got.length = d.length ∧ flitReceive d [e, f] = (got.map (fun b => (b, true)), false, true) := by
  have hlen := length_rsEncode_slice (plain d)
  have hdec := rsDecode_two (isCodeword_rsEncode (slice (plain d) 0 64)) (by omega) (fun hp => hne (Fin.ext hp)) (by omega) (by omega)
    hflipe hflipf
  refine ⟨(applyErrs (rsEncode (slice (plain d) 0 64)) [(e.pos.val, e.flip), (f.pos.val, f.flip)]).take d.length, ?_, ?_⟩
  · rw [List.length_take, applyErrs_length]; omega
  · simp only [flitReceive, reduceCtorEq, if_false, List.map_cons, List.map_nil, hdec, rsCorrected_uncorrectable hdec]

/-- A flit corrected is counted. -/
theorem flits_corrected (n : Nat) {d e : List PByte} (h0 : d ≠ []) (h : d.length ≤ 64) {errs : List SymErr} (s : State)
    (he : flitReceive d errs = (e, true, false)) :
    flits init cls a (n + 1) d [errs] s = (e, { s with gctl := { s.gctl with nocCorr := satInc s.gctl.nocCorr } }) := by
  rw [flits, if_neg h0, List.take_of_length_le h, List.headD_cons, he, List.drop_of_length_le h]
  simp [flits_noErrs]

/-- A flit poisoned is recorded, and outside class 0 nothing else happens. -/
theorem flits_poisoned (n : Nat) {d e : List PByte} (h0 : d ≠ []) (h : d.length ≤ 64) {errs : List SymErr} (s : State)
    (he : flitReceive d errs = (e, false, true)) (hc : class0Read init cls = false) :
    flits init cls a (n + 1) d [errs] s = (e, report (faultAt 0x0301 init a 0) s) := by
  rw [flits, if_neg h0, List.take_of_length_le h, List.headD_cons, he, List.drop_of_length_le h]
  simp [flits_noErrs, hc]
  rfl

end

/-! ### Poison in main memory (R475) -/

section
variable (s : State)

theorem State.lineMeta_congr {t : State} (h : t.mem = s.mem) (i : Nat) : t.lineMeta i = s.lineMeta i := by
  simp [State.lineMeta, State.chmap, h]

theorem setLineMeta_lineMeta (i : Nat) (p w : Bool) : ((setLineMeta i p w s).lineMeta i).poison = p := by
  have hm : tget {} (setLineMeta i p w s).mem.lines i =
      { poison := p, wss := w, held := (s.chmap (lchOf (i * 64))).wiped.isSome } := tget_tset_self _ _ _ _
  simp only [State.lineMeta, hm, setLineMeta_chmap]
  cases (s.chmap (lchOf (i * 64))).wiped <;> rfl

theorem setLineMeta_lineMeta_ne (i : Nat) (p w : Bool) {j : Nat} (h : j ≠ i) : (setLineMeta i p w s).lineMeta j = s.lineMeta j := by
  have hm : tget {} (setLineMeta i p w s).mem.lines j = tget {} s.mem.lines j := tget_tset_ne _ _ _ _ _ h
  simp only [State.lineMeta, hm, setLineMeta_chmap]

theorem transferOk_lineMeta (a j : Nat) : (transferOk a s).lineMeta j = s.lineMeta j := by
  unfold transferOk; split <;> rfl

/-- A line that takes poisoned data reads poisoned; a line's write leaves every other line's marks. -/
theorem writeLine_poison (a : Nat) (d : List PByte) (i : Nat) (h : poisoned (inLine a i d) = true) :
    ((writeLine a d i s).lineMeta i).poison = true := by
  rw [writeLine, setLineMeta_lineMeta, h, Bool.true_or]

theorem writeLine_lineMeta_ne (a : Nat) (d : List PByte) (i : Nat) {j : Nat} (h : j ≠ i) :
    (writeLine a d i s).lineMeta j = s.lineMeta j := by
  rw [writeLine, setLineMeta_lineMeta_ne _ _ _ _ h]
  exact transferOk_lineMeta s (i * 64) j

theorem foldl_writeLine_poison (a : Nat) (d : List PByte) (l : List Nat) (h : ∀ i ∈ l, poisoned (inLine a i d) = true) (j : Nat)
    (hj : j ∈ l ∨ (s.lineMeta j).poison = true) : ((l.foldl (fun t i => writeLine a d i t) s).lineMeta j).poison = true := by
  induction l generalizing s with
  | nil => exact hj.resolve_left (List.not_mem_nil)
  | cons i l ih =>
    refine ih _ (fun k hk => h k (List.mem_cons_of_mem i hk)) ?_
    by_cases hij : j = i
    · rw [hij]; exact .inr (writeLine_poison s a d i (h i List.mem_cons_self))
    · rw [writeLine_lineMeta_ne s a d i hij]
      exact hj.imp_left (fun hm => (List.mem_cons.mp hm).resolve_left hij)

/-- Every line an access touches takes some of its bytes. -/
theorem inLine_ne_nil {α : Type} {a i : Nat} {d : List α} (h0 : d ≠ []) (h : i ∈ linesOf a d.length) : inLine a i d ≠ [] := by
  have hlen : 0 < d.length := List.length_pos_iff.mpr h0
  simp only [linesOf, List.mem_map, List.mem_range] at h
  obtain ⟨k, hk, rfl⟩ := h
  rw [← List.length_pos_iff, inLine, List.length_take, List.length_drop]
  split <;> omega

/-- A write of poisoned bytes poisons every line it touches. -/
theorem memWrite_poison (a : Nat) {d : List PByte} (h0 : d ≠ []) (h : ∀ b ∈ d, b.2 = true) {j : Nat} (hj : j ∈ linesOf a d.length) :
    ((memWrite a d s).lineMeta j).poison = true := by
  refine foldl_writeLine_poison s a d _ (fun i hi => ?_) j (.inl hj)
  obtain ⟨b, hb⟩ := List.exists_mem_of_ne_nil _ (inLine_ne_nil h0 hi)
  exact List.any_eq_true.mpr ⟨b, hb, h b (List.mem_of_mem_drop (List.mem_of_mem_take hb))⟩

end

/-! ### Little-endian fields (R7) -/

@[simp] theorem toLe_length (n x : Nat) : (toLe n x).length = n := by
  induction n generalizing x with
  | zero => rfl
  | succ n ih => simp [toLe, ih]

theorem leNat_toLe (n x : Nat) : leNat (toLe n x) = x % 256 ^ n := by
  induction n generalizing x with
  | zero => simp [toLe, leNat, Nat.mod_one]
  | succ n ih =>
    rw [toLe, leNat, ih, Nat.pow_succ', Nat.mod_mul, BitVec.toNat_ofNat]

theorem toLe_add (m n x : Nat) : toLe (m + n) x = toLe m x ++ toLe n (x / 256 ^ m) := by
  induction m generalizing x with
  | zero => simp [toLe]
  | succ m ih => rw [Nat.succ_add, toLe, toLe, ih, Nat.div_div_eq_div_mul, Nat.pow_succ', List.cons_append]

/-- A field of a number's bytes. -/
theorem field_toLe (o n k x : Nat) : field (toLe (o + (n + k)) x) o n = x / 256 ^ o % 256 ^ n := by
  have hslice : slice (toLe (o + (n + k)) x) o n = toLe n (x / 256 ^ o) := by simp [slice, toLe_add]
  rw [field, hslice, leNat_toLe]

end Sys2Proof.Machine
end

section
/-! PROOFS. Transactions of the NOC and writes of registers, as the commands meet them (R9, R26, R33, R348, R349). -/

namespace Sys2Proof.Machine

/-! ### The parts of a well-formed transaction (R29, R33) -/

theorem NocAccess.wf_write {x : NocAccess} (h : x.wf = true) {d : List Byte} (hd : x.acc = .write d) : d ≠ [] := by
  simp only [NocAccess.wf, BusAcc.wf, hd, BusAcc.len, Bool.and_eq_true, decide_eq_true_eq] at h
  exact List.length_pos_iff.mp h.1.1.1.1.1

theorem NocAccess.wf_flitErrs {x : NocAccess} (h : x.wf = true) {l : List SymErr} (hl : l ∈ x.flitErrs) :
    (l.map (·.pos)).Nodup ∧ ∀ e ∈ l, e.flip ≠ 0 ∧ e.pos.val < 67 := by
  simp only [NocAccess.wf, SymErr.distinct, Bool.and_eq_true, List.all_eq_true, decide_eq_true_eq] at h
  obtain ⟨⟨⟨-, hflits⟩, -⟩, -⟩ := h
  obtain ⟨⟨hnodup, hflip⟩, hpos⟩ := hflits l hl
  exact ⟨hnodup, fun e he => ⟨hflip e he, hpos e he⟩⟩

/-! ### Main memory on the bus (R26, R348, R349) -/

section
variable {init cls a : Nat} {d : List PByte} {s : State} (h0 : d ≠ [])
include h0

theorem busWrite_unmapped (ht : targetRange a d.length = .unmapped) : busWrite init cls a d s = (false, reportUnmapped init a s) := by
  rw [busWrite, if_neg h0, ht]

theorem busWrite_denied (ht : targetRange a d.length = .main) (hf : s.fwMem init true a d.length = false) :
    busWrite init cls a d s = (false, reportFwMem init a s) := by
  rw [busWrite, if_neg h0, ht]; simp [hf]

theorem busWrite_main (ht : targetRange a d.length = .main) (hf : s.fwMem init true a d.length = true)
    (hl : ∀ i ∈ linesOf a d.length, s.lineLost i = false ∧ s.lineStopped i = false) :
    busWrite init cls a d s = (true, memWrite a d (useTokens init cls a d.length s)) := by
  have hany : (linesOf a d.length).any (fun i => s.lineLost i || s.lineStopped i) = false :=
    List.any_eq_false.mpr (fun i hi => by simp [hl i hi])
  rw [busWrite, if_neg h0, ht]; simp [hf, hany]

end

/-! ### NOC_TRANSACTION (R26, R28) -/

/-- An identifier that is issued, and not of a host whose link is down. -/
abbrev Reaches (s : State) (init : Initiator) : Prop := s.initIssued init.toNat = true ∧ (init = 0xB0 → s.gctl.pcieUp = true)

theorem Reaches.guard {s : State} {init : Initiator} (h : Reaches s init) :
    (!s.initIssued init.toNat || (init = 0xB0 && !s.gctl.pcieUp)) = false := by
  obtain ⟨hi, hup⟩ := h
  rw [hi, Bool.not_true, Bool.false_or]
  by_cases hb : init = 0xB0
  · rw [hup hb]; simp
  · rw [decide_eq_false hb]; rfl

section
variable {s : State} {x : NocAccess}

theorem exec_noc (hs : Runs s) (hx : x.wf = true) {t : State} (h : opNoc x s = t) : Completes (.nocTransaction x) s t := by
  subst h; exact performWf_runs s (opNoc x) _ hx hs

theorem opNoc_ignored (h : s.initIssued x.init.toNat = false ∨ (x.init = 0xB0 ∧ s.gctl.pcieUp = false)) : opNoc x s = s :=
  if_pos (by rcases h with h | ⟨h, hup⟩ <;> simp [*])

theorem opNoc_bar4 (hr : Reaches s x.init) (hb : x.bar4 = true) : opNoc x s = bar4Access x s := by
  rw [opNoc, hr.guard, hb]; rfl

theorem opNoc_read (hr : Reaches s x.init) (hb : x.bar4 = false) {n : Nat} (ha : x.acc = .read n) : opNoc x s = nocRead x n s := by
  rw [opNoc, hr.guard, hb, ha]; rfl

theorem opNoc_write (hr : Reaches s x.init) (hb : x.bar4 = false) {d : List Byte} (ha : x.acc = .write d) :
    opNoc x s = nocWrite x d s := by
  rw [opNoc, hr.guard, hb, ha]; rfl

/-- An answer whose flits arrive intact. -/
theorem nocReply_intact (hf : x.flitErrs = []) (r : Option (List PByte) × State) :
    nocReply x r = emit (.readReply x.init (r.1.map plain) (r.1.any poisoned)) r.2 := by
  obtain ⟨_ | d, t⟩ := r
  · rfl
  · simp [nocReply, flitReply, hf, flits_noErrs]

theorem mmioBusRead_admitted {init off n : Nat} (h : s.mmioDenied init false off n = false) :
    mmioBusRead init off n s = (some (mmioRead init s off n), s) := by
  rw [mmioBusRead, h]; rfl

theorem bar4Access_read (hf : x.flitErrs = []) {n : Nat} (ha : x.acc = .read n)
    (hd : s.mmioDenied x.init.toNat false (0x200000 + x.addr) n = false) :
    bar4Access x s = emit (.readReply x.init (some (mmioRead x.init.toNat s (0x200000 + x.addr) n)) false) s := by
  rw [bar4Access, ha]
  simp only [mmioBusRead_admitted hd, nocReply_intact hf, Option.map_some, plain_clean, Option.any_some, poisoned_clean]

theorem bar4Access_write (hf : x.flitErrs = []) {d : List Byte} (ha : x.acc = .write d)
    (hd : s.mmioDenied x.init.toNat true (0x200000 + x.addr) d.length = false) : bar4Access x s = s := by
  rw [bar4Access, ha]
  simp [hd, hf, flits_noErrs]

theorem nocRead_plain {n : Nat} (ht : targetRange x.addr n = .main ∨ targetRange x.addr n = .unmapped) :
    nocRead x n s = nocReply x (busRead x.init.toNat x.vc x.addr n s) := by
  rcases ht with ht | ht <;> rw [nocRead, ht]

theorem nocRead_frond {n f o : Nat} (ht : targetRange x.addr n = .frond f o) :
    nocRead x n s = nocReply x (busRead x.init.toNat x.vc x.addr n (placeStoreErrs f x.storeErrs s)) := by
  rw [nocRead, ht]

theorem nocRead_mmio (hf : x.flitErrs = []) {n o : Nat} (ht : targetRange x.addr n = .mmio o)
    (hd : s.mmioDenied x.init.toNat false o n = false) :
    nocRead x n s = emit (.readReply x.init (some (mmioRead x.init.toNat s o n)) false) s := by
  rw [nocRead, ht]
  simp only [mmioBusRead_admitted hd, nocReply_intact hf, Option.map_some, plain_clean, Option.any_some, poisoned_clean]

/-- A write of main memory takes its payload as the flits deliver it. -/
theorem nocWrite_main {d : List Byte} (ht : targetRange x.addr d.length = .main) {e : List PByte} {t : State}
    (hf : flits x.init.toNat x.vc x.addr (d.length / 64 + 1) (clean d) x.flitErrs s = (e, t)) :
    nocWrite x d s = nocDone x (busWrite x.init.toNat x.vc x.addr e t) := by
  rw [nocWrite, ht]; simp only [hf]

/-- A write whose flits arrive intact, of main memory or of no range. -/
theorem nocWrite_intact (hf : x.flitErrs = []) {d : List Byte}
    (ht : targetRange x.addr d.length = .main ∨ targetRange x.addr d.length = .unmapped) :
    nocWrite x d s = nocDone x (busWrite x.init.toNat x.vc x.addr (clean d) s) := by
  rcases ht with ht | ht
  · exact nocWrite_main ht (by rw [hf]; exact flits_noErrs ..)
  · rw [nocWrite, ht, hf, flits_noErrs]

end

/-! ### REGISTER_WRITE (R9, R10, R349) -/

section
variable {s : State} {init : Initiator} {off : Nat} {w : AccessWidth} {v : Word64}

/-- A write by the host of a register of BAR0 wakes the device in S1 and S2 (R566). -/
def hostWakes (init : Initiator) (t : State) : State := if init = 0xB0 then wakeEvent 1 t else t

theorem exec_registerWrite (hs : Runs s) (ho : off < 0x4000000) {t : State} (h : opRegisterWrite init off w v s = t) :
    Completes (.registerWrite init off w v) s t := by
  subst h
  have hwf : Instr.wf (.registerWrite init off w v) = true := decide_eq_true ho
  have hsaf : RunsSaf s := ⟨hs.1, by
    have h3 := hs.2
    simp only [State.asleep, Bool.and_eq_false_iff, decide_eq_false_iff_not] at h3 ⊢
    exact h3.imp_right (fun h => by omega)⟩
  change execRegisterWrite init off w v s = _
  unfold execRegisterWrite
  split
  · exact performWfSaf_runs s _ _ hwf hsaf
  · exact performWf_runs s _ _ hwf hs

theorem opRegisterWrite_ignored (h : s.initIssued init.toNat = false ∨ (init = 0xB0 ∧ s.gctl.pcieUp = false)) :
    opRegisterWrite init off w v s = s :=
  if_pos (by rcases h with h | ⟨h, hup⟩ <;> simp [*])

theorem isHost_iff : init.toNat = 0xB0 ↔ init = 0xB0 := BitVec.toNat_inj (y := 0xB0)

/-- A write the firewall admits, or that is not aligned and so not judged. -/
theorem opRegisterWrite_admitted (hr : Reaches s init) (hd : s.mmioDenied init.toNat true off (widthBytes w) = false) :
    opRegisterWrite init off w v s = hostWakes init (mmioWrite init.toNat off (toLe (widthBytes w) v.toNat) s) := by
  rw [opRegisterWrite, hr.guard]
  simp only [mmioBusWrite, toLe_length, hd, hostWakes, isHost_iff, Bool.false_eq_true, if_false, if_true]

/-- A write the firewall denies: recorded, and an error response to any initiator but the host. -/
theorem opRegisterWrite_denied (hr : Reaches s init) (hd : s.mmioDenied init.toNat true off (widthBytes w) = true) :
    opRegisterWrite init off w v s =
      if init = 0xB0 then wakeEvent 1 (reportFwMmio init.toNat (0x8000000000 + off) s)
      else emit (.readReply init none false) (reportFwMmio init.toNat (0x8000000000 + off) s) := by
  rw [opRegisterWrite, hr.guard]
  simp only [mmioBusWrite, toLe_length, hd, isHost_iff, Bool.false_eq_true, if_false, if_true, decide_eq_true_eq]
  split <;> rfl

theorem mmioWrite_unaligned {i : Nat} {d : List Byte} (h : mmioAligned off d.length = false) : mmioWrite i off d s = s := by
  rw [mmioWrite, h]; rfl

theorem mmioWrite_32 {i : Nat} (h : off % 4 = 0) : mmioWrite i off (toLe 4 v.toNat) s = mmioPut i off (v.setWidth 32) s := by
  have hv : BitVec.ofNat 32 (field (toLe 4 v.toNat) 0 4) = v.setWidth 32 := by
    rw [field_toLe 0 4 0]
    apply BitVec.eq_of_toNat_eq
    simp
  rw [mmioWrite]
  simp [mmioAligned, h, hv]

theorem mmioWrite_64 {i : Nat} (h : off % 8 = 0) :
    mmioWrite i off (toLe 8 v.toNat) s = mmioPut i (off + 4) ((v >>> 32).setWidth 32) (mmioPut i off (v.setWidth 32) s) := by
  have hlo : BitVec.ofNat 32 (field (toLe 8 v.toNat) 0 4) = v.setWidth 32 := by
    rw [field_toLe 0 4 4]
    apply BitVec.eq_of_toNat_eq
    simp
  have hhi : BitVec.ofNat 32 (field (toLe 8 v.toNat) 4 4) = (v >>> 32).setWidth 32 := by
    rw [field_toLe 4 4 0]
    apply BitVec.eq_of_toNat_eq
    simp [Nat.shiftRight_eq_div_pow]
  rw [mmioWrite]
  simp [mmioAligned, h, hlo, hhi]

/-- The blocks whose registers no write changes: THAL, MBOX and the context table (R27, R224, R415). -/
abbrev readOnlyBlock (off : Nat) : Prop :=
  (0xA00000 ≤ off ∧ off < 0xB00000) ∨ (0x200000 ≤ off ∧ off < 0x300000) ∨ (0x2000000 ≤ off ∧ off < 0x2100000)

theorem mmioPut_readOnly {i : Nat} {v : Word32} (h : readOnlyBlock off) : mmioPut i off v s = s := by
  have hown : ownSpace i off = false := by
    simp only [ownSpace, Bool.and_eq_false_iff, decide_eq_false_iff_not]
    omega
  have hdiv : off / 0x100000 = 10 ∨ off / 0x100000 = 2 ∨ off / 0x100000 = 32 := by omega
  unfold mmioPut blockFor blockOf
  rw [hown]
  rcases hdiv with hdiv | hdiv | hdiv <;> simp [hdiv, writeBlock]

theorem mmioWrite_readOnly {i : Nat} {d : List Byte} (h : readOnlyBlock off) : mmioWrite i off d s = s := by
  unfold mmioWrite
  split
  · rfl
  · next ha =>
    dsimp only
    rw [mmioPut_readOnly h]
    split
    · next h8 => exact mmioPut_readOnly (by simp [mmioAligned, h8] at ha; omega)
    · rfl

end

/-! ### The clauses of O8 that record a fault or correct a flit -/

/-- The record a block sends to the collector, as it stands on its way (R343). -/
abbrev stamped (r : FaultRec) (s : State) : FaultRec := { r with time := s.gctl.time }

section
variable {s : State} {x : NocAccess} (hs : Runs s) (hx : x.wf = true) (hr : Reaches s x.init) (hb : x.bar4 = false)
  {d : List Byte} (ha : x.acc = .write d)
include hx ha

theorem clean_write_ne_nil : clean d ≠ [] := by simpa [clean] using NocAccess.wf_write hx ha

/-- Two symbols of the one flit in error: recorded, and the bytes that are written are all poisoned. -/
theorem nocWrite_poisoned {e1 e2 : SymErr} (ht : targetRange x.addr d.length = .main) (hlen : d.length ≤ 64)
    (he : x.flitErrs = [[e1, e2]]) (hc : class0Read x.init.toNat x.vc = false) (hfw : s.fwMem x.init.toNat true x.addr d.length = true)
    (hl : ∀ i ∈ linesOf x.addr d.length, s.lineLost i = false ∧ s.lineStopped i = false) :
    ∃ e : List PByte, e ≠ [] ∧ e.length = d.length ∧ (∀ b ∈ e, b.2 = true) ∧
      nocWrite x d s = memWrite x.addr e (report (faultAt 0x0301 x.init.toNat x.addr 0) s) := by
  have hlen' : (clean d).length ≤ 64 := by simpa using hlen
  obtain ⟨hnodup, hsym⟩ := NocAccess.wf_flitErrs hx (l := [e1, e2]) (by simp [he])
  obtain ⟨hf1, hp1⟩ := hsym e1 (by simp)
  obtain ⟨hf2, hp2⟩ := hsym e2 (by simp)
  obtain ⟨got, hgot, hrecv⟩ := flitReceive_two hlen' (by simpa using hnodup) hp1 hp2 hf1 hf2
  have hflits := flits_poisoned x.init.toNat x.vc x.addr (d.length / 64) (clean_write_ne_nil hx ha) hlen' s hrecv hc
  have hlength : (got.map (fun b => (b, true))).length = d.length := by simpa using hgot
  have hne : got.map (fun b => (b, true)) ≠ [] := by
    rw [← List.length_pos_iff, hlength]; exact List.length_pos_iff.mpr (NocAccess.wf_write hx ha)
  refine ⟨_, hne, hlength, by simp, ?_⟩
  rw [nocWrite_main ht (he ▸ hflits), busWrite_main hne (hlength ▸ ht) (hlength ▸ hfw) (hlength ▸ hl), useTokens, hc]
  rfl

include hs hr hb

theorem exec_noc_corrected {e : SymErr} (ht : targetRange x.addr d.length = .main) (hlen : d.length ≤ 64) (he : x.flitErrs = [[e]])
    {t : State} (hbus : busWrite x.init.toNat x.vc x.addr (clean d)
      { s with gctl := { s.gctl with nocCorr := satInc s.gctl.nocCorr } } = (true, t)) :
    Completes (.nocTransaction x) s t := by
  have hlen' : (clean d).length ≤ 64 := by simpa using hlen
  obtain ⟨-, hsym⟩ := NocAccess.wf_flitErrs hx (l := [e]) (by simp [he])
  obtain ⟨hflip, hpos⟩ := hsym e (by simp)
  have hflits := flits_corrected x.init.toNat x.vc x.addr (d.length / 64) (clean_write_ne_nil hx ha) hlen' s
    (flitReceive_one hlen' hpos hflip)
  exact exec_noc hs hx (by rw [opNoc_write hr hb ha, nocWrite_main ht (he ▸ hflits), hbus]; rfl)

theorem exec_noc_poisoned {e1 e2 : SymErr} (ht : targetRange x.addr d.length = .main) (hlen : d.length ≤ 64)
    (he : x.flitErrs = [[e1, e2]]) (hc : class0Read x.init.toNat x.vc = false) (hfw : s.fwMem x.init.toNat true x.addr d.length = true)
    (hl : ∀ i ∈ linesOf x.addr d.length, s.lineLost i = false ∧ s.lineStopped i = false) :
    ∃ t r, exec (.nocTransaction x) s = .next t ∧ r.code = 0x0301 ∧ t.thal.inFlight = s.thal.inFlight ++ [r] ∧
      ∀ i ∈ linesOf x.addr d.length, (t.lineMeta i).poison = true := by
  obtain ⟨e, hne, hlength, hall, hw⟩ := nocWrite_poisoned hx ha ht hlen he hc hfw hl
  refine ⟨_, stamped (faultAt 0x0301 x.init.toNat x.addr 0) s, exec_noc hs hx ((opNoc_write hr hb ha).trans hw), rfl, ?_,
    fun i hi => ?_⟩
  · rw [keepLatch_thal, memWrite_frame]; rfl
  · rw [State.lineMeta_congr _ (keepLatch_mem _ _)]
    exact memWrite_poison _ _ hne hall (hlength ▸ hi)

theorem exec_noc_denied (ht : targetRange x.addr d.length = .main) (hf : x.flitErrs = [])
    (hfw : s.fwMem x.init.toNat true x.addr d.length = false) :
    ∃ t r, exec (.nocTransaction x) s = .next t ∧ r.code = 0x0920 ∧ t.thal.inFlight = s.thal.inFlight ++ [r] ∧ t.mem = s.mem ∧
      t.out = s.out ++ [.readReply x.init none false] := by
  have hbus := busWrite_denied (cls := x.vc) (clean_write_ne_nil hx ha) (by simpa using ht) (by simpa using hfw)
  have hop : opNoc x s = emit (.readReply x.init none false) (reportFwMem x.init.toNat x.addr s) := by
    rw [opNoc_write hr hb ha, nocWrite_intact hf (.inl ht), hbus]; rfl
  refine ⟨_, stamped (faultAt 0x0920 x.init.toNat x.addr 0) s, exec_noc hs hx hop, rfl, ?_, ?_, ?_⟩
  · rw [keepLatch_thal]; rfl
  · rw [keepLatch_mem]; rfl
  · rw [keepLatch_out]; rfl

theorem exec_noc_unmapped (ht : targetRange x.addr d.length = .unmapped) (hf : x.flitErrs = []) :
    ∃ t r, exec (.nocTransaction x) s = .next t ∧ r.code = 0x0302 ∧ t.thal.inFlight = s.thal.inFlight ++ [r] ∧ t.mem = s.mem := by
  have hbus := busWrite_unmapped (init := x.init.toNat) (cls := x.vc) (s := s) (clean_write_ne_nil hx ha) (by simpa using ht)
  have hop : opNoc x s = emit (.readReply x.init none false) (reportUnmapped x.init.toNat x.addr s) := by
    rw [opNoc_write hr hb ha, nocWrite_intact hf (.inr ht), hbus]; rfl
  refine ⟨_, stamped (faultAt 0x0302 x.init.toNat x.addr 0) s, exec_noc hs hx hop, rfl, ?_, ?_⟩
  · rw [keepLatch_thal]; rfl
  · rw [keepLatch_mem]; rfl

end

section
variable {s : State} {init : Initiator} {off : Nat} {w : AccessWidth} {v : Word64} (hs : Runs s) (ho : off < 0x4000000)
  (hr : Reaches s init) (hd : s.mmioDenied init.toNat true off (widthBytes w) = true)
include hs ho hr hd

/-- A denied register write of a NOC initiator gets an error response. -/
theorem exec_registerWrite_deniedNoc (hb : init ≠ 0xB0) :
    ∃ t r, exec (.registerWrite init off w v) s = .next t ∧ r.code = 0x0921 ∧ t.thal.inFlight = s.thal.inFlight ++ [r] ∧
      t.out = s.out ++ [.readReply init none false] := by
  refine ⟨_, stamped (faultAt 0x0921 init.toNat (0x8000000000 + off) 0) s,
    exec_registerWrite hs ho ((opRegisterWrite_denied hr hd).trans (if_neg hb)), rfl, ?_, ?_⟩
  · rw [keepLatch_thal]; rfl
  · rw [keepLatch_out]; rfl

/-- A denied register write of the host completes. -/
theorem exec_registerWrite_deniedHost (hb : init = 0xB0) :
    ∃ t r, exec (.registerWrite init off w v) s = .next t ∧ r.code = 0x0921 ∧ t.thal.inFlight = s.thal.inFlight ++ [r] ∧
      t.out = s.out := by
  refine ⟨_, stamped (faultAt 0x0921 init.toNat (0x8000000000 + off) 0) s,
    exec_registerWrite hs ho ((opRegisterWrite_denied hr hd).trans (if_pos hb)), rfl, ?_, ?_⟩
  · rw [keepLatch_thal, wakeEvent_thal]; rfl
  · rw [keepLatch_out, wakeEvent_out]; rfl

end

/-! ### The obligation -/

/-- Settles O8: each clause by the equation of the path its hypotheses name. -/
theorem transactionsAndRegisters : Obligations.TransactionsAndRegisters := by
  unfold Obligations.TransactionsAndRegisters
  refine ⟨fun s x hs hx => ⟨fun h => exec_noc hs hx (opNoc_ignored h), fun hi hup hb hf => ?_, fun hi hup hb => ?_⟩,
    fun s init off w v hs ho => ⟨fun h => exec_registerWrite hs ho (opRegisterWrite_ignored h), fun hi hup => ?_⟩⟩
  · have hop := opNoc_bar4 ⟨hi, hup⟩ hb
    exact ⟨fun n ha hd => exec_noc hs hx (hop.trans (bar4Access_read hf ha hd)),
      fun d ha hd => exec_noc hs hx (hop.trans (bar4Access_write hf ha hd))⟩
  · have hr : Reaches s x.init := ⟨hi, hup⟩
    refine ⟨fun n ha hf ht => ⟨fun d t hbus => ?_, fun t hbus => ?_⟩, fun n f o d t ha hf ht hbus => ?_, fun n o ha hf ht hd => ?_,
      fun d ha ht hf => ⟨fun t hbus => ?_, fun t hbus => ?_⟩, fun d e ha ht hlen he t => exec_noc_corrected hs hx hr hb ha ht hlen he,
      fun d e1 e2 ha => exec_noc_poisoned hs hx hr hb ha, fun d ha ht hf hfw => exec_noc_denied hs hx hr hb ha ht hf hfw,
      fun d ha ht hf => exec_noc_unmapped hs hx hr hb ha ht hf⟩
    · exact exec_noc hs hx (by rw [opNoc_read hr hb ha, nocRead_plain ht, nocReply_intact hf, hbus]; rfl)
    · exact exec_noc hs hx (by rw [opNoc_read hr hb ha, nocRead_plain ht, nocReply_intact hf, hbus]; rfl)
    · exact exec_noc hs hx (by rw [opNoc_read hr hb ha, nocRead_frond ht, nocReply_intact hf, hbus]; rfl)
    · exact exec_noc hs hx ((opNoc_read hr hb ha).trans (nocRead_mmio hf ht hd))
    · exact exec_noc hs hx (by rw [opNoc_write hr hb ha, nocWrite_intact hf ht, hbus]; rfl)
    · exact exec_noc hs hx (by rw [opNoc_write hr hb ha, nocWrite_intact hf ht, hbus]; rfl)
  · have hr : Reaches s init := ⟨hi, hup⟩
    refine ⟨fun hal => ?_, fun hd => ⟨?_, ?_, fun hro => ?_⟩, fun hd => ⟨exec_registerWrite_deniedNoc hs ho hr hd,
      exec_registerWrite_deniedHost hs ho hr hd⟩⟩
    · have hd : s.mmioDenied init.toNat true off (widthBytes w) = false := by simp [State.mmioDenied, hal]
      exact exec_registerWrite hs ho (by rw [opRegisterWrite_admitted hr hd, mmioWrite_unaligned (by simpa using hal)]; rfl)
    · rintro rfl ha
      exact exec_registerWrite hs ho ((opRegisterWrite_admitted hr hd).trans (congrArg (hostWakes init) (mmioWrite_32 ha)))
    · rintro rfl ha
      exact exec_registerWrite hs ho ((opRegisterWrite_admitted hr hd).trans (congrArg (hostWakes init) (mmioWrite_64 ha)))
    · exact exec_registerWrite hs ho (by rw [opRegisterWrite_admitted hr hd, mmioWrite_readOnly hro]; rfl)

end Sys2Proof.Machine
end

section
/-! PROOFS. The state after reset, one step, and the identity registers (R13, R36, R40, R41, R45, R342). -/

namespace Sys2Proof.Machine

/-! ### After reset (R36, R342) -/

/-- Settles O55: the state after reset is given field by field. -/
theorem latchHoldsAtReset : Obligations.LatchHoldsAtReset := by
  unfold Obligations.LatchHoldsAtReset
  exact ⟨nofun, rfl, nofun, rfl, reset_memory_wf, rfl⟩

/-! ### One step (R13) -/

section
variable (s : State)

theorem step_cons (c : Instr) (rest : List Instr) : step { s with pending := c :: rest } = exec c { s with pending := rest } := rfl

theorem step_nil (h : s.pending = []) : step s = .next (tick s) := by rw [step, h]

/-- 2 ns touch the timebase and the sleep counter alone. -/
theorem tick_frame : tick s = { s with gctl := (tick s).gctl, pwr := (tick s).pwr } := by
  unfold tick
  split
  · rfl
  · split <;> rfl

/-- A device that a reset pin holds keeps its state. -/
theorem tick_held (h : s.pins.porstN = false ∨ s.pins.sysrstN = false) : tick s = s := if_pos (by simpa using h)

/-- In S0, with no correction to slew, the timebase counts 2 ns. -/
theorem tick_time (hp : s.pins.porstN = true) (hr : s.pins.sysrstN = true) (hs : s.pwr.sleep = 0) (hl : s.gctl.slewLeft = 0) :
    (tick s).gctl.time = s.gctl.time + 2 := by
  have hslew : slewTick s.gctl = s.gctl := if_pos hl
  simp [tick, hp, hr, hs, hslew]

/-- In S3 and S4 the timebase stands still. -/
theorem tick_asleep (h : 3 ≤ s.pwr.sleep.toNat) : (tick s).gctl = s.gctl := by
  rw [tick, if_pos h]
  split <;> rfl

end

/-- Settles O53: the two branches of `step`, and what the tick of the empty queue does. -/
theorem stepRunsFrontCommand : Obligations.StepRunsFrontCommand := by
  unfold Obligations.StepRunsFrontCommand
  exact ⟨fun c rest s => step_cons s c rest, fun s hq =>
    ⟨tick s, step_nil s hq, tick_frame s, tick_held s, tick_time s, tick_asleep s⟩⟩

/-! ### GCTL's identity and its flit counter (R40, R41, R45) -/

section
variable (s : State)

theorem blockOf_gctl {off : Nat} (h : off < 0x100000) : blockOf off = (.gctl, off) := by
  rw [blockOf, Nat.div_eq_of_lt h, Nat.mod_eq_of_lt h]; rfl

theorem mmioWord_gctl {off : Nat} (h : off < 0x100000) : mmioWord s off = readGctl s off := by
  simp [mmioWord, blockWord, blockOf_gctl h, readBlock, State.answers, Block.restarts]

theorem mmioPut_gctl (init : Nat) {off : Nat} (h : off < 0x100000) (v : Word32) : mmioPut init off v s = writeGctl off v s := by
  have hown : ownSpace init off = false := by
    simp only [ownSpace, Bool.and_eq_false_iff, decide_eq_false_iff_not]; omega
  simp [mmioPut, blockFor, hown, blockOf_gctl h, writeBlock, State.answers, Block.restarts]

/-- GCTL_NOC_CORR reads the count of corrected flits. -/
theorem mmioWord_nocCorr : mmioWord s 0x20 = s.gctl.nocCorr.toNat := mmioWord_gctl s (by omega)

theorem mmioBusRead_gctl (init off n : Nat) : (mmioBusRead init off n s).2.gctl = s.gctl := by
  unfold mmioBusRead
  split <;> rfl

end

/-- Settles O54: the registers by GCTL's read and write functions, the count's step by the flit that is corrected. -/
theorem identityRegisters : Obligations.IdentityRegisters := by
  unfold Obligations.IdentityRegisters
  intro s
  refine ⟨?_, ?_, fun init v => ⟨mmioPut_gctl s init (by omega) v, mmioPut_gctl s init (by omega) v⟩, mmioWord_nocCorr s, rfl,
    fun init n => ?_, fun init => ?_, fun init cls a d e h0 hlen hpos hflip => ?_⟩
  · exact mmioWord_gctl s (by omega)
  · rw [mmioWord_gctl s (by omega), show readGctl s 4 = s.gctlFeat from rfl, State.gctlFeat]
    cases s.pins.twinRole <;> cases s.gctl.stream <;> cases s.gctl.aq <;> rfl
  · rw [mmioWord_nocCorr, mmioWord_nocCorr, mmioBusRead_gctl]
  · rw [mmioWord_nocCorr, mmioPut_gctl s init (by omega)]; rfl
  · exact flits_corrected init cls a 0 (List.length_pos_iff.mp h0) hlen s (flitReceive_one hlen hpos hflip)

end Sys2Proof.Machine
end

section
/-! PROOFS. Frame clocks: enabling, disabling, PERIOD and edges (R14, R15, R46, R47). -/

namespace Sys2Proof.Machine

/-! ### The first edge after an enable (R14) -/

theorem firstEdge_zero {start : Int} {t : Nat} (period : Nat) (h : (t : Int) ≤ start) : firstEdge start period t = 0 := if_pos h

theorem firstEdge_past {start : Int} {period t : Nat} (hp : 0 < period) (h : start < t) :
    firstEdge start period t = ((t : Int) - start).toNat ⌈/⌉ period := by
  rw [firstEdge, if_neg (by omega), Nat.max_eq_right hp]; rfl

/-- Settles O34: with START past, the number is a quotient rounded up. -/
theorem firstEdgeIsTheNext : Obligations.FirstEdgeIsTheNext := by
  unfold Obligations.FirstEdgeIsTheNext
  intro start period t hp
  rcases le_or_gt (t : Int) start with h | h
  · rw [firstEdge_zero period h]
    exact ⟨by omega, fun j hj => absurd hj (Nat.not_lt_zero j)⟩
  · rw [firstEdge_past hp h]
    obtain ⟨d, hd⟩ : ∃ d : Nat, d = ((t : Int) - start).toNat := ⟨_, rfl⟩
    rw [← hd]
    refine ⟨?_, fun j hj => ?_⟩
    · have hle : d ≤ period • (d ⌈/⌉ period) := le_smul_ceilDiv hp
      rw [smul_eq_mul, Nat.mul_comm] at hle
      omega
    · have hlt : period • j < d := not_le.mp (fun hle => absurd (ceilDiv_le_iff_le_smul hp |>.mpr hle) (not_le.mpr hj))
      rw [smul_eq_mul, Nat.mul_comm] at hlt
      omega

/-! ### The clocks' commands (R14, R15, R46, R47) -/

section
variable {s : State} {n : Nat}

theorem opFclkEnable_on (h : (s.fclk n).en = true) : opFclkEnable n s = s := if_pos h

theorem opFclkEnable_off (h : (s.fclk n).en = false) :
    opFclkEnable n s = State.modFclk n (fun c => { c with
      en := true, run := false, frame := 0xFFFFFFFF, inForce := c.period,
      next := firstEdge c.start.toInt c.period.toNat s.gctl.time.toNat }) s := if_neg (by simp [h])

theorem opFclkDisable_bound (h : s.fclkBound n = true) : opFclkDisable n s = s := if_pos h

theorem opFclkDisable_free (h : s.fclkBound n = false) :
    opFclkDisable n s = State.modFclk n (fun c => { c with en := false, run := false, frame := 0xFFFFFFFF, inForce := c.period }) s :=
  if_neg (by simp [h])

variable {v : Word32}

theorem opFclkPeriod_outside (h : v.toNat < 5000000 ∨ 200000000 < v.toNat) : opFclkPeriod n v s = s := if_pos h

theorem opFclkPeriod_breaking (h : ∃ p ∈ s.runningPipes, (s.pipe p).fclk = n ∧ s.breaksPipe p v.toNat = true) :
    opFclkPeriod n v s = s := by
  have hany : s.runningPipes.any (fun p => (s.pipe p).fclk = n && s.breaksPipe p v.toNat) = true := by simpa using h
  rw [opFclkPeriod, hany]
  simp

theorem opFclkPeriod_taken (hlo : 5000000 ≤ v.toNat) (hhi : v.toNat ≤ 200000000)
    (h : ∀ p ∈ s.runningPipes, (s.pipe p).fclk = n → s.breaksPipe p v.toNat = false) :
    opFclkPeriod n v s = State.modFclk n (fun c => { c with period := v, inForce := if c.en then c.inForce else v }) s := by
  have hany : s.runningPipes.any (fun p => (s.pipe p).fclk = n && s.breaksPipe p v.toNat) = false := by simpa using h
  rw [opFclkPeriod, if_neg (by omega), hany, if_neg Bool.false_ne_true]

theorem opFclkEdge_early (h : (s.fclk n).en = false ∨ (s.gctl.time.toNat : Int) < (s.fclk n).nextTime) : opFclkEdge n s = s :=
  if_pos (by rcases h with h | h <;> simp [h])

/-- The pipelines bound to a clock are none where no running one is. -/
theorem runningPipes_filter_unbound (h : s.fclkBound n = false) : s.runningPipes.filter (fun p => (s.pipe p).fclk = n) = [] := by
  simpa [State.fclkBound] using h

/-- A due edge of a clock that no running pipeline is bound to changes the clock alone. -/
theorem opFclkEdge_unbound (hen : (s.fclk n).en = true) (hdue : (s.fclk n).nextTime ≤ (s.gctl.time.toNat : Int))
    (hfree : s.fclkBound n = false) : opFclkEdge n s = State.modFclk n (fun c => c.fire s.gctl.time) s := by
  obtain ⟨t, ht⟩ : ∃ t, t = State.modFclk n (fun c => c.fire s.gctl.time) s := ⟨_, rfl⟩
  have hfree' : t.fclkBound n = false := by rw [ht]; exact hfree
  unfold opFclkEdge
  rw [if_neg (by simp [hen, hdue]), ← ht]
  simp only [hfree', Bool.false_eq_true, if_false, runningPipes_filter_unbound hfree', List.foldl_nil]

end

/-- Settles O33: each command by the equation of the branch its hypotheses name. -/
theorem frameClocks : Obligations.FrameClocks := by
  unfold Obligations.FrameClocks
  intro s n hs
  have hblk : ∀ {f : State → State} {t : State}, s.blocksUp = true → f s = t →
      performBlk f s = .next (keepLatch s (wakeEvent 1 t)) := fun hup hf => hf ▸ performBlk_runs s _ hs hup
  have hedge : ∀ {t : State}, opFclkEdge n s = t → Completes (.fclkEdge n) s t := fun h => h ▸ perform_runs s _ hs
  exact ⟨fun hup h => hblk hup (opFclkEnable_on h), fun hup h => hblk hup (opFclkEnable_off h),
    fun hup h => hblk hup (opFclkDisable_bound h), fun hup h => hblk hup (opFclkDisable_free h),
    fun hup v h => hblk hup (opFclkPeriod_outside h), fun hup v _ _ h => hblk hup (opFclkPeriod_breaking h),
    fun hup v hlo hhi h => hblk hup (opFclkPeriod_taken hlo hhi h), fun h => hedge (opFclkEdge_early h),
    fun hen hdue hfree => hedge (opFclkEdge_unbound hen hdue hfree)⟩

end Sys2Proof.Machine
end

section
/-! PROOFS. CHECK, its decision and the stage watchdogs (R16, R317, R319, R328, R330, R331, R338). -/

namespace Sys2Proof.Machine

/-! ### CHECK (R16, R319) -/

section
variable {s : State} {p : Nat} {plan : List (Fin 16 × List Byte)}

/-- The frames whose CHECK may end: PLAN complete, golden requests answered, the twin wait judged (R16). -/
abbrev checkable (s : State) (p : Nat) (l : Ledger) : Bool := l.stageDone 3 && s.goldenAnswered p l.frame && s.twinSettled p l

theorem opCheckComplete_idle (h : (s.pipe p).running = false ∨ (s.pipe p).cls ≠ 0) : opCheckComplete p plan s = s :=
  if_pos (by rcases h with h | h <;> simp [h])

theorem opCheckComplete_none (h : s.frameWhere p 4 (checkable s p) = none) : opCheckComplete p plan s = s := by
  unfold opCheckComplete
  split
  · rfl
  · rw [h]

variable (hrun : (s.pipe p).running = true) (hcls : (s.pipe p).cls = 0) {l : Ledger} (hl : s.frameWhere p 4 (checkable s p) = some l)
include hrun hcls hl

/-- What CHECK does once PLAUS has been judged: v is the state with its record and doubt, where the plan fails. -/
theorem opCheckComplete_judged {v : State}
    (hv : v = if s.plausFails p l.frame plan then doubt p l.frame 3 0x0904 (reportFrame 0x0904 p l.frame true 0 s) else s) :
    ((v.pipe p).running = false → opCheckComplete p plan s = v) ∧
    ((v.pipe p).running = true → ((markStage p l.frame 4 v).pipe p).running = true → opCheckComplete p plan s =
      advanceEgress p l.frame (planSubmit p l.frame plan (decide_ p l.frame (markStage p l.frame 4 v)))) := by
  have hgo : (!((s.pipe p).running && (s.pipe p).cls = 0)) = false := by simp [hrun, hcls]
  unfold opCheckComplete
  rw [hgo, hl]
  simp only [Bool.false_eq_true, if_false, ← hv]
  exact ⟨fun h => by simp [h], fun h hm => by simp [h, hm]⟩

end

/-! ### The stage watchdogs (R331) -/

section
variable {s : State} {p i : Nat}

theorem opWdogClose_disarmed (h : (s.wdog (wdogNo p i)).armed = false) : opWdogClose p i s = s := if_pos (by simp [h])

theorem opWdogExpiry_disarmed (h : (s.wdog (wdogNo p i)).armed = false) : opWdogExpiry p i s = s := if_pos (by simp [h])

variable {l : Ledger} (ha : (s.wdog (wdogNo p i)).armed = true)
include ha

theorem opWdogClose_late
    (hl : s.frameWhere p i (fun l => !(s.wdog (wdogNo p i)).lateFor.contains l.frame &&
      decide (l.tEdge.toNat + s.closeOf p i ≤ s.gctl.time.toNat)) = some l)
    (hrun : ((wdogLate p i l (if i = 4 then checkUnverified p l.frame s else s)).pipe p).running = true) :
    opWdogClose p i s = advanceEgress p l.frame (decide_ p l.frame
      (wdogLate p i l (if i = 4 then checkUnverified p l.frame s else s))) := by
  unfold opWdogClose
  simp only [ha, hl, hrun, Bool.not_true, Bool.false_eq_true, if_false, if_true]

theorem opWdogExpiry_expired
    (hl : s.frameWhere p i (fun l => !(s.wdog (wdogNo p i)).expiredFor.contains l.frame &&
      decide (l.tEdge.toNat + s.closeOf p i + (s.fclk (s.pipe p).fclk).inForce.toNat ≤ s.gctl.time.toNat)) = some l) :
    opWdogExpiry p i s = safeDecide (report { withPipe s p l.frame { code := 0x0903 } with safe := true }
      (State.modWdog (wdogNo p i) (fun w => { w with expired := true, expiredFor := l.frame :: w.expiredFor.take 63 }) s)) := by
  unfold opWdogExpiry
  simp only [ha, hl, Bool.not_true, Bool.false_eq_true, if_false]
  rfl

end

theorem stageNo_eq_four_iff (stage : Stage) : stageNo stage = 4 ↔ stage = .check := by cases stage <;> decide

/-- Settles O28: CHECK by whether PLAUS fails, the watchdogs by the frame whose window has closed. -/
theorem watchdogsAndCheck : Obligations.WatchdogsAndCheck := by
  unfold Obligations.WatchdogsAndCheck
  intro s p hs
  refine ⟨fun plan hwf => ?_, fun stage => ?_⟩
  · have hcheck : ∀ {t : State}, opCheckComplete p plan s = t → Completes (.checkComplete p plan) s t :=
      fun h => h ▸ performWf_runs s _ _ hwf hs
    refine ⟨fun h => hcheck (opCheckComplete_idle h), fun h => hcheck (opCheckComplete_none h), fun l hrun hcls hl hok hm => ?_,
      fun l hrun hcls hl hbad => ?_⟩
    · exact hcheck ((opCheckComplete_judged hrun hcls hl (if_neg (by simp [hok])).symm).2 hrun hm)
    · obtain ⟨hstop, hgo⟩ := opCheckComplete_judged hrun hcls hl (if_pos hbad).symm
      exact ⟨fun h => hcheck (hstop h), fun h hm => hcheck (hgo h hm)⟩
  · have hclose : ∀ {t : State}, opWdogClose p (stageNo stage) s = t → Completes (.wdogClose p stage) s t :=
      fun h => h ▸ perform_runs s _ hs
    have hexpiry : ∀ {t : State}, opWdogExpiry p (stageNo stage) s = t → Completes (.wdogExpiry p stage) s t :=
      fun h => h ▸ perform_runs s _ hs
    simp only [← stageNo_eq_four_iff]
    exact ⟨fun h => ⟨hclose (opWdogClose_disarmed h), hexpiry (opWdogExpiry_disarmed h)⟩,
      fun l ha hl hrun => hclose (opWdogClose_late ha hl hrun), fun l ha hl => hexpiry (opWdogExpiry_expired ha hl)⟩

end Sys2Proof.Machine
end

section
/-! PROOFS. The PCI Express endpoint: BAR2, outbound completions and the link (R33, R532, R534, R535, R537, R552, R586). -/

namespace Sys2Proof.Machine

/-! ### BAR2 (R534, R586) -/

section
variable {s : State} {off : Nat} {acc : BusAcc}

theorem BusAcc.wf_iff : acc.wf = true ↔ 0 < acc.len ∧ acc.len ≤ 4096 := by
  rw [BusAcc.wf, Bool.and_eq_true, decide_eq_true_eq, decide_eq_true_eq]

theorem opBar2_down (h : s.gctl.pcieUp = false) : opBar2 off acc s = s := if_pos (by simp [h])

variable (hup : s.gctl.pcieUp = true)
include hup

theorem opBar2_outside (h : 0x1000000000 < off + acc.len) : opBar2 off acc s = emit .unsupportedRequest s := by
  unfold opBar2
  rw [hup, if_neg (by simp), if_pos h]

variable (hin : off + acc.len ≤ 0x1000000000)
include hin

theorem opBar2_hostWait (hw : s.sec.phase = .hostWait) : opBar2 off acc s = stagingAccess off acc s := by
  unfold opBar2
  rw [hup, if_neg (by simp), if_neg (by omega), if_pos hw]

theorem opBar2_untrained (hw : s.sec.phase ≠ .hostWait) (hb : s.gctl.bootStage.toNat < 3) : opBar2 off acc s = asR9 acc s := by
  unfold opBar2
  rw [hup, if_neg (by simp), if_neg (by omega), if_neg hw, if_pos hb]

end

section
variable {s : State} {off : Nat} (hup : s.gctl.pcieUp = true) (hw : s.sec.phase ≠ .hostWait) (hb : 3 ≤ s.gctl.bootStage.toNat)
include hup hw hb

theorem opBar2_read {n : Nat} (hin : off + (BusAcc.read n).len ≤ 0x1000000000) : opBar2 off (.read n) s = bar2Read off n s := by
  unfold opBar2
  rw [hup, if_neg (by simp), if_neg (by omega), if_neg hw, if_neg (by omega)]

theorem opBar2_write {d : List Byte} (hin : off + (BusAcc.write d).len ≤ 0x1000000000) : opBar2 off (.write d) s = bar2Write off d s := by
  unfold opBar2
  rw [hup, if_neg (by simp), if_neg (by omega), if_neg hw, if_neg (by omega)]

end

section
variable {s : State} {off : Nat}

theorem stagingAccess_read {n : Nat} (h : off + n ≤ 0x400000) :
    stagingAccess off (.read n) s = emit (.readReply 0xB0 (some (treadN 0 s.sec.staging off n)) false) s := if_neg (Nat.not_lt.mpr h)

theorem stagingAccess_write {d : List Byte} (h : off + d.length ≤ 0x400000) :
    stagingAccess off (.write d) s = { s with sec := { s.sec with staging := twriteN 0 s.sec.staging off d } } := if_neg (Nat.not_lt.mpr h)

end

section
variable {s : State} {off n : Nat} {b : List (Nat × Nat × Option (List PByte))} {t : State}
  (h : readBlocks 0xB0 3 (n / 64 + 2) off n s = (b, t))
include h

theorem bar2Read_sound (hp : poisoned (b.flatMap bar2Data) = false) :
    bar2Read off n s = emit (.readReply 0xB0 (some (plain (b.flatMap bar2Data))) false) t := by
  unfold bar2Read
  simp [h, hp]

theorem bar2Read_poisoned (hp : poisoned (b.flatMap bar2Data) = true) :
    bar2Read off n s = report (faultAt 0x0703 0xB0 off 0) (emit (.readReply 0xB0 (some (plain (b.flatMap bar2Data))) true) t) := by
  unfold bar2Read
  simp [h, hp]

end

/-! ### Outbound completions (R33, R535) -/

section
variable {s : State} {tag : Nat}

theorem awaitAnswer_past {k : CplKind} (h : tag < s.gctl.obNextTag) : awaitAnswer tag k s = s := if_pos h

theorem opCompletion_none (h : s.outReq tag = none) (k : CplKind) : opCompletion tag k s = awaitAnswer tag k s := by
  rw [opCompletion, h]

theorem opCplTimeout_none (h : s.outReq tag = none) : opCplTimeout tag s = awaitAnswer tag .ur s := by rw [opCplTimeout, h]

variable {q : ObReq} (h : s.outReq tag = some q)
include h

theorem opCompletion_some (k : CplKind) :
    opCompletion tag k s =
      flitReply q.init q.cls q.addr q.flitErrs (hostAnswer k q.init.toNat (windowOf q.addr) q.addr q.len (dropReq tag s)) := by
  rw [opCompletion, h]

theorem opCplTimeout_some : opCplTimeout tag s = failReq 0x0704 q (dropReq tag s) := by rw [opCplTimeout, h]

/-- Data whose flits arrive intact. -/
theorem opCompletion_intact (hf : q.flitErrs = []) (d : List Byte) :
    opCompletion tag (.data d) s = emit (.readReply q.init (some (slice d 0 q.len)) false) (dropReq tag s) := by
  rw [opCompletion_some h]
  simp [hostAnswer, flitReply, hf, flits_noErrs]

end

/-! ### The link (R537, R552) -/

section
variable (s : State)

/-- A request that fails is answered and recorded, and nothing else. -/
theorem failReq_frame (code : BitVec 16) (q : ObReq) : ∃ r : FaultRec, r.code = code ∧
    failReq code q s = { s with thal := { s.thal with inFlight := s.thal.inFlight ++ [r] }, out := s.out ++ [.readReply q.init none false] } :=
  ⟨_, rfl, rfl⟩

/-- Requests that fail together: one record each. -/
theorem foldl_failReq_frame (code : BitVec 16) (qs : List (Nat × ObReq)) : ∃ (l : List FaultRec) (o : List Emit),
    l.length = qs.length ∧ (∀ r ∈ l, r.code = code) ∧
    qs.foldl (fun t e => failReq code e.2 t) s =
      { s with thal := { s.thal with inFlight := s.thal.inFlight ++ l }, out := s.out ++ o } := by
  induction qs generalizing s with
  | nil => exact ⟨[], [], rfl, nofun, by simp⟩
  | cons e qs ih =>
    obtain ⟨r, hr, hs⟩ := failReq_frame s code e.2
    obtain ⟨l, o, hlen, hl, hfold⟩ := ih (failReq code e.2 s)
    refine ⟨r :: l, .readReply e.2.init none false :: o, by simp [hlen], by simpa using ⟨hr, hl⟩, ?_⟩
    rw [List.foldl_cons, hfold, hs]
    simp

/-- A width and a speed the endpoint trains to, with its clock (R532, R552, R558). -/
theorem opPcieUp_trained {w : BitVec 4} {v : BitVec 3} (hc : s.pwr.lostDomains.contains .pcie = false) (hw : w.toNat ∈ [1, 2, 4, 8])
    (h1 : 1 ≤ v.toNat) (h5 : v.toNat ≤ 5) :
    opPcieUp w v s = { s with gctl := { s.gctl with pcieUp := true, pcieWidth := w, pcieSpeed := v } } := by
  rw [opPcieUp, hc, List.contains_iff_mem.mpr hw, decide_eq_true h1, decide_eq_true h5]
  rfl

theorem opPcieUp_refused {w : BitVec 4} {v : BitVec 3}
    (h : s.pwr.lostDomains.contains .pcie = true ∨ w.toNat ∉ [1, 2, 4, 8] ∨ v = 0 ∨ 5 < v.toNat) : opPcieUp w v s = s := by
  refine if_neg fun hall => ?_
  simp only [Bool.and_eq_true, Bool.not_eq_true', decide_eq_true_eq, List.contains_iff_mem] at hall
  obtain ⟨⟨⟨hc, hw⟩, h1⟩, h5⟩ := hall
  rcases h with h | h | rfl | h
  · rw [hc] at h; exact Bool.false_ne_true h
  · exact h hw
  · exact absurd h1 (by decide)
  · omega

end

/-- Settles O6: each clause by the equation of the branch its hypotheses name. -/
theorem pcieEndpoint : Obligations.PcieEndpoint := by
  unfold Obligations.PcieEndpoint
  intro s hs
  have hbar2 : ∀ {off : Nat} {a : BusAcc} {t : State}, a.wf = true → opBar2 off a s = t → Completes (.bar2Access off a) s t :=
    fun hwf h => h ▸ performWf_runs s _ _ hwf hs
  have hcpl : ∀ {tag : Nat} {k : CplKind} {t : State}, opCompletion tag k s = t → Completes (.pcieCompletion tag k) s t :=
    fun h => h ▸ perform_runs s _ hs
  have htime : ∀ {tag : Nat} {t : State}, opCplTimeout tag s = t → Completes (.pcieCompletionTimeout tag) s t :=
    fun h => h ▸ perform_runs s _ hs
  have hlink : ∀ {w : BitVec 4} {v : BitVec 3} {t : State}, opPcieUp w v s = t → Completes (.pcieLinkUp w v) s t :=
    fun h => h ▸ perform_runs s _ hs
  refine ⟨fun off a hwf => ⟨fun h => hbar2 hwf (opBar2_down h), fun hup h => hbar2 hwf (opBar2_outside hup h)⟩,
    fun off n hup h1 h4 hin => ?_, fun off d hup h1 h4 hin => ?_, fun tag hq => ⟨fun hlt => ?_, fun hle => ?_⟩, fun tag q hq => ?_, ?_,
    fun w v => ⟨fun hc hw h1 h5 => hlink (opPcieUp_trained s hc hw h1 h5), fun h => hlink (opPcieUp_refused s h)⟩⟩
  · have hwf : (BusAcc.read n).wf = true := BusAcc.wf_iff.mpr ⟨h1, h4⟩
    refine ⟨fun hw hb => hbar2 hwf (opBar2_untrained hup hin hw hb),
      fun hw hst => hbar2 hwf ((opBar2_hostWait hup hin hw).trans (stagingAccess_read hst)), fun b t hw hb hr => ?_⟩
    have htr := opBar2_read hup hw hb hin
    exact ⟨fun hp => hbar2 hwf (htr.trans (bar2Read_sound hr hp)), fun hp => hbar2 hwf (htr.trans (bar2Read_poisoned hr hp))⟩
  · have hwf : (BusAcc.write d).wf = true := BusAcc.wf_iff.mpr ⟨h1, h4⟩
    refine ⟨fun hw hb => hbar2 hwf (opBar2_untrained hup hin hw hb),
      fun hw hst => hbar2 hwf ((opBar2_hostWait hup hin hw).trans (stagingAccess_write hst)), fun hw hb => ?_⟩
    have htr := opBar2_write hup hw hb hin
    exact ⟨fun t h => hbar2 hwf (by rw [htr, bar2Write, h]; rfl), fun t h => hbar2 hwf (by rw [htr, bar2Write, h]; rfl)⟩
  · exact ⟨fun k => hcpl ((opCompletion_none hq k).trans (awaitAnswer_past hlt)), htime ((opCplTimeout_none hq).trans (awaitAnswer_past hlt))⟩
  · exact ⟨fun k => hcpl (opCompletion_none hq k), htime (opCplTimeout_none hq)⟩
  · exact ⟨fun hf d => hcpl (opCompletion_intact hq hf d), fun d => hcpl (opCompletion_some hq _),
      fun d => ⟨_, rfl, hcpl (opCompletion_some hq _)⟩, hcpl (opCompletion_some hq _), hcpl (opCompletion_some hq _),
      htime (opCplTimeout_some hq)⟩
  · obtain ⟨l, o, hlen, hl, hfold⟩ := foldl_failReq_frame
      { s with gctl := { s.gctl with pcieUp := false, obReqs := [], hostCpl := [] } } 0x0701 s.gctl.obReqs
    refine ⟨_, perform_runs s opPcieReset hs, ?_⟩
    rw [keepLatch_gctl, keepLatch_mem, keepLatch_thal, opPcieReset, hfold]
    exact ⟨rfl, rfl, rfl, l, rfl, hlen, hl⟩

end Sys2Proof.Machine
end

section
/-! PROOFS. Gate control lists and gPTP (R13, R522, R523). -/

namespace Sys2Proof.Machine

/-! ### Gates (R522) -/

section
variable {s : State} {n : Nat}

theorem opGateSwitch_waits (h : (s.port n).gatePending = false ∨ (s.port n).switchNow s.gctl.time.toNat = false) :
    opGateSwitch n s = s := if_neg (by rcases h with h | h <;> simp [h])

/-- The admin list becomes the list in operation, from its first entry. -/
theorem opGateSwitch_due (hp : (s.port n).gatePending = true) (ht : (s.port n).switchNow s.gctl.time.toNat = true) :
    opGateSwitch n s = State.modPort n (fun r => { r with
      gatePending := false, gateOper := !r.gateOper, operTab := r.gcl, gcl := r.operTab, operLen := r.gateLen,
      operAt := s.gctl.time, operEntry := 0 }) s := if_pos (by simp [hp, ht])

/-- The interval of the entry in operation. -/
abbrev operInterval (r : EthRec) : Nat := gateInterval (tget 0xFF000000 r.operTab r.operEntry)

theorem opGateInterval_early (h : (s.port n).operLen = 0 ∨ s.gctl.time.toNat < (s.port n).operAt.toNat + operInterval (s.port n)) :
    opGateInterval n s = s := by
  refine if_neg fun hdue => ?_
  rw [Bool.and_eq_true, decide_eq_true_eq, decide_eq_true_eq] at hdue
  obtain ⟨h0, ht⟩ := hdue
  exact h.elim h0 (Nat.not_lt.mpr ht)

theorem opGateInterval_due (h0 : (s.port n).operLen ≠ 0)
    (ht : (s.port n).operAt.toNat + operInterval (s.port n) ≤ s.gctl.time.toNat) :
    opGateInterval n s = State.modPort n (fun r => { r with
      operAt := r.operAt + BitVec.ofNat 64 (operInterval (s.port n)), operEntry := (r.operEntry + 1) % r.operLen.toNat }) s :=
  if_pos (by rw [Bool.and_eq_true, decide_eq_true_eq, decide_eq_true_eq]; exact ⟨h0, ht⟩)

end

/-! ### gPTP (R519, R523) -/

/-- A good frame for port n is counted (R542). -/
def countRx (n : Nat) (s : State) : State := State.modPort n (fun r => { r with rxOk := satInc r.rxOk }) s

section
variable (s : State) (n : Nat)

@[simp] theorem countRx_gptpOn : (countRx n s).gptpOn n = s.gptpOn n := by
  simp [countRx, State.gptpOn, State.modPort_port]
  rfl

end

section
variable {s : State} {n : Nat} {msg : GptpMsg}

theorem receive_down {f : State → State} (h : (s.port n).link ≠ .up) : receive n f s = s := if_neg h

theorem receive_up {f : State → State} (h : (s.port n).link = .up) : receive n f s = f (countRx n s) := if_pos h

/-- Where gPTP does not run on a port, its messages are counted alone. -/
theorem opGptp_off (hl : (s.port n).link = .up) (h : s.gptpOn n = false) : opGptp n msg s = countRx n s := by
  rw [opGptp, receive_up hl, countRx_gptpOn, h]
  rfl

theorem gptpOn_link (h : s.gptpOn n = true) : (s.port n).link = .up := by
  simp only [State.gptpOn, Bool.and_eq_true, decide_eq_true_eq] at h
  exact h.2

section
variable (h : s.gptpOn n = true)
include h

theorem opGptp_pdelay : opGptp n .pdelay s = emit (.gptp n false s.gctl.time)
    { countRx n s with eth := { (countRx n s).eth with ptpRate := (countRx n s).eth.ptpRate ||| BitVec.ofNat 4 (2 ^ n) } } := by
  rw [opGptp, receive_up (gptpOn_link h), countRx_gptpOn, h]
  rfl

theorem opGptp_announce (p : BitVec 8) (i : BitVec 64) (st : BitVec 16) (dom : BitVec 8) :
    opGptp n (.announce p i st dom) s =
      if dom = s.eth.ptpDomain then announce n p.toNat i.toNat (countRx n s) else countRx n s := by
  rw [opGptp, receive_up (gptpOn_link h), countRx_gptpOn, h]
  rfl

theorem opGptp_sync (dom : BitVec 8) (t : Word64) :
    opGptp n (.sync dom t) s = if dom = s.eth.ptpDomain then gptpSync n t (countRx n s) else countRx n s := by
  rw [opGptp, receive_up (gptpOn_link h), countRx_gptpOn, h]
  rfl

end

/-- A device that cannot be grandmaster takes the first master it hears of. -/
theorem announce_first {p : BitVec 8} {i : BitVec 64} (hg : s.eth.ptpGmcap = false) (hb : s.eth.ptpBest = none) :
    announce n p.toNat i.toNat s =
      { s with eth := { s.eth with ptpBest := some (p, i, n), ptpSlave := BitVec.ofNat 4 n, ptpGm := false } } := by
  simp [announce, hg, hb]

/-- A Sync that does not arrive on the slave port changes nothing. -/
theorem gptpSync_notSlave {t : Word64} (h : s.eth.ptpSlave.toNat ≠ n) : gptpSync n t s = s := if_pos h

theorem gptpSync_disciplines {t : Word64} (h : s.eth.ptpSlave.toNat = n) (hr : s.eth.ptpRate.getLsbD n = true)
    (hd : s.eth.ptpDisc = true) :
    gptpSync n t s =
      timeCorrect .gptp (t - s.gctl.time).toInt { s with eth := { s.eth with ptpLastSync := some s.gctl.time } } := by
  unfold gptpSync
  simp only [h, hr, hd, ne_eq, not_true_eq_false, if_false, Bool.and_self, if_true]

theorem opGptpInterval_off (h : s.gptpOn n = false) : opGptpInterval n s = s := if_pos (by simp [h])

/-- The grandmaster sends on each of its ports. -/
theorem opGptpInterval_grandmaster (h : s.gptpOn n = true) (hg : s.eth.ptpGm = true) :
    opGptpInterval n s = emit (.gptp n true s.gctl.time) s := by
  have hsame : { s with eth := { s.eth with ptpGm := true } } = s := by rw [← hg]
  unfold opGptpInterval
  simp only [h, hg, Bool.not_true, Bool.false_eq_true, if_false, Bool.true_or, if_true, hsame]

theorem opGptpTimeout_none (h : s.eth.ptpLastSync = none) : opGptpTimeout s = s := if_pos h

/-- The lock to a master that has gone is lost, and recorded. -/
theorem opGptpTimeout_locked (h : s.eth.ptpLastSync ≠ none) (hs : s.gctl.timeSource = .gptp) (hl : s.gctl.locked = true) :
    opGptpTimeout s = reportEth 0x0604 s.eth.ptpSlave.toNat 0 (timeFree
      { s with eth := { s.eth with ptpLastSync := none, ptpBest := none, ptpSlave := 0xF } }) := by
  unfold opGptpTimeout
  simp only [h, if_false, hs, hl, Bool.and_self, if_true, decide_true]

end

/-- Settles O11: each clause by the equation of the branch its hypotheses name. -/
theorem gatesAndTime : Obligations.GatesAndTime := by
  unfold Obligations.GatesAndTime
  intro s n hs
  have hmsg : ∀ {msg : GptpMsg} {t : State}, opGptp n msg s = t → Completes (.gptpMessage n msg) s t :=
    fun h => h ▸ perform_runs s _ hs
  have hsend : ∀ {t : State}, opGptpInterval n s = t → Completes (.gptpSyncInterval n) s t := fun h => h ▸ perform_runs s _ hs
  have hswitch : ∀ {t : State}, opGateSwitch n s = t → Completes (.ethGateSwitch n) s t := fun h => h ▸ perform_runs s _ hs
  have hnext : ∀ {t : State}, opGateInterval n s = t → Completes (.ethGateInterval n) s t := fun h => h ▸ perform_runs s _ hs
  have hlost : ∀ {t : State}, opGptpTimeout s = t → Completes .gptpSyncTimeout s t := fun h => h ▸ perform_runs s _ hs
  refine ⟨fun hup => performBar_runs s (opGateCommit n) hs hup, fun h => hswitch (opGateSwitch_waits h),
    fun hp ht => ⟨_, hswitch (opGateSwitch_due hp ht), ?_⟩,
    ⟨fun h => hnext (opGateInterval_early h), fun h0 ht => hnext (opGateInterval_due h0 ht)⟩,
    fun hoff => ⟨fun msg h => hmsg (receive_down h), hsend (opGptpInterval_off hoff), fun msg h => hmsg (opGptp_off h hoff)⟩,
    fun hon => ?_, fun h => hlost (opGptpTimeout_none h), fun h hsrc hl => ?_⟩
  · simp
  · refine ⟨hmsg (opGptp_pdelay hon), fun p i st dom hd => hmsg ((opGptp_announce hon p i st dom).trans (if_neg hd)),
      fun dom t hd => hmsg ((opGptp_sync hon dom t).trans (if_neg hd)), fun p i st hg hb => hmsg ?_, fun t hn => hmsg ?_,
      fun t hn hr hd => hmsg ?_, fun hg => hsend (opGptpInterval_grandmaster hon hg)⟩
    · rw [opGptp_announce hon, if_pos rfl, announce_first (s := countRx n s) hg hb]; rfl
    · rw [opGptp_sync hon, if_pos rfl, gptpSync_notSlave (s := countRx n s) hn]; rfl
    · rw [opGptp_sync hon, if_pos rfl, gptpSync_disciplines (s := countRx n s) hn hr hd]; rfl
  · refine ⟨_, stamped { code := 0x0604, detail := BitVec.ofNat 64 (s.eth.ptpSlave.toNat + place 0 16) } s,
      hlost (opGptpTimeout_locked h hsrc hl), ?_, ?_, ?_, rfl, ?_⟩
    · rw [keepLatch_gctl]; rfl
    · rw [keepLatch_gctl]; rfl
    · rw [keepLatch_eth]; rfl
    · rw [keepLatch_thal]; rfl

end Sys2Proof.Machine
end

section
/-! PROOFS. What posts, fault records and replies leave alone (R26, R343, R404 to R406, R417, R436, R501). -/

namespace Sys2Proof.Machine

/-- What stays while the device posts events and completions, records faults and answers its peers: t is s but for the queues, the
stores a post is written to, what is under way to the log, the governor's mode, and commands that have left flight. -/
structure Posted (s t : State) : Prop where
  pins : t.pins = s.pins
  gctl : t.gctl = s.gctl
  loop : t.loop = s.loop
  sched : t.sched = s.sched
  island : t.island = { s.island with mode := t.island.mode }
  auth : t.thal.auth = s.thal.auth
  inFlight : s.thal.inFlight <+: t.thal.inFlight
  can : t.can = s.can
  cmds : t.cmdq.cmds ⊆ s.cmdq.cmds

namespace Posted

theorem refl (s : State) : Posted s s := ⟨rfl, rfl, rfl, rfl, rfl, rfl, List.prefix_rfl, rfl, List.Subset.refl _⟩

theorem trans {s t u : State} (h : Posted s t) (k : Posted t u) : Posted s u where
  pins := k.pins.trans h.pins
  gctl := k.gctl.trans h.gctl
  loop := k.loop.trans h.loop
  sched := k.sched.trans h.sched
  island := by rw [k.island, h.island]
  auth := k.auth.trans h.auth
  inFlight := h.inFlight.trans k.inFlight
  can := k.can.trans h.can
  cmds := List.Subset.trans k.cmds h.cmds

/-- A fold of steps each of which posts. -/
theorem foldl {α : Type} {f : State → α → State} (h : ∀ t x, Posted t (f t x)) (l : List α) (s : State) : Posted s (l.foldl f s) := by
  induction l generalizing s with
  | nil => exact refl s
  | cons x l ih => exact (h s x).trans (ih _)

theorem ite {c : Prop} [Decidable c] {s t u : State} (ht : c → Posted s t) (hu : ¬c → Posted s u) : Posted s (if c then t else u) := by
  split
  · next h => exact ht h
  · next h => exact hu h

end Posted

section
variable (s : State)

/-! ### Records and updates outside what is kept -/

theorem report_posted (r : FaultRec) : Posted s (report r s) :=
  { Posted.refl s with inFlight := List.prefix_append .. }

theorem reportCode_posted (code : BitVec 16) (d : Nat) : Posted s (reportCode code d s) := report_posted s _

theorem reportFrame_posted (code : BitVec 16) (p : Nat) (k : Word32) (b : Bool) (d : Nat) : Posted s (reportFrame code p k b d s) :=
  report_posted s _

theorem emit_posted (e : Emit) : Posted s (emit e s) := { Posted.refl s with }

theorem modFrond_posted (f : Nat) (g : FrondRec → FrondRec) : Posted s (State.modFrond f g s) := { Posted.refl s with }

theorem modDma_posted (n : Nat) (g : DmaRec → DmaRec) : Posted s (State.modDma n g s) := { Posted.refl s with }

theorem modCq_posted (q : Nat) (g : CqRec → CqRec) : Posted s (State.modCq q g s) := { Posted.refl s with }

theorem modPort_posted (n : Nat) (g : EthRec → EthRec) : Posted s (State.modPort n g s) := { Posted.refl s with }

theorem draw_posted (w : Nat) : Posted s (draw w s).2 := { Posted.refl s with }

theorem putHost_posted (a : Nat) (d : List Byte) : Posted s (putHost a d s) := { Posted.refl s with }

theorem putSram_posted (o : Nat) (d : List Byte) : Posted s (putSram o d s) := { Posted.refl s with }

theorem useTokens_posted (init cls a n : Nat) : Posted s (useTokens init cls a n s) := by
  rw [useTokens_frame]; exact { Posted.refl s with }

theorem memWrite_posted (a : Nat) (d : List PByte) : Posted s (memWrite a d s) := by
  rw [memWrite_frame]; exact { Posted.refl s with }

theorem reportFrond_posted (f : Nat) (r : FaultRec) : Posted s (reportFrond f r s) :=
  (report_posted s _).trans (modFrond_posted _ f _)

/-! ### Writes on the bus (R26) -/

theorem frondInWrite_posted (init fp off a : Nat) (d : List PByte) : Posted s (frondInWrite init fp off a d s).2 := by
  unfold frondInWrite
  split
  · exact modFrond_posted s fp _
  · exact reportFrond_posted s fp _

theorem outboundWrite_posted (init w a : Nat) (d : List PByte) : Posted s (outboundWrite init w a d s).2 := by
  unfold outboundWrite
  split
  · exact report_posted s _
  · split
    · exact report_posted s _
    · exact putHost_posted s _ _

theorem busWrite_posted (init cls a : Nat) (d : List PByte) : Posted s (busWrite init cls a d s).2 := by
  unfold busWrite
  split
  · exact Posted.refl s
  split
  · exact report_posted s _
  · split
    · exact report_posted s _
    · split
      · exact Posted.refl s
      · exact (useTokens_posted s _ _ _ _).trans (memWrite_posted _ a d)
  · split
    · exact report_posted s _
    · exact frondInWrite_posted s _ _ _ _ _
  · split
    · exact report_posted s _
    · exact outboundWrite_posted s _ _ _ _
  · split
    · exact report_posted s _
    · split
      · exact putSram_posted s _ _
      · exact Posted.refl s

/-! ### Posts through DMA31 (R405, R406, R436, R450) -/

theorem ownDescriptors_posted (n : Nat) : Posted s (ownDescriptors n s) := by
  unfold ownDescriptors
  exact ((draw_posted s 32).trans (draw_posted _ 40)).trans (modDma_posted _ n _)

theorem attemptField_posted (k : Nat) : Posted s (attemptField k s).2 := by
  unfold attemptField
  split
  · exact Posted.refl s
  · exact draw_posted s 3

theorem ownFault_posted (code : BitVec 16) (n a k : Nat) : Posted s (ownFault code n a k s) :=
  ((attemptField_posted s k).trans (draw_posted _ 2)).trans (report_posted _ _)

theorem firmwareDone_posted (n : Nat) : Posted s (firmwareDone n s) := (ownDescriptors_posted s n).trans (modDma_posted _ n _)

theorem firmwareHalt_posted (n a k : Nat) : Posted s (firmwareHalt n a k s) :=
  ((ownFault_posted s 0x0C06 n a k).trans (ownDescriptors_posted _ n)).trans (modDma_posted _ n _)

variable {α : Type} {act : State → Option α × State} (hact : ∀ t, Posted t (act t).2)
include hact

theorem dmaAttempts_posted (n k : Nat) : Posted s (dmaAttempts n act k s).2 := by
  induction k generalizing s with
  | zero => exact Posted.refl s
  | succ k ih =>
    unfold dmaAttempts
    dsimp only
    split
    · exact hact s
    · exact ((hact s).trans (modDma_posted _ n _)).trans (ih _)

theorem firmwareAccess_posted (n a : Nat) : Posted s (firmwareAccess n a act s).2 := by
  unfold firmwareAccess
  dsimp only
  split
  · exact dmaAttempts_posted s hact n _
  · exact (dmaAttempts_posted s hact n _).trans (firmwareHalt_posted _ n a _)

omit hact

theorem sendMsix_posted (v : Nat) : Posted s (sendMsix v s) := by
  unfold sendMsix
  dsimp only
  split
  · exact { Posted.refl s with }
  · split
    · exact (putHost_posted s _ _).trans (emit_posted _ _)
    · exact Posted.refl s

theorem postEntry_posted (q : Nat) (e : List Byte) (noirq : Bool) : Posted s (postEntry q e noirq s).2 := by
  unfold postEntry
  dsimp only
  have hacc := firmwareAccess_posted s (act := fun t =>
    let w := busWrite (dmaInit 31) (t.dmac 31).cls.toNat ((s.cq q).base.toNat + 32 * (s.cq q).tail.toNat) (clean e) t
    (if w.1 then some () else none, w.2)) (fun t => busWrite_posted t _ _ _ _) 31 ((s.cq q).base.toNat + 32 * (s.cq q).tail.toNat)
  split
  · have hdone := (hacc.trans (firmwareDone_posted _ 31)).trans (modCq_posted _ q CqRec.advance)
    exact Posted.ite (fun _ => hdone.trans (sendMsix_posted _ _)) (fun _ => hdone)
  · exact hacc

theorem stuck_posted (l : List StuckPost) : Posted s { s with cmdq := { s.cmdq with stuck := l } } := { Posted.refl s with }

theorem evLostMark_posted (b : Bool) : Posted s { s with cmdq := { s.cmdq with evLostMark := b } } := { Posted.refl s with }

theorem dropEvent_posted : Posted s (dropEvent s) := { Posted.refl s with }

/-- An event posted, masked, dropped or kept back (R417). -/
theorem postEvent_posted (code : Nat) (p : Option Nat) (k : Option Word32) (d : List Byte) : Posted s (postEvent code p k d s) := by
  unfold postEvent
  refine Posted.ite (fun _ => Posted.refl s) (fun _ => Posted.ite (fun _ => dropEvent_posted s) (fun _ => ?_))
  extract_lets flags e c t c' r
  have hmark : Posted s t := evLostMark_posted s false
  refine Posted.ite (fun _ => hmark.trans (stuck_posted t _)) (fun _ => ?_)
  have hpost : Posted s r.2 := hmark.trans (postEntry_posted t 64 _ false)
  exact Posted.ite (fun _ => hpost) (fun _ => hpost.trans (stuck_posted _ _))

/-! ### Completions and replies (R404, R405, R420) -/

theorem sendReply_posted (n : Nat) (dst : PeerAddr) (d : List Byte) : Posted s (sendReply n dst d s) := by
  unfold sendReply
  split
  · exact Posted.refl s
  · split
    · exact reportCode_posted s _ _
    · exact (modPort_posted s n _).trans (emit_posted _ _)

theorem commandPosted_posted (tag : Nat) (e : List Byte) : Posted s (commandPosted tag e s) := by
  have hgone : Posted s { s with cmdq := { s.cmdq with cmds := s.cmdq.cmds.filter (fun c => c.tag ≠ tag) } } :=
    { Posted.refl s with cmds := fun _ hc => (List.mem_filter.mp hc).1 }
  unfold commandPosted
  dsimp only
  split
  · exact Posted.refl s
  · split
    · exact hgone.trans (sendReply_posted _ _ _ _)
    · exact hgone

theorem postCompletion_posted (c : Cmd) : Posted s (postCompletion c s) := by
  unfold postCompletion
  split
  · dsimp only
    have hpost := fun q e => postEntry_posted s q e c.noirq
    split
    · exact (hpost _ _).trans (commandPosted_posted _ _ _)
    · exact (hpost _ _).trans (stuck_posted _ _)
  · exact Posted.refl s

/-! ### READY (R501, R503) -/

theorem setMode_posted (m : GovMode) (cause : Nat) : Posted s (setMode m cause s) := by
  have hmode : Posted s { s with island := { s.island with mode := m } } := { Posted.refl s with island := rfl }
  exact hmode.trans (postEvent_posted _ _ _ _ _)

theorem setRole_posted : Posted s (setRole s) := by
  have hdone : Posted s { s with twin := { s.twin with roleSet := true } } := { Posted.refl s with }
  unfold setRole
  refine Posted.ite (fun _ => Posted.refl s) (fun _ => ?_)
  dsimp only
  refine Posted.ite (fun _ => hdone.trans (setMode_posted _ _ _)) (fun _ => ?_)
  refine Posted.ite (fun _ => hdone.trans (setMode_posted _ _ _)) (fun _ => ?_)
  refine Posted.ite (fun _ => hdone.trans (setMode_posted _ _ _)) (fun _ => ?_)
  exact Posted.ite (fun _ => (hdone.trans (reportCode_posted _ _ _)).trans (setMode_posted _ _ _)) (fun _ => Posted.refl s)

theorem evalArm_posted : Posted s (evalArm s) := Posted.ite (fun _ => { Posted.refl s with }) (fun _ => Posted.refl s)

theorem atReady_posted : Posted s (atReady s) := by
  have htwin : Posted s { s with twin := { s.twin with readyAt := s.safNow, refusedNoted := false } } := { Posted.refl s with }
  exact (htwin.trans (setRole_posted _)).trans (evalArm_posted _)

end

end Sys2Proof.Machine
end

section
/-! PROOFS. Entering the safe state (R319, R336, R338, R339, R381, R387, R453). -/

namespace Sys2Proof.Machine

/-- What stays while authority passes to Moss and Moss submits: the timebase, LOOP, the safety island but for the governor's mode, which
CAN controllers discipline the timebase, the records under way, and every authority that is MOSS already. -/
structure Ceded (s t : State) : Prop where
  gctl : t.gctl = s.gctl
  loop : t.loop = s.loop
  island : t.island = { s.island with mode := t.island.mode }
  inFlight : s.thal.inFlight <+: t.thal.inFlight
  disc : ∀ m, (t.canc m).disc = (s.canc m).disc
  moss : ∀ p, (s.auth p).primary = false → (t.auth p).primary = false

namespace Ceded

theorem refl (s : State) : Ceded s s := ⟨rfl, rfl, rfl, List.prefix_rfl, fun _ => rfl, fun _ h => h⟩

theorem trans {s t u : State} (h : Ceded s t) (k : Ceded t u) : Ceded s u where
  gctl := k.gctl.trans h.gctl
  loop := k.loop.trans h.loop
  island := by rw [k.island, h.island]
  inFlight := h.inFlight.trans k.inFlight
  disc m := (k.disc m).trans (h.disc m)
  moss p hp := k.moss p (h.moss p hp)

theorem foldl {α : Type} {f : State → α → State} (h : ∀ t x, Ceded t (f t x)) (l : List α) (s : State) : Ceded s (l.foldl f s) := by
  induction l generalizing s with
  | nil => exact refl s
  | cons x l ih => exact (h s x).trans (ih _)

theorem forUpTo {f : Nat → State → State} (h : ∀ i t, Ceded t (f i t)) (n : Nat) (s : State) : Ceded s (forUpTo n f s) :=
  foldl (fun t i => h i t) _ s

theorem ite {c : Prop} [Decidable c] {s t u : State} (ht : Ceded s t) (hu : Ceded s u) : Ceded s (if c then t else u) := by
  split
  · exact ht
  · exact hu

end Ceded

/-- A post changes no authority, no CAN controller and no frame clock. -/
theorem Posted.ceded {s t : State} (h : Posted s t) : Ceded s t where
  gctl := h.gctl
  loop := h.loop
  island := h.island
  inFlight := h.inFlight
  disc m := by rw [State.canc_congr s h.can m]
  moss p hp := by rwa [State.auth, h.auth]

section
variable (s : State)

theorem modCan_ceded (m : Nat) (g : CanRec → CanRec) (hg : ∀ r, (g r).disc = r.disc) : Ceded s (State.modCan m g s) :=
  { Ceded.refl s with
    disc := fun j => by
      by_cases h : j = m
      · rw [h, State.modCan_canc, hg]
      · rw [State.modCan_canc_ne _ _ _ _ h] }

theorem modObj_ceded (m o : Nat) (g : ObjRec → ObjRec) : Ceded s (State.modObj m o g s) := modCan_ceded s m _ (fun _ => rfl)

theorem modTx_ceded (n i : Nat) (g : TxRec → TxRec) : Ceded s (State.modTx n i g s) := { Ceded.refl s with }

theorem modMoss_ceded (p : Nat) (g : MossRec → MossRec) : Ceded s (State.modMoss p g s) := { Ceded.refl s with }

theorem modC0_ceded (p : Nat) (g : C0Rec → C0Rec) : Ceded s (State.modC0 p g s) := { Ceded.refl s with }

theorem modAuth_ceded (p : Nat) (g : AuthRec → AuthRec) (hg : ∀ a, a.primary = false → (g a).primary = false) :
    Ceded s (State.modAuth p g s) :=
  { Ceded.refl s with
    moss := fun q hq => by
      by_cases h : q = p
      · subst h; rw [State.modAuth_auth]; exact hg _ hq
      · rwa [State.modAuth_auth_ne _ _ _ _ h] }

theorem withdrawObj_ceded (m o : Nat) : Ceded s (withdrawObj m o s) := Ceded.ite (Ceded.refl s) (modObj_ceded s m o _)

theorem withdrawChannel_ceded (b : Bool) (c : Nat) : Ceded s (withdrawChannel b c s) :=
  Ceded.ite (Ceded.ite (Ceded.refl s) (withdrawObj_ceded s _ _)) (Ceded.ite (modTx_ceded s _ _ _) (withdrawObj_ceded s _ _))

theorem withdrawPipe_ceded (p : Nat) (b : Bool) : Ceded s (withdrawPipe p b s) :=
  Ceded.foldl (fun t c => withdrawChannel_ceded t b c) _ s

theorem abortObj_ceded (m o : Nat) : Ceded s (abortObj m o s) :=
  Ceded.ite (modCan_ceded s m _ (fun _ => rfl)) (modObj_ceded s m o _)

theorem mossWrite_ceded (c : Nat) (d : List Byte) (p : Nat) : Ceded s (mossWrite c d p s) := by
  have habort := abortObj_ceded s (s.govChan c).mCan (s.govChan c).mObj
  unfold mossWrite
  dsimp only
  split
  · exact habort.trans (modMoss_ceded _ p _)
  · exact (habort.trans (modObj_ceded _ _ _ _)).trans (modObj_ceded _ _ _ _)

theorem mossSubmit_ceded (p : Nat) : Ceded s (mossSubmit p s) := by
  have hwrite : ∀ t (e : Nat × List Byte), Ceded t (mossWrite e.1 e.2 p t) := fun t e => mossWrite_ceded t e.1 e.2 p
  unfold mossSubmit
  split
  · exact modMoss_ceded s p _
  · refine Ceded.trans ?_ (Ceded.foldl hwrite _ _)
    exact modMoss_ceded s p _

/-- Authority goes to MOSS, with its record and its event; the withdrawal follows (R319, R418). -/
def cede (p : Nat) (k : Word32) (s : State) : State :=
  postEvent 5 (some p) (some k) (toLe 1 1)
    (reportFrame 0x0908 p k false 0 (State.modAuth p (fun a => { a with primary := false, planDue := [] }) s))

theorem setAuthority_false (p : Nat) (k : Word32) :
    setAuthority p false k s = if (s.auth p).primary = false then s else withdrawPipe p true (cede p k s) := rfl

theorem cede_posted (p : Nat) (k : Word32) : Posted (State.modAuth p (fun a => { a with primary := false, planDue := [] }) s) (cede p k s) :=
  (reportFrame_posted _ _ p k false 0).trans (postEvent_posted _ _ _ _ _)

theorem cede_ceded (p : Nat) (k : Word32) : Ceded s (cede p k s) :=
  (modAuth_ceded s p _ (fun _ _ => rfl)).trans (cede_posted s p k).ceded

theorem setAuthority_ceded (p : Nat) (k : Word32) : Ceded s (setAuthority p false k s) := by
  rw [setAuthority_false]
  exact Ceded.ite (Ceded.refl s) ((cede_ceded s p k).trans (withdrawPipe_ceded _ p true))

theorem setAuthority_moss (p : Nat) (k : Word32) : ((setAuthority p false k s).auth p).primary = false := by
  rw [setAuthority_false]
  split
  · next h => exact h
  · exact (withdrawPipe_ceded _ p true).moss p ((cede_posted s p k).ceded.moss p (by simp))

end
end Sys2Proof.Machine
end

section
/-! PROOFS. The safe state's decision and resets (R338, R339, R340, R387, R453). -/

namespace Sys2Proof.Machine

section
variable (s t : State)

@[simp] theorem keepLatch_restarting : (keepLatch s t).island.restarting = t.island.restarting := by unfold keepLatch; split <;> rfl
@[simp] theorem keepLatch_safeCount : (keepLatch s t).island.safeCount = t.island.safeCount := by unfold keepLatch; split <;> rfl
@[simp] theorem keepLatch_c0Running : (keepLatch s t).island.c0Running = t.island.c0Running := by unfold keepLatch; split <;> rfl

/-! ### The decision -/

/-- The decision's record and its count (R338). -/
def safeNoted (s : State) : State :=
  let s := report { code := 0x0906, init := 0xC0, safe := true } s
  { s with island := { s.island with safeCount := satInc s.island.safeCount } }

/-- Every pipeline's authority is MOSS; Moss submits for the class-0 pipelines c0, whose open frames were decided in the safe state (R339). -/
def mossTakes (c0 : List Nat) (s : State) : State :=
  c0.foldl (fun t p => State.modC0 p (fun c => { c with openVoid := { c.openVoid with safe := true } }) t)
    (c0.foldl (fun t p => mossSubmit p t) (forUpTo 8 (fun p t => setAuthority p false (t.auth p).frame t) s))

/-- The restart begins, with what ran at the decision kept for its end (R339). -/
def beginRestart (running c0 : List Nat) (s : State) : State :=
  { s with island := { s.island with restarting := true, running := running, c0Running := c0 } }

theorem safeDecide_again (h : s.island.restarting = true) : safeDecide s = safeNoted s := if_pos h

theorem safeDecide_first (h : s.island.restarting = false) :
    safeDecide s = safeReset (beginRestart s.runningPipes s.class0Pipes (mossTakes s.class0Pipes (safeNoted s))) := by
  have h' : ¬ (safeNoted s).island.restarting = true := by simpa [safeNoted] using h
  exact if_neg h'

theorem mossTakes_ceded (c0 : List Nat) : Ceded s (mossTakes c0 s) :=
  ((Ceded.forUpTo (fun p t => setAuthority_ceded t p (t.auth p).frame) 8 s).trans
    (Ceded.foldl (f := fun t p => mossSubmit p t) (fun t p => mossSubmit_ceded t p) c0 _)).trans
    (Ceded.foldl (f := fun t p => State.modC0 p (fun c => { c with openVoid := { c.openVoid with safe := true } }) t)
      (fun t p => modC0_ceded t p _) c0 _)

/-- What a loop's step makes true of its index, and keeps of the others, holds of each after the loop. -/
theorem forUpTo_each {σ : Type} {f : Nat → σ → σ} {Q : Nat → σ → Prop} (hself : ∀ i t, Q i (f i t)) (hkeep : ∀ i j t, Q j t → Q j (f i t))
    (n : Nat) (t : σ) (j : Nat) (hj : j < n) : Q j (forUpTo n f t) := by
  induction n with
  | zero => exact absurd hj (Nat.not_lt_zero j)
  | succ n ih =>
    have hlast : forUpTo (n + 1) f t = f n (forUpTo n f t) := by simp [forUpTo, List.range_succ]
    rw [hlast]
    rcases Nat.lt_succ_iff_lt_or_eq.mp hj with h | rfl
    · exact hkeep n j _ (ih h)
    · exact hself j _

theorem allAuthorities_moss (p : Nat) (hp : p < 8) :
    ((forUpTo 8 (fun p t => setAuthority p false (t.auth p).frame t) s).auth p).primary = false :=
  forUpTo_each (Q := fun q t => (t.auth q).primary = false) (fun q t => setAuthority_moss t q _)
    (fun q j t hj => (setAuthority_ceded t q _).moss j hj) 8 s p hp

theorem mossTakes_moss (c0 : List Nat) (p : Nat) (hp : p < 8) : ((mossTakes c0 s).auth p).primary = false :=
  ((Ceded.foldl (f := fun t p => mossSubmit p t) (fun t p => mossSubmit_ceded t p) c0 _).trans
    (Ceded.foldl (f := fun t p => State.modC0 p (fun c => { c with openVoid := { c.openVoid with safe := true } }) t)
      (fun t p => modC0_ceded t p _) c0 _)).moss p (allAuthorities_moss s p hp)

/-! ### The resets -/

theorem canSource_of_ceded {s t : State} (h : Ceded s t) : t.canSource = s.canSource := by
  simp only [State.canSource, h.gctl, h.disc]

/-- An entry of a list that passes a test of its value, or the default, satisfies what both do. -/
theorem tget_of_forall {α : Type} (d : α) (P : α → Prop) (hd : P d) (l : Tab α) (i : Nat) (h : ∀ e ∈ l, P e.2) : P (tget d l i) := by
  induction l with
  | nil => exact hd
  | cons e l ih =>
    obtain ⟨k, v⟩ := e
    unfold tget
    split
    · exact h (k, v) (List.mem_cons_self ..)
    · exact ih (fun x hx => h x (List.mem_cons_of_mem _ hx))

/-- A key that no entry has reads the default. -/
theorem tget_of_no_key {α : Type} (d : α) (l : Tab α) (i : Nat) (h : ∀ e ∈ l, e.1 ≠ i) : tget d l i = d := by
  induction l with
  | nil => rfl
  | cons e l ih =>
    obtain ⟨k, v⟩ := e
    unfold tget
    rw [if_neg (h (k, v) (List.mem_cons_self ..))]
    exact ih (fun x hx => h x (List.mem_cons_of_mem _ hx))

theorem safeReset_can_low (m : Nat) (hm : m < 6) : (safeReset s).canc m = {} := by
  refine tget_of_no_key _ _ m (fun e he => ?_)
  have hkey : 6 ≤ e.1 := by simpa using (List.mem_filter.mp he).2
  omega

theorem safeReset_slots (f : Nat) :
    ((safeReset s).frond f).slot0 = {} ∧ ((safeReset s).frond f).slot1 = {} ∧ ((safeReset s).frond f).handles = [] := by
  refine tget_of_forall _ (fun r : FrondRec => r.slot0 = {} ∧ r.slot1 = {} ∧ r.handles = []) ⟨rfl, rfl, rfl⟩ _ f (fun e he => ?_)
  obtain ⟨x, -, rfl⟩ := List.mem_map.mp (List.mem_filter.mp he).1
  exact ⟨rfl, rfl, rfl⟩

theorem safeReset_loop : (safeReset s).loop = { fclks := s.loop.fclks } := by
  unfold safeReset; dsimp only; split <;> rfl

theorem safeReset_thal : (safeReset s).thal = s.thal := by unfold safeReset; dsimp only; split <;> rfl

theorem safeReset_island : (safeReset s).island = s.island := by unfold safeReset; dsimp only; split <;> rfl

theorem safeReset_timebase (h : s.canSource = true) : (safeReset s).gctl.locked = false ∧ (safeReset s).gctl.slewLeft = 0 := by
  unfold safeReset; dsimp only; rw [if_pos h]; exact ⟨rfl, rfl⟩

/-- What the first decision on the safe state leaves of s. -/
structure EntersSafe (s t : State) : Prop where
  restarting : t.island.restarting = true
  ready : t.gctl.ready = false
  safeCount : t.island.safeCount = satInc s.island.safeCount
  noted : s.thal.inFlight ++ [stamped { code := 0x0906, init := 0xC0, safe := true } s] <+: t.thal.inFlight
  moss : ∀ p < 8, (t.auth p).primary = false
  c0Running : t.island.c0Running = s.class0Pipes
  dma : ∀ n, t.dmac n = {}
  timebase : s.canSource = true → t.gctl.locked = false ∧ t.gctl.slewLeft = 0
  pipes : ∀ p, t.pipe p = {}
  fclks : ∀ n, t.fclk n = s.fclk n
  can : ∀ m < 6, t.canc m = {}
  fronds : ∀ f, (t.frond f).slot0 = {} ∧ (t.frond f).slot1 = {} ∧ (t.frond f).handles = []

theorem safeReset_entersSafe {u v : State} (running : List Nat) (hceded : Ceded u v) (hmoss : ∀ p < 8, (v.auth p).primary = false)
    (hu : u = safeNoted s) : EntersSafe s (safeReset (beginRestart running s.class0Pipes v)) where
  restarting := by rw [safeReset_island]; rfl
  ready := rfl
  safeCount := by
    rw [safeReset_island]
    change v.island.safeCount = _
    rw [hceded.island, hu]; rfl
  noted := by
    rw [safeReset_thal]
    have hflight := hceded.inFlight
    rwa [hu] at hflight
  moss p hp := by rw [State.auth, safeReset_thal]; exact hmoss p hp
  c0Running := by rw [safeReset_island]; rfl
  dma _ := rfl
  timebase hs := by
    refine safeReset_timebase _ ?_
    change v.canSource = true
    rw [canSource_of_ceded hceded, hu]; exact hs
  pipes p := by rw [State.pipe, safeReset_loop]; rfl
  fclks n := by
    rw [State.fclk, safeReset_loop]
    change tget {} v.loop.fclks n = _
    rw [hceded.loop, hu]; rfl
  can m hm := safeReset_can_low _ m hm
  fronds f := safeReset_slots _ f

theorem safeDecide_entersSafe (h : s.island.restarting = false) : EntersSafe s (safeDecide s) := by
  rw [safeDecide_first s h]
  exact safeReset_entersSafe s _ (mossTakes_ceded _ _) (mossTakes_moss _ _) rfl

/-! ### The lockstep comparator of the Rhizome (R338) -/

/-- The mismatch's own record. -/
def lockstepNoted (s : State) : State := report { code := 0x0907, safe := true } s

theorem exec_rhizomeLockstepMismatch (h : Runs s) :
    exec .rhizomeLockstepMismatch s = .next (keepLatch s (safeDecide (lockstepNoted s))) := perform_runs s _ h

/-- In a restart the mismatch is recorded and counted, and changes nothing else. -/
theorem rhizomeLockstep_restarting (h : Runs s) (hr : s.island.restarting = true) :
    ∃ t r q, exec .rhizomeLockstepMismatch s = .next t ∧ r.code = 0x0907 ∧ q.code = 0x0906 ∧
      r.safe = true ∧ q.safe = true ∧ t.thal.inFlight = s.thal.inFlight ++ [r, q] ∧
      t.island.safeCount = satInc s.island.safeCount ∧ t.loop = s.loop ∧ t.fronds = s.fronds := by
  have hdec : safeDecide (lockstepNoted s) = safeNoted (lockstepNoted s) := safeDecide_again _ hr
  refine ⟨_, stamped { code := 0x0907, safe := true } s, stamped { code := 0x0906, init := 0xC0, safe := true } s,
    exec_rhizomeLockstepMismatch s h, rfl, rfl, rfl, rfl, ?_⟩
  rw [hdec]
  refine ⟨?_, ?_, ?_, ?_⟩
  · rw [keepLatch_thal]
    exact List.append_assoc ..
  · rw [keepLatch_safeCount]; rfl
  · rw [keepLatch_loop]; rfl
  · rw [keepLatch_fronds]; rfl

/-- Outside one it is the first decision: authority, resets and the start of the restart. -/
theorem rhizomeLockstep_first (h : Runs s) (hr : s.island.restarting = false) :
    ∃ t, exec .rhizomeLockstepMismatch s = .next t ∧
      t.island.restarting = true ∧ t.gctl.ready = false ∧ t.island.safeCount = satInc s.island.safeCount ∧
      (∃ l, t.thal.inFlight = s.thal.inFlight ++ l ∧ (∃ r ∈ l, r.code = 0x0907) ∧ (∃ r ∈ l, r.code = 0x0906 ∧ r.safe = true)) ∧
      (∀ p : Pipe, (t.auth p).primary = false) ∧ t.island.c0Running = s.class0Pipes ∧ (∀ n : DmaChan, t.dmac n = {}) ∧
      (s.canSource = true → t.gctl.locked = false ∧ t.gctl.slewLeft = 0) ∧
      (∀ p : Pipe, t.pipe p = {}) ∧ (∀ n : Fclk, t.fclk n = s.fclk n) ∧ (∀ m : CanNo, m.val < 6 → t.canc m = {}) ∧
      (∀ f : Frond, (t.frond f).slot0 = {} ∧ (t.frond f).slot1 = {} ∧ (t.frond f).handles = []) := by
  have hdec := safeDecide_entersSafe (lockstepNoted s) hr
  have hrun := exec_rhizomeLockstepMismatch s h
  obtain ⟨rest, hrest⟩ := hdec.noted
  refine ⟨_, hrun, ?_, ?_, ?_, ⟨stamped { code := 0x0907, safe := true } s :: stamped { code := 0x0906, init := 0xC0, safe := true } s :: rest,
    ?_, ⟨_, List.mem_cons_self .., rfl⟩, ⟨_, List.mem_cons_of_mem _ (List.mem_cons_self ..), rfl, rfl⟩⟩, fun p => ?_, ?_, fun n => ?_, fun hs => ?_,
    fun p => ?_, fun n => ?_, fun m hm => ?_, fun f => ?_⟩
  · rw [keepLatch_restarting]; exact hdec.restarting
  · rw [keepLatch_gctl]; exact hdec.ready
  · rw [keepLatch_safeCount]; exact hdec.safeCount
  · rw [keepLatch_thal, ← hrest]; simp [lockstepNoted, report]
  · rw [keepLatch_auth]; exact hdec.moss p p.isLt
  · rw [keepLatch_c0Running]; exact hdec.c0Running
  · rw [keepLatch_dmac]; exact hdec.dma n
  · rw [keepLatch_gctl]; exact hdec.timebase hs
  · rw [keepLatch_pipe]; exact hdec.pipes p
  · rw [keepLatch_fclk]; exact hdec.fclks n
  · rw [keepLatch_canc]; exact hdec.can m hm
  · rw [keepLatch_frond]; exact hdec.fronds f

end
end Sys2Proof.Machine
end

section
/-! PROOFS. The end of the restart (R339, R340, R422). -/

namespace Sys2Proof.Machine

/-- What every step of a loop keeps holds after the loop. -/
theorem forUpTo_keeps {σ : Type} {P : σ → Prop} {f : Nat → σ → σ} (h : ∀ i t, P t → P (f i t)) (n : Nat) {t : σ} (ht : P t) :
    P (forUpTo n f t) :=
  List.foldlRecOn (motive := P) _ _ ht (fun t ht i _ => h i t ht)

section
variable (s : State)

/-- No context and no run is left (R340). -/
def State.noWork (s : State) : Prop := s.sched.ctxs = [] ∧ s.sched.runs = []

theorem State.noWork_congr {s t : State} (hc : t.sched.ctxs = s.sched.ctxs) (hr : t.sched.runs = s.sched.runs) (h : s.noWork) : t.noWork :=
  ⟨hc.trans h.1, hr.trans h.2⟩

theorem putBlock_sched (p b : Nat) (e : BlockEnt) : (putBlock p b e s).sched = s.sched := by
  unfold putBlock engWrite; rw [writeAll_frame]

theorem buildPool_noWork (p : Nat) (h : s.noWork) : (buildPool p s).noWork := by
  have hblocks := forUpTo_keeps (P := State.noWork)
    (f := fun b t => putBlock p b ⟨0, 0, false, (draw 24 t).1.toNat⟩ (draw 24 t).2)
    (fun b t ht => by rw [State.noWork, putBlock_sched]; exact ht) (s.pool p).blocks.toNat h
  exact State.noWork_congr rfl rfl hblocks

theorem restartSched_noWork : (restartSched s).noWork := by
  have hmodels := forUpTo_keeps (P := State.noWork)
    (f := fun m t => if (t.model m).st = .hot then State.modModel m (fun x => { x with st := .warm }) t else t)
    (fun m t ht => by
      split
      · exact State.noWork_congr rfl rfl ht
      · exact ht) 1024 (t := { s with sched := { s.sched with ctxs := [], runs := [] } }) ⟨rfl, rfl⟩
  exact forUpTo_keeps (P := State.noWork) (f := fun p t => if (t.pool p).en then buildPool p t else t)
    (fun p t ht => by
      split
      · exact buildPool_noWork t p ht
      · exact ht) 4 hmodels

theorem refreshGolden_sched : (refreshGolden s).sched = s.sched := by unfold refreshGolden; split <;> rfl

/-- A loop whose steps leave PREP alone leaves it alone. -/
theorem forUpTo_sched {f : Nat → State → State} (h : ∀ i t, (f i t).sched = t.sched) (n : Nat) : (forUpTo n f s).sched = s.sched :=
  forUpTo_keeps (P := fun t : State => t.sched = s.sched) (fun i t ht => (h i t).trans ht) n rfl

theorem restartAuth_sched : (restartAuth s).sched = s.sched := by
  unfold restartAuth
  rw [refreshGolden_sched, forUpTo_sched, forUpTo_sched]
  · exact fun _ _ => rfl
  · exact fun _ _ => rfl

/-- READY and the end of the restart, before the twin is told (R339). -/
theorem restartReady_posted :
    Posted { s with island := { s.island with restarting := false }, gctl := { s.gctl with ready := true } } (restartReady s) :=
  atReady_posted _

/-- Every command still in flight has ended with 0x60 (R422). -/
def State.allAbandoned (s : State) : Prop := ∀ c ∈ s.cmdq.cmds, ∃ r0 r1, c.stage = .done 0x60 r0 r1

theorem abandonCommands_allAbandoned : (abandonCommands s).allAbandoned := by
  intro c hc
  obtain ⟨x, -, rfl⟩ := List.mem_map.mp hc
  exact ⟨0, 0, rfl⟩

theorem postAbandoned_posted : Posted s (postAbandoned s) :=
  Posted.foldl (f := fun t (c : Cmd) => if t.cqOpen (s.sq c.sq).cq.toNat then postCompletion c t else t)
    (fun t c => Posted.ite (fun _ => postCompletion_posted t c) (fun _ => Posted.refl t)) _ s

/-- What ran when the safe state was entered is remembered no more. -/
def forgetRunning (s : State) : State := { s with island := { s.island with running := [], c0Running := [] } }

theorem postRestart_posted :
    Posted (forgetRunning (postEvent 1 none none (toLe 1 s.island.safeCount.toNat) s)) (postRestart s) :=
  Posted.foldl (f := fun t p => postEvent 7 (some p) none (toLe 1 1) t) (fun t _ => postEvent_posted t _ _ _ _) _ _

theorem postRestart_restarting : (postRestart s).island.restarting = s.island.restarting := by
  rw [(postRestart_posted s).island]
  change (postEvent 1 none none (toLe 1 s.island.safeCount.toNat) s).island.restarting = _
  rw [(postEvent_posted s _ _ _ _).island]

theorem postRestart_gctl : (postRestart s).gctl = s.gctl := (postRestart_posted s).gctl.trans (postEvent_posted s _ _ _ _).gctl

theorem postRestart_sched : (postRestart s).sched = s.sched := (postRestart_posted s).sched.trans (postEvent_posted s _ _ _ _).sched

theorem postRestart_cmds : (postRestart s).cmdq.cmds ⊆ s.cmdq.cmds :=
  List.Subset.trans (postRestart_posted s).cmds (postEvent_posted s _ _ _ _).cmds

/-! ### SAFE_RESTART -/

/-- READY returns and every command in flight ends (R339, R422). -/
def endRestart (s : State) : State := postRestart (postAbandoned (abandonCommands (restartReady s)))

theorem endRestart_restarting : (endRestart s).island.restarting = false := by
  unfold endRestart
  rw [postRestart_restarting, (postAbandoned_posted _).island]
  change (restartReady s).island.restarting = false
  rw [(restartReady_posted s).island]

theorem endRestart_ready : (endRestart s).gctl.ready = true := by
  unfold endRestart
  rw [postRestart_gctl, (postAbandoned_posted _).gctl]
  change (restartReady s).gctl.ready = true
  rw [(restartReady_posted s).gctl]

theorem endRestart_sched : (endRestart s).sched = s.sched := by
  unfold endRestart
  rw [postRestart_sched, (postAbandoned_posted _).sched]
  change (restartReady s).sched = _
  rw [(restartReady_posted s).sched]

theorem endRestart_allAbandoned : (endRestart s).allAbandoned := fun c hc =>
  abandonCommands_allAbandoned (restartReady s) c ((postAbandoned_posted _).cmds (postRestart_cmds _ hc))

theorem exec_safeRestart (failed : List Frond) (h : Runs s) (hwf : (Instr.safeRestart failed).wf = true) :
    exec (.safeRestart failed) s = .next (keepLatch s (opSafeRestart (failed.map Fin.val) s)) := performWf_runs s _ _ hwf h

theorem opSafeRestart_waits (failed : List Nat) (h : s.island.restarting = false ∨ s.clocksMissing = true) : opSafeRestart failed s = s :=
  if_pos (by rcases h with h | h <;> simp [h])

theorem opSafeRestart_ends (failed : List Nat) (hr : s.island.restarting = true) (hc : s.clocksMissing = false) :
    opSafeRestart failed s = endRestart (restartAuth (restartSched (restartFabric failed s))) := if_neg (by simp [hr, hc])

theorem restart_noWork : (endRestart (restartAuth (restartSched s))).noWork := by
  rw [State.noWork, endRestart_sched, restartAuth_sched]
  exact restartSched_noWork s

end

/-- Settles O29: the decision cedes every authority and resets the blocks (`safeDecide_entersSafe`); the restart's end leaves no work and
no command that has not ended (`restart_noWork`, `endRestart_allAbandoned`). -/
theorem safeStateAndRestart : Obligations.SafeStateAndRestart := by
  unfold Obligations.SafeStateAndRestart
  refine ⟨fun s h => ⟨rhizomeLockstep_restarting s h, rhizomeLockstep_first s h⟩, fun s failed h hwf => ⟨fun hwait => ?_, fun hr hc => ⟨?_, ?_⟩⟩⟩
  · rw [Completes, exec_safeRestart s failed h hwf, opSafeRestart_waits s _ hwait]
  · rw [Completes, exec_safeRestart s failed h hwf, opSafeRestart_ends s _ hr hc, endRestart]
  · obtain ⟨hctxs, hruns⟩ := restart_noWork (restartFabric (failed.map Fin.val) s)
    refine ⟨_, exec_safeRestart s failed h hwf, ?_⟩
    rw [opSafeRestart_ends s _ hr hc]
    refine ⟨?_, ?_, ?_, ?_, ?_⟩
    · rw [keepLatch_restarting]; exact endRestart_restarting _
    · rw [keepLatch_gctl]; exact endRestart_ready _
    · rw [keepLatch_sched]; exact hctxs
    · rw [keepLatch_sched]; exact hruns
    · rw [keepLatch_cmdq]; exact endRestart_allAbandoned _

end Sys2Proof.Machine
end


section
/-! PROOFS. The reset pins, start-up and the image (R36, R37, R584, R586, R590, R596, R619, R620). -/

namespace Sys2Proof.Machine

section
variable (s : State)

/-! ### The pins -/

/-- What the pins' events do, each at each pair of levels (R36, R619, R620). -/
theorem resetPins (b r x : Bool) :
    (s.pins.porstN = true → exec (.porstNRelease b r x) s = .next s) ∧ (s.pins.sysrstN = true → exec (.sysrstNRelease b r x) s = .next s) ∧
    (s.pins.porstN = false → s.pins.sysrstN = true →
      exec (.porstNRelease b r x) s = .next (startUp b r x { s with pins := { s.pins with porstN := true } })) ∧
    (s.pins.porstN = true → s.pins.sysrstN = false →
      exec (.sysrstNRelease b r x) s = .next (startUp b r x { s with pins := { s.pins with sysrstN := true } })) ∧
    (s.pins.porstN = false → s.pins.sysrstN = false →
      exec (.porstNRelease b r x) s = .next { s with pins := { s.pins with porstN := true } } ∧
      exec (.sysrstNRelease b r x) s = .next { s with pins := { s.pins with sysrstN := true } }) ∧
    (s.pins.porstN = false → exec .porstNAssert s = .next s) ∧ (s.pins.sysrstN = false → exec .sysrstNAssert s = .next s) := by
  have hporst : exec (.porstNRelease b r x) s = .next (opPorstRelease b r x s) := rfl
  have hsysrst : exec (.sysrstNRelease b r x) s = .next (opSysrstRelease b r x s) := rfl
  have hporstLow : exec .porstNAssert s = .next (opPorstAssert s) := rfl
  have hsysrstLow : exec .sysrstNAssert s = .next (opSysrstAssert s) := rfl
  rw [hporst, hsysrst, hporstLow, hsysrstLow]
  refine ⟨fun h => ?_, fun h => ?_, fun hp hr => ?_, fun hp hr => ?_, fun hp hr => ⟨?_, ?_⟩, fun h => ?_, fun h => ?_⟩
  · simp only [opPorstRelease, h, if_true]
  · simp only [opSysrstRelease, h, if_true]
  · simp only [opPorstRelease, hp, hr, Bool.false_eq_true, if_false, if_true]
  · simp only [opSysrstRelease, hp, hr, Bool.false_eq_true, if_false, if_true]
  · simp only [opPorstRelease, hp, hr, Bool.false_eq_true, if_false]
  · simp only [opSysrstRelease, hp, hr, Bool.false_eq_true, if_false]
  · simp only [opPorstAssert, h, Bool.not_false, if_true]
  · simp only [opSysrstAssert, h, Bool.not_false, if_true]

/-- PORST_N low: the reset values everywhere, the fuses and the flash kept (R36, R619). -/
theorem porstNAssert_resets (h : s.pins.porstN = true) :
    ∃ t, exec .porstNAssert s = .next t ∧ t.pins.porstN = false ∧ t.island = State.reset.island ∧
      t.pins.faultN = false ∧ t.sec.fuses = s.sec.fuses ∧ t.sec.flash = s.sec.flash ∧ t.fronds = [] ∧ t.mem = State.reset.mem ∧
      t.can = [] ∧ t.dma = [] ∧ t.cmdq = State.reset.cmdq ∧ t.eth = State.reset.eth ∧ t.loop = State.reset.loop ∧ t.sched = State.reset.sched ∧
      t.thal = State.reset.thal ∧ t.twin = State.reset.twin ∧ t.pwr = State.reset.pwr := by
  have hop : opPorstAssert s = { keptOver s with pins := { (keptOver s).pins with porstN := false } } := if_neg (by simp [h])
  refine ⟨opPorstAssert s, rfl, ?_⟩
  rw [hop]
  exact ⟨rfl, rfl, rfl, rfl, rfl, rfl, rfl, rfl, rfl, rfl, rfl, rfl, rfl, rfl, rfl, rfl⟩

/-- SYSRST_N low keeps the latch, SEC_BOOT_NEXT and KILLED as well (R620). -/
theorem sysrstNAssert_resets (hp : s.pins.porstN = true) (hr : s.pins.sysrstN = true) :
    ∃ t, exec .sysrstNAssert s = .next t ∧ t.pins.sysrstN = false ∧
      t.island.silent = s.island.silent ∧ t.pins.faultN = false ∧ t.sec.fuses = s.sec.fuses ∧ t.sec.bootNext = s.sec.bootNext ∧
      t.twin.killed = s.twin.killed ∧ t.fronds = [] ∧ t.can = [] := by
  have hop : opSysrstAssert s = { keptOverSys s with pins := { (keptOverSys s).pins with sysrstN := false } } := by
    unfold opSysrstAssert
    rw [if_neg (by simp [hr]), if_neg (by simp [hp])]
  refine ⟨opSysrstAssert s, rfl, ?_⟩
  rw [hop]
  exact ⟨rfl, rfl, rfl, rfl, rfl, rfl, rfl, rfl⟩

/-! ### The image (R584, R586, R590) -/

theorem imageFail_sensed (code slot : Nat) : (imageFail code slot s).sec.sensed = s.sec.sensed := rfl

theorem bootImage_sensed (d : List Byte) : (bootImage d s).sec.sensed = s.sec.sensed := by
  unfold bootImage
  split
  · rfl
  · cases hx : s.pins.xtal <;> simp [hx, bootFail, reportPwr, reportCode, report]

theorem loadImage_sensed : (loadImage s).sec.sensed = s.sec.sensed := by
  unfold loadImage
  dsimp only
  split
  · rfl
  split
  · rfl
  split
  · exact imageFail_sensed _ _ _
  split
  · exact imageFail_sensed _ _ _
  · exact bootImage_sensed _ _

/-- An image that passes the checks is VERIFIED and the Rhizome boots (R36, R590). -/
theorem bootImage_verified (d : List Byte) (hd : s.checkImage d = none) (hx : s.pins.xtal = true) :
    (bootImage d s).sec.phase = .verified ∧ (bootImage d s).gctl.bootStage = 2 ∧ (bootImage d s).sec.image = d := by
  unfold bootImage
  rw [hd]
  simp [hx]

/-- The straps and the fuses are sampled and the challenge drawn, before the ROM runs (R36, R584, R603). -/
def sampled (b r x : Bool) (s : State) : State :=
  let s := { s with pins := { s.pins with bootSrc := b, twinRole := r, xtal := x } }
  let c := draw 256 s
  let s := { c.2 with sec := { c.2.sec with sensed := c.2.sec.fuses, chal := c.1 } }
  { s with sec := { s.sec with source := s.bootSource } }

theorem startUp_eq (b r x : Bool) : startUp b r x s = loadImage (sampled b r x s) := rfl

theorem sampled_source (b r x : Bool) : (sampled b r x s).sec.source =
    if s.sec.bootNext = 1 ∨ s.sec.bootNext = 2 then s.sec.bootNext else if b then 1 else 0 := by
  exact ite_congr (by simp only [Bool.or_eq_true, decide_eq_true_eq]; rfl) (fun _ => rfl) (fun _ => rfl)

theorem startUp_samples (b r x : Bool) : (startUp b r x s).sec.sensed = s.sec.fuses := loadImage_sensed _

theorem loadImage_waits (h : s.sec.source = 1) : (loadImage s).sec.phase = .hostWait := by
  unfold loadImage
  simp [h]

theorem loadImage_noMagic (hsrc : s.sec.source = 0) (hspoiled : s.sec.flashSpoiled = false) (hmagic : field s.sec.flash 0 4 ≠ 0x5746534B) :
    (loadImage s).sec.phase = .failed ∧ (loadImage s).gctl.bootFailed = true ∧ (loadImage s).gctl.bootStage = 0 := by
  unfold loadImage
  simp [hsrc, hspoiled, hmagic, imageFail, bootFail, reportCode, report]

/-! ### PUSH_LEN_DOORBELL and the twin's image (R586) -/

theorem exec_pushLenDoorbell (h : Runs s) (n : Word32) :
    exec (.pushLenDoorbell n) s = .next (keepLatch s (wakeEvent 1 (opPushLen n.toNat s))) := performReg_runs s _ h

theorem opPushLen_outside (n : Nat) (h : s.sec.phase ≠ .hostWait) : opPushLen n s = s := if_pos h

theorem opPushLen_bad (n : Nat) (h : s.sec.phase = .hostWait) (hn : n = 0 ∨ 4194304 < n ∨ n % 64 ≠ 0) :
    opPushLen n s = imageFail 0x0B02 0xFF s := by
  unfold opPushLen
  rw [if_neg (by simp [h]), if_pos (by simpa [or_assoc] using hn)]

theorem opPushLen_staged (n : Nat) (h : s.sec.phase = .hostWait) (h0 : n ≠ 0) (hmax : n ≤ 4194304) (hmod : n % 64 = 0) :
    opPushLen n s = bootImage (treadN 0 s.sec.staging 0 n) s := by
  unfold opPushLen
  rw [if_neg (by simp [h]), if_neg (by simp [h0, hmod]; omega)]

/-- A pushed length in HOSTWAIT and outside it, in range and out of range (R586, R590). -/
theorem pushLen_clauses (h : Runs s) (n : Word32) :
    (s.sec.phase ≠ .hostWait → CompletesReg (.pushLenDoorbell n) s s) ∧
    (s.sec.phase = .hostWait → n = 0 ∨ 4194304 < n.toNat ∨ n.toNat % 64 ≠ 0 → ∃ t f, exec (.pushLenDoorbell n) s = .next t ∧
      t.sec.phase = .failed ∧ f.code = 0x0B02 ∧ t.thal.inFlight = s.thal.inFlight ++ [f]) ∧
    (s.sec.phase = .hostWait → n ≠ 0 → n.toNat ≤ 4194304 → n.toNat % 64 = 0 → s.checkImage (treadN 0 s.sec.staging 0 n.toNat) = none →
      s.pins.xtal = true → ∃ t, exec (.pushLenDoorbell n) s = .next t ∧ t.sec.phase = .verified ∧ t.gctl.bootStage = 2 ∧
        t.sec.image = treadN 0 s.sec.staging 0 n.toNat) := by
  have hrun := exec_pushLenDoorbell s h n
  have hzero : n = 0 ↔ n.toNat = 0 := by rw [← BitVec.toNat_inj]; rfl
  refine ⟨fun hph => ?_, fun hph hn => ?_, fun hph h0 hmax hmod hok hx => ?_⟩
  · rw [opPushLen_outside s _ hph] at hrun; exact hrun
  · rw [opPushLen_bad s _ hph (by rwa [← hzero])] at hrun
    refine ⟨_, stamped { code := 0x0B02, detail := 0xFF } s, hrun, ?_, rfl, ?_⟩
    · rw [keepLatch_sec, wakeEvent_sec]; rfl
    · rw [keepLatch_thal, wakeEvent_thal]; rfl
  · rw [opPushLen_staged s _ hph (fun h0' => h0 (hzero.mpr h0')) hmax hmod] at hrun
    obtain ⟨hphase, hstage, himage⟩ := bootImage_verified s _ hok hx
    refine ⟨_, hrun, ?_, ?_, ?_⟩
    · rw [keepLatch_sec, wakeEvent_sec]; exact hphase
    · rw [keepLatch_gctl, wakeEvent_gctl]; exact hstage
    · rw [keepLatch_sec, wakeEvent_sec]; exact himage

theorem twinImageReceived_clauses (h : Runs s) (d : List Byte) (hd : d.length ≤ 4194304) :
    (s.sec.source ≠ 2 ∨ s.sec.phase ≠ .loading ∨ s.twin.link ≠ .up → Completes (.twinImageReceived d) s s) ∧
    (s.sec.source = 2 → s.sec.phase = .loading → s.twin.link = .up → Completes (.twinImageReceived d) s (bootImage d s)) := by
  have hwf : (Instr.twinImageReceived d).wf = true := by simpa [Instr.wf] using hd
  have hrun : exec (.twinImageReceived d) s = .next (keepLatch s (opTwinImage d s)) := performWf_runs s _ _ hwf h
  refine ⟨fun hno => ?_, fun hsrc hph hlink => ?_⟩
  · rw [opTwinImage, if_neg (by simp only [Bool.and_eq_true, decide_eq_true_eq]; tauto)] at hrun; exact hrun
  · rw [opTwinImage, if_pos (by simp [hsrc, hph, hlink])] at hrun; exact hrun

theorem RunsSaf_of_Runs (h : Runs s) : RunsSaf s := by
  obtain ⟨hheld, hawake⟩ := h
  refine ⟨hheld, ?_⟩
  simp only [State.asleep, Bool.and_eq_false_iff, decide_eq_false_iff_not] at hawake ⊢
  exact hawake.imp_right (fun h => by omega)

theorem exec_twinImageRequest (h : Runs s) : exec .twinImageRequest s = .next (keepLatch s (opTwinRequest s)) :=
  performSaf_runs s _ (RunsSaf_of_Runs s h)

end
end Sys2Proof.Machine
end

section
/-! PROOFS. Memory training, droop calibration and the fabric self-test (R36, R38, R292, R294, R484, R555, R562). -/

namespace Sys2Proof.Machine

section
variable (s : State)

/-! ### Memory training -/

theorem memoryTrainingDone_clauses (h : Runs s) (failed : List PhysChan) (hd : failed.Nodup) :
    (s.bootAt 2 = false → Completes (.memoryTrainingDone failed) s s) ∧
    (s.bootAt 2 = true → ∃ t, exec (.memoryTrainingDone failed) s = .next t ∧ t.gctl.bootStage = 3 ∧ t.mem.bytes = [] ∧ t.mem.lines = []) := by
  have hwf : (Instr.memoryTrainingDone failed).wf = true := by simpa [Instr.wf] using hd
  have hrun : exec (.memoryTrainingDone failed) s = .next (keepLatch s (opTrained (failed.map Fin.val) s)) := performWf_runs s _ _ hwf h
  refine ⟨fun hb => ?_, fun hb => ⟨_, hrun, ?_⟩⟩
  · rw [opTrained, if_pos (by simp [hb])] at hrun; exact hrun
  · rw [keepLatch_gctl, keepLatch_mem, opTrained, if_neg (by simp [hb])]
    exact ⟨rfl, rfl, rfl⟩

/-! ### Droop calibration -/

theorem finishCmd_pwr (tag st r0 r1 : Nat) : (finishCmd tag st r0 r1 s).pwr = s.pwr := by
  unfold finishCmd; rw [finishData_frame]

theorem finishLevels_quads : (finishLevels s).pwr.quads = s.pwr.quads := by
  unfold finishLevels
  refine List.foldlRecOn (motive := fun t : State => t.pwr.quads = s.pwr.quads) _ _ rfl (fun t ht tag _ => ?_)
  dsimp only
  split
  · exact ht
  · split
    · rw [finishCmd_pwr]; exact ht
    · exact ht

/-- A change of level leaves what the reset's calibration still forces (R555, R562). -/
theorem startChange_forcedCal (q level j : Nat) : ((startChange q level s).quad j).forcedCal = (s.quad j).forcedCal := by
  unfold startChange
  dsimp only
  split
  · rfl
  · change ((State.modQuad q (fun r => { r with stbyLock := false }) s).quad j).forcedCal = _
    by_cases hj : j = q
    · subst hj; rw [State.modQuad_quad]
    · rw [State.modQuad_quad_ne _ _ _ _ hj]

theorem advanceLevels_forcedCal (j : Nat) : ((advanceLevels s).quad j).forcedCal = (s.quad j).forcedCal := by
  have hlevels : ((finishLevels s).quad j).forcedCal = (s.quad j).forcedCal := by simp only [State.quad, finishLevels_quads]
  unfold advanceLevels
  dsimp only
  split
  · exact hlevels
  · split
    · rw [startChange_forcedCal]; exact hlevels
    · exact hlevels

theorem droopCalibrationDone_clauses (h : Runs s) (q : Quad) (ok : Bool) (hb : s.bootAt 3 = true) (hq : (s.quad q).forcedCal = true)
    (hr : s.pwr.rail ≤ 3) :
    (ok = false → ∃ t, exec (.droopCalibrationDone q ok) s = .next t ∧ t.gctl.bootFailed = true ∧ (t.quad q).forcedCal = true) ∧
    (ok = true → s.sec.trimsFused = true → ∃ t, exec (.droopCalibrationDone q ok) s = .next t ∧ (t.quad q).forcedCal = false) := by
  have hrun : exec (.droopCalibrationDone q ok) s = .next (keepLatch s (opCalibrated q ok s)) := perform_runs s _ h
  have hdue : ¬ (!s.bootAt 3 || !(s.quad q).forcedCal || decide (3 < s.pwr.rail)) = true := by simp [hb, hq]; exact hr
  refine ⟨fun hok => ⟨_, hrun, ?_⟩, fun hok htrim => ⟨_, hrun, ?_⟩⟩
  · rw [keepLatch_gctl, keepLatch_quad, opCalibrated, if_neg hdue, if_pos (by simp [hok])]
    exact ⟨rfl, hq⟩
  · rw [keepLatch_quad, opCalibrated, if_neg hdue, if_neg (by simp [hok, htrim]), advanceLevels_forcedCal]
    change ((State.modQuad q (fun r => { r with forcedCal := false, stbyLock := true }) s).quad q).forcedCal = false
    rw [State.modQuad_quad]

/-! ### The states of the Fronds through the self-test -/

theorem setFps_st (st : FpState) (fs : List Nat) (f : Nat) :
    ((setFps st fs s).fp f).st = if f ∈ fs then st else (s.fp f).st := by
  induction fs generalizing s with
  | nil => rfl
  | cons g fs ih =>
    change ((setFps st fs (State.modFp g (fun _ => { st := st }) s)).fp f).st = _
    rw [ih]
    by_cases hg : f = g
    · subst hg; simp
    · simp [hg, State.modFp_fp_ne]

theorem voidFit_fps (m : Nat) : (voidFit m s).sched.fps = s.sched.fps := by
  unfold voidFit
  exact List.foldlRecOn (motive := fun t : State => t.sched.fps = s.sched.fps) _ _ rfl (fun t ht _ _ => ht)

theorem shardsLost_fps (l : List Resident) : (shardsLost l s).sched.fps = s.sched.fps := by
  unfold shardsLost
  refine List.foldlRecOn (motive := fun t : State => t.sched.fps = s.sched.fps) _ _ rfl (fun t ht r _ => ?_)
  change (if r.cls = 0 then voidFit r.model t else t).sched.fps = s.sched.fps
  split
  · rw [voidFit_fps]; exact ht
  · exact ht

theorem modFp_st (g f : Nat) (u : FpRec → FpRec) (hu : ∀ r, (u r).st = r.st) : ((State.modFp g u s).fp f).st = (s.fp f).st := by
  by_cases h : f = g
  · subst h; rw [State.modFp_fp, hu]
  · rw [State.modFp_fp_ne _ _ _ _ h]

/-- A fresh epoch leaves every Frond in its state (R294). -/
theorem epochAndInvalidate_st (g f : Nat) : ((epochAndInvalidate g s).fp f).st = (s.fp f).st := by
  change ((freshEpoch g s).fp f).st = _
  unfold freshEpoch writeEpoch
  dsimp only
  split
  · rfl
  · rw [State.fp, shardsLost_fps]
    exact modFp_st _ g f _ (fun _ => rfl)

theorem epochs_st (l : List Nat) (f : Nat) : ((l.foldl (fun t g => epochAndInvalidate g t) s).fp f).st = (s.fp f).st :=
  List.foldlRecOn (motive := fun t : State => (t.fp f).st = (s.fp f).st) _ _ rfl
    (fun t ht g _ => (epochAndInvalidate_st t g f).trans ht)

theorem loadRemaps_sched (l : List (Nat × Nat × Nat)) : (loadRemaps l s).sched = s.sched :=
  List.foldlRecOn (motive := fun t : State => t.sched = s.sched) _ _ rfl (fun _ ht _ _ => ht)

theorem failUnmapped_st (g f : Nat) : ((failUnmapped .failed g s).fp f).st = if f = g then .failed else (s.fp f).st := by
  unfold failUnmapped
  dsimp only
  rw [setFps_st]
  simp only [List.mem_singleton]
  rfl

/-- A Frond that fails its golden tile is FAILED, and one that is FAILED stays so (R292). -/
theorem failAll_st (l : List Nat) (f : Nat) (h : f ∈ l ∨ (s.fp f).st = .failed) :
    ((l.foldl (fun t g => failUnmapped .failed g t) s).fp f).st = .failed := by
  induction l generalizing s with
  | nil => exact h.resolve_left (List.not_mem_nil)
  | cons g l ih =>
    refine ih _ ?_
    rw [failUnmapped_st]
    by_cases hg : f = g
    · exact .inr (if_pos hg)
    · rw [if_neg hg]
      exact h.imp_left (fun hm => (List.mem_cons.mp hm).resolve_left hg)

theorem mapFl_st (x g f : Nat) (h : f ≠ g) : ((mapFl x g s).fp f).st = (s.fp f).st := by
  change ((State.modFp g (fun r => { r with st := .mapped, fl := BitVec.ofNat 8 x })
    { s with sched := { s.sched with flMap := tset 0xFF s.sched.flMap x (BitVec.ofNat 8 g) } }).fp f).st = _
  rw [State.modFp_fp_ne _ _ _ _ h]
  rfl

/-- The map is built over its own Fronds: the others keep their states (R38). -/
theorem buildMap_st (ok : List Nat) (f : Nat) (h : f ∉ ok) : ((buildMap ok s).fp f).st = (s.fp f).st := by
  have hspare : ((setFps .spare ok { s with sched := { s.sched with flMap := [] } }).fp f).st = (s.fp f).st := by
    rw [setFps_st, if_neg h]; rfl
  have hmapped : ((forUpTo (min s.gctl.grade.toNat ok.length) (fun x t => mapFl x (ok.getD x 0) t)
      (setFps .spare ok { s with sched := { s.sched with flMap := [] } })).fp f).st = (s.fp f).st := by
    refine List.foldlRecOn (motive := fun t : State => (t.fp f).st = (s.fp f).st) _ _ hspare (fun t ht x hx => ?_)
    have hlt : x < ok.length := by have := List.mem_range.mp hx; omega
    have hne : f ≠ ok.getD x 0 := by
      rw [List.getD_eq_getElem _ _ hlt]
      exact fun he => h (he ▸ List.getElem_mem hlt)
    rw [mapFl_st t x _ f hne]; exact ht
  unfold buildMap
  dsimp only
  split
  · exact hmapped
  · exact hmapped

theorem buildMap_bootStage (ok : List Nat) : (buildMap ok s).gctl.bootStage = s.gctl.bootStage := by
  have hsetFps : ∀ (t : State), (setFps .spare ok t).gctl = t.gctl := fun t =>
    List.foldlRecOn (motive := fun u : State => u.gctl = t.gctl) _ _ rfl (fun _ ht _ _ => ht)
  have hmapped : (forUpTo (min s.gctl.grade.toNat ok.length) (fun x t => mapFl x (ok.getD x 0) t)
      (setFps .spare ok { s with sched := { s.sched with flMap := [] } })).gctl.bootStage = s.gctl.bootStage :=
    forUpTo_keeps (P := fun t : State => t.gctl.bootStage = s.gctl.bootStage) (f := fun x t => mapFl x (ok.getD x 0) t)
      (fun _ _ ht => ht) _ (by rw [hsetFps])
  unfold buildMap
  dsimp only
  split
  · exact hmapped
  · exact hmapped

theorem becomeReady_posted : Posted { s with
    gctl := { s.gctl with ready := true }, pins := { s.pins with faultN := !s.island.silent && !s.pwr.holdSaf } } (becomeReady s) := atReady_posted _

theorem becomeReady_sched : (becomeReady s).sched = s.sched := (becomeReady_posted s).sched

theorem becomeReady_gctl : (becomeReady s).gctl = { s.gctl with ready := true } := (becomeReady_posted s).gctl

theorem becomeReady_fp (f : Nat) : (becomeReady s).fp f = s.fp f := by rw [State.fp, becomeReady_sched]; rfl

/-! ### FABRIC_SELF_TEST_DONE -/

/-- The Fronds that passed, of those the test and the manufacture left. -/
def passing (failed : List Nat) (s : State) : List Nat := (List.range 144).filter (fun f => !(s.sec.defects ++ failed).contains f)

/-- The Fronds' states after the epochs and the golden tiles, before the map (R292, R294). -/
def tested (failed golden : List Nat) (spared : List (Nat × Nat × Nat)) (s : State) : State :=
  ((passing failed s).filter golden.contains).foldl (fun t f => failUnmapped .failed f t)
    ((passing failed s).foldl (fun t f => epochAndInvalidate f t)
      (loadRemaps spared (setFps .spare (passing failed s) { s with sched := { s.sched with fps := [] } })))

/-- Start-up stands at stage 4, the last before READY (R36). -/
def atStage4 (s : State) : State := { s with gctl := { s.gctl with bootStage := 4 } }

theorem opSelfTest_waits (failed golden : List Nat) (spared : List (Nat × Nat × Nat)) (h : s.bootAt 3 = false ∨ s.pwr.calDone = false) :
    opSelfTest failed golden spared s = s := if_pos (by rcases h with h | h <;> simp [h])

theorem opSelfTest_ends (failed golden : List Nat) (spared : List (Nat × Nat × Nat)) (hb : s.bootAt 3 = true) (hc : s.pwr.calDone = true) :
    opSelfTest failed golden spared s = becomeReady (buildMap ((passing failed s).filter (fun f => !golden.contains f))
      (atStage4 (tested failed golden spared s))) :=
  if_neg (by simp [hb, hc])

theorem tested_st (failed golden : List Nat) (spared : List (Nat × Nat × Nat)) (f : Nat) (h : f ∈ failed ∨ f ∈ golden) :
    ((tested failed golden spared s).fp f).st = .failed := by
  refine failAll_st _ _ f ?_
  by_cases hf : f ∈ passing failed s
  · have hbad : f ∉ failed := by simp [passing] at hf; tauto
    exact .inl (List.mem_filter.mpr ⟨hf, by simpa using h.resolve_left hbad⟩)
  · right
    rw [epochs_st, State.fp, loadRemaps_sched]
    change ((setFps .spare (passing failed s) { s with sched := { s.sched with fps := [] } }).fp f).st = .failed
    rw [setFps_st, if_neg hf]
    rfl

theorem opSelfTest_st (failed golden : List Nat) (spared : List (Nat × Nat × Nat)) (hb : s.bootAt 3 = true) (hc : s.pwr.calDone = true)
    (f : Nat) (h : f ∈ failed ∨ f ∈ golden) : ((opSelfTest failed golden spared s).fp f).st = .failed := by
  have hout : f ∉ (passing failed s).filter (fun f => !golden.contains f) := by
    simp [passing]; tauto
  rw [opSelfTest_ends s _ _ _ hb hc, becomeReady_fp, buildMap_st _ _ f hout]
  exact tested_st s failed golden spared f h

theorem fabricSelfTestDone_clauses (h : Runs s) (x : SelfTest) (hd : (x.failed ++ x.goldenBad).Nodup) :
    (s.bootAt 3 = false ∨ s.pwr.calDone = false → Completes (.fabricSelfTestDone x) s s) ∧
    (s.bootAt 3 = true → s.pwr.calDone = true → ∃ t, exec (.fabricSelfTestDone x) s = .next t ∧ t.gctl.ready = true ∧
      t.gctl.bootStage = 4 ∧ ∀ f : Frond, f ∈ x.failed ∨ f ∈ x.goldenBad → (t.fp f).st = .failed) := by
  have hwf : (Instr.fabricSelfTestDone x).wf = true := by simpa [Instr.wf] using hd
  have hrun : exec (.fabricSelfTestDone x) s = .next (keepLatch s (opSelfTest (x.failed.map Fin.val) (x.goldenBad.map Fin.val)
    (x.spared.map (fun x => (x.1.val, x.2.1.val, x.2.2.val))) s)) := performWf_runs s _ _ hwf h
  refine ⟨fun hwait => ?_, fun hb hc => ⟨_, hrun, ?_, ?_, fun f hf => ?_⟩⟩
  · rw [opSelfTest_waits s _ _ _ hwait] at hrun; exact hrun
  · rw [keepLatch_gctl, opSelfTest_ends s _ _ _ hb hc, becomeReady_gctl]
  · rw [keepLatch_gctl, opSelfTest_ends s _ _ _ hb hc, becomeReady_gctl]
    dsimp only
    rw [buildMap_bootStage, atStage4]
  · rw [State.fp, keepLatch_sched]
    exact opSelfTest_st s _ _ _ hb hc f (hf.imp (List.mem_map_of_mem) (List.mem_map_of_mem))

end

/-- Settles O2, a clause per command of start-up: `resetPins`, `loadImage_waits` and `loadImage_noMagic`, `pushLen_clauses`, and the clauses
of training, calibration and the self-test. -/
theorem resetAndStartUp : Obligations.ResetAndStartUp := by
  unfold Obligations.ResetAndStartUp
  refine ⟨fun s b r x => ?_, fun s b r x => ?_, fun s h => ?_⟩
  · obtain ⟨h1, h2, h3, h4, h5, h6, h7⟩ := resetPins s b r x
    exact ⟨h1, h2, h3, h4, h5, h6, h7, porstNAssert_resets s, sysrstNAssert_resets s⟩
  · refine ⟨startUp_samples s b r x, fun hsrc => ?_, fun hnext hb hspoiled hmagic => ?_⟩
    · rw [startUp_eq]
      exact loadImage_waits (sampled b r x s) ((sampled_source s b r x).trans hsrc)
    · rw [startUp_eq]
      exact loadImage_noMagic (sampled b r x s) (by rw [sampled_source]; simp [hnext, hb]) hspoiled hmagic
  · refine ⟨pushLen_clauses s h, twinImageReceived_clauses s h, fun hph hlink => ?_, fun hlink => ?_, memoryTrainingDone_clauses s h,
      droopCalibrationDone_clauses s h, fabricSelfTestDone_clauses s h⟩
    · have hrun := exec_twinImageRequest s h
      rw [opTwinRequest, if_pos (by simp [hph, hlink])] at hrun
      exact hrun
    · have hrun := exec_twinImageRequest s h
      rw [opTwinRequest, if_neg (by simp [hlink])] at hrun
      exact hrun

end Sys2Proof.Machine
end


section
/-! PROOFS. A line of main memory: its code word, its decoding, and what a read's upkeep leaves alone (R467, R471 to R474, R479, R480). -/

namespace Sys2Proof.Machine

section
variable (s : State) (i : Nat)

/-! ### The code word of a line (R471, R473) -/

/-- Line i as it stands in the array. -/
def State.lineWord (s : State) (i : Nat) : List Byte := rsEncode (s.memBytes (i * 64) 64 ++ [metaByte (s.lineMeta i)])

@[simp] theorem memBytes_length (a n : Nat) : (s.memBytes a n).length = n := treadN_length ..

@[simp] theorem lineWord_length : (s.lineWord i).length = 68 := by simp [State.lineWord]

theorem lineWord_isCodeword : IsCodeword (s.lineWord i) := isCodeword_rsEncode _

theorem lineWord_take : (s.lineWord i).take 64 = s.memBytes (i * 64) 64 := by
  rw [State.lineWord, rsEncode, List.append_assoc, List.take_left' (memBytes_length ..)]

theorem lineWord_meta : (s.lineWord i).getD 64 0 = metaByte (s.lineMeta i) := by
  simp [State.lineWord, rsEncode]

/-- A code word decodes good and stays as it is. -/
theorem rsDecode_codeword {w : List Byte} (hw : IsCodeword w) : rsDecode w = .good := by
  rw [rsDecode_eq, hw 0 (by decide), hw 1 (by decide), hw 2 (by decide)]
  rfl

theorem rsCorrected_codeword {w : List Byte} (hw : IsCodeword w) : rsCorrected w = w := by
  unfold rsCorrected; rw [rsDecode_codeword hw]

/-- The metadata byte holds the two marks and nothing else (R473). -/
theorem metaByte_marks (m : LineMeta) : (metaByte m).toNat < 4 ∧ bit (metaByte m).toNat 0 = m.poison ∧ bit (metaByte m).toNat 1 = m.wss := by
  have hmarks : ∀ p w : Bool, (BitVec.ofNat 8 (b2n p + 2 * b2n w)).toNat < 4 ∧ bit (BitVec.ofNat 8 (b2n p + 2 * b2n w)).toNat 0 = p ∧
      bit (BitVec.ofNat 8 (b2n p + 2 * b2n w)).toNat 1 = w := by decide
  exact hmarks m.poison m.wss

/-! ### Decoding (R471, R474) -/

/-- What a read of an intact or corrected line answers. -/
def State.lineRead (s : State) (i : Nat) (corrected : Bool) : LineRead :=
  { data := s.memBytes (i * 64) 64, poison := (s.lineMeta i).poison, wss := (s.lineMeta i).wss, corrected := corrected, bad := false }

/-- A line whose word arrives so that it can be corrected decodes to what it holds. -/
theorem decodeLine_of_corrected {errs : List SymErr} {out : RsOutcome}
    (hout : rsDecode (applyErrs (s.lineWord i) (errs.map (fun e => (e.pos.val, e.flip)))) = out) (hne : out ≠ .uncorrectable)
    (hcorr : rsCorrected (applyErrs (s.lineWord i) (errs.map (fun e => (e.pos.val, e.flip)))) = s.lineWord i) :
    s.decodeLine i errs = s.lineRead i (out ≠ .good) := by
  obtain ⟨hsmall, hpoison, hwss⟩ := metaByte_marks (s.lineMeta i)
  unfold State.decodeLine
  rw [State.lineWord] at hout hcorr
  dsimp only
  rw [hout, hcorr, ← State.lineWord, lineWord_meta, lineWord_take, if_neg (by simp [hne]; omega), hpoison, hwss]
  rfl

theorem decodeLine_intact : s.decodeLine i [] = s.lineRead i false :=
  decodeLine_of_corrected s i (errs := []) (rsDecode_codeword (lineWord_isCodeword s i)) (by decide) (rsCorrected_codeword (lineWord_isCodeword s i))

theorem decodeLine_one (e : SymErr) (he : e.flip ≠ 0) : s.decodeLine i [e] = s.lineRead i true := by
  have hpos : e.pos.val < (s.lineWord i).length := by rw [lineWord_length]; exact e.pos.isLt
  have hlen : (s.lineWord i).length ≤ 255 := by rw [lineWord_length]; decide
  have h := decodeLine_of_corrected s i (errs := [e]) (rsDecode_one (lineWord_isCodeword s i) hlen hpos he) (by simp)
    (rsCorrected_one (lineWord_isCodeword s i) hlen hpos he)
  simpa using h

/-- Two symbols in error: poison (R474). -/
theorem decodeLine_two (e f : SymErr) (hne : e.pos ≠ f.pos) (he : e.flip ≠ 0) (hf : f.flip ≠ 0) :
    (s.decodeLine i [e, f]).bad = true ∧ (s.decodeLine i [e, f]).poison = true := by
  have hword : ∀ k : Fin 68, k.val < (s.lineWord i).length := fun k => by rw [lineWord_length]; exact k.isLt
  have hout := rsDecode_two (lineWord_isCodeword s i) (by rw [lineWord_length]; decide) (Fin.val_ne_of_ne hne) (hword e.pos) (hword f.pos)
    he hf
  rw [State.lineWord] at hout
  unfold State.decodeLine
  dsimp only
  rw [if_pos (by simpa using .inl hout)]
  exact ⟨rfl, rfl⟩

theorem rsCorrected_length (w : List Byte) : (rsCorrected w).length = w.length := by
  unfold rsCorrected
  split
  · rw [List.length_set]
  · rfl

theorem decodeLine_data_length (errs : List SymErr) : (s.decodeLine i errs).data.length = 64 := by
  unfold State.decodeLine
  dsimp only
  split <;> simp [rsCorrected_length]

/-- Decoding speaks of the line's bytes and marks alone. -/
theorem decodeLine_congr {s t : State} (hb : t.mem.bytes = s.mem.bytes) (hm : t.lineMeta i = s.lineMeta i) (errs : List SymErr) :
    t.decodeLine i errs = s.decodeLine i errs := by
  unfold State.decodeLine State.memBytes
  rw [hb, hm]

end

/-! ### Upkeep: migrations and row sparing (R479, R480) -/

/-- What the controllers' upkeep leaves alone: the bytes, the marks, the channel map, the count of corrections, what is sent, and the
records already under way. -/
structure Tended (s t : State) : Prop where
  bytes : t.mem.bytes = s.mem.bytes
  lines : t.mem.lines = s.mem.lines
  chmap : t.mem.chmap = s.mem.chmap
  out : t.out = s.out
  inFlight : s.thal.inFlight <+: t.thal.inFlight
  corr : ∀ p, (t.pch p).corr = (s.pch p).corr

namespace Tended

theorem refl (s : State) : Tended s s := ⟨rfl, rfl, rfl, rfl, List.prefix_rfl, fun _ => rfl⟩

theorem trans {s t u : State} (h : Tended s t) (k : Tended t u) : Tended s u where
  bytes := k.bytes.trans h.bytes
  lines := k.lines.trans h.lines
  chmap := k.chmap.trans h.chmap
  out := k.out.trans h.out
  inFlight := h.inFlight.trans k.inFlight
  corr p := (k.corr p).trans (h.corr p)

theorem lineMeta {s t : State} (h : Tended s t) (i : Nat) : t.lineMeta i = s.lineMeta i := by
  simp only [State.lineMeta, State.chmap, h.lines, h.chmap]

end Tended

section
variable (s : State)

theorem report_tended (r : FaultRec) : Tended s (report r s) := { Tended.refl s with inFlight := List.prefix_append .. }

theorem modGroup_tended (g : Nat) (u : GroupRec → GroupRec) : Tended s (State.modGroup g u s) := { Tended.refl s with }

theorem modPch_tended (p : Nat) (u : PchRec → PchRec) (hu : ∀ r, (u r).corr = r.corr) : Tended s (State.modPch p u s) :=
  { Tended.refl s with
    corr := fun q => by
      by_cases h : q = p
      · subst h; rw [State.modPch_pch, hu]
      · rw [State.modPch_pch_ne _ _ _ _ h] }

theorem chanFault_tended (code : BitVec 16) (p cause : Nat) : Tended s (chanFault code p cause s) := report_tended s _

theorem startMigration_tended (l cause : Nat) : Tended s (startMigration l cause s) := by
  unfold startMigration
  dsimp only
  split
  · exact chanFault_tended s _ _ _
  · refine Tended.trans (Tended.trans ?_ (modPch_tended _ _ _ ?_)) (chanFault_tended _ _ _ _)
    · exact modGroup_tended s _ _
    · exact fun _ => rfl

theorem requestMigration_tended (l cause : Nat) : Tended s (requestMigration l cause s) := by
  unfold requestMigration
  dsimp only
  split
  · exact Tended.refl s
  · split
    · exact modGroup_tended s _ _
    · exact startMigration_tended s l cause

theorem requestRowSpare_tended (p row : Nat) : Tended s (requestRowSpare p row s) := by
  unfold requestRowSpare
  dsimp only
  split
  · exact Tended.refl s
  · split
    · have hrec : Tended s (reportCode 0x0206 (memDetail p row false 0) s) := report_tended s _
      split
      · exact hrec.trans (requestMigration_tended _ _ _)
      · exact hrec
    · exact modPch_tended s p _ (fun _ => rfl)

theorem noteUncorrectable_tended (p row : Nat) : Tended s (noteUncorrectable p row s) :=
  (modPch_tended s p (fun r => { r with uncorr := satInc r.uncorr }) (fun _ => rfl)).trans (requestRowSpare_tended _ p row)

/-- A correction counted in its row's table, before the thresholds are looked at (R479). -/
def countCorrection (p row n : Nat) (s : State) : State :=
  State.modPch p (fun r => { r with
    corr := satInc r.corr, passCorr := r.passCorr + 1, rowTable := ((row, n) :: r.rowTable.filter (fun x => x.1 ≠ row)).take 16 }) s

theorem noteCorrection_tended (p row : Nat) : ∃ n, Tended (countCorrection p row n s) (noteCorrection p row s) := by
  unfold noteCorrection
  extract_lets old t u
  refine ⟨old + 1, ?_⟩
  change Tended t _
  have hrow : Tended t u := by
    unfold u
    split
    · exact requestRowSpare_tended t p row
    · exact Tended.refl t
  split
  · split
    · exact hrow.trans (requestMigration_tended u _ _)
    · exact hrow
  · exact hrow

end
end Sys2Proof.Machine
end

section
/-! PROOFS. Reads of main memory (R467, R471, R474, R477, R479, R482, R558). -/

namespace Sys2Proof.Machine

section
variable (s : State)

/-! ### The transfer over the link (R467, R468) -/

theorem satAdd_zero {w : Nat} (x : BitVec w) : satAdd x 0 = x := by
  unfold satAdd
  rw [if_neg (by have := x.isLt; omega)]
  simp

/-- The attempts of a line's transfer that are repeated. -/
def State.repeats (s : State) (i : Nat) (link : List LinkErr) : Nat := (link.filter (fun e => !linkOk (s.lineWord i) e)).length

/-- The repeats counted on the channel, before the good attempt. -/
def countRepeats (i : Nat) (link : List LinkErr) (s : State) : State :=
  if s.repeats i link = 0 then s
  else State.modPch (s.servingPch (i * 64)) (fun r => { r with replay := satAdd r.replay (s.repeats i link) }) s

theorem linkTransfer_eq (i : Nat) (link : List LinkErr) : linkTransfer i link s = transferOk (i * 64) (countRepeats i link s) := rfl

theorem countRepeats_frame (i : Nat) (link : List LinkErr) :
    countRepeats i link s = { s with mem := { s.mem with pchs := (countRepeats i link s).mem.pchs } } := by
  unfold countRepeats; split <;> rfl

theorem linkTransfer_frame (i : Nat) (link : List LinkErr) :
    linkTransfer i link s = { s with mem := { s.mem with pchs := (linkTransfer i link s).mem.pchs } } := by
  rw [linkTransfer_eq, transferOk_frame, countRepeats_frame]

theorem countRepeats_servingPch (i a : Nat) (link : List LinkErr) : (countRepeats i link s).servingPch a = s.servingPch a := by
  rw [countRepeats_frame]; rfl

/-- A successful transfer changes nothing of a channel but the mark of its retraining. -/
theorem transferOk_pch (a p : Nat) : (transferOk a s).pch p = if p = s.servingPch a then { s.pch p with retrained := false } else s.pch p := by
  unfold transferOk
  by_cases hr : (s.pch (s.servingPch a)).retrained = true
  · rw [if_pos hr]
    by_cases hp : p = s.servingPch a
    · rw [if_pos hp, hp, State.modPch_pch]
    · rw [if_neg hp, State.modPch_pch_ne _ _ _ _ hp]
  · rw [if_neg hr]
    split
    · next hp => subst hp; rw [← Bool.eq_false_iff.mpr hr]
    · rfl

theorem countRepeats_pch (i p : Nat) (link : List LinkErr) : (countRepeats i link s).pch p =
    if p = s.servingPch (i * 64) then { s.pch p with replay := satAdd (s.pch p).replay (s.repeats i link) } else s.pch p := by
  unfold countRepeats
  by_cases hn : s.repeats i link = 0
  · rw [if_pos hn, hn, satAdd_zero]; split <;> rfl
  · rw [if_neg hn]
    by_cases hp : p = s.servingPch (i * 64)
    · rw [if_pos hp, hp, State.modPch_pch]
    · rw [if_neg hp, State.modPch_pch_ne _ _ _ _ hp]

/-- The channel that served a transfer: its repeats counted, its retraining over. -/
theorem linkTransfer_pch (i : Nat) (link : List LinkErr) : (linkTransfer i link s).pch (s.servingPch (i * 64)) =
    { s.pch (s.servingPch (i * 64)) with
      retrained := false, replay := satAdd (s.pch (s.servingPch (i * 64))).replay (s.repeats i link) } := by
  rw [linkTransfer_eq, transferOk_pch, countRepeats_servingPch, if_pos rfl, countRepeats_pch, if_pos rfl]

theorem linkTransfer_bytes (i : Nat) (link : List LinkErr) : (linkTransfer i link s).mem.bytes = s.mem.bytes := by
  rw [linkTransfer_frame]

theorem linkTransfer_lineMeta (i j : Nat) (link : List LinkErr) : (linkTransfer i link s).lineMeta j = s.lineMeta j := by
  rw [linkTransfer_frame]; rfl

theorem linkTransfer_servingPch (i a : Nat) (link : List LinkErr) : (linkTransfer i link s).servingPch a = s.servingPch a := by
  rw [linkTransfer_frame]; rfl

theorem linkTransfer_out (i : Nat) (link : List LinkErr) : (linkTransfer i link s).out = s.out := by rw [linkTransfer_frame]

theorem linkTransfer_thal (i : Nat) (link : List LinkErr) : (linkTransfer i link s).thal = s.thal := by rw [linkTransfer_frame]

theorem linkTransfer_decodeLine (i : Nat) (link : List LinkErr) (errs : List SymErr) :
    (linkTransfer i link s).decodeLine i errs = s.decodeLine i errs :=
  decodeLine_congr i (linkTransfer_bytes s i link) (linkTransfer_lineMeta s i i link) errs

/-! ### What a line's read writes back (R474, R476) -/

theorem tget_putMem_out (a b : Nat) (d : List Byte) (h : b < a ∨ a + d.length ≤ b) :
    tget 0 (putMem a d s).mem.bytes b = tget 0 s.mem.bytes b := tget_twriteN_out 0 d _ a b h

theorem tget_treadN {α : Type} (d : α) (t : Tab α) (n a k : Nat) (h : k < (treadN d t a n).length) : (treadN d t a n)[k] = tget d t (a + k) := by
  induction n generalizing a k with
  | zero => exact absurd h (Nat.not_lt_zero k)
  | succ n ih =>
    cases k with
    | zero => rfl
    | succ k =>
      simp only [treadN, List.getElem_cons_succ]
      rw [ih, Nat.add_assoc, Nat.add_comm 1]

/-- Bytes written back as they were read leave every byte as it was. -/
theorem tget_putMem_same (a n b : Nat) : tget 0 (putMem a (s.memBytes a n) s).mem.bytes b = tget 0 s.mem.bytes b := by
  by_cases h : b < a ∨ a + n ≤ b
  · exact tget_putMem_out s a b _ (by rwa [memBytes_length])
  · obtain ⟨k, rfl⟩ : ∃ k, b = a + k := ⟨b - a, by omega⟩
    have hk : k < (s.memBytes a n).length := by rw [memBytes_length]; omega
    exact (tget_twriteN_in 0 (s.memBytes a n) s.mem.bytes a k hk).trans (tget_treadN 0 s.mem.bytes n a k hk)

/-- A corrected line goes back with its marks, and the correction is counted. -/
theorem lineEffects_corrected (i : Nat) {r : LineRead} (w : Bool) (hb : r.bad = false) (hc : r.corrected = true) :
    ∃ n, Tended (countCorrection (s.servingPch (i * 64)) (rowOf (i * 64)) n (setLineMeta i r.poison w (putMem (i * 64) r.data s)))
      (lineEffects i r w s) := by
  unfold lineEffects
  dsimp only
  rw [if_neg (by simp [hb]), if_pos hc]
  exact noteCorrection_tended _ _ _

/-- A line that cannot be corrected goes back as it arrived, poisoned. -/
theorem lineEffects_bad (i : Nat) {r : LineRead} (w : Bool) (hb : r.bad = true) :
    Tended (setLineMeta i true w (putMem (i * 64) r.data s)) (lineEffects i r w s) := by
  unfold lineEffects
  dsimp only
  rw [if_pos hb]
  exact noteUncorrectable_tended _ _ _

theorem lineEffects_intact (t : State) (i : Nat) (w : Bool) : lineEffects i (s.lineRead i false) w t = t := rfl

/-- What a read's upkeep does with the line: nothing, or the line goes back with new marks and then Tended holds (R474, R479). -/
theorem lineEffects_cases (i : Nat) (r : LineRead) (w : Bool) : lineEffects i r w s = s ∨ ∃ u : State,
    u.mem.bytes = (putMem (i * 64) r.data s).mem.bytes ∧ u.out = s.out ∧ Tended u (lineEffects i r w s) := by
  cases hb : r.bad with
  | true => exact .inr ⟨setLineMeta i true w (putMem (i * 64) r.data s), rfl, rfl, lineEffects_bad s i w hb⟩
  | false =>
    cases hc : r.corrected with
    | true =>
      obtain ⟨n, ht⟩ := lineEffects_corrected s i w hb hc
      exact .inr ⟨countCorrection _ _ n (setLineMeta i r.poison w (putMem (i * 64) r.data s)), rfl, rfl, ht⟩
    | false => exact .inl (by unfold lineEffects; simp [hb, hc])

theorem lineEffects_out (i : Nat) (r : LineRead) (w : Bool) : (lineEffects i r w s).out = s.out := by
  rcases lineEffects_cases s i r w with h | ⟨u, -, hu, ht⟩
  · rw [h]
  · rw [ht.out, hu]

/-- A line that arrived as it stands leaves every byte as it was. -/
theorem lineEffects_bytes_same (i : Nat) (r : LineRead) (w : Bool) (hr : r.data = s.memBytes (i * 64) 64) (b : Nat) :
    tget 0 (lineEffects i r w s).mem.bytes b = tget 0 s.mem.bytes b := by
  rcases lineEffects_cases s i r w with h | ⟨u, hu, -, ht⟩
  · rw [h]
  · rw [ht.bytes, hu, hr, tget_putMem_same]

/-- A read's write-back reaches no other line. -/
theorem lineEffects_bytes_out (i : Nat) (r : LineRead) (w : Bool) (hr : r.data.length = 64) (b : Nat) (h : b < i * 64 ∨ i * 64 + 64 ≤ b) :
    tget 0 (lineEffects i r w s).mem.bytes b = tget 0 s.mem.bytes b := by
  rcases lineEffects_cases s i r w with he | ⟨u, hu, -, ht⟩
  · rw [he]
  · rw [ht.bytes, hu, tget_putMem_out s _ b _ (by rwa [hr])]

theorem countCorrection_corr (p row n : Nat) : ((countCorrection p row n s).pch p).corr = satInc (s.pch p).corr := by
  rw [countCorrection, State.modPch_pch]

/-- The count of a corrected line, on the channel that served it. -/
theorem lineEffects_corr (i : Nat) {r : LineRead} (w : Bool) (hb : r.bad = false) (hc : r.corrected = true) :
    ((lineEffects i r w s).pch (s.servingPch (i * 64))).corr = satInc (s.pch (s.servingPch (i * 64))).corr := by
  obtain ⟨n, ht⟩ := lineEffects_corrected s i w hb hc
  rw [ht.corr, countCorrection_corr]
  rfl

/-! ### MEM_READ -/

theorem useTokens_low (init cls a n : Nat) (h : class0Read init cls = false) : useTokens init cls a n s = s := by
  unfold useTokens; rw [if_neg (by simp [h])]

/-- The reply of a read whose line arrives as r, with the line's upkeep done. -/
def readLine (init a : Nat) (r : LineRead) (link : List LinkErr) (s : State) : State :=
  emit (.readReply (BitVec.ofNat 8 init) (some r.data) r.poison) (lineEffects (a / 64) r r.wss (linkTransfer (a / 64) link s))

theorem readLine_out (init : Initiator) (a : Nat) (r : LineRead) (link : List LinkErr) :
    (readLine init.toNat a r link s).out = s.out ++ [.readReply init (some r.data) r.poison] := by
  change (lineEffects (a / 64) r r.wss (linkTransfer (a / 64) link s)).out ++ _ = _
  rw [lineEffects_out, linkTransfer_out, BitVec.ofNat_toNat, BitVec.setWidth_eq]

theorem readLine_mem (init a : Nat) (r : LineRead) (link : List LinkErr) :
    (readLine init a r link s).mem = (lineEffects (a / 64) r r.wss (linkTransfer (a / 64) link s)).mem := rfl

theorem readLine_pch (init a p : Nat) (r : LineRead) (link : List LinkErr) :
    (readLine init a r link s).pch p = (lineEffects (a / 64) r r.wss (linkTransfer (a / 64) link s)).pch p := rfl

/-- A read below class 0 of a channel that is not LOST. -/
theorem opMemRead_served (init cls a : Nat) (errs : List SymErr) (link : List LinkErr) (hl : s.lineLost (a / 64) = false)
    (hc : class0Read init cls = false) :
    opMemRead init cls a errs link s =
      if (s.decodeLine (a / 64) errs).bad then memFault 0x0201 init a false false (readLine init a (s.decodeLine (a / 64) errs) link s)
      else readLine init a (s.decodeLine (a / 64) errs) link s := by
  unfold opMemRead
  dsimp only
  rw [useTokens_low s _ _ _ _ hc, if_neg (by simp [hl]), linkTransfer_decodeLine, hc]
  simp only [Bool.and_false, Bool.false_eq_true, if_false]
  rfl

/-- A read below class 0 of a LOST channel. -/
theorem opMemRead_lost (init cls a : Nat) (errs : List SymErr) (link : List LinkErr) (hl : s.lineLost (a / 64) = true)
    (hc : class0Read init cls = false) :
    opMemRead init cls a errs link s = emit (.readReply (BitVec.ofNat 8 init) (some (s.memBytes a 64)) true) s := by
  unfold opMemRead
  dsimp only
  rw [useTokens_low s _ _ _ _ hc, if_pos hl, hc, if_neg Bool.false_ne_true]

/-! ### An access's command (R28, R479, R481, R558) -/

theorem memCommand_unissued (x : MemWait) (h : s.initIssued x.init = false) : memCommand x s = s := if_neg (by simp [h])

theorem memCommand_waits (x : MemWait) (h : s.initIssued x.init = true) (hw : s.lineWaits (x.addr / 64) = true) :
    memCommand x s = State.modGroup (lchOf x.addr / 32) (fun r => { r with held := r.held ++ [x] }) s :=
  (if_pos h).trans (if_pos hw)

theorem memCommand_served (x : MemWait) (h : s.initIssued x.init = true) (hw : s.lineWaits (x.addr / 64) = false) :
    memCommand x s = memAccess x s := (if_pos h).trans (if_neg (by simp [hw]))

section
variable (init : Initiator) (cls : Fin 4) (a : Addr) (errs : LineErrs)

/-- The access of a MEM_READ, or of a MEM_WRITE of x. -/
def accessOf (x : Option (List Byte × Bool)) : MemWait := ⟨init.toNat, cls.val, a, x, errs.syms, errs.link⟩

theorem exec_memRead (h : Runs s) (hwf : (Instr.memRead init cls a errs).wf = true) :
    exec (.memRead init cls a errs) s = .next (keepLatch s (memCommand (accessOf init cls a errs none) s)) :=
  performWf_runs s _ _ hwf h

theorem wf_memRead (hwf : (Instr.memRead init cls a errs).wf = true) : a / 64 * 64 = a ∧ SymErr.distinct errs.syms = true := by
  simp only [Instr.wf, LineErrs.wf, Bool.and_eq_true, decide_eq_true_eq] at hwf
  obtain ⟨⟨-, hline⟩, hsyms, -⟩ := hwf
  exact ⟨Nat.div_mul_cancel (Nat.dvd_of_mod_eq_zero hline), hsyms⟩

/-- A read that reaches a line in service below class 0. -/
theorem exec_memRead_served (h : Runs s) (hwf : (Instr.memRead init cls a errs).wf = true) (hi : s.initIssued init.toNat = true)
    (hw : s.lineWaits (a / 64) = false) (hl : s.lineLost (a / 64) = false) (hc : class0Read init.toNat cls = false) :
    exec (.memRead init cls a errs) s = .next (keepLatch s
      (if (s.decodeLine (a / 64) errs.syms).bad then
        memFault 0x0201 init.toNat a false false (readLine init.toNat a (s.decodeLine (a / 64) errs.syms) errs.link s)
      else readLine init.toNat a (s.decodeLine (a / 64) errs.syms) errs.link s)) := by
  rw [exec_memRead s init cls a errs h hwf, memCommand_served s (accessOf init cls a errs none) hi hw]
  exact congrArg (fun t => Host.Outcome.next (keepLatch s t)) (opMemRead_served s init.toNat cls.val a errs.syms errs.link hl hc)

variable (hline : a / 64 * 64 = a)
include hline

/-- A line that arrives intact (R474). -/
theorem memRead_intact (h : Runs s) (hwf : (Instr.memRead init cls a errs).wf = true) (hi : s.initIssued init.toNat = true)
    (hw : s.lineWaits (a / 64) = false) (hl : s.lineLost (a / 64) = false) (hp : (s.lineMeta (a / 64)).poison = false)
    (hc : class0Read init.toNat cls = false) (he : errs.syms = []) :
    ∃ t, exec (.memRead init cls a errs) s = .next t ∧ t.mem.bytes = s.mem.bytes ∧
      t.out = s.out ++ [.readReply init (some (s.memBytes a 64)) false] ∧ t.thal.inFlight = s.thal.inFlight ∧
      (t.pch (s.servingPch a)).retrained = false ∧
      (t.pch (s.servingPch a)).replay = satAdd (s.pch (s.servingPch a)).replay (s.repeats (a / 64) errs.link) := by
  have hrun := exec_memRead_served s init cls a errs h hwf hi hw hl hc
  have hpch := linkTransfer_pch s (a / 64) errs.link
  rw [he, decodeLine_intact, if_neg (show ¬ (s.lineRead (a / 64) false).bad = true from Bool.false_ne_true), readLine,
    lineEffects_intact] at hrun
  rw [hline] at hpch
  refine ⟨_, hrun, ?_, ?_, ?_, ?_, ?_⟩
  · rw [keepLatch_mem]; exact linkTransfer_bytes ..
  · rw [keepLatch_out]
    change (linkTransfer (a / 64) errs.link s).out ++ _ = _
    rw [linkTransfer_out, State.lineRead, hline, hp, BitVec.ofNat_toNat, BitVec.setWidth_eq]
  · rw [keepLatch_thal]; exact congrArg Thal.inFlight (linkTransfer_thal ..)
  · rw [keepLatch_pch]; exact congrArg PchRec.retrained hpch
  · rw [keepLatch_pch]; exact congrArg PchRec.replay hpch

/-- A line with one symbol in error: corrected, written back and counted (R471, R474, R479). -/
theorem memRead_corrected (h : Runs s) (hwf : (Instr.memRead init cls a errs).wf = true) (hi : s.initIssued init.toNat = true)
    (hw : s.lineWaits (a / 64) = false) (hl : s.lineLost (a / 64) = false) (hp : (s.lineMeta (a / 64)).poison = false)
    (hc : class0Read init.toNat cls = false) (he : errs.syms.length = 1) :
    ∃ t, exec (.memRead init cls a errs) s = .next t ∧ (∀ b, tget 0 t.mem.bytes b = tget 0 s.mem.bytes b) ∧
      t.out = s.out ++ [.readReply init (some (s.memBytes a 64)) false] ∧
      (t.pch (s.servingPch a)).corr = satInc (s.pch (s.servingPch a)).corr := by
  obtain ⟨e, hsyms⟩ := List.length_eq_one_iff.mp he
  obtain ⟨-, hd⟩ := wf_memRead init cls a errs hwf
  have hflip : e.flip ≠ 0 := by simpa [hsyms, SymErr.distinct] using hd
  have hrun := exec_memRead_served s init cls a errs h hwf hi hw hl hc
  have hpch := linkTransfer_pch s (a / 64) errs.link
  rw [hsyms, decodeLine_one s _ e hflip, if_neg (show ¬ (s.lineRead (a / 64) true).bad = true from Bool.false_ne_true)] at hrun
  refine ⟨_, hrun, fun b => ?_, ?_, ?_⟩
  · rw [keepLatch_mem, readLine_mem, lineEffects_bytes_same, linkTransfer_bytes]
    rw [State.memBytes, linkTransfer_bytes]; rfl
  · rw [keepLatch_out, readLine_out, State.lineRead, hline, hp]
  · have hcorr := lineEffects_corr (linkTransfer (a / 64) errs.link s) (a / 64) (r := s.lineRead (a / 64) true)
      (s.lineRead (a / 64) true).wss rfl rfl
    rw [linkTransfer_servingPch, hpch, hline] at hcorr
    rw [keepLatch_pch, readLine_pch]
    exact hcorr

/-- A line with two symbols in error: poison, and 0x0201 (R474). -/
theorem memRead_uncorrectable (h : Runs s) (hwf : (Instr.memRead init cls a errs).wf = true) (hi : s.initIssued init.toNat = true)
    (hw : s.lineWaits (a / 64) = false) (hl : s.lineLost (a / 64) = false) (hc : class0Read init.toNat cls = false)
    (he : errs.syms.length = 2) :
    ∃ t d f l, exec (.memRead init cls a errs) s = .next t ∧
      t.out = s.out ++ [.readReply init (some d) true] ∧ (t.lineMeta (a / 64)).poison = true ∧
      f.code = 0x0201 ∧ f ∈ l ∧ t.thal.inFlight = s.thal.inFlight ++ l ∧
      ∀ b, b < a ∨ a + 64 ≤ b → tget 0 t.mem.bytes b = tget 0 s.mem.bytes b := by
  obtain ⟨e, f, hsyms⟩ := List.length_eq_two.mp he
  obtain ⟨-, hd⟩ := wf_memRead init cls a errs hwf
  obtain ⟨hne, hflipE, hflipF⟩ : e.pos ≠ f.pos ∧ e.flip ≠ 0 ∧ f.flip ≠ 0 := by simpa [hsyms, SymErr.distinct] using hd
  have hrun := exec_memRead_served s init cls a errs h hwf hi hw hl hc
  obtain ⟨hbad, hpoison⟩ := decodeLine_two s (a / 64) e f hne hflipE hflipF
  have hdata := decodeLine_data_length s (a / 64) [e, f]
  rw [hsyms, if_pos hbad] at hrun
  generalize s.decodeLine (a / 64) [e, f] = r at hrun hbad hpoison hdata
  have ht := lineEffects_bad (linkTransfer (a / 64) errs.link s) (a / 64) r.wss hbad
  obtain ⟨l, hl⟩ := ht.inFlight
  obtain ⟨u, hu⟩ : ∃ u, u = readLine init.toNat a r errs.link s := ⟨_, rfl⟩
  have hmem : u.mem = (lineEffects (a / 64) r r.wss (linkTransfer (a / 64) errs.link s)).mem := by rw [hu, readLine_mem]
  have hmark : (u.lineMeta (a / 64)).poison = true := by
    rw [State.lineMeta_congr _ hmem, ht.lineMeta, setLineMeta_lineMeta]
  have hflight : u.thal.inFlight = s.thal.inFlight ++ l := by
    rw [setLineMeta_thal, putMem_thal, linkTransfer_thal] at hl
    rw [hu, hl]; rfl
  refine ⟨_, r.data, stamped { faultAt 0x0201 init.toNat a (memDetail (u.servingPch a) (rowOf a) false 0) with doubt := false } u, l ++ [_], hrun,
    ?_, ?_, rfl, List.mem_append_right _ (List.mem_singleton_self _), ?_, fun b hb => ?_⟩
  · rw [keepLatch_out, ← hpoison]
    exact readLine_out s init a r errs.link
  · rw [State.lineMeta_congr _ (keepLatch_mem ..), ← hu]
    exact hmark
  · rw [keepLatch_thal, ← hu, ← List.append_assoc, ← hflight]
    rfl
  · rw [keepLatch_mem, ← hu]
    change tget 0 u.mem.bytes b = _
    rw [hmem, lineEffects_bytes_out _ _ _ _ hdata b (by rwa [hline]), linkTransfer_bytes]

end
end
end Sys2Proof.Machine
end

section
/-! PROOFS. Writes of main memory, and the controllers' accesses together (R28, R475, R479, R481, R482, R558). -/

namespace Sys2Proof.Machine

section
variable (s : State)

/-! ### A write within a line (R475) -/

theorem linesOf_within {a n : Nat} (hn : 0 < n) (hin : a % 64 + n ≤ 64) : linesOf a n = [a / 64] := by
  have hone : (a + n - 1) / 64 + 1 - a / 64 = 1 := by omega
  simp [linesOf, hone]

theorem inLine_within {α : Type} {a : Nat} {d : List α} (hin : a % 64 + d.length ≤ 64) : inLine a (a / 64) d = d := by
  have hstart : a / 64 * 64 - a = 0 := by omega
  rw [inLine, hstart, List.drop_zero, if_pos (by omega), List.take_of_length_le (by omega)]

/-- What lies outside a line lies outside an access within it. -/
theorem outside_access {a n b : Nat} (hin : a % 64 + n ≤ 64) (hb : b < a / 64 * 64 ∨ a / 64 * 64 + 64 ≤ b) : b < a ∨ a + n ≤ b := by
  omega

theorem setLineMeta_wss (i : Nat) (p w : Bool) : ((setLineMeta i p w s).lineMeta i).wss = w := by
  have hm : tget {} (setLineMeta i p w s).mem.lines i =
      { poison := p, wss := w, held := (s.chmap (lchOf (i * 64))).wiped.isSome } := tget_tset_self _ _ _ _
  simp only [State.lineMeta, hm, setLineMeta_chmap]
  cases (s.chmap (lchOf (i * 64))).wiped <;> rfl

section
variable {a : Nat} {d : List PByte} (hn : 0 < d.length) (hin : a % 64 + d.length ≤ 64)
include hn hin

/-- A write within a line. -/
theorem memWrite_within : memWrite a d s =
    setLineMeta (a / 64) (poisoned d || (decide (d.length < 64) && (s.lineMeta (a / 64)).poison)) true
      (putMem a (plain d) (transferOk (a / 64 * 64) s)) := by
  unfold memWrite
  rw [linesOf_within hn hin]
  change writeLine a d (a / 64) s = _
  rw [writeLine, inLine_within hin, transferOk_lineMeta, Nat.max_eq_left (by omega)]

theorem memWrite_bytes : (memWrite a d s).mem.bytes = twriteN 0 s.mem.bytes a (plain d) := by
  rw [memWrite_within s hn hin]
  change twriteN 0 (transferOk (a / 64 * 64) s).mem.bytes a (plain d) = _
  rw [transferOk_bytes]

theorem memWrite_reads : treadN 0 (memWrite a d s).mem.bytes a d.length = plain d := by
  rw [memWrite_bytes s hn hin, ← plain_length d, treadN_twriteN]

theorem memWrite_bytes_out (b : Nat) (h : b < a ∨ a + d.length ≤ b) :
    tget 0 (memWrite a d s).mem.bytes b = tget 0 s.mem.bytes b := by
  rw [memWrite_bytes s hn hin, tget_twriteN_out _ _ _ _ _ (by rwa [plain_length])]

theorem memWrite_marks : ((memWrite a d s).lineMeta (a / 64)).wss = true ∧
    ((memWrite a d s).lineMeta (a / 64)).poison = (poisoned d || (decide (d.length < 64) && (s.lineMeta (a / 64)).poison)) := by
  rw [memWrite_within s hn hin]
  exact ⟨setLineMeta_wss .., setLineMeta_lineMeta ..⟩

end

/-! ### MEM_WRITE -/

/-- The data of a write with its poison. -/
def marked (d : List Byte) (p : Bool) : List PByte := d.map (fun b => (b, p))

@[simp] theorem marked_length (d : List Byte) (p : Bool) : (marked d p).length = d.length := List.length_map ..

theorem plain_marked (d : List Byte) (p : Bool) : plain (marked d p) = d := by simp [plain, marked, Function.comp_def]

theorem poisoned_marked {d : List Byte} (hn : 0 < d.length) (p : Bool) : poisoned (marked d p) = p := by
  obtain ⟨b, l, rfl⟩ := List.exists_cons_of_length_pos hn
  cases p <;> simp [poisoned, marked]

/-- The line as a write finds it: after its transfer and, for a part of a line, the read that goes before (R475). -/
def beforeWrite (init a n : Nat) (errs : List SymErr) (link : List LinkErr) (s : State) : State :=
  let s := linkTransfer (a / 64) link s
  if n = 64 then s else
    let r := s.decodeLine (a / 64) errs
    let t := lineEffects (a / 64) r r.wss s
    if r.bad then memFault 0x0201 init a false false t else t

theorem opMemWrite_served (init cls a : Nat) (d : List Byte) (p : Bool) (errs : List SymErr) (link : List LinkErr)
    (hl : s.lineLost (a / 64) = false) : opMemWrite init cls a d p errs link s =
      memWrite a (marked d p) (beforeWrite init a d.length errs link (useTokens init cls a d.length s)) := by
  have hlost : (useTokens init cls a d.length s).lineLost (a / 64) = false := by rw [useTokens_frame]; exact hl
  unfold opMemWrite
  dsimp only
  rw [if_neg (by simp [hlost])]
  rfl

theorem opMemWrite_lost (init cls a : Nat) (d : List Byte) (p : Bool) (errs : List SymErr) (link : List LinkErr)
    (hl : s.lineLost (a / 64) = true) : opMemWrite init cls a d p errs link s =
      emit (.readReply (BitVec.ofNat 8 init) none false) (useTokens init cls a d.length s) := by
  have hlost : (useTokens init cls a d.length s).lineLost (a / 64) = true := by rw [useTokens_frame]; exact hl
  unfold opMemWrite
  dsimp only
  rw [if_pos hlost]

theorem beforeWrite_whole (init a : Nat) (errs : List SymErr) (link : List LinkErr) :
    beforeWrite init a 64 errs link s = linkTransfer (a / 64) link s := rfl

/-- The read before a part of a line arrives intact: nothing but the transfer changes. -/
theorem beforeWrite_intact (init a n : Nat) (link : List LinkErr) :
    beforeWrite init a n [] link s = linkTransfer (a / 64) link s := by
  unfold beforeWrite
  dsimp only
  split
  · rfl
  · rw [decodeLine_intact]; rfl

theorem beforeWrite_bytes_out (init a n : Nat) (errs : List SymErr) (link : List LinkErr) (b : Nat)
    (h : b < a / 64 * 64 ∨ a / 64 * 64 + 64 ≤ b) :
    tget 0 (beforeWrite init a n errs link s).mem.bytes b = tget 0 s.mem.bytes b := by
  have hread : tget 0 (lineEffects (a / 64) ((linkTransfer (a / 64) link s).decodeLine (a / 64) errs)
      ((linkTransfer (a / 64) link s).decodeLine (a / 64) errs).wss (linkTransfer (a / 64) link s)).mem.bytes b = tget 0 s.mem.bytes b := by
    rw [lineEffects_bytes_out _ _ _ _ (decodeLine_data_length ..) b h, linkTransfer_bytes]
  unfold beforeWrite
  dsimp only
  split
  · rw [linkTransfer_bytes]
  · split
    · exact hread
    · exact hread

section
variable (init : Initiator) (cls : Fin 4) (a : Addr) (errs : LineErrs) (d : List Byte) (p : Bool)

theorem exec_memWrite (h : Runs s) (hwf : (Instr.memWrite init cls a d p errs).wf = true) :
    exec (.memWrite init cls a d p errs) s = .next (keepLatch s (memCommand (accessOf init cls a errs (some (d, p))) s)) :=
  performWf_runs s _ _ hwf h

theorem wf_memWrite (hwf : (Instr.memWrite init cls a d p errs).wf = true) : 0 < d.length ∧ a % 64 + d.length ≤ 64 := by
  simp only [Instr.wf, Bool.and_eq_true, decide_eq_true_eq] at hwf
  obtain ⟨⟨⟨-, hn⟩, hin⟩, -⟩ := hwf
  exact ⟨hn, hin⟩

/-- A write that reaches a line in service. -/
theorem memWrite_served (h : Runs s) (hwf : (Instr.memWrite init cls a d p errs).wf = true) (hi : s.initIssued init.toNat = true)
    (hw : s.lineWaits (a / 64) = false) (hl : s.lineLost (a / 64) = false) :
    ∃ t, exec (.memWrite init cls a d p errs) s = .next t ∧
      treadN 0 t.mem.bytes a d.length = d ∧ (t.lineMeta (a / 64)).wss = true ∧ (p = true → (t.lineMeta (a / 64)).poison = true) ∧
      (d.length = 64 → (t.lineMeta (a / 64)).poison = p ∧ t.thal.inFlight = s.thal.inFlight) ∧
      (d.length < 64 → errs.syms = [] → (t.lineMeta (a / 64)).poison = (p || (s.lineMeta (a / 64)).poison)) ∧
      (d.length = 64 ∨ errs.syms = [] → ∀ b, b < a ∨ a + d.length ≤ b → tget 0 t.mem.bytes b = tget 0 s.mem.bytes b) ∧
      ∀ b, b < a / 64 * 64 ∨ a / 64 * 64 + 64 ≤ b → tget 0 t.mem.bytes b = tget 0 s.mem.bytes b := by
  obtain ⟨hn, hin⟩ := wf_memWrite init cls a errs d p hwf
  obtain ⟨v, hv⟩ : ∃ v, v = useTokens init.toNat cls.val a d.length s := ⟨_, rfl⟩
  obtain ⟨u, hu⟩ : ∃ u, u = beforeWrite init.toNat a d.length errs.syms errs.link v := ⟨_, rfl⟩
  have hrun : exec (.memWrite init cls a d p errs) s = .next (keepLatch s (memWrite a (marked d p) u)) := by
    rw [exec_memWrite s init cls a errs d p h hwf, memCommand_served s (accessOf init cls a errs (some (d, p))) hi hw, hu, hv]
    exact congrArg (fun t => Host.Outcome.next (keepLatch s t)) (opMemWrite_served s init.toNat cls.val a d p errs.syms errs.link hl)
  have hvbytes : v.mem.bytes = s.mem.bytes := by rw [hv, useTokens_frame]
  have hvmeta : v.lineMeta (a / 64) = s.lineMeta (a / 64) := by rw [hv, useTokens_frame]; rfl
  have hvthal : v.thal = s.thal := by rw [hv, useTokens_frame]
  have hclean : d.length = 64 ∨ errs.syms = [] → u = linkTransfer (a / 64) errs.link v := by
    rintro (h64 | hsyms)
    · rw [hu, h64, beforeWrite_whole]
    · rw [hu, hsyms, beforeWrite_intact]
  have hout := memWrite_bytes_out u (d := marked d p) (by rwa [marked_length]) (by rwa [marked_length])
  have hread := memWrite_reads u (d := marked d p) (by rwa [marked_length]) (by rwa [marked_length])
  obtain ⟨hwss, hpoison⟩ := memWrite_marks u (d := marked d p) (by rwa [marked_length]) (by rwa [marked_length])
  rw [poisoned_marked hn, marked_length] at hpoison
  rw [marked_length, plain_marked] at hread
  rw [marked_length] at hout
  have hmem : ∀ j, (keepLatch s (memWrite a (marked d p) u)).lineMeta j = (memWrite a (marked d p) u).lineMeta j := fun j =>
    State.lineMeta_congr _ (keepLatch_mem ..) j
  refine ⟨_, hrun, ?_, ?_, fun hp => ?_, fun h64 => ⟨?_, ?_⟩, fun hpart hsyms => ?_, fun hc b hb => ?_, fun b hb => ?_⟩
  · rw [keepLatch_mem]; exact hread
  · rw [hmem]; exact hwss
  · rw [hmem, hpoison, hp, Bool.true_or]
  · rw [hmem, hpoison, h64]; simp
  · rw [keepLatch_thal, memWrite_frame]
    change u.thal.inFlight = _
    rw [hclean (.inl h64), linkTransfer_thal, hvthal]
  · rw [hmem, hpoison, hclean (.inr hsyms), linkTransfer_lineMeta, hvmeta]; simp [hpart]
  · rw [keepLatch_mem, hout b hb, hclean hc, linkTransfer_bytes, hvbytes]
  · rw [keepLatch_mem, hout b (outside_access hin hb), hu, beforeWrite_bytes_out _ _ _ _ _ _ b hb, hvbytes]

end
end

/-- Settles O16: the read clauses are `memRead_intact`, `memRead_corrected` and `memRead_uncorrectable`, the write's `memWrite_served`. -/
theorem memoryAccess : Obligations.MemoryAccess := by
  unfold Obligations.MemoryAccess
  intro s init cls a errs h
  refine ⟨fun hwf => ?_, fun d p hwf => ?_⟩
  · obtain ⟨hline, -⟩ := wf_memRead init cls a errs hwf
    have hrun := exec_memRead s init cls a errs h hwf
    refine ⟨fun hi => ?_, fun hi hw => ?_, fun hi hw hl hc => ⟨_, hrun, ?_⟩, fun hi hw hl hp hc => ⟨?_, ?_, ?_⟩⟩
    · rw [memCommand_unissued s (accessOf init cls a errs none) hi] at hrun; exact hrun
    · rw [memCommand_waits s (accessOf init cls a errs none) hi hw] at hrun; exact hrun
    · have hop : memCommand (accessOf init cls a errs none) s = emit (.readReply (BitVec.ofNat 8 init.toNat) (some (s.memBytes a 64)) true) s :=
        (memCommand_served s (accessOf init cls a errs none) hi hw).trans (opMemRead_lost s init.toNat cls.val a errs.syms errs.link hl hc)
      rw [hop, keepLatch_mem, keepLatch_out, BitVec.ofNat_toNat, BitVec.setWidth_eq]
      exact ⟨rfl, List.mem_append_right _ (List.mem_singleton_self _)⟩
    · exact memRead_intact s init cls a errs hline h hwf hi hw hl hp hc
    · exact memRead_corrected s init cls a errs hline h hwf hi hw hl hp hc
    · exact memRead_uncorrectable s init cls a errs hline h hwf hi hw hl hc
  · have hrun := exec_memWrite s init cls a errs d p h hwf
    refine ⟨fun hi => ?_, fun hi hw => ?_, fun hi hw hl => ⟨_, hrun, ?_⟩, memWrite_served s init cls a errs d p h hwf⟩
    · rw [memCommand_unissued s (accessOf init cls a errs (some (d, p))) hi] at hrun; exact hrun
    · rw [memCommand_waits s (accessOf init cls a errs (some (d, p))) hi hw] at hrun; exact hrun
    · have hop : memCommand (accessOf init cls a errs (some (d, p))) s =
          emit (.readReply (BitVec.ofNat 8 init.toNat) none false) (useTokens init.toNat cls.val a d.length s) :=
        (memCommand_served s (accessOf init cls a errs (some (d, p))) hi hw).trans (opMemWrite_lost s init.toNat cls.val a d p errs.syms errs.link hl)
      rw [hop, keepLatch_mem, keepLatch_out, useTokens_frame, BitVec.ofNat_toNat, BitVec.setWidth_eq]
      exact ⟨rfl, rfl⟩

end Sys2Proof.Machine
end

section
/-! PROOFS. PIPE_CONFIG, PIPE_START, PIPE_STOP and ROI_SEED (R77, R80, R86, R88, R408, R412). -/

namespace Sys2Proof.Machine

/-! ### A command that starts (R400, R403) -/

section
variable {s : State} {c : Cmd} {tag op : Nat}

theorem State.cmd_tag (h : s.cmd tag = some c) : c.tag = tag := by
  simpa using List.find?_some h

theorem startCmd_starts (h : CmdStarts s op tag c) (act : Cmd → State → State) : startCmd op tag act s = act c (takeCmd c s) := by
  obtain ⟨hcmd, hop, hstart, hcheck⟩ := h
  simp only [startCmd, hcmd, hop, hstart, hcheck, decide_true, Bool.and_self, Bool.not_true, Bool.false_eq_true, if_false]

theorem startCmd_completes (hs : Runs s) (h : CmdStarts s op tag c) {act : Cmd → State → State} {t : State}
    (ht : act c (takeCmd c s) = t) : perform (startCmd op tag act) s = .next (keepLatch s t) := by
  rw [perform_runs s _ hs, startCmd_starts h act, ht]

end

/-! ### PIPE_CONFIG (R86 to R88) -/

section
variable {s : State} {c : Cmd} {tag : Nat} (htag : c.tag = tag)
include htag

theorem actPipeConfig_running (h : (s.pipe (c.fld 0x18 1)).running = true) :
    actPipeConfig c s = finishCmd tag 0x25 0 0 s := htag ▸ if_pos h

section
variable {d : List Byte} {v : State} (hstopped : (s.pipe (c.fld 0x18 1)).running = false)
  (hread : readNamed c (c.fld 0x20 8) (c.fld 0x1C 4) s = (some d, v))
include hstopped hread

theorem actPipeConfig_accepted (h : v.checkBlob (c.fld 0x18 1) d (c.fld 0x1C 4) = none) :
    actPipeConfig c s =
      finishCmd tag 0 (c.fld 0x18 1) 0 (acceptBlob (c.fld 0x18 1) (parseBlob v.gctl.stream d) v) := by
  simp only [actPipeConfig, htag, hstopped, hread, h, Bool.false_eq_true, if_false]

theorem actPipeConfig_refused {st : Nat} (h : v.checkBlob (c.fld 0x18 1) d (c.fld 0x1C 4) = some st) :
    actPipeConfig c s = finishCmd tag st 0 0 v := by
  simp only [actPipeConfig, htag, hstopped, hread, h, Bool.false_eq_true, if_false]

end

/-! ### PIPE_START (R412) -/

theorem actPipeStart_noBlob (h : (s.pipe (c.fld 0x18 1)).blob = none) : actPipeStart c s = finishCmd tag 0x2A 0 0 s := by
  simp only [actPipeStart, htag, h]

section
variable {b : PipeBlob} (hblob : (s.pipe (c.fld 0x18 1)).blob = some b) (hstopped : (s.pipe (c.fld 0x18 1)).running = false)
include hblob hstopped

theorem actPipeStart_noClock (h : (s.fclk b.fclk).en = false) : actPipeStart c s = finishCmd tag 0x2B 0 0 s := by
  simp only [actPipeStart, htag, hblob, hstopped, h, Bool.not_false, Bool.false_eq_true, if_false, if_true]

/-- A start block that passes every check starts the pipeline at the clock's next edge. -/
theorem actPipeStart_starts {d : List Byte} {v : State} (hen : (s.fclk b.fclk).en = true)
    (hread : readNamed c (c.fld 0x20 8) 128 s = (some d, v))
    (hfields : startFieldsOk d (parseStart d) b (s.fclk b.fclk).inForce.toNat = true)
    (hwin : b.cls ≠ 0 ∨ windowsOk (parseStart d).windows (s.fclk b.fclk).inForce.toNat = true)
    (hctx : v.startCtxStatus b.cls (parseStart d).ctxs = none) :
    actPipeStart c s =
      finishCmd tag 0 ((v.fclk b.fclk).next % 2 ^ 32) 0 (startPipeline (c.fld 0x18 1) b (parseStart d) v) := by
  have hwindows : (b.cls = 0 && !windowsOk (parseStart d).windows (s.fclk b.fclk).inForce.toNat) = false := by
    rcases hwin with h | h <;> simp [h]
  simp only [actPipeStart, htag, hblob, hstopped, hen, hread, hfields, hwindows, hctx, Bool.not_true, Bool.false_eq_true, if_false]

end

/-! ### PIPE_STOP (R412) -/

theorem actPipeStop_stopped (h : (s.pipe (c.fld 0x18 1)).running = false) :
    actPipeStop c s = finishCmd tag 0 (lastFrameResult (s.pipe (c.fld 0x18 1)).last) 0 s := htag ▸ if_pos (by rw [h]; rfl)

/-- A running pipeline is to stop, and the command waits for its end: at once with no frame open, else with the frames under way. -/
theorem actPipeStop_running {v : State} (h : (s.pipe (c.fld 0x18 1)).running = true)
    (hv : State.modPipe (c.fld 0x18 1) (fun r => { r with stopping := true, stopTags := r.stopTags ++ [tag] }) s = v) :
    actPipeStop c s =
      if (v.openFrames (c.fld 0x18 1)).isEmpty then endPipeline (c.fld 0x18 1) (s.pipe (c.fld 0x18 1)).cur v else v := by
  subst htag hv
  exact if_neg (by rw [h]; exact Bool.false_ne_true)

/-! ### ROI_SEED (R77, R80) -/

theorem actRoiSeed_bound {q : Nat} {b : PipeBlob} {x : StreamCfg} {d : List Byte} {v : State}
    (hbound : s.boundTo (c.fld 0x18 1) = some (q, b, x)) (hkind : x.kind ≠ 1)
    (hread : readNamed c (c.fld 0x20 8) 512 s = (some d, v)) :
    actRoiSeed c s = finishCmd tag 0 (c.fld 0x18 1) 0 (roiCommit (c.fld 0x18 1) (BitVec.ofNat 32 (c.fld 0x1C 4))
      (forUpTo 128 (fun w t => roiWrite (c.fld 0x18 1) w (BitVec.ofNat 32 (field d (4 * w) 4)) t) v)) := by
  simp only [actRoiSeed, htag, hbound, hkind, hread, if_false]

end

/-- Settles O25: a command that starts does what its action does, and each clause is the action's equation under its hypotheses. -/
theorem pipeCommands : Obligations.PipeCommands := by
  unfold Obligations.PipeCommands
  intro s tag c hs
  have hconfig : ∀ {t : State}, CmdStarts s 0x40 tag c → actPipeConfig c (takeCmd c s) = t → Completes (.pipeConfig tag) s t :=
    fun h ht => startCmd_completes hs h ht
  have hstart : ∀ {t : State}, CmdStarts s 0x41 tag c → actPipeStart c (takeCmd c s) = t → Completes (.pipeStart tag) s t :=
    fun h ht => startCmd_completes hs h ht
  have hstop : ∀ {t : State}, CmdStarts s 0x42 tag c → actPipeStop c (takeCmd c s) = t → Completes (.pipeStop tag) s t :=
    fun h ht => startCmd_completes hs h ht
  have hseed : ∀ {t : State}, CmdStarts s 0x43 tag c → actRoiSeed c (takeCmd c s) = t → Completes (.roiSeed tag) s t :=
    fun h ht => startCmd_completes hs h ht
  have htag : ∀ {op : Nat}, CmdStarts s op tag c → c.tag = tag := fun h => State.cmd_tag h.1
  exact ⟨fun h hrun => hconfig h (actPipeConfig_running (htag h) hrun),
    fun d v h hidle hread => ⟨fun hok => hconfig h (actPipeConfig_accepted (htag h) hidle hread hok),
      fun st hst => hconfig h (actPipeConfig_refused (s := takeCmd c s) (htag h) hidle hread hst)⟩,
    fun h hblob => hstart h (actPipeStart_noBlob (htag h) hblob),
    fun b h hblob hidle hen => hstart h (actPipeStart_noClock (htag h) hblob hidle hen),
    fun b d v h hblob hidle hen hread hfields hwin hctx =>
      hstart h (actPipeStart_starts (s := takeCmd c s) (htag h) hblob hidle hen hread hfields hwin hctx),
    fun h hidle => hstop h (actPipeStop_stopped (htag h) hidle),
    fun h hrun => ⟨fun hopen => hstop h ((actPipeStop_running (s := takeCmd c s) (htag h) hrun rfl).trans (if_pos (List.isEmpty_iff.mpr hopen))),
      fun hopen => hstop h ((actPipeStop_running (s := takeCmd c s) (htag h) hrun rfl).trans (if_neg (mt List.isEmpty_iff.mp hopen)))⟩,
    fun q b x d v h hbound hkind hread => hseed h (actRoiSeed_bound (htag h) hbound hkind hread)⟩

end Sys2Proof.Machine
end

section
/-! PROOFS. CSI-2 packets of a bound stream (R51, R52, R53, R55, R57, R59, R60, R96, R97). -/

namespace Sys2Proof.Machine

/-! ### Headers (R60, R96) -/

section
variable {s : State} {port vc : Nat} {p : Nat} {b : PipeBlob} {c : StreamCfg} {x : Sample}

@[simp] theorem State.modCsi_csiStream (n : Nat) (g : CsiRec → CsiRec) : (State.modCsi n g s).csiStream port vc = s.csiStream port vc := rfl

theorem withHeader_corrected (f : State → State) :
    withHeader port .corrected f s = f (State.modCsi port (fun r => { r with eccCorr := satInc r.eccCorr }) s) := rfl

theorem withHeader_uncorrectable (f : State → State) : withHeader port .uncorrectable f s = headerLost port s := rfl

/-- An uncorrectable header on a port that no stream is bound to is counted alone. -/
theorem headerLost_unbound (h : ∀ v, s.csiStream port v = none) :
    headerLost port s = State.modCsi port (fun r => { r with eccUncorr := satInc r.eccUncorr }) s :=
  List.foldl_fixed' (fun v => by rw [State.modCsi_csiStream, h v]) _

/-! ### Frame Start (R52, R60) -/

theorem opFrameStart_unbound (h : s.csiStream port vc = none) : opFrameStart port vc s = s := by rw [opFrameStart, h]

theorem opFrameStart_noSample (hb : s.csiStream port vc = some (p, b, c)) (ho : s.openSample p c.stream = none) :
    opFrameStart port vc s = startSample p c none s := by
  simp only [opFrameStart, hb, ho]

theorem startSample_stopped (after : Option Word32) (h : (s.pipe p).running = false) : startSample p c after s = extraData c.stream s :=
  if_pos (by rw [h]; rfl)

/-- The sample of the frame whose interval holds the arrival is begun. -/
theorem startSample_opens {k : Int} (hk : (s.fclk (s.pipe p).fclk).frameAt s.gctl.time.toNat c.lead = k)
    (hrun : (s.pipe p).running = true) (h0 : 0 ≤ k) (hfirst : 0 ≤ (BitVec.ofInt 32 k - (s.pipe p).firstFrame).toInt)
    (hnew : s.sample p c.stream (BitVec.ofInt 32 k) = none) :
    startSample p c none s = addSample { pipe := p, stream := c.stream, frame := BitVec.ofInt 32 k, receiving := true }
      (State.modStream c.stream (fun r => { r with ignoring := false }) s) := by
  have hnew' : (State.modStream c.stream (fun r => { r with ignoring := false }) s).sample p c.stream (BitVec.ofInt 32 k) = none := hnew
  have htaken : (!(s.pipe p).running || decide (k < 0) || decide ((BitVec.ofInt 32 k - (s.pipe p).firstFrame).toInt < 0) || !true) = false := by
    simp only [hrun, decide_eq_false (not_lt.mpr h0), decide_eq_false (not_lt.mpr hfirst), Bool.not_true, Bool.or_self]
  simp only [startSample, hk, htaken, hnew', Bool.false_eq_true, if_false]

/-! ### Long packets (R51, R53, R55, R57, R97) -/

theorem opLongPacket_unbound {dt : Nat} {d : List Byte} {ok : Bool} (h : s.csiStream port vc = none) :
    opLongPacket port vc dt d ok s = State.modCsi port (fun r => { r with unbound := satInc r.unbound }) s := by
  rw [opLongPacket, h]

/-- Embedded and user-defined data is discarded. -/
theorem opLongPacket_discarded {dt : Nat} {d : List Byte} {ok : Bool} (hb : s.csiStream port vc = some (p, b, c))
    (hdt : dt = 0x12 ∨ (0x30 ≤ dt ∧ dt ≤ 0x37)) : opLongPacket port vc dt d ok s = s := by
  simp only [opLongPacket, hb]
  exact if_pos (hdt.imp_right .inl)

/-- A line of any other type goes to the sample being received. -/
theorem opLongPacket_line {dt : Nat} {d : List Byte} {ok : Bool} (hb : s.csiStream port vc = some (p, b, c))
    (ho : s.openSample p c.stream = some x) (hi : (s.stream c.stream).ignoring = false) (h12 : dt ≠ 0x12) (h30 : dt < 0x30) :
    opLongPacket port vc dt d ok s = storeLine p b c x dt d ok s := by
  simp only [opLongPacket, hb, ho]
  refine if_neg ?_
  simp only [hi, Bool.false_eq_true, or_false]
  omega

theorem fitSlot_whole {o : Nat} {d : List Byte} (h : o + d.length ≤ c.inSlotSize) : fitSlot c o d = d :=
  List.take_of_length_le (by omega)

theorem lineReason_good {d : List Byte} (hlen : d.length = lineBytes c) (hlines : x.lines < c.height)
    (hfit : x.lines * lineBytes c + lineBytes c ≤ c.inSlotSize) : lineReason c x c.dt d true = 0 := by
  unfold lineReason
  rw [if_neg (not_not.mpr rfl), if_neg (by omega), if_neg (by omega)]
  rfl

/-- A good line is stored at its place in the slot; a refused write ends the sample. -/
theorem storeLine_good {d : List Byte} {e : Option Nat} {t : State} (hlen : d.length = lineBytes c) (hlines : x.lines < c.height)
    (hfit : x.lines * lineBytes c + lineBytes c ≤ c.inSlotSize)
    (hw : writeStop 0xA0 b.cls (inSlot c x.frame + x.lines * lineBytes c) (clean d)
      (State.modSample p c.stream x.frame (fun y => { y with anyData := true, lines := y.lines + 1, bytes := y.bytes + d.length }) s) = (e, t)) :
    storeLine p b c x c.dt d true s = if e.isSome then ingestRefused p c.stream x.frame t else t := by
  have hfits : fitSlot c (x.lines * lineBytes c) d = d := fitSlot_whole (by omega)
  simp only [storeLine, hfits, lineReason_good hlen hlines hfit, hw, ne_eq, not_true_eq_false, if_false]

/-! ### Frame End (R55) -/

theorem opFrameEnd_unbound (h : s.csiStream port vc = none) : opFrameEnd port vc s = s := by rw [opFrameEnd, h]

theorem opFrameEnd_open (hb : s.csiStream port vc = some (p, b, c)) (ho : s.openSample p c.stream = some x) :
    opFrameEnd port vc s = if x.lines < c.height then corruptSample p c.stream x.frame 0x03 (closeSample p c.stream x.frame s)
      else settle p c.stream x.frame 0 (closeSample p c.stream x.frame s) := by
  simp only [opFrameEnd, hb, ho]

end

/-- Settles O37: Frame Start by `startSample`'s cases, a line by `storeLine_good`, and the headers by what `withHeader` does with each. -/
theorem csiPackets : Obligations.CsiPackets := by
  unfold Obligations.CsiPackets
  intro s port vc hs
  have hstart : ∀ {ecc : Ecc} {t : State}, withHeader port ecc (opFrameStart port vc) s = t → Completes (.csiFrameStart port vc ecc) s t :=
    fun h => h ▸ perform_runs s _ hs
  have hend : ∀ {ecc : Ecc} {t : State}, withHeader port ecc (opFrameEnd port vc) s = t → Completes (.csiFrameEnd port vc ecc) s t :=
    fun h => h ▸ perform_runs s _ hs
  have hlong : ∀ {dt : BitVec 6} {d : List Byte} {t : State}, (Instr.csiLongPacket port vc dt d true .good).wf = true →
      opLongPacket port vc dt.toNat d true s = t → Completes (.csiLongPacket port vc dt d true .good) s t :=
    fun hwf h => h ▸ performWf_runs s _ _ hwf hs
  refine ⟨fun p b c hb ho hrun h0 hfirst hnew => ?_, fun p b c hb ho hrun => ?_,
    fun p b c x d t hb ho hi hwf h30 h12 hlen hlines hfit e hw => ?_, fun dt d h hwf => hlong hwf (opLongPacket_unbound h),
    fun p b c dt d hb hwf hdt => hlong hwf (opLongPacket_discarded hb hdt), fun p b c x hb ho => ⟨fun h => ?_, fun h => ?_⟩,
    fun h => ⟨hstart ((withHeader_corrected _).trans (opFrameStart_unbound h)),
      hend ((withHeader_corrected _).trans (opFrameEnd_unbound h))⟩,
    fun h => ⟨hstart ((withHeader_uncorrectable _).trans (headerLost_unbound h)),
      hend ((withHeader_uncorrectable _).trans (headerLost_unbound h))⟩⟩
  · exact hstart ((opFrameStart_noSample hb ho).trans (startSample_opens rfl hrun h0 hfirst hnew))
  · exact hstart ((opFrameStart_noSample hb ho).trans (startSample_stopped none hrun))
  · have hdt : (BitVec.ofNat 6 c.dt).toNat = c.dt := BitVec.toNat_ofNat .. |>.trans (Nat.mod_eq_of_lt (by omega))
    refine hlong hwf ?_
    rw [hdt, opLongPacket_line hb ho hi h12 h30, storeLine_good hlen hlines hfit hw]
    cases e <;> rfl
  · exact hend ((opFrameEnd_open hb ho).trans (if_neg (by omega)))
  · exact hend ((opFrameEnd_open hb ho).trans (if_pos h))

end Sys2Proof.Machine
end

section
/-! PROOFS. UDP payloads, host submissions and the ingest deadline (R54, R55, R61, R62, R99, R517, R518, R519, R542). -/

namespace Sys2Proof.Machine

/-! ### UDP payloads (R61, R517 to R519) -/

section
variable {s : State} {n dport st : Nat} {d : List Byte}

theorem receiveLen_tooLong {len : Nat} {f : State → State} (hl : (s.port n).link = .up) (h : (s.port n).maxFrame.toNat < len) :
    receiveLen n len f s = State.modPort n (fun r => { r with rxBad := satInc r.rxBad }) s := if_pos (by simp [hl, h])

theorem receiveLen_up {len : Nat} {f : State → State} (hl : (s.port n).link = .up) (h : len ≤ (s.port n).maxFrame.toNat) :
    receiveLen n len f s = f (countRx n s) :=
  (if_neg (by simp [h])).trans (receive_up hl)

@[simp] theorem countRx_flowStream (m : Nat) : (countRx n s).flowStream m dport = s.flowStream m dport := rfl

theorem takesUdp_source {p : Nat} {b : PipeBlob} {c : StreamCfg} (h : s.takesUdp st = true) (hb : s.boundTo st = some (p, b, c)) :
    c.source = 1 := by
  simp only [State.takesUdp, hb, Bool.and_eq_true, decide_eq_true_eq] at h
  exact h.2

section
variable {p : Nat} {b : PipeBlob} {c : StreamCfg} (hb : s.boundTo st = some (p, b, c)) (hsrc : c.source = 1)
include hb hsrc

theorem udpArrive_inWindow {x : Sample} (hw : s.udpWindow p c = some x) (hx : x.settled = false) :
    udpArrive n st d s = appendData (0xB1 + n) p b c x d.length (udpRecord s.gctl.time d) s := by
  simp only [udpArrive, hb, hsrc, hw, hx, ne_eq, not_true_eq_false, Bool.false_eq_true, if_false]

theorem udpArrive_outside (hw : s.udpWindow p c = none) :
    udpArrive n st d s = State.modStream st (fun r => { r with extra := satInc r.extra }) s := by
  simp only [udpArrive, hb, hsrc, hw, ne_eq, not_true_eq_false, if_false]

end

section
variable (hroce : dport ≠ 4791) (hcmd : dport = 0 ∨ s.eth.cmdPort.toNat ≠ dport)
include hroce hcmd

theorem udpPort_free : (dport = 4791 || (dport ≠ 0 && s.eth.cmdPort.toNat = dport)) = false := by
  rcases hcmd with h | h <;> simp [hroce, h]

section
variable (hl : (s.port n).link = .up)
include hl

theorem opUdpPayload_tooLong (h : (s.port n).maxFrame.toNat < udpFrame false d.length) :
    opUdpPayload n dport d s = State.modPort n (fun r => { r with rxBad := satInc r.rxBad }) s := by
  rw [opUdpPayload, udpPort_free hroce hcmd]
  exact receiveLen_tooLong hl h

variable (hlen : udpFrame false d.length ≤ (s.port n).maxFrame.toNat)
include hlen

theorem opUdpPayload_noRule (h : s.flowStream n dport = none) : opUdpPayload n dport d s = countOther n (countRx n s) := by
  rw [opUdpPayload, udpPort_free hroce hcmd, if_neg Bool.false_ne_true, receiveLen_up hl hlen]
  simp only [countRx_flowStream, h]

theorem opUdpPayload_rule (h : s.flowStream n dport = some st) :
    opUdpPayload n dport d s = if s.takesUdp st then udpArrive n st d (countRx n s)
      else State.modPort n (fun r => { r with rxUnbound := satInc r.rxUnbound }) (countRx n s) := by
  rw [opUdpPayload, udpPort_free hroce hcmd, if_neg Bool.false_ne_true, receiveLen_up hl hlen]
  simp only [countRx_flowStream, h]
  rfl

end

end

/-! ### The window's end (R61) -/

section
variable {p : Nat} {b : PipeBlob} {c : StreamCfg} {l : Ledger} {x : Sample}

theorem settleWhole_notRaw {k : Word32} {m : Nat} (h : c.kind ≠ 0) : settleWhole p c k m s = settle p c.stream k 0 s := if_neg h

theorem opWindowClose_due (hb : s.boundTo st = some (p, b, c)) (hsrc : c.source = 1)
    (hl : (s.openFrames p).find? (fun l => decide (l.tEdge.toNat + c.winStart + c.winLen ≤ s.gctl.time.toNat) &&
      (match s.sample p st l.frame with | some x => !x.settled | none => false)) = some l)
    (hx : s.sample p st l.frame = some x) :
    opWindowClose st s = if !x.anyData then corruptSample p st l.frame 0x05 s else settleWhole p c l.frame x.payload s := by
  simp only [opWindowClose, hb, hsrc, ne_eq, not_true_eq_false, if_false]
  split
  · next hnone => exact nomatch hl.symm.trans hnone
  · next m hsome =>
    obtain rfl : l = m := Option.some.inj (hl.symm.trans hsome)
    simp only [hx]

/-! ### Host submissions (R62, R99) -/

section
variable {hi : Word32} (hb : s.boundTo (bits hi.toNat 5 0) = some (p, b, c)) (hsrc : c.source = 2)
include hb hsrc

theorem opHostSubmit_stopped (hrun : (s.pipe p).running = false) :
    opHostSubmit hi s = State.modStream (bits hi.toNat 5 0) (fun r => { r with extra := satInc r.extra }) s := by
  simp only [opHostSubmit, hb, hsrc, hrun, ne_eq, not_true_eq_false, if_false]

/-- A submission that fits the slot of the open frame's sample records its length and settles the sample. -/
theorem opHostSubmit_fits {k : Word32} (hrun : (s.pipe p).running = true) (hcur : (s.pipe p).cur = some k)
    (hx : s.sample p (bits hi.toNat 5 0) k = some x) (hset : x.settled = false) (hfit : s.loop.submitLo.toNat ≤ c.inSlotSize)
    (hkind : c.kind ≠ 0) :
    opHostSubmit hi s = settle p c.stream k 0 (State.modSample p (bits hi.toNat 5 0) k
      (fun y => { y with anyData := true, bytes := s.loop.submitLo.toNat }) s) := by
  simp only [opHostSubmit, hb, hsrc, hrun, hcur, hx, hset, ne_eq, not_true_eq_false, Bool.false_eq_true, if_false,
    Nat.min_eq_left hfit, not_lt.mpr hfit, settleWhole_notRaw hkind]

end

end

/-! ### The deadline (R54) -/

/-- A sample of which nothing has come is MISSING. -/
theorem deadlineSample_missing {p : Nat} {x : Sample} (hd : x.anyData = false) (hr : x.receiving = false) :
    deadlineSample p x s = corruptSample p x.stream x.frame 0x05 s := by
  simp only [deadlineSample, hd, hr, Bool.false_eq_true, if_false]

theorem opIngestDeadline_due {p : Nat} {b : PipeBlob} {l : Ledger} (hb : (s.pipe p).blob = some b)
    (hl : (s.openFrames p).find? (fun l => decide (l.tEdge.toNat + b.ingestDl ≤ s.gctl.time.toNat) &&
      (s.frameSamples p l.frame).any (fun x => !x.settled)) = some l) :
    opIngestDeadline p s = ((s.frameSamples p l.frame).filter (fun x => !x.settled)).foldl (fun t x => deadlineSample p x t) s := by
  simp only [opIngestDeadline, hb, hl]

end

/-- Settles O38: UDP by the rule that takes the port, the window and the submission by the open frame's sample, the deadline by the one
sample it finds unsettled. -/
theorem otherIngest : Obligations.OtherIngest := by
  unfold Obligations.OtherIngest
  intro s hs
  have hclose : ∀ {st : Stream} {t : State}, opWindowClose st s = t → Completes (.udpWindowClose st) s t := fun h => h ▸ perform_runs s _ hs
  have hsubmit : ∀ {hi : Word32} {t : State}, s.blocksUp = true → opHostSubmit hi s = t → CompletesReg (.hostSubmit hi) s t :=
    fun hup h => h ▸ performBlk_runs s _ hs hup
  refine ⟨fun n dport d hwf hl hroce hcmd => ?_, fun st p b c l x hb hsrc hfind hx => ?_,
    fun hi p b c k x hup hb hsrc hrun hcur hx hset hfit hkind => hsubmit hup (opHostSubmit_fits hb hsrc hrun hcur hx hset hfit hkind),
    fun hi p b c hup hb hsrc hrun => hsubmit hup (opHostSubmit_stopped hb hsrc hrun), fun p b l x hb hfind hone hd hr => ?_⟩
  · have hudp : ∀ {t : State}, opUdpPayload n dport.toNat d s = t → Completes (.udpIngestPayload n dport d) s t :=
      fun h => h ▸ performWf_runs s _ _ hwf hs
    refine ⟨fun h => hudp (opUdpPayload_tooLong hroce hcmd hl h), fun hlen => ⟨fun h => hudp (opUdpPayload_noRule hroce hcmd hl hlen h),
      fun st hf ht => hudp ((opUdpPayload_rule hroce hcmd hl hlen hf).trans (if_neg (by simp [ht]))), fun st p b c x hf ht hb => ?_⟩⟩
    have hbound : (countRx n s).boundTo st = some (p, b, c) := hb
    have harrive := (opUdpPayload_rule (d := d) hroce hcmd hl hlen hf).trans (if_pos ht)
    have hsrc := takesUdp_source ht hb
    exact ⟨fun hw hset => hudp (harrive.trans (udpArrive_inWindow hbound hsrc hw hset)),
      fun hw => hudp (harrive.trans (udpArrive_outside hbound hsrc hw))⟩
  · refine ⟨fun hd => hclose ((opWindowClose_due hb hsrc hfind hx).trans (if_pos (by simp [hd]))), fun hd hkind => hclose ?_⟩
    rw [opWindowClose_due hb hsrc hfind hx, if_neg (by simp [hd]), settleWhole_notRaw (by omega)]
  · have hdue : opIngestDeadline p s = corruptSample p x.stream x.frame 0x05 s := by
      rw [opIngestDeadline_due hb hfind, hone]
      exact deadlineSample_missing hd hr
    exact hdue ▸ perform_runs s _ hs

end Sys2Proof.Machine
end

section
/-! PROOFS. PREP jobs (R64, R73, R98). -/

namespace Sys2Proof.Machine

section
variable {s : State}

/-! ### Giving out a job (R64) -/

section
variable {p : Nat} {b : PipeBlob} (hb : (s.pipe p).blob = some b)
include hb

theorem opPrepDispatch_gives {u n : Nat} {k : Word32} {c : StreamCfg} (hu : s.freeUnit b = some u) (hj : s.nextJob p = some (k, c, n)) :
    opPrepDispatch p s = State.modSample p c.stream k (fun x => { x with jobsOut := x.jobsOut ++ [(u, n)] })
      (State.modPrep u (fun r => { r with busy := true, stream := BitVec.ofNat 6 c.stream, jpeg := c.kind = 2, frame := k, band := n }) s) := by
  simp only [opPrepDispatch, hb, hu, hj]

theorem opPrepDispatch_idle (h : s.freeUnit b = none ∨ s.nextJob p = none) : opPrepDispatch p s = s := by
  simp only [opPrepDispatch, hb]
  rcases h with h | h
  · rw [h]
  · rw [h]; cases s.freeUnit b <;> rfl

end

/-! ### The end of a job (R73) -/

/-- The unit is free again. -/
def freePrep (u : Nat) (s : State) : State := State.modPrep u (fun r => { r with busy := false, jpeg := false }) s

theorem opPrepDone_idle {u : Nat} (h : (s.prep u).busy = false) : opPrepDone u s = s := if_pos (by rw [h]; rfl)

/-- The unit that ends a job is free, and the sample gets the job's work unless it is corrupt or written already. -/
theorem opPrepDone_busy {u : Nat} {b : PipeBlob} {c : StreamCfg} {x : Sample} (hbusy : (s.prep u).busy = true)
    (hb : (s.pipe (s.prep u).pipe.toNat).blob = some b)
    (hx : s.sample (s.prep u).pipe.toNat (s.prep u).stream.toNat (s.prep u).frame = some x)
    (hc : b.cfg (s.prep u).stream.toNat = some c) :
    opPrepDone u s = if x.reason ≠ 0 || x.finished then freePrep u s
      else if c.kind = 2 then doJpeg u (s.prep u).pipe.toNat b c (s.prep u).frame x (freePrep u s)
      else doBand u (s.prep u).pipe.toNat b c (s.prep u).frame x (s.prep u).band (freePrep u s) := by
  have hb' : ((freePrep u s).pipe (s.prep u).pipe.toNat).blob = some b := hb
  have hx' : (freePrep u s).sample (s.prep u).pipe.toNat (s.prep u).stream.toNat (s.prep u).frame = some x := hx
  unfold opPrepDone
  simp only [hbusy, Bool.not_true, Bool.false_eq_true, if_false, ← freePrep.eq_1, hb', hx', hc]

end

/-- Settles O40: a job is given out where there are a free unit and a job; its end frees the unit and does the job's work. -/
theorem prepJobs : Obligations.PrepJobs := by
  unfold Obligations.PrepJobs
  intro s hs
  have hgive : ∀ {p : Pipe} {t : State}, opPrepDispatch p s = t → Completes (.prepJobDispatch p) s t := fun h => h ▸ perform_runs s _ hs
  have hdone : ∀ {u : PrepUnit} {t : State}, opPrepDone u s = t → Completes (.prepJobDone u) s t := fun h => h ▸ perform_runs s _ hs
  refine ⟨fun p b u k c n hb hu hj => hgive (opPrepDispatch_gives hb hu hj), fun p b hb h => hgive (opPrepDispatch_idle hb h),
    fun u h => hdone (opPrepDone_idle h), fun u b c x hbusy hb hx hc => ?_⟩
  have hend := opPrepDone_busy hbusy hb hx hc
  refine ⟨fun h => hdone (hend.trans (if_pos (by simpa using h))), fun hr hf hk => hdone ?_, fun hr hf hk => hdone ?_⟩
  · rw [hend, if_neg (by simp [hr, hf]), if_pos hk]; rfl
  · rw [hend, if_neg (by simp [hr, hf]), if_neg hk]; rfl

end Sys2Proof.Machine
end

section
/-! PROOFS. Integer accumulation in the cell grid and its checksums (R102, R113, R115, R131, R132, R134). -/

namespace Sys2Proof.Machine

/-! ### Exact values that are integers -/

/-- The value is finite and counted in units of 1, as integers and their sums and products are. -/
def Fl.Whole (x : Fl) : Prop := ∃ s m, x = .fin s m 0

theorem Fl.toInt_whole (s : Bool) (m : Nat) : (Fl.fin s m 0).toInt = if s then -(m : Int) else m := by
  simp [Fl.toInt, Fl.units]

theorem Fl.whole_ofInt (z : Int) : (Fl.ofInt z).Whole := ⟨_, _, rfl⟩

@[simp] theorem Fl.toInt_ofInt (z : Int) : (Fl.ofInt z).toInt = z := by
  rw [Fl.ofInt, Fl.toInt_whole]
  by_cases h : z < 0
  · rw [if_pos (decide_eq_true h)]; omega
  · rw [if_neg (by simpa using h)]; omega

theorem Fl.whole_zero : (Fl.fin false 0 0).Whole := ⟨_, _, rfl⟩
@[simp] theorem Fl.toInt_zero : (Fl.fin false 0 0).toInt = 0 := rfl

/-- The exact sum of two wholes is a whole, and stands for the sum of the integers they stand for. -/
theorem Fl.add_whole {a b : Fl} (ha : a.Whole) (hb : b.Whole) : (a.add b).Whole ∧ (a.add b).toInt = a.toInt + b.toInt := by
  obtain ⟨s, m, rfl⟩ := ha
  obtain ⟨t, n, rfl⟩ := hb
  have hu : ∀ (s : Bool) (m : Nat), Fl.units 0 s m 0 = (Fl.fin s m 0).toInt := fun s m => by simp [Fl.toInt, Fl.units]
  simp only [Fl.add, min_self, hu]
  generalize (Fl.fin s m 0).toInt + (Fl.fin t n 0).toInt = z
  split
  · next hz => exact ⟨⟨_, _, rfl⟩, by rw [hz, Fl.toInt_whole]; simp⟩
  · exact ⟨⟨_, _, rfl⟩, Fl.toInt_ofInt z⟩

theorem Fl.toInt_mul {a b : Fl} (ha : a.Whole) (hb : b.Whole) : (a.mul b).toInt = a.toInt * b.toInt := by
  obtain ⟨s, m, rfl⟩ := ha
  obtain ⟨t, n, rfl⟩ := hb
  simp only [Fl.mul, Int.add_zero, Fl.toInt_whole]
  cases s <;> cases t <;> simp

/-- The product of two wholes as it enters a cell: modulo 2^32 (R102). -/
theorem gridMul_whole {a b : Fl} (ha : a.Whole) (hb : b.Whole) : gridMul true a b = BitVec.ofInt 32 (a.toInt * b.toInt) := by
  rw [← Fl.toInt_mul ha hb]; rfl

/-! ### The edge trees in integer mode (R105, R131) -/

theorem zipWith_add_whole : ∀ {l r : List Fl}, l.length = r.length → (∀ x ∈ l, x.Whole) → (∀ x ∈ r, x.Whole) →
    (∀ x ∈ l.zipWith Fl.add r, x.Whole) ∧ ((l.zipWith Fl.add r).map Fl.toInt).sum = (l.map Fl.toInt).sum + (r.map Fl.toInt).sum
  | [], [], _, _, _ => by simp
  | x :: l, y :: r, hlen, hl, hr => by
    obtain ⟨hx, hl⟩ := List.forall_mem_cons.mp hl
    obtain ⟨hy, hr⟩ := List.forall_mem_cons.mp hr
    obtain ⟨hw, hs⟩ := zipWith_add_whole (Nat.succ.inj hlen) hl hr
    obtain ⟨hxy, hadd⟩ := Fl.add_whole hx hy
    exact ⟨List.forall_mem_cons.mpr ⟨hxy, hw⟩, by simp only [List.zipWith_cons_cons, List.map_cons, List.sum_cons, hs, hadd]; omega⟩

/-- The halving tree over 2^k wholes adds them all. -/
theorem treeReduce_add_whole (d : Fl) : ∀ (k : Nat) (l : List Fl), l.length = 2 ^ k → (∀ x ∈ l, x.Whole) →
    (treeReduce Fl.add d k l).Whole ∧ (treeReduce Fl.add d k l).toInt = (l.map Fl.toInt).sum
  | 0, [x], _, h => ⟨h x (by simp), by simp [treeReduce]⟩
  | k + 1, l, hlen, h => by
    have hhalf : (l.take (2 ^ k)).length = 2 ^ k ∧ (l.drop (2 ^ k)).length = 2 ^ k := by
      rw [List.length_take, List.length_drop, hlen]; omega
    obtain ⟨hw, hs⟩ := zipWith_add_whole (hhalf.1.trans hhalf.2.symm)
      (fun x hx => h x (List.mem_of_mem_take hx)) (fun x hx => h x (List.mem_of_mem_drop hx))
    obtain ⟨hwhole, hsum⟩ := treeReduce_add_whole d k (treeStage Fl.add (2 ^ k) l) (by
      rw [treeStage, List.length_zipWith, hhalf.1, hhalf.2, Nat.min_self]) hw
    refine ⟨hwhole, hsum.trans (hs.trans ?_)⟩
    rw [← List.sum_append, ← List.map_append, List.take_append_drop]

/-- An edge tree that is wide enough adds its wholes exactly; its idle inputs add nothing. -/
theorem edgeSum_whole {k : Nat} {l : List Fl} (hlen : l.length ≤ 2 ^ k) (h : ∀ x ∈ l, x.Whole) :
    (edgeSum true k l).Whole ∧ (edgeSum true k l).toInt = (l.map Fl.toInt).sum := by
  obtain ⟨hw, hs⟩ := treeReduce_add_whole (.fin false 0 0) k (l ++ List.replicate (2 ^ k - l.length) (.fin false 0 0))
    (by rw [List.length_append, List.length_replicate]; omega)
    (fun x hx => (List.mem_append.mp hx).elim (h x) fun hx => (List.eq_of_mem_replicate hx).symm ▸ Fl.whole_zero)
  exact ⟨hw, hs.trans (by simp)⟩

/-! ### Products and their sums modulo 2^32 (R102, R113) -/

theorem ofInt_sum (l : List Int) : BitVec.ofInt 32 l.sum = (l.map (BitVec.ofInt 32)).sum := map_list_sum (Int.castAddHom Word32) l

/-- The sum of the products of a row and a column. -/
def dot (r c : List Int) : Int := ((r.zip c).map (fun z => z.1 * z.2)).sum

theorem foldl_gridAdd_int (ps : List Word32) : ∀ p, ps.foldl (gridAdd true) p = p + ps.sum := by
  induction ps with
  | nil => simp
  | cons q ps ih => intro p; rw [List.foldl_cons, ih, List.sum_cons, ← add_assoc]; rfl

theorem chunkSum_int {ps : List Word32} (h : ps ≠ []) : chunkSum true ps = some ps.sum := by
  cases ps with
  | nil => exact absurd rfl h
  | cons p ps => rw [chunkSum, foldl_gridAdd_int, List.sum_cons]

section
variable {ι : Type} {f g : ι → Fl} (hf : ∀ i, (f i).Whole) (hg : ∀ i, (g i).Whole) (l : List ι)
include hf hg

theorem sum_gridMul_whole : (l.map fun i => gridMul true (f i) (g i)).sum = BitVec.ofInt 32 (l.map fun i => (f i).toInt * (g i).toInt).sum := by
  rw [ofInt_sum, List.map_map]
  exact congrArg _ (List.map_congr_left fun i _ => gridMul_whole (hf i) (hg i))

/-- What a checksum accumulator holds after a chunk of whole operands. -/
theorem sumChunk_whole (old : Word32) :
    sumChunk true (l.map fun i => (f i, g i)) old = old + BitVec.ofInt 32 (l.map fun i => (f i).toInt * (g i).toInt).sum := by
  rw [← sum_gridMul_whole hf hg, sumChunk, List.map_map]
  cases l with
  | nil => simp [chunkSum]
  | cons i l => rw [chunkSum_int (by simp)]; rfl

end

/-! ### A chunk of integers -/

/-- The operands of a chunk: for each row of the tile the integers of its steps, and for each column its own. -/
abbrev Operands := List (List Int) × List (List Int)

/-- An integer operand without poison. -/
def intOperand (x : Int) : PVal := (Fl.ofInt x, false)

/-- The chunk of integer operands. -/
def intChunk (y : Operands) : Chunk :=
  { rows := y.1.map (fun r => r.map (fun x => some (intOperand x))), cols := y.2.map (fun c => c.map intOperand) }

theorem cellChunk_int {r c : List Int} (h : r.zip c ≠ []) (old : Option Cell) :
    cellChunk true (r.map (fun x => some (intOperand x))) (c.map intOperand) old =
      some ⟨((old.map Cell.v).getD 0) + BitVec.ofInt 32 (dot r c), (old.map Cell.poison).getD false⟩ := by
  have hps : ((r.map (fun x => some (intOperand x))).zip (c.map intOperand)).filterMap
      (fun x => x.1.map (fun y => (gridMul true y.1 x.2.1, y.2 || x.2.2))) =
      (r.zip c).map (fun z => (gridMul true (.ofInt z.1) (.ofInt z.2), false)) := by
    rw [List.zip_map, List.filterMap_map, ← List.filterMap_eq_map]
    rfl
  simp only [cellChunk, hps, List.map_map, Function.comp_def]
  rw [chunkSum_int (by simpa using h), sum_gridMul_whole (fun z => Fl.whole_ofInt _) fun z => Fl.whole_ofInt _]
  cases old <;> simp [intoCell, gridAdd, dot]

/-! ### What a chunk writes where -/

section
variable {σ ι β : Type}

theorem foldl_keeps {γ : Type} (f : σ → γ) (g : σ → ι → σ) (h : ∀ x i, f (g x i) = f x) :
    ∀ (l : List ι) (x : σ), f (l.foldl g x) = f x
  | [], _ => rfl
  | i :: l, x => (foldl_keeps f g h l (g x i)).trans (h x i)

/-- A fold that updates the entry of each item's key, no key twice: each item's entry is updated once, by that item. -/
theorem tget_foldl_tset [DecidableEq β] (d : β) (tab : σ → Tab β) (key : ι → Nat) (upd : ι → β → β) (g : σ → ι → σ)
    (hg : ∀ x i, tab (g x i) = tset d (tab x) (key i) (upd i (tget d (tab x) (key i)))) {l : List ι} (hnd : (l.map key).Nodup)
    {i : ι} (hi : i ∈ l) (x : σ) : tget d (tab (l.foldl g x)) (key i) = upd i (tget d (tab x) (key i)) := by
  have hother : ∀ (l : List ι) (x : σ) (k : Nat), k ∉ l.map key → tget d (tab (l.foldl g x)) k = tget d (tab x) k := by
    intro l
    induction l with
    | nil => exact fun _ _ _ => rfl
    | cons j l ih =>
      intro x k hk
      rw [List.map_cons, List.mem_cons, not_or] at hk
      rw [List.foldl_cons, ih _ _ hk.2, hg, tget_tset_ne _ _ _ _ _ hk.1]
  induction l generalizing x with
  | nil => cases hi
  | cons j l ih =>
    rw [List.map_cons, List.nodup_cons] at hnd
    rw [List.foldl_cons]
    rcases List.mem_cons.mp hi with rfl | hi
    · rw [hother l _ _ hnd.1, hg, tget_tset_self]
    · have hne : key i ≠ key j := fun e => hnd.1 (e ▸ List.mem_map_of_mem hi)
      rw [ih hnd.2 hi, hg, tget_tset_ne _ _ _ _ _ hne]

end

theorem nodup_zipIdx {α : Type} (l : List α) : (l.zipIdx.map Prod.snd).Nodup := by
  rw [List.zipIdx_map_snd]; exact List.nodup_range'

theorem mem_zipIdx {α : Type} {l : List α} {i : Nat} {x : α} (h : l[i]? = some x) : (x, i) ∈ l.zipIdx :=
  List.mk_mem_zipIdx_iff_getElem?.mpr h

/-- The cells of a tile of at most 64 columns have different keys. -/
theorem nodup_cellKeys {α β : Type} (rows : List α) {cols : List β} (h : cols.length ≤ 64) :
    ((rows.zipIdx ×ˢ cols.zipIdx).map (fun z => 64 * z.1.2 + z.2.2)).Nodup := by
  refine List.Nodup.map_on ?_ ((nodup_zipIdx rows).of_map.product (nodup_zipIdx cols).of_map)
  rintro ⟨⟨r, i⟩, ⟨c, j⟩⟩ hx ⟨⟨r', i'⟩, ⟨c', j'⟩⟩ hy hk
  obtain ⟨hr, hc⟩ := List.mem_product.mp hx
  obtain ⟨hr', hc'⟩ := List.mem_product.mp hy
  rw [List.mk_mem_zipIdx_iff_getElem?] at hr hc hr' hc'
  have hj := (List.getElem?_eq_some_iff.mp hc).1
  have hj' := (List.getElem?_eq_some_iff.mp hc').1
  obtain rfl : i = i' := by simp only at hk; omega
  obtain rfl : j = j' := by simp only at hk; omega
  rw [hr] at hr'; rw [hc] at hc'
  cases hr'; cases hc'; rfl

/-- The operands of each step of a chunk, over its rows; an absent one counts as zero (R131). -/
def Chunk.stepsA (c : Chunk) : List (List Fl) :=
  (List.range (c.cols.headD []).length).map fun k =>
    (nthOf none k c.rows).map fun x => match x with | some y => y.1 | none => .fin false 0 0

/-- The operands of each step of a chunk, over its columns (R131). -/
def Chunk.stepsB (c : Chunk) : List (List Fl) :=
  (List.range (c.cols.headD []).length).map fun k => (nthOf (Fl.fin false 0 0, false) k c.cols).map Prod.fst

/-- One cell takes its chunk. -/
def putCell (int : Bool) (x : AccBank) (z : (List (Option PVal) × Nat) × (List PVal × Nat)) : AccBank :=
  { x with cells := tset none x.cells (64 * z.1.2 + z.2.2) (cellChunk int z.1.1 z.2.1 (tget none x.cells (64 * z.1.2 + z.2.2))) }

/-- One cell of the checksum row takes its chunk, values and magnitudes. -/
def putColSum (int : Bool) (ka : Nat) (c : Chunk) (x : AccBank) (cj : List PVal × Nat) : AccBank :=
  let b := cj.1.map Prod.fst
  { x with
    pCol := tset 0 x.pCol cj.2 (sumChunk int ((c.stepsA.map (edgeSum int ka)).zip b) (tget 0 x.pCol cj.2)),
    tCol := tset 0 x.tCol cj.2
      (sumChunk int ((c.stepsA.map fun l => edgeSum int ka (l.map Fl.abs)).zip (b.map Fl.abs)) (tget 0 x.tCol cj.2)) }

/-- The present operands of a row with the column sums of their steps, of values and of magnitudes. -/
def withColSums (int : Bool) (kb : Nat) (c : Chunk) (r : List (Option PVal)) : List (Fl × Fl × Fl) :=
  (r.zip ((c.stepsB.map (edgeSum int kb)).zip (c.stepsB.map fun l => edgeSum int kb (l.map Fl.abs)))).filterMap
    fun y => y.1.map fun v => (v.1, y.2)

/-- One cell of the checksum column takes its chunk, values and magnitudes. -/
def putRowSum (int : Bool) (kb : Nat) (c : Chunk) (x : AccBank) (ri : List (Option PVal) × Nat) : AccBank :=
  let a := withColSums int kb c ri.1
  { x with
    pRow := tset 0 x.pRow ri.2 (sumChunk int (a.map fun y => (y.1, y.2.1)) (tget 0 x.pRow ri.2)),
    tRow := tset 0 x.tRow ri.2 (sumChunk int (a.map fun y => (y.1.abs, y.2.2)) (tget 0 x.tRow ri.2)) }

section
variable {int : Bool} {ka kb : Nat} {c : Chunk} {acc : AccBank}

/-- A chunk goes into the cells, then into the checksum row, then into the checksum column. -/
theorem gridChunk_passes : gridChunk int ka kb c acc =
    c.rows.zipIdx.foldl (putRowSum int kb c) (c.cols.zipIdx.foldl (putColSum int ka c)
      ((c.rows.zipIdx ×ˢ c.cols.zipIdx).foldl (putCell int) acc)) := by
  simp only [SProd.sprod, List.product, List.foldl_flatMap, List.foldl_map]
  rfl

theorem gridChunk_cell (hcols : c.cols.length ≤ 64) {i j : Nat} {r : List (Option PVal)} {b : List PVal}
    (hr : c.rows[i]? = some r) (hb : c.cols[j]? = some b) :
    tget none (gridChunk int ka kb c acc).cells (64 * i + j) = cellChunk int r b (tget none acc.cells (64 * i + j)) := by
  rw [gridChunk_passes, foldl_keeps AccBank.cells (putRowSum int kb c) fun _ _ => rfl,
    foldl_keeps AccBank.cells (putColSum int ka c) fun _ _ => rfl]
  exact tget_foldl_tset none AccBank.cells (fun z => 64 * z.1.2 + z.2.2) (fun z => cellChunk int z.1.1 z.2.1) (putCell int) (fun _ _ => rfl)
    (nodup_cellKeys c.rows hcols) (List.mem_product.mpr ⟨mem_zipIdx hr, mem_zipIdx hb⟩) acc

theorem gridChunk_pCol {j : Nat} {b : List PVal} (hb : c.cols[j]? = some b) :
    tget 0 (gridChunk int ka kb c acc).pCol j =
      sumChunk int ((c.stepsA.map (edgeSum int ka)).zip (b.map Prod.fst)) (tget 0 acc.pCol j) := by
  rw [gridChunk_passes, foldl_keeps AccBank.pCol (putRowSum int kb c) fun _ _ => rfl,
    ← foldl_keeps AccBank.pCol (putCell int) (fun _ _ => rfl) (c.rows.zipIdx ×ˢ c.cols.zipIdx) acc]
  exact tget_foldl_tset 0 AccBank.pCol Prod.snd (fun cj => sumChunk int ((c.stepsA.map (edgeSum int ka)).zip (cj.1.map Prod.fst)))
    (putColSum int ka c) (fun _ _ => rfl) (nodup_zipIdx c.cols) (mem_zipIdx hb) _

theorem gridChunk_pRow {i : Nat} {r : List (Option PVal)} (hr : c.rows[i]? = some r) :
    tget 0 (gridChunk int ka kb c acc).pRow i =
      sumChunk int ((withColSums int kb c r).map fun y => (y.1, y.2.1)) (tget 0 acc.pRow i) := by
  have hbefore : (c.cols.zipIdx.foldl (putColSum int ka c) ((c.rows.zipIdx ×ˢ c.cols.zipIdx).foldl (putCell int) acc)).pRow = acc.pRow := by
    rw [foldl_keeps AccBank.pRow (putColSum int ka c) fun _ _ => rfl, foldl_keeps AccBank.pRow (putCell int) fun _ _ => rfl]
  rw [gridChunk_passes, ← hbefore]
  exact tget_foldl_tset 0 AccBank.pRow Prod.snd (fun ri => sumChunk int ((withColSums int kb c ri.1).map fun y => (y.1, y.2.1)))
    (putRowSum int kb c) (fun _ _ => rfl) (nodup_zipIdx c.rows) (mem_zipIdx hr) _

/-- A chunk leaves a bank's mode and the tile's size as they are. -/
theorem gridChunk_keeps {γ : Type} (f : AccBank → γ) (hcell : ∀ x z, f (putCell int x z) = f x)
    (hcol : ∀ x z, f (putColSum int ka c x z) = f x) (hrow : ∀ x z, f (putRowSum int kb c x z) = f x) :
    f (gridChunk int ka kb c acc) = f acc := by
  rw [gridChunk_passes, foldl_keeps f _ hrow, foldl_keeps f _ hcol, foldl_keeps f _ hcell]

@[simp] theorem gridChunk_int : (gridChunk int ka kb c acc).int = acc.int :=
  gridChunk_keeps AccBank.int (fun _ _ => rfl) (fun _ _ => rfl) fun _ _ => rfl
@[simp] theorem gridChunk_rows : (gridChunk int ka kb c acc).rows = acc.rows :=
  gridChunk_keeps AccBank.rows (fun _ _ => rfl) (fun _ _ => rfl) fun _ _ => rfl
@[simp] theorem gridChunk_cols : (gridChunk int ka kb c acc).cols = acc.cols :=
  gridChunk_keeps AccBank.cols (fun _ _ => rfl) (fun _ _ => rfl) fun _ _ => rfl

end

/-! ### A tile of integers accumulated chunk by chunk -/

theorem map_getD_range {α : Type} (d : α) (l : List α) : (List.range l.length).map (l.getD · d) = l := by
  refine List.ext_getElem (by simp) fun i h _ => ?_
  rw [List.getElem_map, List.getElem_range, List.getD_eq_getElem]

theorem dot_eq_range {K : Nat} {r c : List Int} (hr : r.length = K) (hc : c.length = K) :
    dot r c = ((List.range K).map fun k => r.getD k 0 * c.getD k 0).sum := by
  conv_lhs => rw [dot, ← map_getD_range 0 r, ← map_getD_range 0 c, hr, hc, List.zip_map', List.map_map]
  rfl

theorem operands_eq_range {K : Nat} {l : List Int} (h : l.length = K) :
    (l.map intOperand).map Prod.fst = (List.range K).map fun t => Fl.ofInt (l.getD t 0) := by
  conv_lhs => rw [← map_getD_range 0 l, h, List.map_map, List.map_map]
  rfl

/-- The products of a column with the sums over the rows are the sum of the rows' products with it. -/
theorem sum_rows_mul {K : Nat} {c : List Int} (hc : c.length = K) : ∀ {A : List (List Int)}, (∀ r ∈ A, r.length = K) →
    ((List.range K).map fun k => (A.map (·.getD k 0)).sum * c.getD k 0).sum = (A.map (dot · c)).sum
  | [], _ => by simp
  | r :: A, h => by
    obtain ⟨hr, hA⟩ := List.forall_mem_cons.mp h
    simp only [List.map_cons, List.sum_cons, add_mul, List.sum_map_add, sum_rows_mul hc hA, dot_eq_range hr hc]

theorem dot_comm (r c : List Int) : dot r c = dot c r := by
  rw [dot, dot, ← List.zip_swap r c, List.map_map]
  exact congrArg _ (List.map_congr_left fun z _ => mul_comm _ _)

/-- Chunks of a tile of m rows and n columns: as many operands, at least one, in every row and column. -/
structure FitsTile (m n : Nat) (y : Operands) : Prop where
  steps : 1 ≤ (y.2.headD []).length
  rows : y.1.length = m
  cols : y.2.length = n
  row : ∀ r ∈ y.1, r.length = (y.2.headD []).length
  col : ∀ c ∈ y.2, c.length = (y.2.headD []).length

theorem fitsTile_of_length {m n K : Nat} {y : Operands} (hn : 1 ≤ n) (hK : 1 ≤ K) (hrows : y.1.length = m)
    (hcols : y.2.length = n) (hrow : ∀ r ∈ y.1, r.length = K) (hcol : ∀ c ∈ y.2, c.length = K) : FitsTile m n y := by
  have hhead : (y.2.headD []).length = K := by
    cases hy : y.2 with
    | nil => rw [hy] at hcols; exact absurd hcols (by simp; omega)
    | cons c cs => exact hcol c (by simp [hy])
  exact ⟨hhead ▸ hK, hrows, hcols, fun r hr => (hrow r hr).trans hhead.symm, fun c hc => (hcol c hc).trans hhead.symm⟩

theorem intChunk_steps (y : Operands) : (((intChunk y).cols).headD []).length = (y.2.headD []).length := by
  cases h : y.2 <;> simp [intChunk, h]

/-- The edge tree's sum of the operands of step t. -/
def stepSum (k : Nat) (l : List (List Int)) (t : Nat) : Fl := edgeSum true k ((l.map (·.getD t 0)).map Fl.ofInt)

section
variable {k : Nat} {l : List (List Int)} (h : l.length ≤ 2 ^ k) (t : Nat)
include h

theorem edgeSum_step : (stepSum k l t).Whole ∧ (stepSum k l t).toInt = (((l.map (·.getD t 0)).map Fl.ofInt).map Fl.toInt).sum :=
  edgeSum_whole (by simpa using h) fun x hx => by obtain ⟨z, -, rfl⟩ := List.mem_map.mp hx; exact Fl.whole_ofInt z

theorem whole_stepSum : (stepSum k l t).Whole := (edgeSum_step h t).1

theorem toInt_stepSum : (stepSum k l t).toInt = (l.map (·.getD t 0)).sum :=
  (edgeSum_step h t).2.trans (by simp [Function.comp_def])

end

theorem stepsA_intChunk (y : Operands) : (intChunk y).stepsA =
    (List.range (y.2.headD []).length).map fun k => (y.1.map (·.getD k 0)).map Fl.ofInt := by
  rw [Chunk.stepsA, intChunk_steps]
  refine List.map_congr_left fun k _ => ?_
  simp only [nthOf, intChunk, List.map_map]
  refine List.map_congr_left fun r _ => ?_
  simp only [Function.comp_apply, List.getD_eq_getElem?_getD, List.getElem?_map]
  cases r[k]? <;> rfl

theorem stepsB_intChunk (y : Operands) : (intChunk y).stepsB =
    (List.range (y.2.headD []).length).map fun k => (y.2.map (·.getD k 0)).map Fl.ofInt := by
  rw [Chunk.stepsB, intChunk_steps]
  refine List.map_congr_left fun k _ => ?_
  simp only [nthOf, intChunk, List.map_map]
  refine List.map_congr_left fun c _ => ?_
  exact congrArg Prod.fst (List.getD_map (n := k) c 0 intOperand)

theorem filterMap_present_zip {β : Type} : ∀ (r : List PVal) (l : List β),
    ((r.map some).zip l).filterMap (fun y => y.1.map fun v => (v.1, y.2)) = (r.map Prod.fst).zip l
  | [], _ => rfl
  | _ :: _, [] => rfl
  | v :: r, b :: l => congrArg ((v.1, b) :: ·) (filterMap_present_zip r l)

/-- Of a row with no absent operand, every operand meets its step's column sum. -/
theorem withColSums_present (int : Bool) (kb : Nat) (c : Chunk) (r : List PVal) :
    (withColSums int kb c (r.map some)).map (fun y => (y.1, y.2.1)) = (r.map Prod.fst).zip (c.stepsB.map (edgeSum int kb)) := by
  rw [withColSums, filterMap_present_zip, List.zip_map']
  exact (List.zip_map_right (f := Prod.fst)).symm.trans (by rw [List.map_map]; rfl)

section
variable {m n : Nat} {y : Operands} (hy : FitsTile m n y) {acc : AccBank}
include hy

/-- A cell takes the products of its row and column. -/
theorem intChunk_cell (hn : n ≤ 64) {i j : Nat} (hi : i < m) (hj : j < n) :
    tget none (gridChunk true 5 6 (intChunk y) acc).cells (64 * i + j) =
      let old := tget none acc.cells (64 * i + j)
      some ⟨(old.map Cell.v).getD 0 + BitVec.ofInt 32 (dot (y.1.getD i []) (y.2.getD j [])), (old.map Cell.poison).getD false⟩ := by
  have hi : i < y.1.length := hy.rows.symm ▸ hi
  have hj : j < y.2.length := hy.cols.symm ▸ hj
  rw [gridChunk_cell (by simpa [intChunk, hy.cols] using hn) (r := (y.1[i]).map fun x => some (intOperand x)) (b := (y.2[j]).map intOperand)
    (by simp [intChunk, hi]) (by simp [intChunk, hj]), List.getD_eq_getElem _ _ hi, List.getD_eq_getElem _ _ hj, cellChunk_int]
  intro h
  have hlen := congrArg List.length h
  rw [List.length_zip, hy.row _ (List.getElem_mem hi), hy.col _ (List.getElem_mem hj), Nat.min_self] at hlen
  exact absurd hlen (Nat.one_le_iff_ne_zero.mp hy.steps)

/-- A cell of the checksum row takes the products of its column with every row. -/
theorem intChunk_pCol (hm : m ≤ 32) {j : Nat} (hj : j < n) :
    tget 0 (gridChunk true 5 6 (intChunk y) acc).pCol j =
      tget 0 acc.pCol j + BitVec.ofInt 32 (y.1.map (dot · (y.2.getD j []))).sum := by
  have hj : j < y.2.length := hy.cols.symm ▸ hj
  have hc := hy.col _ (List.getElem_mem hj)
  rw [gridChunk_pCol (b := (y.2[j]).map intOperand) (by simp [intChunk, hj]), List.getD_eq_getElem _ _ hj, ← sum_rows_mul hc hy.row]
  have ha : (intChunk y).stepsA.map (edgeSum true 5) = (List.range (y.2.headD []).length).map (stepSum 5 y.1) := by
    rw [stepsA_intChunk, List.map_map, Function.comp_def]; rfl
  have hrows : y.1.length ≤ 2 ^ 5 := hy.rows ▸ hm
  rw [ha, operands_eq_range hc, List.zip_map', sumChunk_whole (fun k => whole_stepSum hrows k) fun k => Fl.whole_ofInt _]
  simp only [toInt_stepSum hrows, Fl.toInt_ofInt]

/-- A cell of the checksum column takes the products of its row with every column. -/
theorem intChunk_pRow (hn : n ≤ 64) {i : Nat} (hi : i < m) :
    tget 0 (gridChunk true 5 6 (intChunk y) acc).pRow i =
      tget 0 acc.pRow i + BitVec.ofInt 32 (y.2.map (dot (y.1.getD i []) ·)).sum := by
  have hi : i < y.1.length := hy.rows.symm ▸ hi
  have hr := hy.row _ (List.getElem_mem hi)
  have hb : (intChunk y).stepsB.map (edgeSum true 6) = (List.range (y.2.headD []).length).map (stepSum 6 y.2) := by
    rw [stepsB_intChunk, List.map_map, Function.comp_def]; rfl
  have hcols : y.2.length ≤ 2 ^ 6 := hy.cols ▸ hn
  rw [gridChunk_pRow (r := ((y.1[i]).map intOperand).map some) (by simp [intChunk, hi, Function.comp_def]), List.getD_eq_getElem _ _ hi,
    withColSums_present, operands_eq_range hr, hb, List.zip_map', sumChunk_whole (fun t => Fl.whole_ofInt _) fun t => whole_stepSum hcols t]
  simp only [toInt_stepSum hcols, Fl.toInt_ofInt, dot_comm y.1[i], ← sum_rows_mul hr hy.col, mul_comm]

end

/-- The sum of a cell's products over chunks. -/
def tileSum (l : List Operands) (i j : Nat) : Int :=
  (l.map fun y => dot (y.1.getD i []) (y.2.getD j [])).sum

/-- A bank in integer mode that holds the sums of a tile's products so far, and their sums along each column and row, modulo 2^32. -/
structure HoldsTile (m n : Nat) (done : List Operands) (acc : AccBank) : Prop where
  int : acc.int = true
  rows : acc.rows = m
  cols : acc.cols = n
  cell : ∀ i j, i < m → j < n → tget none acc.cells (64 * i + j) =
    if done = [] then none else some ⟨BitVec.ofInt 32 (tileSum done i j), false⟩
  pCol : ∀ j < n, tget 0 acc.pCol j = BitVec.ofInt 32 ((List.range m).map fun i => tileSum done i j).sum
  pRow : ∀ i < m, tget 0 acc.pRow i = BitVec.ofInt 32 ((List.range n).map fun j => tileSum done i j).sum

theorem holdsTile_start (m n k : Nat) : HoldsTile m n [] (startBank {} false true m n k) where
  int := rfl
  rows := rfl
  cols := rfl
  cell _ _ _ _ := rfl
  pCol _ _ := by simp [tileSum]; rfl
  pRow _ _ := by simp [tileSum]; rfl

theorem tileSum_concat (l : List Operands) (y : Operands) (i j : Nat) :
    tileSum (l ++ [y]) i j = tileSum l i j + dot (y.1.getD i []) (y.2.getD j []) := by
  simp [tileSum]

theorem HoldsTile.chunk {m n : Nat} {done : List Operands} {acc : AccBank} (h : HoldsTile m n done acc)
    (hm : m ≤ 32) (hn : n ≤ 64) {y : Operands} (hy : FitsTile m n y) :
    HoldsTile m n (done ++ [y]) (gridChunk true 5 6 (intChunk y) acc) where
  int := gridChunk_int.trans h.int
  rows := gridChunk_rows.trans h.rows
  cols := gridChunk_cols.trans h.cols
  cell i j hi hj := by
    rw [intChunk_cell hy hn hi hj, h.cell i j hi hj, tileSum_concat, BitVec.ofInt_add]
    by_cases hd : done = []
    · simp [hd, tileSum]
    · simp [hd]
  pCol j hj := by
    rw [intChunk_pCol hy hm hj, h.pCol j hj, ← BitVec.ofInt_add]
    conv_lhs => rw [← map_getD_range [] y.1, hy.rows, List.map_map]
    simp only [tileSum_concat, List.sum_map_add, Function.comp_def]
  pRow i hi := by
    rw [intChunk_pRow hy hn hi, h.pRow i hi, ← BitVec.ofInt_add]
    conv_lhs => rw [← map_getD_range [] y.2, hy.cols, List.map_map]
    simp only [tileSum_concat, List.sum_map_add, Function.comp_def]

theorem HoldsTile.foldl {m n : Nat} (hm : m ≤ 32) (hn : n ≤ 64) : ∀ {l done : List Operands} {acc : AccBank},
    HoldsTile m n done acc → (∀ y ∈ l, FitsTile m n y) →
    HoldsTile m n (done ++ l) (l.foldl (fun acc y => gridChunk true 5 6 (intChunk y) acc) acc)
  | [], done, _, h, _ => by rwa [List.append_nil]
  | y :: l, done, _, h, hl => by
    obtain ⟨hy, hl⟩ := List.forall_mem_cons.mp hl
    rw [List.append_cons]
    exact HoldsTile.foldl hm hn (h.chunk hm hn hy) hl

/-! ### The comparison of a bank in integer mode (R132, R134) -/

/-- The sum of a column's cells. -/
def AccBank.colSum (a : AccBank) (j : Nat) : Word32 := ((List.range a.rows).map (a.word · j)).sum
/-- The sum of a row's cells. -/
def AccBank.rowSum (a : AccBank) (i : Nat) : Word32 := ((List.range a.cols).map (a.word i ·)).sum

section
variable {a : AccBank} (hint : a.int = true)
include hint

theorem cellVal_int (i j : Nat) : (a.cellVal i j).Whole ∧ BitVec.ofInt 32 (a.cellVal i j).toInt = a.word i j := by
  unfold AccBank.cellVal AccBank.word
  cases tget none a.cells (64 * i + j) with
  | none => exact ⟨Fl.whole_zero, rfl⟩
  | some c =>
    simp only [hint, if_true, Fl.toInt_ofInt, BitVec.ofInt_toInt]
    exact ⟨Fl.whole_ofInt _, rfl⟩

/-- A row or column of cells at the edge tree: its sum modulo 2^32. -/
theorem edgeSum_cells {k n : Nat} (hn : n ≤ 2 ^ k) (at_ : Nat → Nat × Nat) :
    BitVec.ofInt 32 (edgeSum true k ((List.range n).map fun x => a.cellVal (at_ x).1 (at_ x).2)).toInt =
      ((List.range n).map fun x => a.word (at_ x).1 (at_ x).2).sum := by
  have hcells : ∀ x ∈ (List.range n).map fun x => a.cellVal (at_ x).1 (at_ x).2, x.Whole := by
    rintro _ hx
    obtain ⟨x, -, rfl⟩ := List.mem_map.mp hx
    exact (cellVal_int hint _ _).1
  rw [(edgeSum_whole (by simpa using hn) hcells).2, ofInt_sum, List.map_map, List.map_map]
  exact congrArg _ (List.map_congr_left fun x _ => (cellVal_int hint _ _).2)

/-- In integer mode the comparison is exact: a column or row fails where its checksum is not the sum of its cells. -/
theorem failing_int (hrows : a.rows ≤ 32) (hcols : a.cols ≤ 64) : a.failing 5 6 =
    ((List.range a.cols).find? (fun j => decide (a.colSum j ≠ tget 0 a.pCol j)),
      (List.range a.rows).find? (fun i => decide (a.rowSum i ≠ tget 0 a.pRow i))) := by
  have hcol (j : Nat) := edgeSum_cells (k := 5) hint hrows fun i => (i, j)
  have hrow (i : Nat) := edgeSum_cells (k := 6) hint hcols fun j => (i, j)
  simp only [AccBank.failing, checkFails, hint, if_true, hcol, hrow]
  rfl

end

/-- A bank in integer mode whose checksums are the sums of its cells. -/
structure AccBank.Balanced (a : AccBank) : Prop where
  int : a.int = true
  rows : a.rows ≤ 32
  cols : a.cols ≤ 64
  col : ∀ j < a.cols, a.colSum j = tget 0 a.pCol j
  row : ∀ i < a.rows, a.rowSum i = tget 0 a.pRow i

theorem AccBank.Balanced.failing {a : AccBank} (h : a.Balanced) : a.failing 5 6 = (none, none) := by
  rw [failing_int h.int h.rows h.cols, List.find?_range_eq_none.mpr fun j hj => by simp [h.col j hj],
    List.find?_range_eq_none.mpr fun i hi => by simp [h.row i hi]]

theorem sum_range_single {n i : Nat} (hi : i < n) (d : Word32) : ((List.range n).map fun x => if x = i then d else 0).sum = d := by
  have h := List.sum_map_ite_eq (List.range n) (fun _ => d) (fun _ => (0 : Word32)) i
  rwa [List.count_eq_one_of_mem List.nodup_range (List.mem_range.mpr hi), one_smul, sub_zero, List.map_const', List.sum_replicate,
    smul_zero, add_zero] at h

/-- A change of one of the summands changes the sum by as much. -/
theorem sum_range_upset {n i : Nat} (hi : i < n) (d : Word32) {w w' : Nat → Word32} {p : Prop} [Decidable p]
    (h : ∀ x < n, w' x = w x + if x = i ∧ p then d else 0) :
    ((List.range n).map w').sum = ((List.range n).map w).sum + if p then d else 0 := by
  rw [List.map_congr_left fun x hx => h x (List.mem_range.mp hx), List.sum_map_add]
  by_cases hp : p
  · simp only [hp, and_true, if_true, sum_range_single hi]
  · simp [hp]

/-- The first of the numbers below n that is i is i. -/
theorem find?_range_single {n i : Nat} (hi : i < n) {p : Nat → Bool} (h : ∀ x < n, p x = decide (x = i)) :
    (List.range n).find? p = some i :=
  List.find?_range_eq_some.mpr ⟨by rw [h i hi, decide_eq_true rfl], List.mem_range.mpr hi, fun x hx => by
    rw [h x (hx.trans hi), decide_eq_false hx.ne]; rfl⟩

section
variable {a : AccBank} {i : Fin 33} {j : Fin 65} (hi : i.val < 32) (hj : j.val < 64) (d : Word32)
include hi hj

/-- An upset of a cell of the tile changes nothing but that cell. -/
theorem upsetCells_cell : upsetCells [.cell i j d] a = { a with
    cells := tset none a.cells (64 * i + j) ((tget none a.cells (64 * i + j)).map fun c => { c with v := c.v + d }) } := by
  simp only [upsetCells, List.foldl_cons, List.foldl_nil, if_neg hi.ne, if_neg hj.ne]

theorem word_upsetCells (hcell : tget none a.cells (64 * i + j) ≠ none) {x y : Nat} (hy : y < 64) :
    (upsetCells [.cell i j d] a).word x y = a.word x y + if x = i ∧ y = j then d else 0 := by
  rw [upsetCells_cell hi hj, AccBank.word, AccBank.word]
  split
  · next h =>
    obtain ⟨rfl, rfl⟩ := h
    obtain ⟨c, hc⟩ := Option.ne_none_iff_exists'.mp hcell
    rw [tget_tset_self, hc]; rfl
  · next h => rw [tget_tset_ne _ _ _ _ _ (by omega), add_zero]

end

/-- An upset of a cell of a balanced bank fails first in that cell's column and row. -/
theorem AccBank.Balanced.failing_upset {a : AccBank} (h : a.Balanced) {i : Fin 33} {j : Fin 65} (hi' : i.val < a.rows)
    (hj' : j.val < a.cols) (hcell : tget none a.cells (64 * i + j) ≠ none) {d : Word32} (hd : d ≠ 0) :
    (upsetCells [.cell i j d] a).failing 5 6 = (some j.val, some i.val) := by
  have hi : i.val < 32 := hi'.trans_le h.rows
  have hj : j.val < 64 := hj'.trans_le h.cols
  have hword := fun x y (hy : y < a.cols) => word_upsetCells hi hj d hcell (x := x) (hy.trans_le h.cols)
  have hu := upsetCells_cell (a := a) hi hj d
  have hcol : ∀ y < a.cols, (upsetCells [.cell i j d] a).colSum y = tget 0 a.pCol y + if y = j then d else 0 := fun y hy => by
    rw [← h.col y hy, AccBank.colSum, show (upsetCells [.cell i j d] a).rows = a.rows by rw [hu]]
    exact sum_range_upset hi' d fun x _ => hword x y hy
  have hrow : ∀ x < a.rows, (upsetCells [.cell i j d] a).rowSum x = tget 0 a.pRow x + if x = i then d else 0 := fun x hx => by
    rw [← h.row x hx, AccBank.rowSum, show (upsetCells [.cell i j d] a).cols = a.cols by rw [hu]]
    exact sum_range_upset hj' d fun y hy => by rw [hword x y hy]; simp only [and_comm]
  rw [failing_int (by rw [hu]; exact h.int) (by rw [hu]; exact h.rows) (by rw [hu]; exact h.cols),
    find?_range_single (i := j) (by rw [hu]; exact hj') fun y hy => ?_,
    find?_range_single (i := i) (by rw [hu]; exact hi') fun x hx => ?_]
  · have hx : x < a.rows := by rwa [hu] at hx
    rw [hrow x hx, hu]
    by_cases he : x = i
    · simpa [he] using hd
    · simp [he]
  · have hy : y < a.cols := by rwa [hu] at hy
    rw [hcol y hy, hu]
    by_cases he : y = j
    · simpa [he] using hd
    · simp [he]

/-- A bank that holds a tile's sums is balanced. -/
theorem HoldsTile.balanced {m n : Nat} (hm : m ≤ 32) (hn : n ≤ 64) {done : List Operands} {acc : AccBank}
    (h : HoldsTile m n done acc) : acc.Balanced := by
  have hword : ∀ i j, i < m → j < n → acc.word i j = BitVec.ofInt 32 (tileSum done i j) := by
    intro i j hi hj
    rw [AccBank.word, h.cell i j hi hj]
    by_cases hd : done = []
    · simp [hd, tileSum]
    · simp [hd]
  refine ⟨h.int, h.rows.trans_le hm, h.cols.trans_le hn, fun j hj => ?_, fun i hi => ?_⟩
  · rw [h.cols] at hj
    rw [h.pCol j hj, AccBank.colSum, h.rows, ofInt_sum, List.map_map]
    exact congrArg _ (List.map_congr_left fun i hi => hword i j (List.mem_range.mp hi) hj)
  · rw [h.rows] at hi
    rw [h.pRow i hi, AccBank.rowSum, h.cols, ofInt_sum, List.map_map]
    exact congrArg _ (List.map_congr_left fun j hj => hword i j hi (List.mem_range.mp hj))

/-- Settles O60: the bank holds the tile's sums after every chunk, so its checksums agree, and an upset of one cell shows in its column and row. -/
theorem integerAbftExact : Obligations.IntegerAbftExact := by
  unfold Obligations.IntegerAbftExact
  intro m n k a b hm1 hm hn1 hn hlen ha hfit chunk acc
  have hchunks : ∀ y ∈ a.zip b, FitsTile m n y := by
    intro y hy
    obtain ⟨q, hq, rfl⟩ := List.mem_iff_getElem.mp hy
    have hqa : q < a.length := by rw [List.length_zip] at hq; omega
    obtain ⟨hsteps, hrows, hcols, hrow, hcol⟩ := hfit q hqa
    rw [List.getD_eq_getElem _ _ hqa] at hsteps hrows hrow hcol
    rw [List.getD_eq_getElem _ _ (hlen ▸ hqa)] at hcols hcol
    rw [List.getElem_zip]
    exact fitsTile_of_length hn1 hsteps hrows hcols (fun r hr => (hrow r hr).1) fun c hc => (hcol c hc).1
  have hacc : HoldsTile m n (a.zip b) acc := HoldsTile.foldl hm hn (holdsTile_start m n k) hchunks
  have hne : a.zip b ≠ [] := fun h => ha ((List.zip_eq_nil_iff.mp h).elim id fun hb => List.length_eq_zero_iff.mp (by rw [hlen, hb]; rfl))
  have hbal := hacc.balanced hm hn
  refine ⟨fun i j hi hj => ?_, hbal.failing, fun i j d hi hj hd => ?_⟩
  · rw [hacc.cell i j hi hj, if_neg hne]; rfl
  · exact hbal.failing_upset (hacc.rows.symm ▸ hi) (hacc.cols.symm ▸ hj)
      (by rw [hacc.cell i j hi hj, if_neg hne]; exact nofun) hd

end Sys2Proof.Machine
end

section
/-! PROOFS. GO, ABORT and the span timer of a stream slot (R104, R155, R156, R157, R176). -/

namespace Sys2Proof.Machine

section
variable {s : State} {f k : Nat}

/-! ### GO and ABORT (R156, R176) -/

/-- An update of a slot matters only at what the slot holds. -/
theorem State.modSlot_congr {g h : SlotRec → SlotRec} (e : g ((s.frond f).slot k) = h ((s.frond f).slot k)) :
    State.modSlot f k g s = State.modSlot f k h s := by
  have hr : (s.frond f).modSlot k g = (s.frond f).modSlot k h := by
    unfold FrondRec.modSlot
    unfold FrondRec.slot at e
    split
    · next hk => rw [if_pos hk] at e; rw [e]
    · next hk => rw [if_neg hk] at e; rw [e]
  rw [State.modSlot, State.modSlot, State.modFrond, State.modFrond, hr]

theorem slotGo_idle (h : ((s.frond f).slot k).st = .idle) : slotGo f k s = State.modSlot f k (fun x =>
    { x.toIdle with st := .running, fetchAddr := x.base.toNat / 64 * 64, nextSeq := x.seqReg, owner := .none }) s :=
  State.modSlot_congr (if_pos h)

theorem slotGo_busy (h : ((s.frond f).slot k).st ≠ .idle) : slotGo f k s = State.modSlot f k (fun x => x) s :=
  State.modSlot_congr (if_neg h)

theorem abortSlot_idle (h : ((s.frond f).slot k).st = .idle) : abortSlot f k s = s := if_pos h

theorem abortSlot_busy (h : ((s.frond f).slot k).st ≠ .idle) : abortSlot f k s =
    if ((s.frond f).slot k).executing then State.modSlot f k (fun x => { x with aborting := true }) s else idleSlot f k s := if_neg h

/-! ### Records of a stream (R161, R343) -/

@[simp] theorem descRecord_code (code : BitVec 16) (a : Nat) (seq : Word32) : (descRecord s f k code a seq).code = code := by
  unfold descRecord
  cases s.frameOf f k <;> rfl

/-- A record about a Frond goes to the collector, and to the Frond's LAST_FAULT and nothing else of it. -/
theorem reportFrond_code (r : FaultRec) : ∃ x : FaultRec, x.code = r.code ∧ (reportFrond f r s).thal.inFlight = s.thal.inFlight ++ [x] :=
  ⟨{ r with fp := BitVec.ofNat 8 f, fl := (s.fp f).fl, time := s.gctl.time }, rfl, rfl⟩

@[simp] theorem reportFrond_frond (r : FaultRec) : (reportFrond f r s).frond f = { s.frond f with lastFault := r.code } :=
  State.modFrond_frond _ f _

/-! ### The span timer (R157) -/

theorem foldl_unchanged {α : Type} {g : State → α → State} {l : List α} (h : ∀ x ∈ l, ∀ t, g t x = t) (t : State) : l.foldl g t = t := by
  induction l with
  | nil => rfl
  | cons x l ih =>
    obtain ⟨hx, hl⟩ := List.forall_mem_cons.mp h
    rw [List.foldl_cons, hx, ih hl]

/-- The SEQ a span stop names: of the first descriptor that is still in the slot, else of the last one completed. -/
def spanSeq (x : SlotRec) : Word32 := match x.queue with | d :: _ => d.seq | [] => x.doneSeq

/-- A span of slot 0 past its end is recorded once and its stream goes on. -/
theorem opSpanTimer_slot0 (hst : (s.frond f).slot0.st = .running) (hopen : (s.frond f).spanOpen 0 = true)
    (hnoted : (s.frond f).slot0.spanNoted = false) : opSpanTimer f 0 s =
    State.modSlot f 0 (fun x => { x with spanNoted := true })
      (reportFrond f (descRecord s f 0 0x011A 0 (spanSeq (s.frond f).slot0)) s) := by
  have hslot : (s.frond f).slot 0 = (s.frond f).slot0 := rfl
  unfold opSpanTimer
  simp only [hslot, hst, hopen, hnoted]
  rfl

/-- A span of slot 1 past its end after a yield request stops the slot. -/
theorem opSpanTimer_slot1 (hst : (s.frond f).slot1.st = .running) (hask : (s.frond f).yieldAsked = true)
    (hopen : (s.frond f).spanOpen 1 = true) : opSpanTimer f 1 s = spanStop f s := by
  have hslot : (s.frond f).slot 1 = (s.frond f).slot1 := rfl
  unfold opSpanTimer
  simp [hslot, hst, hopen, hask]

/-- A span stop of a stream with no run behind it and no page held: the record unless ABORT was the request, and the slot idle. -/
theorem spanStop_alone (howner : (s.frond f).slot1.owner = .none) (hhold : ∀ d ∈ (s.frond f).slot1.queue, d.hold = none) : spanStop f s =
    idleSlot f 1 (if (s.frond f).slot1.aborting then s
      else reportFrond f (descRecord s f 1 0x011A 0 (spanSeq (s.frond f).slot1)) s) := by
  unfold spanStop
  simp only [howner]
  rw [foldl_unchanged fun d hd t => by simp only [hhold d hd]]
  rfl

@[simp] theorem idleSlot_thal : (idleSlot f k s).thal = s.thal := rfl

/-- A slot left IDLE holds nothing, and both banks are empty. -/
theorem idleSlot_frond : ((idleSlot f k s).frond f).slot k = { ((s.frond f).slot k).toIdle with owner := .none } ∧
    ((idleSlot f k s).frond f).banksEmpty = true := by
  rw [idleSlot, State.modFrond_frond]
  exact ⟨FrondRec.modSlot_slot _ k _, rfl⟩

end

/-- Settles O41: GO and ABORT by the slot's state; a span of slot 0 is recorded once, one of slot 1 stops the slot. -/
theorem slotsAndSpans : Obligations.SlotsAndSpans := by
  unfold Obligations.SlotsAndSpans
  refine ⟨fun s fp k hs hup => ?_, fun s fp hs => ⟨fun hst hopen hnoted => ?_, fun hst hask hopen howner hhold => ?_⟩⟩
  · have hgo : ∀ {t : State}, slotGo fp k s = t → CompletesReg (.slotGo fp k) s t := fun h => h ▸ performBlk_runs s _ hs hup
    have habort : ∀ {t : State}, abortSlot fp k s = t → CompletesReg (.slotAbort fp k) s t := fun h => h ▸ performBlk_runs s _ hs hup
    exact ⟨fun h => hgo (slotGo_idle h), fun h => hgo (slotGo_busy h), fun h => habort (abortSlot_idle h),
      fun h => habort ((abortSlot_busy h.1).trans (if_neg (by simp [h.2]))), fun h => habort ((abortSlot_busy h.1).trans (if_pos h.2))⟩
  · obtain ⟨r, hcode, hr⟩ := reportFrond_code (s := s) (f := fp) (descRecord s fp 0 0x011A 0 (spanSeq (s.frond fp).slot0))
    refine ⟨_, r, performFab_runs s (opSpanTimer fp 0) fp hs, hcode.trans (descRecord_code _ _ _), ?_, ?_⟩
    · rw [keepLatch_thal, opSpanTimer_slot0 hst hopen hnoted]; exact hr
    · rw [keepLatch_frond, opSpanTimer_slot0 hst hopen hnoted, State.modSlot, State.modFrond_frond, reportFrond_frond]; rfl
  · have hstop := (opSpanTimer_slot1 hst hask hopen).trans (spanStop_alone howner hhold)
    refine ⟨_, performFab_runs s (opSpanTimer fp 1) fp hs, ?_⟩
    rw [keepLatch_frond, keepLatch_thal, hstop]
    obtain ⟨hslot, hbanks⟩ := idleSlot_frond (f := fp) (k := 1) (s := if (s.frond fp).slot1.aborting then s
      else reportFrond fp (descRecord s fp 1 0x011A 0 (spanSeq (s.frond fp).slot1)) s)
    refine ⟨congrArg SlotRec.st hslot, congrArg SlotRec.queue hslot, hbanks, fun ha => ?_, fun ha => ?_⟩
    · rw [idleSlot_thal, if_pos ha]
    · obtain ⟨r, hcode, hr⟩ := reportFrond_code (s := s) (f := fp) (descRecord s fp 1 0x011A 0 (spanSeq (s.frond fp).slot1))
      exact ⟨r, hcode.trans (descRecord_code _ _ _), by rw [idleSlot_thal, if_neg (by simp [ha])]; exact hr⟩

end Sys2Proof.Machine
end

section
/-! PROOFS. The engine opcodes when their descriptor may start (R122, R125, R129, R154, R159 to R161, R164, R165, R192, R195, R215). -/

namespace Sys2Proof.Machine

section
variable {s : State} {fp : Frond} {k : Slot} {op : Nat} {d : QDesc} (hd : Starts s fp k op d)
  (hon : (((beginDesc fp k d s).frond fp).slot k).executing = true)
include hd hon

/-- A descriptor that may start, and whose stream its start leaves in the slot, has its opcode's effect. -/
theorem runOp_starts (act : QDesc → State → State) : runOp op fp k act s = act d (beginDesc fp k d s) := by
  obtain ⟨hready, hjudge⟩ := hd
  simp only [runOp, hready, hjudge, hon, if_true]

theorem performFab_runOp (hs : RunsFab s fp) (act : QDesc → State → State) :
    performFab fp (runOp op fp k act) s = .next (keepLatch s (act d (beginDesc fp k d s))) := by
  rw [performFab_runs s _ fp hs, runOp_starts hd hon act]

end

section
variable {s : State} {fp : Frond} {k : Slot} {d : QDesc}

/-- The two uses of opcode 0x04 are told apart by PLOAD (R129, R130). -/
theorem performFab_runVec {pload : Bool} (hs : RunsFab s fp) (hd : Starts s fp k 4 d)
    (hon : (((beginDesc fp k d s).frond fp).slot k).executing = true) (hp : (vecBody d).pload = pload) (act : QDesc → State → State) :
    performFab fp (runVec pload fp k act) s = .next (keepLatch s (act d (beginDesc fp k d s))) := by
  rw [performFab_runs s _ fp hs, ← runOp_starts hd hon act]
  simp only [runVec, hd.1, hp, if_true]

/-- A grid descriptor starts in the state its upset words leave (log 10). -/
theorem performWfFab_runUpset {op : Nat} {upset : List Upset} {ok : Bool} (hok : ok = true) (hs : RunsFab s fp)
    (hd : Starts (State.modFrond fp (upsetWords upset) s) fp k op d)
    (hon : (((beginDesc fp k d (State.modFrond fp (upsetWords upset) s)).frond fp).slot k).executing = true)
    (act : Nat → Nat → List Upset → QDesc → State → State) :
    performWfFab ok fp (runUpset op fp k upset act) s =
      .next (keepLatch s (act fp k upset d (beginDesc fp k d (State.modFrond fp (upsetWords upset) s)))) := by
  rw [performWfFab_runs s _ ok fp hok hs, runUpset, runOp_starts hd hon]

end

/-- Settles O43: every engine opcode's command is `runOp` of its effect, which a descriptor that may start has. -/
theorem engineOpcodesComplete : Obligations.EngineOpcodesComplete := by
  unfold Obligations.EngineOpcodesComplete
  intro s fp k d hs on
  exact ⟨fun h hon => performFab_runOp h hon hs _, fun h hon => performFab_runOp h hon hs _, fun h hon => performFab_runOp h hon hs _,
    fun h hon => performFab_runOp h hon hs _, fun h hon => performFab_runOp h hon hs _, fun h hon => performFab_runOp h hon hs _,
    fun h hon => performFab_runOp h hon hs _, fun h hon => performFab_runOp h hon hs _, fun h hon => performFab_runOp h hon hs _,
    fun h hon hp => performFab_runVec hs h hon hp _, fun h hon hp => performFab_runVec hs h hon hp _,
    fun upset => ⟨fun hok h hon => performWfFab_runUpset hok hs h hon _, fun hok h hon => performWfFab_runUpset hok hs h hon _,
      fun hok h hon => performWfFab_runUpset hok hs h hon _⟩⟩

end Sys2Proof.Machine
end

section
/-! PROOFS. What accesses of a Frond's store leave alone of its slots (R138, R139, R155, R172). -/

namespace Sys2Proof.Machine

section
variable (r : FrondRec) (k : Nat)

/-! ### Words counted and written -/

@[simp] theorem FrondRec.modBank_slot (b : Nat) (g : BankRec → BankRec) : (r.modBank b g).slot k = r.slot k := rfl
@[simp] theorem FrondRec.emptyBanks_slot : r.emptyBanks.slot k = r.slot k := rfl
@[simp] theorem FrondRec.fillWait_slot (b : Bool) : ({ r with fillWait := b } : FrondRec).slot k = r.slot k := rfl
@[simp] theorem FrondRec.modCb_slot (i : Nat) (g : CbRec → CbRec) : (r.modCb i g).slot k = r.slot k := rfl

@[simp] theorem noteWord_slot (w : Nat) : (noteWord w r).slot k = r.slot k := by
  unfold noteWord
  split
  · rfl
  · rfl
  · split <;> rfl

@[simp] theorem setWord_slot (w : Nat) (d : List Byte) (p : Bool) : (setWord w d p r).slot k = r.slot k := rfl

@[simp] theorem writeWord_slot (a : Nat) (d : List PByte) (w : Nat) : (writeWord a d w r).slot k = r.slot k := by
  rw [writeWord, apply_ite (fun x : FrondRec => x.slot k), setWord_slot, setWord_slot, noteWord_slot, ite_self]

@[simp] theorem noteWords_slot (a n : Nat) : (noteWords a n r).slot k = r.slot k :=
  foldl_keeps (·.slot k) (fun x w => noteWord w x) (fun x w => noteWord_slot x k w) _ r

@[simp] theorem storeWrite_slot (a : Nat) (d : List PByte) : (storeWrite a d r).slot k = r.slot k :=
  foldl_keeps (·.slot k) (fun x w => writeWord a d w x) (fun x w => writeWord_slot x k a d w) _ r

@[simp] theorem noteFeet_slot (xs : List Foot) : (noteFeet xs r).slot k = r.slot k :=
  foldl_keeps (·.slot k) (fun a (x : Foot) => (x.words (r.hnd x.h)).foldl (fun b w => noteWord w b) a)
    (fun a _ => foldl_keeps (·.slot k) (fun b w => noteWord w b) (fun b w => noteWord_slot b k w) _ a) _ r

@[simp] theorem putElems_slot (h code : Nat) (e : Int) (l : List (Nat × Bool)) : (putElems h code e l r).slot k = r.slot k :=
  storeWrite_slot r k _ _

end

/-- A loop over a Frond whose steps keep its slots keeps them. -/
theorem forUpTo_slot {k : Nat} {g : Nat → FrondRec → FrondRec} (h : ∀ i t, (g i t).slot k = t.slot k) (n : Nat) (r : FrondRec) :
    (forUpTo n g r).slot k = r.slot k :=
  foldl_keeps (·.slot k) (fun t i => g i t) (fun t i => h i t) _ r

end Sys2Proof.Machine
end

section
/-! PROOFS. A fault before a descriptor's start halts its stream (R156, R161). -/

namespace Sys2Proof.Machine

section
variable {s : State} {f k : Nat} {code : BitVec 16} {a : Nat} {seq : Word32}

/-- A slot HALTED by a fault, with its record on the way; what is behind the slot is not told yet (R156, R161). -/
def markHalted (f k : Nat) (code : BitVec 16) (a : Nat) (seq : Word32) (s : State) : State :=
  State.modFrond f (fun r => { r.modSlot k (fun x =>
    { x with st := .halted, faultCode := code, queue := x.queue.filter (fun d => d.started) }) with fillWait := false })
    (reportFrond f (descRecord s f k code a seq) s)

theorem haltSlot_again (h : ((s.frond f).slot k).st = .halted) :
    haltSlot f k code a seq s = reportFrond f (descRecord s f k code a seq) s := if_pos h

/-- A halt of a stream that no run put on the slot. -/
theorem haltSlot_unowned (h : ((s.frond f).slot k).st ≠ .halted) (ho : ∀ n sh, ((s.frond f).slot k).owner ≠ .run n sh) :
    haltSlot f k code a seq s = markHalted f k code a seq s := by
  unfold haltSlot
  dsimp only
  rw [if_neg h]
  cases hk : ((s.frond f).slot k).owner with
  | run n sh => exact absurd hk (ho n sh)
  | none => rfl
  | load m sh => rfl

/-- A halt of a run's stream with no frame behind it: the run's entry is told (R410). -/
theorem haltSlot_run {n sh : Nat} (h : ((s.frond f).slot k).st ≠ .halted) (ho : ((s.frond f).slot k).owner = .run n sh)
    (hf : s.frameOf f k = none) : haltSlot f k code a seq s = shardHalted n sh code.toNat f (markHalted f k code a seq s) := by
  have hrun (t : State) (ht : t.sched = s.sched) : (t.run n).bind (fun r => r.pipe) = none := by
    rw [State.run_congr _ ht]
    simpa only [State.frameOf, ho] using hf
  unfold haltSlot
  dsimp only
  rw [if_neg h, ho]
  dsimp only
  rw [hrun]
  · rfl
  · rfl

/-- A halt of a stream that no frame is behind goes no further than the slot, its record and the run's own entry. -/
theorem haltSlot_noFrame (h : ((s.frond f).slot k).st ≠ .halted) (hf : s.frameOf f k = none) :
    (haltSlot f k code a seq s).fronds = (markHalted f k code a seq s).fronds ∧
      (haltSlot f k code a seq s).thal = (markHalted f k code a seq s).thal := by
  cases hk : ((s.frond f).slot k).owner with
  | none => rw [haltSlot_unowned h (by simp [hk])]; exact ⟨rfl, rfl⟩
  | load m sh => rw [haltSlot_unowned h (by simp [hk])]; exact ⟨rfl, rfl⟩
  | run n sh => rw [haltSlot_run h hk hf]; exact ⟨rfl, rfl⟩

theorem markHalted_slot : ((markHalted f k code a seq s).frond f).slot k =
    { (s.frond f).slot k with st := .halted, faultCode := code, queue := ((s.frond f).slot k).queue.filter (fun d => d.started) } := by
  rw [markHalted, State.modFrond_frond, FrondRec.fillWait_slot, FrondRec.modSlot_slot, reportFrond_frond]
  rfl

theorem markHalted_record :
    ∃ r : FaultRec, r.code = code ∧ (markHalted f k code a seq s).thal.inFlight = s.thal.inFlight ++ [r] := by
  obtain ⟨r, hcode, hr⟩ := reportFrond_code (s := s) (f := f) (descRecord s f k code a seq)
  exact ⟨r, hcode.trans (descRecord_code _ _ _), hr⟩

/-- A descriptor is ready only on a RUNNING slot (R155). -/
theorem ready_running {op : Nat} {d : QDesc} (h : s.ready f k op = some d) : ((s.frond f).slot k).st = .running := by
  unfold State.ready at h
  dsimp only at h
  split at h
  · exact nomatch h
  · split at h
    · next hc =>
      simp only [FrondRec.mayIssue, Bool.and_eq_true, decide_eq_true_eq] at hc
      tauto
    · exact nomatch h

/-- A fault found in a descriptor that may start halts its slot (R161). -/
theorem runOp_halts {op : Nat} {d : QDesc} (hd : s.ready f k op = some d) (hj : s.judge f k d = .halt code a)
    (act : QDesc → State → State) : runOp op f k act s = haltSlot f k code a d.seq s := by
  simp only [runOp, hd, hj]

end

/-- The engine opcodes whose command is `runOp` of an effect. -/
theorem exec_engine {fp : Frond} {k : Slot} {c : Instr} {op : Nat}
    (h : (c, op) ∈ [(Instr.pool fp k, 5), (.argmax fp k, 6), (.loadm fp k, 7), (.storem fp k, 8), (.move fp k, 9), (.cbload fp k, 0x0A),
      (.signal fp k, 0x0C), (.optstep fp k, 0x0D), (.bankpwr fp k, 0x10)]) :
    ∃ act, ∀ s, exec c s = performFab fp (runOp op fp k act) s := by
  simp only [List.mem_cons, Prod.mk.injEq, List.not_mem_nil, or_false] at h
  rcases h with h | h | h | h | h | h | h | h | h <;>
  · obtain ⟨rfl, rfl⟩ := h
    exact ⟨_, fun _ => rfl⟩

/-- Settles O44: the slot was RUNNING, so the fault halts it, and with no frame behind it nothing else is recorded. -/
theorem descriptorFaultsHalt : Obligations.DescriptorFaultsHalt := by
  unfold Obligations.DescriptorFaultsHalt
  intro s fp k d code a c op hs hf hc hd hj
  obtain ⟨act, hexec⟩ := exec_engine hc
  have hst : ((s.frond fp).slot k).st ≠ .halted := by rw [ready_running hd]; decide
  obtain ⟨hfronds, hthal⟩ := haltSlot_noFrame (code := code) (a := a) (seq := d.seq) hst hf
  obtain ⟨r, hcode, hr⟩ := markHalted_record (s := s) (f := fp) (k := k) (code := code) (a := a) (seq := d.seq)
  refine ⟨_, r, (hexec s).trans (performFab_runs s _ fp hs), hcode, ?_, ?_⟩
  · rw [keepLatch_thal, runOp_halts hd hj, hthal, hr]
  · rw [keepLatch_frond, runOp_halts hd hj, State.frond_congr _ hfronds, markHalted_slot]
    exact ⟨rfl, rfl, rfl⟩

end Sys2Proof.Machine
end

section
/-! PROOFS. What the engine opcodes without memory traffic leave alone (R139, R154, R161). -/

namespace Sys2Proof.Machine

/-! ### The Frond's own part of the state -/

/-- A stream of class 1 to 3 that no run put on its slot. -/
def SlotRec.Alone (x : SlotRec) : Prop := x.cls ≠ 0 ∧ ∀ n sh, x.owner ≠ .run n sh

/-- From s to t nothing has changed but Frond f, records on their way to the collector and the counter of free values; and a stream of
class 1 to 3 that no run put on slot k is such a stream still. -/
structure OwnFrond (f k : Nat) (s t : State) : Prop where
  frame : t = { s with fronds := t.fronds, thal := { s.thal with inFlight := t.thal.inFlight }, freeCtr := t.freeCtr }
  others : ∀ g, g ≠ f → t.frond g = s.frond g
  inFlight : s.thal.inFlight <+: t.thal.inFlight
  alone : ((s.frond f).slot k).Alone → ((t.frond f).slot k).Alone

namespace OwnFrond
variable {f k : Nat} {s t u : State}

theorem refl : OwnFrond f k s s := ⟨rfl, fun _ _ => rfl, List.prefix_rfl, id⟩

theorem trans (h : OwnFrond f k s t) (h' : OwnFrond f k t u) : OwnFrond f k s u where
  frame := h'.frame.trans (by rw [h.frame])
  others g hg := (h'.others g hg).trans (h.others g hg)
  inFlight := h.inFlight.trans h'.inFlight
  alone := h'.alone ∘ h.alone

theorem ite {c : Prop} [Decidable c] (ht : OwnFrond f k s t) (hu : OwnFrond f k s u) : OwnFrond f k s (if c then t else u) := by
  split
  · exact ht
  · exact hu

theorem modFrond {g : FrondRec → FrondRec} (h : ((s.frond f).slot k).Alone → ((g (s.frond f)).slot k).Alone) :
    OwnFrond f k s (State.modFrond f g s) where
  frame := rfl
  others j hj := State.modFrond_frond_ne s f g j hj
  inFlight := List.prefix_rfl
  alone := by rw [State.modFrond_frond]; exact h

/-- An update of the Frond that leaves the slot alone. -/
theorem keepSlot {g : FrondRec → FrondRec} (h : (g (s.frond f)).slot k = (s.frond f).slot k) : OwnFrond f k s (State.modFrond f g s) :=
  modFrond (by rw [h]; exact id)

theorem modSlot {g : SlotRec → SlotRec} (h : ((s.frond f).slot k).Alone → (g ((s.frond f).slot k)).Alone) :
    OwnFrond f k s (State.modSlot f k g s) :=
  modFrond (by rw [FrondRec.modSlot_slot]; exact h)

end OwnFrond

section
variable {f k : Nat} {s t : State}

/-! ### Records, free values and the end of a stream (R156, R161) -/

theorem modDesc_own (seq : Word32) (g : QDesc → QDesc) : OwnFrond f k s (modDesc f k seq g s) := OwnFrond.modSlot id

theorem reportFrond_own (r : FaultRec) : OwnFrond f k s (reportFrond f r s) :=
  OwnFrond.trans (t := report { r with fp := BitVec.ofNat 8 f, fl := (s.fp f).fl } s)
    ⟨rfl, fun _ _ => rfl, List.prefix_append .., id⟩ (OwnFrond.keepSlot rfl)

theorem draw_own (w : Nat) : OwnFrond f k s (draw w s).2 := ⟨rfl, fun _ _ => rfl, List.prefix_rfl, id⟩

theorem idleSlot_own : OwnFrond f k s (idleSlot f k s) :=
  OwnFrond.modFrond fun h => by
    rw [FrondRec.fillWait_slot, FrondRec.emptyBanks_slot, FrondRec.modSlot_slot]
    exact ⟨h.1, nofun⟩

theorem afterComplete_own : OwnFrond f k s (afterComplete f k s) :=
  OwnFrond.ite idleSlot_own (OwnFrond.ite (OwnFrond.modSlot id) OwnFrond.refl)

section
variable (h : ((s.frond f).slot k).Alone)
include h

/-! ### Faults and poison of a stream (R139, R161) -/

theorem haltSlot_own (code : BitVec 16) (a : Nat) (seq : Word32) : OwnFrond f k s (haltSlot f k code a seq s) := by
  by_cases hst : ((s.frond f).slot k).st = .halted
  · rw [haltSlot_again hst]
    exact reportFrond_own _
  · rw [haltSlot_unowned hst h.2]
    exact (reportFrond_own _).trans (OwnFrond.modFrond fun h => by rw [FrondRec.fillWait_slot, FrondRec.modSlot_slot]; exact h)

theorem failDesc_own (code : BitVec 16) (a : Nat) (d : QDesc) : OwnFrond f k s (failDesc f k code a d s) := by
  have hdrop : OwnFrond f k s (State.modSlot f k (fun x => { x with queue := x.queue.filter (fun e => e.seq ≠ d.seq) }) s) :=
    OwnFrond.modSlot id
  exact hdrop.trans (OwnFrond.ite ((reportFrond_own _).trans afterComplete_own) (haltSlot_own (hdrop.alone h) ..))

/-- No class-0 work, so no doubt (R139, R317). -/
theorem streamDoubt_own (vbit : Nat) (code : BitVec 16) : OwnFrond f k s (streamDoubt f k vbit code s) := by
  rw [streamDoubt, if_pos h.1]
  exact OwnFrond.refl

theorem descPoison_own (d : QDesc) (a : Nat) : OwnFrond f k s (descPoison f k d a s) := by
  have hnoted (r : FaultRec) : OwnFrond f k s (reportFrond f r (modDesc f k d.seq (fun e => { e with poisonNoted := true }) s)) :=
    (modDesc_own ..).trans (reportFrond_own r)
  exact OwnFrond.ite OwnFrond.refl ((hnoted _).trans (streamDoubt_own ((hnoted _).alone h) ..))

/-! ### Starting a descriptor of slot 1 (R17, R139, R159) -/

theorem noteReads_own (d : QDesc) : OwnFrond f k s (noteReads f k d s) := by
  have hcount : OwnFrond f k s (State.modFrond f (noteFeet (viewOf s f d).feet) s) := OwnFrond.keepSlot (noteFeet_slot ..)
  unfold noteReads
  dsimp only
  split
  · exact hcount
  · exact hcount.trans (descPoison_own (hcount.alone h) d _)

theorem beginDesc_own (hk : k ≠ 0) (d : QDesc) : OwnFrond f k s (beginDesc f k d s) := by
  unfold beginDesc
  dsimp only
  rw [markUsed, if_pos hk]
  exact (modDesc_own ..).trans (noteReads_own ((modDesc_own ..).alone h) d)

/-- A descriptor's command stays in its Frond where its effect does. -/
theorem runOp_own (hk : k ≠ 0) {act : QDesc → State → State} (hact : ∀ d t, ((t.frond f).slot k).Alone → OwnFrond f k t (act d t))
    (op : Nat) : OwnFrond f k s (runOp op f k act s) := by
  unfold runOp
  split
  · exact OwnFrond.refl
  · next d _ =>
    split
    · exact haltSlot_own h ..
    · exact OwnFrond.keepSlot rfl
    · have hbegin := beginDesc_own h hk d
      exact OwnFrond.ite (hbegin.trans (hact d _ (hbegin.alone h))) hbegin

end

/-- A command of Frond f's own that stays in it: with the latch clear the latch keeps out of it too (R342). -/
theorem performFab_own {g : State → State} (hs : s.island.silent = false) (hg : OwnFrond f k s (g s))
    (h : performFab f g s = .next t) : OwnFrond f k s t := by
  rcases performUnless_next s g _ t h with rfl | rfl
  · exact OwnFrond.refl
  · rwa [keepLatch_off s (g s) hs (by rw [hg.frame]; exact hs)]

end

/-! ### The effects (R124 to R130, R167 to R169, R192 to R196, R267 to R273) -/

section
variable (r : FrondRec) (k : Nat)

theorem moveRow_slot (h code e : Nat) (l : List (Nat × Bool)) : (moveRow h code e l r).slot k = r.slot k := by
  unfold moveRow
  split
  · exact storeWrite_slot ..
  · exact putElems_slot ..

theorem putMoments_slot (h slot sh elemOff scaleOff : Nat) (l : List (F32 × Bool)) :
    (putMoments h slot sh elemOff scaleOff l r).slot k = r.slot k :=
  (putElems_slot ..).trans (putElems_slot ..)

theorem optBlock_slot (x : OptBody) (p : Bool) (old : FrondRec) (row blk : Nat) : (optBlock x p old row blk r).slot k = r.slot k :=
  ((putMoments_slot ..).trans (putMoments_slot ..)).trans (putElems_slot ..)

theorem VecBody.store_slot (x : VecBody) (p : VecPos) (l : List (F32 × Bool)) : (x.store r p l).slot k = r.slot k :=
  putElems_slot ..

end

section
variable (k : Nat) (x : VecBody) (a : VecRun)

/-- An instruction changes the Frond by an ST alone. -/
theorem vecInsn_slot (p : VecPos) (w : Word32) : (vecInsn x p w a).r.slot k = a.r.slot k := by
  unfold vecInsn
  split
  · rfl
  · dsimp only
    split
    case h_2 => split <;> rfl
    case h_3 =>
      split
      · rfl
      · exact VecBody.store_slot ..
    all_goals rfl

theorem vecSection_slot (e : Nat) (p : VecPos) : (vecSection x e p a).r.slot k = a.r.slot k := by
  unfold vecSection
  split
  · rfl
  · split
    · rfl
    · exact foldl_keeps (·.r.slot k) (fun b w => vecInsn x p w b) (fun b w => vecInsn_slot k x b p w) _ a

/-- The chunks of a pass. -/
theorem vecChunks_slot (e n row : Nat) :
    (forUpTo n (fun c b => vecSection x e ⟨row, c, true⟩ b) a).r.slot k = a.r.slot k :=
  foldl_keeps (·.r.slot k) (fun b c => vecSection x e ⟨row, c, true⟩ b) (fun b _ => vecSection_slot k x b _ _) _ a

theorem vecRow_slot (free row : Nat) : (vecRow x free row a).r.slot k = a.r.slot k := by
  unfold vecRow
  dsimp only
  rw [vecSection_slot]
  split
  · rw [vecChunks_slot, vecSection_slot, vecChunks_slot, vecSection_slot]
  · rw [vecChunks_slot, vecSection_slot]

theorem vecRows_slot (free n : Nat) : (forUpTo n (vecRow x free) a).r.slot k = a.r.slot k :=
  foldl_keeps (·.r.slot k) (fun b i => vecRow x free i b) (fun b i => vecRow_slot k x b free i) _ a

end

section
variable {f k : Nat} {s t : State}

theorem actPool_own (d : QDesc) : OwnFrond f k s (actPool f d s) := by
  unfold actPool
  exact OwnFrond.keepSlot (foldl_keeps (fun r : FrondRec => r.slot k) _ (fun _ _ => putElems_slot ..) _ _)

theorem actArgmax_own (d : QDesc) : OwnFrond f k s (actArgmax f d s) := OwnFrond.keepSlot (putElems_slot ..)

theorem actMove_own (d : QDesc) : OwnFrond f k s (actMove f d s) := OwnFrond.keepSlot (forUpTo_slot (fun _ _ => moveRow_slot ..) _ _)

theorem actCbload_own (d : QDesc) : OwnFrond f k s (actCbload f d s) := OwnFrond.keepSlot (FrondRec.modCb_slot ..)

theorem actOptstep_own (d : QDesc) : OwnFrond f k s (actOptstep f d s) :=
  OwnFrond.keepSlot (forUpTo_slot (fun _ t => forUpTo_slot (fun _ _ => optBlock_slot ..) _ t) _ _)

theorem actPload_own (d : QDesc) : OwnFrond f k s (actPload f d s) := OwnFrond.keepSlot rfl

theorem actBankpwr_own (d : QDesc) : OwnFrond f k s (actBankpwr f d s) :=
  OwnFrond.keepSlot (forUpTo_slot (fun _ t => by
    split
    · exact FrondRec.modBank_slot ..
    · rfl) _ _)

theorem actVec_own (h : ((s.frond f).slot k).Alone) (d : QDesc) : OwnFrond f k s (actVec f k d s) := by
  unfold actVec
  dsimp only
  generalize ha : forUpTo _ _ (VecRun.mk ..) = a
  have hslot : a.r.slot k = ((draw 14 s).2.frond f).slot k := by rw [← ha, vecRows_slot]
  have hvec : OwnFrond f k s (State.modFrond f (fun _ => { a.r with vec := a.u }) (draw 14 s).2) :=
    (draw_own 14).trans (OwnFrond.keepSlot hslot)
  exact OwnFrond.ite (hvec.trans (failDesc_own (hvec.alone h) ..)) hvec

theorem runVec_own (h : ((s.frond f).slot k).Alone) (hk : k ≠ 0) {act : QDesc → State → State} (pload : Bool)
    (hact : ∀ d t, ((t.frond f).slot k).Alone → OwnFrond f k t (act d t)) : OwnFrond f k s (runVec pload f k act s) := by
  unfold runVec
  split
  · exact OwnFrond.ite (runOp_own h hk hact 4) OwnFrond.refl
  · exact OwnFrond.refl

/-- The commands of POOL, ARGMAX, MOVE, CBLOAD, OPTSTEP, VEC, its PLOAD and BANKPWR of slot 1. -/
theorem exec_local_own {fp : Frond} {c : Instr} (hs : s.island.silent = false) (ha : ((s.frond fp).slot 1).Alone)
    (hc : c ∈ [Instr.pool fp 1, .argmax fp 1, .move fp 1, .cbload fp 1, .optstep fp 1, .vec fp 1, .vecPload fp 1, .bankpwr fp 1])
    (h : exec c s = .next t) : OwnFrond fp 1 s t := by
  have hop : ∀ {op : Nat} {act : QDesc → State → State}, (∀ d u, ((u.frond fp).slot 1).Alone → OwnFrond fp 1 u (act d u)) →
      performFab fp (runOp op fp 1 act) s = .next t → OwnFrond fp 1 s t :=
    fun hact => performFab_own hs (runOp_own ha one_ne_zero hact _)
  simp only [List.mem_cons, List.not_mem_nil, or_false] at hc
  rcases hc with rfl | rfl | rfl | rfl | rfl | rfl | rfl | rfl
  · exact hop (fun d _ _ => actPool_own d) h
  · exact hop (fun d _ _ => actArgmax_own d) h
  · exact hop (fun d _ _ => actMove_own d) h
  · exact hop (fun d _ _ => actCbload_own d) h
  · exact hop (fun d _ _ => actOptstep_own d) h
  · exact performFab_own hs (runVec_own ha one_ne_zero false fun d _ hd => actVec_own hd d) h
  · exact performFab_own hs (runVec_own ha one_ne_zero true fun d _ _ => actPload_own d) h
  · exact hop (fun d _ _ => actBankpwr_own d) h

end

/-- Settles O46: a start, a fault and an effect of these opcodes each stay in their own Frond. -/
theorem engineTouchesOnlyItsFrond : Obligations.EngineTouchesOnlyItsFrond := by
  unfold Obligations.EngineTouchesOnlyItsFrond
  intro s t fp c hs hcls hc howner h
  have hown := exec_local_own hs ⟨hcls, howner⟩ hc h
  exact ⟨hown.frame, hown.others, hown.inFlight⟩

end Sys2Proof.Machine
end

section
/-! PROOFS. Bank power states and the write-back of corrected words (R138, R139, R149, R150, R152, R169). -/

namespace Sys2Proof.Machine

/-! ### Banks one by one (R135) -/

/-- A loop that updates chosen banks updates each of them once, by its own update. -/
theorem forUpTo_modBank (p : Nat → Bool) (g : BankRec → BankRec) (n : Nat) (r : FrondRec) (b : Nat) :
    (forUpTo n (fun i x => if p i then x.modBank i g else x) r).bank b = if b < n ∧ p b = true then g (r.bank b) else r.bank b := by
  induction n with
  | zero => rfl
  | succ n ih =>
    have hlast : forUpTo (n + 1) (fun i x => if p i then x.modBank i g else x) r =
        if p n then (forUpTo n (fun i x => if p i then x.modBank i g else x) r).modBank n g
        else forUpTo n (fun i x => if p i then x.modBank i g else x) r := by simp [forUpTo, List.range_succ]
    rw [hlast, apply_ite (fun x : FrondRec => x.bank b)]
    by_cases hb : b = n
    · subst hb
      rw [FrondRec.modBank_bank, ih]
      simp
    · rw [FrondRec.modBank_bank_ne _ n g b hb, ite_self, ih]
      simp only [Nat.lt_succ_iff_lt_or_eq, hb, or_false]

/-- An update of a bank matters only at what the bank holds. -/
theorem FrondRec.modBank_congr {r : FrondRec} {b : Nat} {g h : BankRec → BankRec} (e : g (r.bank b) = h (r.bank b)) :
    r.modBank b g = r.modBank b h := by
  rw [FrondRec.modBank, FrondRec.modBank, e]

/-- An update of a Frond matters only at what the Frond holds. -/
theorem State.modFrond_congr {s : State} {f : Nat} {g h : FrondRec → FrondRec} (e : g (s.frond f) = h (s.frond f)) :
    State.modFrond f g s = State.modFrond f h s := by
  rw [State.modFrond, State.modFrond, e]

/-! ### BANKPWR (R149, R150, R169) -/

section
variable {b : BankRec} (h : b.settled = true) (now : Word64)
include h

theorem bankTo_on_down {t : BankState} (hon : b.st = .on) (ht : t ≠ .on) :
    bankTo t now b = { b with st := .fencing, target := t, since := now, abandoned := false } := by
  unfold bankTo
  rw [if_neg (by simp [hon, h, ht.symm]), if_pos hon]

theorem bankTo_up (hdown : b.st = .off ∨ b.st = .ret) : bankTo .on now b = { b with target := .on, powering := true } := by
  unfold bankTo
  rw [if_neg (by rcases hdown with hb | hb <;> simp [hb, h]), if_neg (by rcases hdown with hb | hb <;> simp [hb]), if_pos rfl]

end

theorem bankTo_same {t : BankState} {now : Word64} {b : BankRec} (h : b.st = t) : bankTo t now b = b := if_pos (by simp [h])

/-- The state BANKPWR's field names (R169). -/
def bankTarget : Nat → BankState
  | 0 => .on
  | 1 => .off
  | _ => .ret

theorem actBankpwr_bank {f : Nat} {d : QDesc} {s : State} {b : Bank} (hb : bit (d.fld 8 4) b = true) :
    ((actBankpwr f d s).frond f).bank b = bankTo (bankTarget (d.fld 0xC 1)) s.gctl.time ((s.frond f).bank b) := by
  have hbank := forUpTo_modBank (bit (d.fld 8 4)) (bankTo (bankTarget (d.fld 0xC 1)) s.gctl.time) 32 (s.frond f) b
  rw [if_pos ⟨b.isLt, hb⟩] at hbank
  rw [← hbank]
  exact congrArg (FrondRec.bank · b) (State.modFrond_frond s f _)

/-! ### Fences and transitions (R150, R152) -/

theorem fenceResolve_free {b : BankRec} (h : b.st = .fencing) (hc : b.claims = 0) (hi : b.inbound = 0) :
    fenceResolve b = { b with st := b.target, moving := true } := if_pos (by simp [h, BankRec.free, hc, hi])

theorem opFenceAbandon_due {f b : Nat} {s : State} (h : ((s.frond f).bank b).st = .fencing)
    (hopen : ((s.frond f).bank b).claims ≠ 0 ∨ ((s.frond f).bank b).inbound ≠ 0)
    (hdue : ((s.frond f).bank b).since.toNat + 100000 ≤ s.gctl.time.toNat) :
    opFenceAbandon f b s = reportFrond f { code := 0x0130 }
      (State.modFrond f (fun r => r.modBank b (fun x => { x with st := .on, target := .on, abandoned := true })) s) := by
  have hfree : ((s.frond f).bank b).free = false := by
    rw [BankRec.free, Bool.and_eq_false_iff, decide_eq_false_iff_not, decide_eq_false_iff_not]
    exact hopen
  exact if_pos (by simp [h, hfree, hdue])

section
variable {b : Nat} {r : FrondRec}

theorem transitionDone_off (hp : (r.bank b).powering = true) (h : (r.bank b).st = .off) :
    transitionDone b r = (zeroBank b r).modBank b (fun x => { x with st := .on, powering := false }) := by
  rw [transitionDone, if_pos hp, if_pos h]

theorem transitionDone_ret (hp : (r.bank b).powering = true) (h : (r.bank b).st = .ret) :
    transitionDone b r = r.modBank b (fun x => { x with st := .on, powering := false }) := by
  rw [transitionDone, if_pos hp, if_neg (by simp [h])]

theorem transitionDone_down (hp : (r.bank b).powering = false) :
    transitionDone b r = r.modBank b (fun x => { x with moving := false }) := by
  rw [transitionDone, if_neg (by simp [hp])]

end

/-! ### The write-back of corrected words (R138, R139) -/

section
variable (r : FrondRec) (w : Nat)

@[simp] theorem rawWord_length : (r.rawWord w).length = 35 := by
  rw [FrondRec.rawWord, applyErrs_length, rsEncode_length, treadN_length]

@[simp] theorem wordData_length : (r.wordData w).length = 32 := by
  unfold FrondRec.wordData
  split
  · exact treadN_length ..
  · rw [List.length_take, rsCorrected_length, rawWord_length, Nat.min_eq_left (by decide)]

variable (d : List Byte) (p : Bool)

/-- A word just written has no symbol in error, so it reads as written. -/
theorem setWord_errs : tget [] (setWord w d p r).errs w = [] := tget_tset_self [] r.errs w []

theorem setWord_outcome : (setWord w d p r).wordOutcome w = .good := if_pos (setWord_errs r w d p)

theorem setWord_data (hd : d.length = 32) : (setWord w d p r).wordData w = d := by
  have hread := treadN_twriteN 0 d r.store (w * 32)
  rw [hd] at hread
  rw [FrondRec.wordData, if_pos (setWord_errs r w d p)]
  exact hread

theorem setWord_pendingCorr : w ∉ (setWord w d p r).pendingCorr := fun h => by simp [setWord] at h

end

theorem writeBack_none {r : FrondRec} (h : r.pendingCorr = []) : writeBack r = r := by
  rw [writeBack, h]

theorem writeBack_some {r : FrondRec} {w : Nat} {rest : List Nat} (h : r.pendingCorr = w :: rest) :
    writeBack r = setWord w (r.wordData w) (tget false r.poison w) r := by
  rw [writeBack, h]

/-! ### The obligation -/

theorem bankpwr_clauses {s : State} {fp : Frond} {k : Slot} {d : QDesc} (hs : RunsFab s fp) (hd : Starts s fp k 0x10 d)
    (hon : (((beginDesc fp k d s).frond fp).slot k).executing = true) : let u := beginDesc fp k d s
    ∃ t, exec (.bankpwr fp k) s = .next t ∧ ∀ b : Bank, bit (d.fld 8 4) b = true →
      (((u.frond fp).bank b).st = .on → ((u.frond fp).bank b).settled = true →
        (d.fld 0xC 1 = 1 → ((t.frond fp).bank b).st = .fencing ∧ ((t.frond fp).bank b).target = .off) ∧
        (d.fld 0xC 1 = 2 → ((t.frond fp).bank b).st = .fencing ∧ ((t.frond fp).bank b).target = .ret) ∧
        (d.fld 0xC 1 = 0 → ((t.frond fp).bank b).st = .on)) ∧
      ((((u.frond fp).bank b).st = .off ∨ ((u.frond fp).bank b).st = .ret) → ((u.frond fp).bank b).settled = true →
        d.fld 0xC 1 = 0 → ((t.frond fp).bank b).powering = true) := by
  refine ⟨_, performFab_runOp hd hon hs _, fun b hb => ?_⟩
  rw [keepLatch_frond, actBankpwr_bank hb]
  refine ⟨fun hst hset => ⟨fun h => ?_, fun h => ?_, fun h => ?_⟩, fun hst hset h => ?_⟩
  · rw [h, show bankTarget 1 = .off from rfl, bankTo_on_down hset _ hst (by decide)]
    exact ⟨rfl, rfl⟩
  · rw [h, show bankTarget 2 = .ret from rfl, bankTo_on_down hset _ hst (by decide)]
    exact ⟨rfl, rfl⟩
  · rw [h, show bankTarget 0 = .on from rfl, bankTo_same hst]
    exact hst
  · rw [h, show bankTarget 0 = .on from rfl, bankTo_up hset _ hst]

/-- Settles O48: what BANKPWR makes of each bank of its mask, the four ends of a transition, and a word written back. -/
theorem banksAndCorrection : Obligations.BanksAndCorrection := by
  unfold Obligations.BanksAndCorrection
  refine ⟨fun s fp hs => ?_, fun s fp hs => ?_⟩
  · have hexec : ∀ {c : Instr} {g h : FrondRec → FrondRec}, (exec c s = performFab fp (State.modFrond fp g) s) →
        g (s.frond fp) = h (s.frond fp) → Completes c s (State.modFrond fp h s) := fun hc he =>
      hc.trans ((performFab_runs s _ fp hs).trans (by rw [State.modFrond_congr he]))
    exact ⟨fun k d hd hon => bankpwr_clauses hs hd hon,
      fun b hst hc hi => hexec rfl (FrondRec.modBank_congr (fenceResolve_free hst hc hi)),
      fun b hst hopen hdue => (performFab_runs s _ fp hs).trans (by rw [opFenceAbandon_due hst hopen hdue]),
      fun b hp hst => hexec rfl (transitionDone_off hp hst), fun b hp hst => hexec rfl (transitionDone_ret hp hst),
      fun b hp => hexec rfl (transitionDone_down hp)⟩
  · have hexec := performFab_runs s (State.modFrond fp writeBack) fp hs
    refine ⟨fun h => hexec.trans (by rw [State.modFrond_congr (h := fun r => r) (writeBack_none h)]),
      fun w rest h => ⟨_, hexec, ?_⟩⟩
    rw [keepLatch_frond, State.modFrond_frond, writeBack_some h]
    exact ⟨setWord_outcome .., setWord_errs .., setWord_pendingCorr _ _ _ _, setWord_data _ _ _ _ (wordData_length ..)⟩

end Sys2Proof.Machine
end

section
/-! PROOFS. Fetching and completing descriptors (R154, R155, R156, R158, R166). -/

namespace Sys2Proof.Machine

section
variable {s : State} {f k : Nat}

/-! ### Fetching (R154, R155, R158) -/

/-- A slot fetches: RUNNING, with no ABORT, END not reached, and fewer than 64 descriptors ahead (R158). -/
structure Fetches (x : SlotRec) : Prop where
  running : x.st = .running
  aborting : x.aborting = false
  endFetched : x.endFetched = false
  room : x.queue.length < 64

theorem fetchBlock_halted (h : ((s.frond f).slot k).st = .halted) (n : Nat) : fetchBlock f k n s = s := by
  cases n with
  | zero => rfl
  | succ n => exact if_pos (by simp [h])

theorem fetchBlock_ended (h : ((s.frond f).slot k).endFetched = true) (n : Nat) : fetchBlock f k n s = s := by
  cases n with
  | zero => rfl
  | succ n => exact if_pos (by simp [h])

/-- A slot that fetches takes one descriptor, and more unless it stands at the end of its block. -/
theorem fetchBlock_fetches (h : Fetches ((s.frond f).slot k)) (n : Nat) : fetchBlock f k (n + 1) s =
    if (((fetchOne f k s).frond f).slot k).fetchAddr % 4096 = 0 then fetchOne f k s else fetchBlock f k n (fetchOne f k s) :=
  if_neg (by simp [h.running, h.aborting, h.endFetched, h.room])

/-- Descriptor d, read at a, put at the end of the queue (R158). -/
def takeDesc (a : Nat) (d : QDesc) (y : SlotRec) : SlotRec :=
  { y with fetchAddr := a + 64, nextSeq := y.nextSeq + 1, queue := y.queue ++ [d], endFetched := d.last,
           cls := if y.owner = .none then BitVec.ofNat 2 d.cls else y.cls }

/-- A descriptor that reads well, is the next one, and whose opcode and class fit is taken. -/
theorem fetchOne_takes {b : List PByte} {t : State} {d : QDesc}
    (hread : readAll f (((s.frond f).slot k).busClass k) ((s.frond f).slot k).fetchAddr 64 s = (some b, t)) (hp : poisoned b = false)
    (hd : d = { seq := BitVec.ofNat 32 (field (plain b) 4 4), body := plain b }) (hseq : d.seq = ((s.frond f).slot k).nextSeq)
    (hu : unitOf d.op ≠ none) (hc : classFits k d = true) :
    fetchOne f k s = State.modSlot f k (takeDesc ((s.frond f).slot k).fetchAddr d) t := by
  have hnext : BitVec.ofNat 32 (field (plain b) 4 4) = ((s.frond f).slot k).nextSeq := by rw [← hseq, hd]
  rw [hnext] at hd
  unfold fetchOne
  simp only [hread, hp, hnext, ← hd, hu, hc, ne_eq, not_true_eq_false, if_false]
  rfl

/-- A read that gets an error response halts the slot (R158, R161). -/
theorem fetchOne_error {t : State}
    (hread : readAll f (((s.frond f).slot k).busClass k) ((s.frond f).slot k).fetchAddr 64 s = (none, t)) :
    fetchOne f k s = haltSlot f k 0x0115 ((s.frond f).slot k).fetchAddr ((s.frond f).slot k).nextSeq t := by
  unfold fetchOne
  simp only [hread]

theorem fetchBlock_takes (h : Fetches ((s.frond f).slot k)) {t : State} {d : QDesc}
    (hone : fetchOne f k s = State.modSlot f k (takeDesc ((s.frond f).slot k).fetchAddr d) t)
    (hend : d.last = true ∨ (((s.frond f).slot k).fetchAddr + 64) % 4096 = 0) (n : Nat) :
    fetchBlock f k (n + 1) s = State.modSlot f k (takeDesc ((s.frond f).slot k).fetchAddr d) t := by
  have hslot : (((fetchOne f k s).frond f).slot k) = takeDesc ((s.frond f).slot k).fetchAddr d ((t.frond f).slot k) := by
    rw [hone, State.modSlot, State.modFrond_frond, FrondRec.modSlot_slot]
  rw [fetchBlock_fetches h, ← hone]
  split
  · rfl
  · next hblock =>
    rw [hslot] at hblock
    exact fetchBlock_ended (by rw [hslot]; exact hend.resolve_right hblock) n

theorem fetchBlock_error (h : Fetches ((s.frond f).slot k)) {t : State}
    (hread : readAll f (((s.frond f).slot k).busClass k) ((s.frond f).slot k).fetchAddr 64 s = (none, t))
    (hst : ((t.frond f).slot k).st = .running) (ho : ((t.frond f).slot k).owner = .none) (n : Nat) :
    fetchBlock f k (n + 1) s = markHalted f k 0x0115 ((s.frond f).slot k).fetchAddr ((s.frond f).slot k).nextSeq t := by
  have hone := (fetchOne_error hread).trans (haltSlot_unowned (by rw [hst]; decide) (by rw [ho]; exact fun _ _ => nofun))
  rw [fetchBlock_fetches h, hone, fetchBlock_halted (by rw [markHalted_slot]), ite_self]

/-! ### Completing (R156, R166) -/

/-- DONE takes a descriptor's number and the descriptor leaves the queue. -/
def dropDesc (seq : Word32) (x : SlotRec) : SlotRec := { x with doneSeq := seq, queue := x.queue.filter (fun e => e.seq ≠ seq) }

variable {seq : Word32} {d : QDesc}

/-- A descriptor that is not the last and raises no fill mark completes by leaving the queue. -/
theorem opDescComplete_inner (hfind : ((s.frond f).slot k).queue.find? (fun e => e.seq = seq) = some d)
    (hcomp : (s.frond f).completable d = true) (hlast : d.last = false) (hop : d.op ≠ 7) :
    opDescComplete f k seq s = afterComplete f k (State.modSlot f k (dropDesc seq) s) := by
  unfold opDescComplete
  simp only [hfind, hcomp, hlast, hop]
  rfl

/-- The last descriptor, at the head of the queue, ends the stream. -/
theorem opDescComplete_last {rest : List QDesc} (hq : ((s.frond f).slot k).queue = d :: rest) (hseq : d.seq = seq)
    (hcomp : (s.frond f).completable d = true) (hlast : d.last = true) (hop : d.op ≠ 7) (hst : ((s.frond f).slot k).st = .running)
    (hab : ((s.frond f).slot k).aborting = false) :
    opDescComplete f k seq s = streamEnded f k (State.modSlot f k (dropDesc seq) s) := by
  have hfind : ((s.frond f).slot k).queue.find? (fun e => e.seq = seq) = some d := by simp [hq, hseq]
  have hhead : (((s.frond f).slot k).queue.takeWhile (fun e => e.seq ≠ seq)).isEmpty = true := by simp [hq, hseq]
  unfold opDescComplete
  simp only [hfind, hcomp, hlast, hop, hhead, hst, hab]
  rfl

/-- While another descriptor of the slot executes there is no drain boundary (R104). -/
theorem afterComplete_executing (h : ((s.frond f).slot k).executing = true) : afterComplete f k s = s := by
  simp [afterComplete, FrondRec.spanOpen, h]

/-- The end of a stream that nothing owns leaves the slot IDLE and both banks empty. -/
theorem streamEnded_unowned (ho : ((s.frond f).slot k).owner = .none) :
    ((streamEnded f k s).frond f).slot k = ((s.frond f).slot k).toIdle ∧
    ((streamEnded f k s).frond f).acc0 = {} ∧ ((streamEnded f k s).frond f).acc1 = {} := by
  have hend : (streamEnded f k s).frond f = { ((s.frond f).modSlot k (fun y =>
      let z := y.toIdle
      { z with owner := match y.owner with | .load m sh => .load m sh | _ => .none })).emptyBanks with fillWait := false } := by
    unfold streamEnded
    simp only [ho]
    exact State.modFrond_frond ..
  rw [hend]
  refine ⟨(FrondRec.modSlot_slot _ k _).trans ?_, rfl, rfl⟩
  simp only [ho, SlotRec.toIdle]

end

/-- Settles O42: one descriptor is taken, or the slot halts; a completed one leaves the queue, and the last one ends the stream. -/
theorem descriptorFetchAndComplete : Obligations.DescriptorFetchAndComplete := by
  unfold Obligations.DescriptorFetchAndComplete
  intro s fp k hs x
  have hfetch := performFab_runs s (fetchBlock fp k 64) fp hs
  have hcomplete := fun seq => performFab_runs s (opDescComplete fp k seq) fp hs
  have hdrop (seq : Word32) : ((State.modSlot fp k (dropDesc seq) s).frond fp).slot k = dropDesc seq x := by
    rw [State.modSlot, State.modFrond_frond, FrondRec.modSlot_slot]
  refine ⟨fun b t d hst hab hend hroom hread hp hd hseq hu hc hlast => ?_, fun t hst hab hend hroom hread ho hrun => ?_,
    fun seq d hfind hcomp hlast hop hab hother => ?_, fun seq d rest hq hseq hcomp hlast hop hst hab ho => ?_⟩
  · exact hfetch.trans (by rw [fetchBlock_takes ⟨hst, hab, hend, hroom⟩ (fetchOne_takes hread hp hd hseq hu hc) hlast]; rfl)
  · refine ⟨_, hfetch, ?_⟩
    rw [keepLatch_frond, fetchBlock_error ⟨hst, hab, hend, hroom⟩ hread hrun ho, markHalted_slot]
    exact ⟨rfl, rfl⟩
  · have hexec : ((State.modSlot fp k (dropDesc seq) s).frond fp |>.slot k).executing = true := by
      rw [hdrop, SlotRec.executing, dropDesc, List.any_filter]
      exact hother
    exact (hcomplete seq).trans (by rw [opDescComplete_inner hfind hcomp hlast hop, afterComplete_executing hexec]; rfl)
  · obtain ⟨hslot, h0, h1⟩ := streamEnded_unowned (s := State.modSlot fp k (dropDesc seq) s) (f := fp) (k := k)
      (by rw [hdrop]; exact ho)
    refine ⟨_, hcomplete seq, ?_⟩
    rw [keepLatch_frond, opDescComplete_last hq hseq hcomp hlast hop hst hab, hslot, hdrop]
    exact ⟨rfl, rfl, h0, h1⟩

end Sys2Proof.Machine
end

section
/-! PROOFS. WAIT and SIGNAL (R162, R163). -/

namespace Sys2Proof.Machine

section
variable {s : State} {f k : Nat} {d : QDesc}

/-! ### SIGNAL (R163) -/

/-- What SIGNAL makes of a counter: ADD modulo 2^32, or SET. -/
def signalNext (x : SyncBody) (v : Word32) : Word32 := if x.op = 0 then v + x.value else x.value

theorem signalNext_add {x : SyncBody} (h : x.op = 0) (v : Word32) : signalNext x v = v + x.value := if_pos h

theorem signalNext_set {x : SyncBody} (h : x.op = 1) (v : Word32) : signalNext x v = x.value := if_neg (by rw [h]; decide)

theorem actSignal_global (h : (syncBody d).glob = true) :
    actSignal f d s = State.setGsync (syncBody d).ctr (signalNext (syncBody d) (s.gsync (syncBody d).ctr)) s := if_pos h

theorem actSignal_local (h : (syncBody d).glob = false) :
    actSignal f d s = State.modFrond (if (syncBody d).dest = 0xFF then f else (syncBody d).dest) (fun r =>
      { r with sync := tset 0 r.sync (syncBody d).ctr (signalNext (syncBody d) (tget 0 r.sync (syncBody d).ctr)) }) s :=
  if_neg (by rw [h]; decide)

/-! ### WAIT (R162, R227) -/

theorem blockRun_none (h : s.runBehind f k = none) : blockRun f k s = s := by rw [blockRun, h]

theorem unblockRun_none (h : s.runBehind f k = none) : unblockRun f k s = s := by rw [unblockRun, h]

/-- A WAIT whose counter has reached its value starts like any descriptor, and no run behind the slot has contexts to resume. -/
theorem opWait_met (hd : Starts s f k 0x0B d) (hmet : s.waitMet f (syncBody d) = true) (hrun : (beginDesc f k d s).runBehind f k = none) :
    opWait f k s = beginDesc f k d s := by
  obtain ⟨hready, hjudge⟩ := hd
  simp only [opWait, runOp, hready, hjudge, hmet, unblockRun_none hrun, ite_self]
  exact if_neg (by simp)

theorem opWait_unmet (hready : s.ready f k 0x0B = some d) (hfields : (viewWait d).fields = true)
    (hmet : s.waitMet f (syncBody d) = false) : opWait f k s = blockRun f k s := by
  simp only [opWait, hready, hfields, hmet]
  rfl

end

/-- Settles O45: SIGNAL's counter and its next value by the body's fields; WAIT starts or leaves the state as it is. -/
theorem syncCounters : Obligations.SyncCounters := by
  unfold Obligations.SyncCounters
  intro s fp k d hs
  refine ⟨fun hd hon => ?_, fun hd _ hmet hrun => ?_, fun hready hfields hrun hmet => ?_⟩
  · have hexec : Completes (.signal fp k) s (actSignal fp d (beginDesc fp k d s)) := performFab_runOp hd hon hs (actSignal fp)
    refine ⟨fun hg hop => ?_, fun hg hop => ?_, fun hg hop => ?_, fun hg hop => ?_⟩
    · rwa [actSignal_global hg, signalNext_add hop] at hexec
    · rwa [actSignal_global hg, signalNext_set hop] at hexec
    · simpa only [actSignal_local hg, signalNext_add hop] using hexec
    · simpa only [actSignal_local hg, signalNext_set hop] using hexec
  · exact (performFab_runs s (opWait fp k) fp hs).trans (by rw [opWait_met hd (decide_eq_true hmet) hrun])
  · exact (performFab_runs s (opWait fp k) fp hs).trans (by rw [opWait_unmet hready hfields (decide_eq_false hmet), blockRun_none hrun])

end Sys2Proof.Machine
end

section
/-! PROOFS. Handle entries, fill marks and epochs (R141, R142, R143, R147, R171, R173, R181, R288, R289). -/

namespace Sys2Proof.Machine

/-! ### Registers of an entry (R142, R181) -/

/-- An entry committed, said of what R142 refuses. -/
theorem HandleRec.commit_eq (x : HandleRec) (w0 w1 : Word64) : x.commit w0 w1 = { x with
    w0 := (if (decodeHandle w0.toNat w1.toNat).bad then setValid w0 false else w0) &&& ~~~0x8000000000000#64, w1 := w1 } := by
  unfold HandleRec.commit
  cases (decodeHandle w0.toNat w1.toNat).bad <;> rfl

section
variable (v : Word32) (x : HandleRec)

theorem HandleRec.write_high0 : HandleRec.write 1 v x =
    let w := BitVec.ofNat 64 (x.lo0.toNat + place v.toNat 32)
    { x with w0 := (if (decodeHandle w.toNat x.w1.toNat).bad then setValid w false else w) &&& ~~~0x8000000000000#64 } :=
  HandleRec.commit_eq ..

theorem HandleRec.write_high1 : HandleRec.write 3 v x =
    let w := BitVec.ofNat 64 (x.lo1.toNat + place v.toNat 32)
    { x with w1 := w, w0 := (if (decodeHandle x.w0.toNat w.toNat).bad then setValid x.w0 false else x.w0) &&& ~~~0x8000000000000#64 } :=
  HandleRec.commit_eq ..

end

/-! ### Epochs (R143, R171, R289) -/

section
variable {s : State} {f : Nat} {e : BitVec 12}

theorem writeEpoch_same (h : (s.frond f).epoch = e) : writeEpoch f e s = s := if_pos h

theorem writeEpoch_change (h : (s.frond f).epoch ≠ e) : writeEpoch f e s = shardsLost (s.fp f).res
    (State.modFp f (fun x => { x with res := [] }) (State.modFrond f (fun r => { r with epoch := e, epochBusy := true }) s)) := if_neg h

/-- An entry whose VALID is cleared decodes as not valid (R141). -/
theorem decodeHandle_cleared (w0 : Word64) (w1 : Nat) : (decodeHandle (setValid w0 false).toNat w1).valid = false := by
  have hbit : (setValid w0 false).getLsbD 50 = false := by simp [setValid]
  rwa [BitVec.getLsbD, Nat.testBit_eq_decide_div_mod_eq] at hbit

/-- An entry that is valid is of epoch e. -/
def HandleRec.OfEpoch (e : BitVec 12) (x : HandleRec) : Prop :=
  (decodeHandle x.w0.toNat x.w1.toNat).valid = true → (decodeHandle x.w0.toNat x.w1.toNat).epoch = e.toNat

/-- When invalidation ends, an entry that is valid is of the Frond's epoch. -/
theorem epochDone_ofEpoch {r : FrondRec} (hbusy : r.epochBusy = true) (h : Nat) : ((epochDone r).handle h).OfEpoch r.epoch := by
  have hdone : (epochDone r).handles = (r.handles.map (fun e => (e.1, if bits e.2.w0.toNat 63 52 = r.epoch.toNat then e.2
      else { e.2 with w0 := setValid e.2.w0 false }))).filter (fun e => decide (e.2 ≠ {})) := by
    rw [epochDone, if_neg (by simp [hbusy])]
  rw [FrondRec.handle, hdone]
  refine tget_of_forall {} (HandleRec.OfEpoch r.epoch) (fun hv => absurd hv (by decide)) _ h fun y hy => ?_
  obtain ⟨x, -, rfl⟩ := List.mem_map.mp (List.mem_filter.mp hy).1
  dsimp only
  split
  · next hx => exact fun _ => hx
  · exact fun hv => absurd hv (by rw [decodeHandle_cleared]; decide)

end

/-- Settles O49: what each write of an entry's register commits, the two fill updates, and the start and the end of an invalidation. -/
theorem handlesAndEpochs : Obligations.HandlesAndEpochs := by
  unfold Obligations.HandlesAndEpochs
  intro s fp hs up
  have hentry (hup : up) (h : HandleNo) (word : Fin 4) (v : Word32) {g : HandleRec → HandleRec} (hg : HandleRec.write word.val v = g) :
      CompletesReg (.handleEntryWrite fp h word v) s (State.modFrond fp (fun r => r.modHandle h g) s) := hg ▸ performBlk_runs s _ hs hup
  refine ⟨fun hup h v => ⟨hentry hup h 0 v rfl, hentry hup h 2 v rfl, hentry hup h 1 v (funext (HandleRec.write_high0 v)),
      hentry hup h 3 v (funext (HandleRec.write_high1 v))⟩,
    fun hup v => performBlk_runs s (opFrndFill fp v.toNat) hs hup,
    fun hfab h v => performFab_runs s (fillUpdate fp h false v.toNat) fp hfab,
    fun hup e he => (performBlk_runs s (writeEpoch fp e) hs hup).trans (by rw [writeEpoch_same he]),
    fun hup e he => (performBlk_runs s (writeEpoch fp e) hs hup).trans (by rw [writeEpoch_change he]), fun hfab hbusy => ?_⟩
  refine ⟨_, performFab_runs s (State.modFrond fp epochDone) fp hfab, ?_⟩
  rw [keepLatch_frond, State.modFrond_frond]
  refine ⟨?_, ?_, epochDone_ofEpoch hbusy⟩ <;> rw [epochDone, if_neg (by simp [hbusy])]

end Sys2Proof.Machine
end

section
/-! PROOFS. KVAPPEND, SORUS and the page engine (R149, R239, R240, R241, R245, R246, R248, R252). -/

namespace Sys2Proof.Machine

/-! ### The page engine's accesses leave the slots alone (R28, R138, R139, R231) -/

/-- Every slot of every Frond is in t as it is in s. -/
structure SameSlots (s t : State) : Prop where
  slot : ∀ f k, (t.frond f).slot k = (s.frond f).slot k

namespace SameSlots
variable {s t u : State}

theorem refl : SameSlots s s := ⟨fun _ _ => rfl⟩

theorem trans (h : SameSlots s t) (h' : SameSlots t u) : SameSlots s u := ⟨fun f k => (h'.slot f k).trans (h.slot f k)⟩

theorem ite {c : Prop} [Decidable c] (ht : SameSlots s t) (hu : SameSlots s u) : SameSlots s (if c then t else u) := by
  split
  · exact ht
  · exact hu

/-- A change outside the Fronds. -/
theorem of_fronds (h : t.fronds = s.fronds) : SameSlots s t := ⟨fun f k => by rw [State.frond_congr s h f]⟩

theorem modPool {p : Nat} {g : PoolRec → PoolRec} (h : SameSlots s t) : SameSlots s (State.modPool p g t) := h.trans (of_fronds rfl)

theorem modFrond {f : Nat} {g : FrondRec → FrondRec} (h : ∀ k, (g (s.frond f)).slot k = (s.frond f).slot k) :
    SameSlots s (State.modFrond f g s) := by
  refine ⟨fun j k => ?_⟩
  by_cases hj : j = f
  · rw [hj, State.modFrond_frond, h]
  · rw [State.modFrond_frond_ne s f g j hj]

theorem reportFrond (f : Nat) (r : FaultRec) : SameSlots s (reportFrond f r s) :=
  trans (t := report { r with fp := BitVec.ofNat 8 f, fl := (s.fp f).fl } s) (of_fronds rfl) (modFrond fun _ => rfl)

end SameSlots

section
variable {s : State} (cls a n : Nat) (d : List PByte)

theorem transferOk_fronds (a : Nat) : (transferOk a s).fronds = s.fronds := by rw [transferOk_frame]

theorem useTokens_fronds (init : Nat) : (useTokens init cls a n s).fronds = s.fronds := by rw [useTokens_frame]

/-- A write on the bus reaches a Frond's store at most. -/
theorem busWrite_sameSlots (init : Nat) : SameSlots s (busWrite init cls a d s).2 := by
  unfold busWrite
  split
  · exact SameSlots.refl
  split
  · exact SameSlots.of_fronds rfl
  · split
    · exact SameSlots.of_fronds rfl
    · split
      · exact SameSlots.refl
      · exact SameSlots.of_fronds (by rw [memWrite_frame, useTokens_fronds])
  · split
    · exact SameSlots.of_fronds rfl
    · unfold frondInWrite
      split
      · exact SameSlots.modFrond fun k => storeWrite_slot _ k _ _
      · exact SameSlots.reportFrond ..
  · split
    · exact SameSlots.of_fronds rfl
    · unfold outboundWrite
      split
      · exact SameSlots.of_fronds rfl
      · split <;> exact SameSlots.of_fronds rfl
  · split
    · exact SameSlots.of_fronds rfl
    · split <;> exact SameSlots.of_fronds rfl

theorem writeAll_sameSlots (init : Nat) : SameSlots s (writeAll init cls a d s).2 := by
  unfold writeAll
  generalize d.length / 64 + 2 = fuel
  induction fuel generalizing a d s with
  | zero => exact SameSlots.refl
  | succ fuel ih =>
    unfold writeBlocks
    split
    · exact SameSlots.refl
    · exact (busWrite_sameSlots ..).trans (ih ..)

theorem outboundRead_fronds (init w : Nat) : (outboundRead init w a n s).2.fronds = s.fronds := by
  unfold outboundRead
  split
  · rfl
  · split
    · rfl
    · unfold hostAnswer
      dsimp only
      split <;> rfl

section
variable {init cls : Nat} (h0 : class0Read init cls = false)
include h0

theorem memTxRead_fronds : (memTxRead init cls a n s).2.fronds = s.fronds := by
  unfold memTxRead
  dsimp only
  rw [if_neg (by simp [h0])]
  exact (foldl_keeps State.fronds (fun t i => transferOk (i * 64) t) (fun t i => transferOk_fronds _) _ _).trans (useTokens_fronds ..)

theorem frondTxRead_sameSlots (f off : Nat) : SameSlots s (frondTxRead init cls f off a n s).2 := by
  unfold frondTxRead
  dsimp only
  split
  · exact SameSlots.reportFrond ..
  · have hnote : SameSlots s (State.modFrond f (noteWords off n) s) := SameSlots.modFrond fun k => noteWords_slot _ k _ _
    split
    · rw [if_neg (by simp [h0])]
      exact hnote.trans (SameSlots.reportFrond ..)
    · exact hnote

theorem busRead_sameSlots : SameSlots s (busRead init cls a n s).2 := by
  unfold busRead
  split
  · exact SameSlots.refl
  split
  · exact SameSlots.of_fronds rfl
  · split
    · exact SameSlots.of_fronds rfl
    · split
      · exact SameSlots.refl
      · exact SameSlots.of_fronds (memTxRead_fronds _ _ h0)
  · split
    · exact SameSlots.of_fronds rfl
    · exact frondTxRead_sameSlots _ _ h0 _ _
  · split
    · exact SameSlots.of_fronds rfl
    · exact SameSlots.of_fronds (outboundRead_fronds ..)
  · split
    · exact SameSlots.of_fronds rfl
    · split <;> exact SameSlots.refl

theorem readAll_sameSlots : SameSlots s (readAll init cls a n s).2 := by
  have hblocks : ∀ (fuel a n : Nat) (s : State), SameSlots s (readBlocks init cls fuel a n s).2 := by
    intro fuel
    induction fuel with
    | zero => exact fun _ _ _ => SameSlots.refl
    | succ fuel ih =>
      intro a n s
      unfold readBlocks
      split
      · exact SameSlots.refl
      · exact (busRead_sameSlots _ _ h0).trans (ih ..)
  unfold readAll
  dsimp only
  split <;> exact hblocks ..

end
end

/-- The state an engine operation leaves, done or ended by a fault. -/
def engState {α : Type} : Eng (α × State) → State
  | .ok x => x.2
  | .error e => e.2

section
variable {s : State} (a p b : Nat)

theorem engRead_sameSlots : SameSlots s (engState (engRead a s)) := by
  have hread : SameSlots s (readAll 0xA0 3 a 8 s).2 := readAll_sameSlots a 8 (by decide)
  unfold engRead
  dsimp only
  split
  · split <;> exact hread
  · exact hread

theorem blockEnt_sameSlots : SameSlots s (engState (blockEnt p b s)) := by
  have hread := engRead_sameSlots (s := s) ((s.pool p).entAddr b)
  unfold blockEnt
  cases h : engRead ((s.pool p).entAddr b) s with
  | ok x => rw [h] at hread; exact hread
  | error x => rw [h] at hread; exact hread

theorem putBlock_sameSlots (e : BlockEnt) : SameSlots s (putBlock p b e s) := writeAll_sameSlots ..

theorem settleBlock_sameSlots (e : BlockEnt) : SameSlots s (settleBlock p b e s) := by
  have hdraw : SameSlots s (draw 24 s).2 := SameSlots.of_fronds rfl
  exact SameSlots.ite (SameSlots.modPool (hdraw.trans (putBlock_sameSlots ..))) (putBlock_sameSlots ..)

theorem unpinBlock_sameSlots : SameSlots s (unpinBlock p b s) := by
  have hent := blockEnt_sameSlots (s := s) p b
  unfold unpinBlock
  split
  · next e t h => rw [h] at hent; exact hent.trans (settleBlock_sameSlots ..)
  · next c t h => rw [h] at hent; exact hent

theorem dropPins_sameSlots (h : KvHold) : SameSlots s (dropPins h s) := by
  unfold dropPins
  induction h.pages generalizing s with
  | nil => exact SameSlots.refl
  | cons x l ih => exact (unpinBlock_sameSlots ..).trans ih

end

/-! ### Started descriptors of a slot -/

section
variable {s t : State} {f k op : Nat}

theorem running_congr (h : SameSlots s t) : t.running f k op = s.running f k op := by
  rw [State.running, State.running, h.slot]

/-- A change of a descriptor's page work starts no descriptor. -/
theorem running_setHold_none {seq : Word32} {hold : Option KvHold} {done : Bool} (h : s.running f k op = none) :
    (setHold f k seq hold done s).running f k op = none := by
  have hstep : ∀ e : QDesc, (if e.seq = seq then { e with hold := hold, done := done } else e).started = e.started ∧
      (if e.seq = seq then { e with hold := hold, done := done } else e).op = e.op := fun e => by split <;> exact ⟨rfl, rfl⟩
  rw [State.running, setHold, modDesc, State.modSlot, State.modFrond_frond, FrondRec.modSlot_slot, List.find?_map,
    Option.map_eq_none_iff, ← h, State.running]
  exact congrArg (List.find? · _) (funext fun e => by simp only [Function.comp, hstep])

end

/-! ### Page work (R239, R241, R245, R248) -/

section
variable {s : State} {f k : Nat} {d : QDesc} {h : KvHold} (hh : d.hold = some h)

section
variable (hr : s.running f k 0x0E = some d)
include hr hh

theorem opAppend_resolved (hres : h.resolved = true) (hw : h.written = false) :
    opAppend f k s = withBanks f k d h (writeAppend f k d h) s := by
  simp only [opAppend, hr, hh, hres, hw]
  rfl

/-- The page request of a KVAPPEND (R241). -/
theorem opPageResolve_asks (hres : h.resolved = false) : opPageResolve f k s = if !s.ctxActive h.ctx then ctxGone f k d s else
    pageAnswer f k d h (appendPages h.ctx h.hg (let p0 := h.tokens / 32
      let p1 := (h.tokens + (appBody (s.frond f) d).nt - 1) / 32
      if p0 = p1 then [p0] else [p0, p1]) s) s := by
  simp only [opPageResolve, hr, hh, hres]
  rfl

end

section
variable (hr : s.running f k 0x0F = some d)
include hr hh

theorem opSorus_resolved (hres : h.resolved = true) (hw : h.written = false) :
    opSorus f k s = withBanks f k d h (writeSorus f k d h) s := by
  simp only [opSorus, hr, hh, hres, hw]
  rfl

theorem opSorusWalk_asks (hres : h.resolved = false) : opSorusWalk f k s = if !s.ctxActive h.ctx then ctxGone f k d s else
    pageAnswer f k d { h with tokens := (s.ctx h.ctx).tokens.toNat }
      (pinPages h.ctx h.hg (List.range (cdiv (s.ctx h.ctx).tokens.toNat 32)) s) s := by
  simp only [opSorusWalk, hr, hh, hres]
  rfl

end

theorem withBanks_on {go : State → State} (hl : ((s.frond f).seenBy d).lostBank (viewOf s f d).feet = none) :
    withBanks f k d h go s = go s := by
  rw [withBanks, hl]

theorem withBanks_lost {go : State → State} {a : Nat} (hl : ((s.frond f).seenBy d).lostBank (viewOf s f d).feet = some a) :
    withBanks f k d h go s = failDesc f k 0x0131 (storeAddr f a) d (dropPins h s) := by
  rw [withBanks, hl]

/-- KV_UNPIN's work for the descriptor of one opcode (R239). -/
def unpinFor (f k op : Nat) (s : State) : State :=
  match s.running f k op with
  | some d =>
    match d.hold with
    | some h =>
      if !h.written then s
      else if op = 0x0F then setHold f k d.seq none true (dropPins h s)
      else setHold f k d.seq (some { h with pages := [] }) false (dropPins h s)
    | none => s
  | none => s

/-- KV_UNPIN serves a KVAPPEND first, then a SORUS. -/
theorem opUnpin_eq : opUnpin f k s = unpinFor f k 0x0F (unpinFor f k 0x0E s) := rfl

theorem unpinFor_none {op : Nat} (hr : s.running f k op = none) : unpinFor f k op s = s := by
  rw [unpinFor, hr]

include hh

theorem unpinFor_sorus (hr : s.running f k 0x0F = some d) (hw : h.written = true) :
    unpinFor f k 0x0F s = setHold f k d.seq none true (dropPins h s) := by
  simp only [unpinFor, hr, hh, hw]
  rfl

theorem unpinFor_append (hr : s.running f k 0x0E = some d) (hw : h.written = true) :
    unpinFor f k 0x0E s = setHold f k d.seq (some { h with pages := [] }) false (dropPins h s) := by
  simp only [unpinFor, hr, hh, hw]
  rfl

theorem opUnpin_sorus (ha : s.running f k 0x0E = none) (hr : s.running f k 0x0F = some d) (hw : h.written = true) :
    opUnpin f k s = setHold f k d.seq none true (dropPins h s) := by
  rw [opUnpin_eq, unpinFor_none ha, unpinFor_sorus hh hr hw]

/-- The pins of a KVAPPEND dropped start no SORUS, so no second descriptor is served. -/
theorem opUnpin_append (hr : s.running f k 0x0E = some d) (ha : s.running f k 0x0F = none) (hw : h.written = true) :
    opUnpin f k s = setHold f k d.seq (some { h with pages := [] }) false (dropPins h s) := by
  rw [opUnpin_eq, unpinFor_append hh hr hw,
    unpinFor_none (running_setHold_none ((running_congr (dropPins_sameSlots h)).trans ha))]

end

/-- Settles O50: each command finds the started descriptor it serves, and with none of its opcode a KVAPPEND or SORUS starts. -/
theorem kvDescriptorCommands : Obligations.KvDescriptorCommands := by
  unfold Obligations.KvDescriptorCommands
  intro s fp k d hs u at_ lost
  have hexec : ∀ {c : Instr} {g : State → State} {t : State}, (exec c s = performFab fp g s) → g s = t → Completes c s t :=
    fun hc hg => hc.trans (hg ▸ performFab_runs s _ fp hs)
  refine ⟨fun hnone hd hon => hexec (c := .kvappend fp k) rfl ?_, fun hnone hd hon => hexec (c := .sorus fp k) rfl ?_, fun h hh => ?_⟩
  · rw [opAppend, hnone]
    exact runOp_starts hd hon _
  · rw [opSorus, hnone]
    exact runOp_starts hd hon _
  refine ⟨fun hr hres hw hl => hexec rfl ((opAppend_resolved hh hr hres hw).trans (withBanks_on hl)),
    fun hr hres hw hl => hexec rfl ((opSorus_resolved hh hr hres hw).trans (withBanks_on hl)),
    fun a c op hc hr hres hw hl => ?_, fun c op hc hr hres hact => ?_, fun l t hr hres hact hpages => ?_, fun l t hr hres hact hpages => ?_,
    fun ha hr hw => hexec rfl (opUnpin_sorus hh ha hr hw), fun hr ha hw => hexec rfl (opUnpin_append hh hr ha hw)⟩
  · simp only [List.mem_cons, Prod.mk.injEq, List.not_mem_nil, or_false] at hc
    rcases hc with ⟨rfl, rfl⟩ | ⟨rfl, rfl⟩
    · exact hexec rfl ((opAppend_resolved hh hr hres hw).trans (withBanks_lost hl))
    · exact hexec rfl ((opSorus_resolved hh hr hres hw).trans (withBanks_lost hl))
  · simp only [List.mem_cons, Prod.mk.injEq, List.not_mem_nil, or_false] at hc
    rcases hc with ⟨rfl, rfl⟩ | ⟨rfl, rfl⟩
    · exact hexec rfl ((opPageResolve_asks hh hr hres).trans (if_pos (by simp [hact])))
    · exact hexec rfl ((opSorusWalk_asks hh hr hres).trans (if_pos (by simp [hact])))
  · exact hexec rfl ((opPageResolve_asks hh hr hres).trans (by rw [if_neg (by simp [hact]), hpages]; rfl))
  · exact hexec rfl ((opSorusWalk_asks hh hr hres).trans (by rw [if_neg (by simp [hact]), hpages]; rfl))

end Sys2Proof.Machine
end

section
/-! PROOFS. ARGMAX writes its output words and no other byte (R138, R139, R195, R196). -/

namespace Sys2Proof.Machine

/-! ### The bytes a store word reads as (R138, R139) -/

theorem wordData_congr {r t : FrondRec} (hstore : t.store = r.store) (herrs : t.errs = r.errs) (w : Nat) : t.wordData w = r.wordData w := by
  simp only [FrondRec.wordData, FrondRec.rawWord, hstore, herrs]

/-- A byte read alone is the one its word holds at its place. -/
theorem plain_storeMarked_byte (r : FrondRec) (a : Nat) : plain (r.storeMarked a 1) = (r.wordData (a / 32))[a % 32]?.toList := by
  have hone : wordsOf a 1 = [a / 32] := by simp [wordsOf]
  simp only [FrondRec.storeMarked, hone, List.flatMap_cons, List.flatMap_nil, List.append_nil, plain, List.take_one, List.head?_drop,
    List.getElem?_map]
  cases (r.wordData (a / 32))[a % 32]? <;> rfl

theorem noteWord_errs (w : Nat) (r : FrondRec) : (noteWord w r).errs = r.errs := by
  unfold noteWord
  split
  · rfl
  · rfl
  · split <;> rfl

/-- A word counted reads as before (R139). -/
theorem noteWord_wordData (w v : Nat) (r : FrondRec) : (noteWord w r).wordData v = r.wordData v :=
  wordData_congr (noteWord_store w r) (noteWord_errs w r) v

theorem noteFeet_wordData (xs : List Foot) (v : Nat) (r : FrondRec) : (noteFeet xs r).wordData v = r.wordData v :=
  foldl_keeps (·.wordData v) (fun a (x : Foot) => (x.words (r.hnd x.h)).foldl (fun b w => noteWord w b) a)
    (fun a _ => foldl_keeps (·.wordData v) (fun b w => noteWord w b) (fun b w => noteWord_wordData w v b) _ a) _ r

/-- A word written whole leaves the other words alone. -/
theorem setWord_wordData_ne {w v : Nat} (h : v ≠ w) {d : List Byte} (hd : d.length = 32) (p : Bool) (r : FrondRec) :
    (setWord w d p r).wordData v = r.wordData v := by
  have herrs : tget [] (setWord w d p r).errs v = tget [] r.errs v := tget_tset_ne [] r.errs w v [] h
  have hstore : treadN 0 (setWord w d p r).store (v * 32) 32 = treadN 0 r.store (v * 32) 32 :=
    treadN_congr 0 _ _ 32 _ fun b _ _ => tget_twriteN_out 0 d r.store (w * 32) b (by omega)
  simp only [FrondRec.wordData, FrondRec.rawWord, herrs, hstore]

/-! ### Writes into the store (R138) -/

/-- The bytes of a word with those of `part` from byte o on. -/
def mergeWord (o : Nat) (part old : List Byte) : List Byte := old.take o ++ part ++ old.drop (o + part.length)

theorem mergeWord_length {o : Nat} {part old : List Byte} (h : o + part.length ≤ old.length) :
    (mergeWord o part old).length = old.length := by
  simp only [mergeWord, List.length_append, List.length_take, List.length_drop]
  omega

theorem mergeWord_out {o i : Nat} {part old : List Byte} (h : o + part.length ≤ old.length) (hi : i < o ∨ o + part.length ≤ i) :
    (mergeWord o part old)[i]? = old[i]? := by
  have htake : (old.take o).length = o := List.length_take_of_le (by omega)
  rcases hi with hi | hi
  · rw [mergeWord, List.append_assoc, List.getElem?_append_left (by omega), List.getElem?_take_of_lt hi]
  · rw [mergeWord, List.getElem?_append_right (by rw [List.length_append]; omega), List.getElem?_drop, List.length_append, htake]
    congr 1
    omega

/-- The part of a write at a that lies in word w. -/
def writePart (a : Nat) (d : List PByte) (w : Nat) : List PByte := (d.drop (w * 32 - a)).take (if w * 32 ≤ a then 32 - a % 32 else 32)
/-- The place in word w of the first byte a write at a puts there. -/
def writeFirst (a w : Nat) : Nat := max a (w * 32) % 32

theorem writePart_length (a : Nat) (d : List PByte) (w : Nat) :
    (writePart a d w).length = min (if w * 32 ≤ a then 32 - a % 32 else 32) (d.length - (w * 32 - a)) := by
  rw [writePart, List.length_take, List.length_drop]

theorem writePart_fits (a : Nat) (d : List PByte) (w : Nat) : writeFirst a w + (writePart a d w).length ≤ 32 := by
  rw [writePart_length, writeFirst]
  split <;> omega

/-- A byte of the store that a write does not name lies outside the write's part of its word. -/
theorem writePart_out {a w i : Nat} {d : List PByte} (hw : a / 32 ≤ w) (hi : w * 32 + i < a ∨ a + d.length ≤ w * 32 + i)
    (hi' : i < 32) :
    i < writeFirst a w ∨ writeFirst a w + (writePart a d w).length ≤ i := by
  rw [writePart_length, writeFirst]
  split <;> omega

/-- What writeWord does: a write into a word, whole or merged, stores the word with the write's part of it (R138). -/
theorem writeWord_merges (a : Nat) (d : List PByte) (w : Nat) (r : FrondRec) : ∃ p t, (∀ v, t.wordData v = r.wordData v) ∧
    writeWord a d w r = setWord w (mergeWord (writeFirst a w) (plain (writePart a d w)) (r.wordData w)) p t := by
  by_cases h : (writePart a d w).length = 32
  · have hfirst : writeFirst a w = 0 := by have := writePart_fits a d w; omega
    have hmerge : mergeWord 0 (plain (writePart a d w)) (r.wordData w) = plain (writePart a d w) := by
      simp [mergeWord, h, List.drop_eq_nil_of_le]
    exact ⟨_, r, fun _ => rfl, by rw [hfirst, hmerge]; exact if_pos h⟩
  · refine ⟨poisoned (writePart a d w) || r.wordPoison w, noteWord w r, fun v => noteWord_wordData w v r, (if_neg h).trans ?_⟩
    rw [mergeWord, plain_length]
    rfl

theorem writeWord_byte {a v i : Nat} {d : List PByte} (hi : v * 32 + i < a ∨ a + d.length ≤ v * 32 + i) (hi' : i < 32) {w : Nat}
    (hw : a / 32 ≤ w) (r : FrondRec) : ((writeWord a d w r).wordData v)[i]? = (r.wordData v)[i]? := by
  obtain ⟨p, t, ht, hwrite⟩ := writeWord_merges a d w r
  have hfits : writeFirst a w + (plain (writePart a d w)).length ≤ (r.wordData w).length := by
    rw [plain_length, wordData_length]
    exact writePart_fits a d w
  have hlen := (mergeWord_length hfits).trans (wordData_length r w)
  rw [hwrite]
  by_cases hv : v = w
  · subst hv
    rw [setWord_data _ _ _ _ hlen, mergeWord_out hfits (by rw [plain_length]; exact writePart_out hw hi hi')]
  · rw [setWord_wordData_ne hv hlen, ht]

/-- A write into the store leaves every byte outside it as it read (R138). -/
theorem storeWrite_byte {a b : Nat} {d : List PByte} (h : b < a ∨ a + d.length ≤ b) (r : FrondRec) :
    plain ((storeWrite a d r).storeMarked b 1) = plain (r.storeMarked b 1) := by
  have hb : b / 32 * 32 + b % 32 = b := Nat.div_add_mod' b 32
  have hfrom : ∀ w ∈ wordsOf a d.length, a / 32 ≤ w := by
    intro w hw
    unfold wordsOf at hw
    split at hw
    · exact absurd hw List.not_mem_nil
    · obtain ⟨i, -, rfl⟩ := List.mem_map.mp hw
      exact Nat.le_add_right ..
  rw [plain_storeMarked_byte, plain_storeMarked_byte]
  exact congrArg Option.toList (List.foldlRecOn (motive := fun t => (t.wordData (b / 32))[b % 32]? = (r.wordData (b / 32))[b % 32]?) _ _ rfl
    fun t ht w hw => (writeWord_byte (by rwa [hb]) (Nat.mod_lt b (by decide)) (hfrom w hw) t).trans ht)

/-- Elements of four bytes written from element e of a handle leave every byte outside them as it read (R108, R141). -/
theorem putElems_int32_byte {h e b : Nat} {l : List (Nat × Bool)} (r : FrondRec)
    (hb : b < (r.hnd h).base * 512 + 4 * e ∨ (r.hnd h).base * 512 + 4 * e + 4 * l.length ≤ b) :
    plain ((putElems h 8 (e : Nat) l r).storeMarked b 1) = plain (r.storeMarked b 1) := by
  have hfirst : (((r.hnd h).base * 512 : Nat) + (e : Int) * (fmtBytes 8 : Nat)).toNat = (r.hnd h).base * 512 + 4 * e := by
    rw [show fmtBytes 8 = 4 from rfl]
    omega
  refine storeWrite_byte ?_ r
  rw [hfirst]
  simpa [List.length_flatMap, fmtBytes, Nat.mul_comm l.length] using hb

/-! ### The start of a descriptor with no frame behind it (R17, R139, R142) -/

section
variable {s : State} {f k : Nat} {d : QDesc}

/-- The descriptor a command finds ready has the command's opcode. -/
theorem ready_op {op : Nat} (h : s.ready f k op = some d) : d.op = op := by
  unfold State.ready at h
  dsimp only at h
  split at h
  · exact nomatch h
  · split at h
    · next hc =>
      obtain rfl := Option.some.inj h
      simp only [Bool.and_eq_true, decide_eq_true_eq] at hc
      obtain ⟨⟨⟨⟨⟨hop, -⟩, -⟩, -⟩, -⟩, -⟩ := hc
      exact hop
    · exact nomatch h

theorem markUsed_noFrame (h : s.frameOf f k = none) : markUsed f k s = s := by
  rw [markUsed, h, ite_self]

theorem noteReads_sound (h : (s.frond f).firstPoison (viewOf s f d).feet = none) :
    noteReads f k d s = State.modFrond f (noteFeet (viewOf s f d).feet) s := by
  unfold noteReads
  simp only [h]

/-- A change of a descriptor in its queue leaves all of the Frond but its slots. -/
theorem modDesc_frond (seq : Word32) (g : QDesc → QDesc) :
    ∃ x y, (modDesc f k seq g s).frond f = { s.frond f with slot0 := x, slot1 := y } := by
  rw [modDesc, State.modSlot, State.modFrond_frond]
  unfold FrondRec.modSlot
  split
  · exact ⟨_, _, rfl⟩
  · exact ⟨_, _, rfl⟩

theorem modDesc_frameOf (seq : Word32) (g : QDesc → QDesc) : (modDesc f k seq g s).frameOf f k = s.frameOf f k := by
  simp only [State.frameOf, modDesc, State.modSlot, State.modFrond_frond, FrondRec.modSlot_slot]
  rfl

theorem modDesc_firstPoison (seq : Word32) (g : QDesc → QDesc) (xs : List Foot) :
    ((modDesc f k seq g s).frond f).firstPoison xs = (s.frond f).firstPoison xs := by
  obtain ⟨x, y, hframe⟩ := modDesc_frond (s := s) (f := f) (k := k) seq g
  rw [hframe]
  rfl

/-- What an ARGMAX names and touches does not depend on the slots. -/
theorem modDesc_viewOf_argmax (hop : d.op = 6) (seq : Word32) (g : QDesc → QDesc) : viewOf (modDesc f k seq g s) f d = viewOf s f d := by
  obtain ⟨x, y, hframe⟩ := modDesc_frond (s := s) (f := f) (k := k) seq g
  simp only [viewOf, hop, hframe]
  rfl

/-- With no frame behind it and no poisoned word read, an ARGMAX that starts is marked in its queue and its reads are counted. -/
theorem beginDesc_argmax_noFrame (hop : d.op = 6) (hf : s.frameOf f k = none)
    (hp : (s.frond f).firstPoison (viewOf s f d).feet = none) :
    ∃ g, beginDesc f k d s = State.modFrond f (noteFeet (viewOf s f d).feet) (modDesc f k d.seq g s) := by
  refine ⟨fun e => { e with started := true, kept := (s.frond f).entriesOf (viewOf s f d) }, ?_⟩
  dsimp only [beginDesc]
  rw [markUsed_noFrame ((modDesc_frameOf ..).trans hf),
    noteReads_sound (by rw [modDesc_firstPoison, modDesc_viewOf_argmax hop, hp]), modDesc_viewOf_argmax hop]

/-- Such a start changes no memory and no byte of the store (R17, R139). -/
theorem beginDesc_argmax_keeps (hop : d.op = 6) (hf : s.frameOf f k = none)
    (hp : (s.frond f).firstPoison (viewOf s f d).feet = none) :
    let u := beginDesc f k d s
    u.mem = s.mem ∧ u.hostMem = s.hostMem ∧ u.cmdq.sram = s.cmdq.sram ∧
      ∀ a, plain ((u.frond f).storeMarked a 1) = plain ((s.frond f).storeMarked a 1) := by
  obtain ⟨g, hu⟩ := beginDesc_argmax_noFrame hop hf hp
  obtain ⟨x, y, hframe⟩ := modDesc_frond (s := s) (f := f) (k := k) d.seq g
  rw [hu]
  refine ⟨rfl, rfl, rfl, fun a => ?_⟩
  rw [State.modFrond_frond, plain_storeMarked_byte, plain_storeMarked_byte, noteFeet_wordData,
    wordData_congr (r := s.frond f) (by rw [hframe]) (by rw [hframe])]

/-- ARGMAX writes its NPOS output words and no other byte of the store (R138, R195). -/
theorem actArgmax_byte {a : Nat} (h : let first := ((s.frond f).hnd (argBody d).y).base * 512 + 4 * (argBody d).yOff
    a < first ∨ first + 4 * (argBody d).npos ≤ a) :
    plain (((actArgmax f d s).frond f).storeMarked a 1) = plain ((s.frond f).storeMarked a 1) := by
  rw [actArgmax, State.modFrond_frond]
  exact putElems_int32_byte _ (by simpa using h)

end

/-- Settles O47: ARGMAX is one write of 4 * NPOS bytes, and without a frame its start only marks the descriptor and counts its reads. -/
theorem argmaxStoresOnlyItsOutput : Obligations.ArgmaxStoresOnlyItsOutput := by
  unfold Obligations.ArgmaxStoresOnlyItsOutput
  intro s fp k d hs hd hp x u hon first
  refine ⟨⟨_, performFab_runOp hd hon hs (actArgmax fp), keepLatch_mem .., keepLatch_hostMem .., ?_, fun a ha => ?_⟩,
    fun hf => beginDesc_argmax_keeps (ready_op hd.1) hf hp⟩
  · rw [keepLatch_cmdq]
    rfl
  · rw [keepLatch_frond]
    exact actArgmax_byte ha

end Sys2Proof.Machine
end

section
/-! PROOFS. KV pools and KV_APPEND_COMMIT (R225, R227, R232, R241, R253, R254, R257). -/

namespace Sys2Proof.Machine

/-! ### A context's entry changed (R225) -/

section
variable (s : State) (c : Nat) (g : CtxRec → CtxRec)

/-- The entry changes as told, but for GEN, which follows what the entry reads. -/
theorem State.modCtx_ctx : (State.modCtx c g s).ctx c = { g (s.ctx c) with gen := ((State.modCtx c g s).ctx c).gen } := by
  have hself : (State.modCtx c g s).ctx c =
      if (g (s.ctx c)).sameEntry (s.ctx c) then g (s.ctx c) else { g (s.ctx c) with gen := (s.ctx c).gen + 1 } := tget_tset_self ..
  rw [hself]
  by_cases h : (g (s.ctx c)).sameEntry (s.ctx c) = true
  · rw [if_pos h]
  · rw [if_neg h]

theorem State.modCtx_ctx_ne (j : Nat) (h : j ≠ c) : (State.modCtx c g s).ctx j = s.ctx j := by
  simp [State.modCtx, State.ctx, h]

end

/-! ### KV_APPEND_COMMIT (R232, R241) -/

/-- The bits of APPENDED with head group hg's. -/
def CtxRec.withGroup (c : CtxRec) (hg : Nat) : Word32 := c.appended ||| BitVec.ofNat 32 (2 ^ hg)

/-- An entry once head group hg's append of nt tokens is committed: the last group's brings the tokens in (R232). -/
def commitGroup (hg nt : Nat) (c : CtxRec) : CtxRec :=
  if (c.withGroup hg).toNat = 2 ^ c.nhg.toNat - 1 then { setTokens (c.tokens.toNat + nt) c with appended := 0, pendNt := 0 }
  else { c with appended := c.withGroup hg, pendNt := BitVec.ofNat 6 nt }

section
variable {c : CtxRec} {hg nt : Nat}

theorem commitGroup_last (h : (c.withGroup hg).toNat = 2 ^ c.nhg.toNat - 1) :
    commitGroup hg nt c = { setTokens (c.tokens.toNat + nt) c with appended := 0, pendNt := 0 } := if_pos h

theorem commitGroup_more (h : (c.withGroup hg).toNat ≠ 2 ^ c.nhg.toNat - 1) :
    commitGroup hg nt c = { c with appended := c.withGroup hg, pendNt := BitVec.ofNat 6 nt } := if_neg h

end

section
variable {s : State} {fp : Frond} {k : Slot} {d : QDesc} {h : KvHold} (hr : s.running fp k 0x0E = some d) (hh : d.hold = some h)
  (hw : h.written = true) (hp : h.pages = [])
include hr hh hw hp

theorem opAppendCommit_active (hact : s.ctxActive h.ctx = true) : opAppendCommit fp k s =
    setHold fp k d.seq none true (State.modCtx h.ctx (commitGroup h.hg (appBody (s.frond fp) d).nt) s) := by
  simp only [opAppendCommit, hr, hh, hw, hp, hact]
  rfl

theorem opAppendCommit_inactive (hact : s.ctxActive h.ctx = false) : opAppendCommit fp k s = setHold fp k d.seq none true s := by
  simp only [opAppendCommit, hr, hh, hw, hp, hact]
  rfl

/-- A commit changes the entry of its context and no other context's. -/
theorem kvAppendCommit_active (hs : RunsFab s fp) (hact : s.ctxActive h.ctx = true) :
    ∃ t, exec (.kvAppendCommit fp k) s = .next t ∧
      t.ctx h.ctx = { commitGroup h.hg (appBody (s.frond fp) d).nt (s.ctx h.ctx) with gen := (t.ctx h.ctx).gen } ∧
      ∀ c, c ≠ h.ctx → t.ctx c = s.ctx c := by
  refine ⟨_, performFab_runs s (opAppendCommit fp k) fp hs, ?_⟩
  have hctx : ∀ c, (keepLatch s (opAppendCommit fp k s)).ctx c =
      (State.modCtx h.ctx (commitGroup h.hg (appBody (s.frond fp) d).nt) s).ctx c := fun c => by
    rw [keepLatch_ctx, opAppendCommit_active hr hh hw hp hact]; rfl
  refine ⟨?_, fun c hc => ?_⟩
  · rw [hctx]
    exact State.modCtx_ctx ..
  · rw [hctx]
    exact State.modCtx_ctx_ne _ _ _ c hc

end

/-- Settles O51: the commit is one change of its context's entry, with the last head group or without. -/
theorem kvAppendCommits : Obligations.KvAppendCommits := by
  unfold Obligations.KvAppendCommits
  intro s fp k d h hs hr hh hw hp nt app
  refine ⟨fun hact hlast => ?_, fun hact hmore => ?_, fun hact => ?_⟩
  · obtain ⟨t, ht, hctx, hothers⟩ := kvAppendCommit_active hr hh hw hp hs hact
    exact ⟨t, ht, by rw [hctx, commitGroup_last hlast]; rfl, hothers⟩
  · obtain ⟨t, ht, hctx, hothers⟩ := kvAppendCommit_active hr hh hw hp hs hact
    exact ⟨t, ht, by rw [hctx, commitGroup_more hmore]; rfl, hothers⟩
  · refine ⟨_, performFab_runs s (opAppendCommit fp k) fp hs, ?_⟩
    rw [keepLatch_sched, opAppendCommit_inactive hr hh hw hp hact]
    rfl

/-! ### KV pools (R253, R254, R257) -/

section
variable (s : State) (p : Nat)

/-- The build writes the block states to memory; of the records it sets FREE and RESV alone (R254). -/
theorem buildPool_pool : (buildPool p s).pool p = { s.pool p with free := BitVec.ofNat 24 (s.pool p).blocks.toNat, resv := 0 } := by
  have hblocks : ∀ n, (forUpTo n (fun b t => putBlock p b ⟨0, 0, false, (draw 24 t).1.toNat⟩ (draw 24 t).2) s).sched = s.sched :=
    forUpTo_sched s fun _ _ => putBlock_sched ..
  unfold buildPool
  rw [State.modPool_pool, State.pool_congr s (hblocks _)]

variable {s p}

theorem opPoolEnable_enabled (h : (s.pool p).en = true) : opPoolEnable p s = s := if_pos h

section
variable (h : (s.pool p).en = false)
include h

theorem opPoolEnable_unsound (hs : (s.pool p).sound = false) :
    opPoolEnable p s = State.modPool p (fun y => { y with err := true }) s := by
  simp [opPoolEnable, h, hs]

theorem opPoolEnable_sound (hs : (s.pool p).sound = true) :
    opPoolEnable p s = buildPool p (State.modPool p (fun y => { y with err := false, en := true, busy := true }) s) := by
  simp [opPoolEnable, h, hs]

end

/-- A pool no context in use names is disabled (R254). -/
theorem opPoolDisable_unnamed (h : ∀ e ∈ s.sched.ctxs, e.2.st = .free ∨ e.2.pool.toNat ≠ p) :
    opPoolDisable p s = State.modPool p (fun y => { y with en := false, busy := false }) s := by
  refine if_neg fun hany => ?_
  obtain ⟨e, he, hnamed⟩ := List.any_eq_true.mp hany
  simp only [Bool.and_eq_true, decide_eq_true_eq] at hnamed
  exact (h e he).elim hnamed.1 (· hnamed.2)

theorem opPoolDisable_named (h : ∃ e ∈ s.sched.ctxs, e.2.st ≠ .free ∧ e.2.pool.toNat = p) : opPoolDisable p s = s := by
  obtain ⟨e, he, hst, hpool⟩ := h
  exact if_pos (List.any_eq_true.mpr ⟨e, he, by simp [hst, hpool]⟩)

end

/-- Settles O52: enabling by EN and the check of the regions, disabling by whether a context in use names the pool. -/
theorem kvPools : Obligations.KvPools := by
  unfold Obligations.KvPools
  intro s p hs up
  have henable {t : State} (hup : up) (ht : opPoolEnable p s = t) : CompletesReg (.kvpoolEnable p) s t :=
    ht ▸ performBlk_runs s (opPoolEnable p) hs hup
  have hdisable {t : State} (hup : up) (ht : opPoolDisable p s = t) : CompletesReg (.kvpoolDisable p) s t :=
    ht ▸ performBlk_runs s (opPoolDisable p) hs hup
  refine ⟨fun hup hen hsound => henable hup (opPoolEnable_unsound hen hsound), fun hup hen => henable hup (opPoolEnable_enabled hen),
    fun hup hen hsound => ?_, fun hup hall => hdisable hup (opPoolDisable_unnamed hall),
    fun hup hex => hdisable hup (opPoolDisable_named hex), perform_runs s _ hs⟩
  have hrun := henable hup (opPoolEnable_sound hen hsound)
  refine ⟨hrun, _, hrun, ?_⟩
  rw [State.pool_congr _ ((keepLatch_sched ..).trans (wakeEvent_sched ..)), buildPool_pool, State.modPool_pool]
  exact ⟨rfl, rfl, rfl, rfl⟩

end Sys2Proof.Machine
end

section
/-! PROOFS. CTX_CREATE, CTX_DESTROY, CTX_FORK, CTX_TRIM and the end of draining (R227, R228, R229, R231, R233, R236, R238, R281). -/

namespace Sys2Proof.Machine

theorem engTry_ok {α : Type} {r : Eng (α × State)} {s : State} {x : α × State} : engTry r s = .ok x ↔ r = .ok x := by
  cases r <;> simp [engTry]

section
variable {s : State} {c : Cmd} {tag : Nat} (htag : c.tag = tag)
include htag

/-! ### CTX_CREATE (R228, R281) -/

theorem actCtxCreate_refused {st : Nat} (h : s.createStatus c = some st) : actCtxCreate c s = finishCmd tag st 0 0 s := by
  simp only [actCtxCreate, htag, h]

section
variable {n : Nat} {t : State} (hok : s.createStatus c = none) (hfree : s.freeCtx = some n)
  (hmake : makeCtx n (newCtx c s.gctl.time) s = some t)
include hok hfree hmake

theorem actCtxCreate_soft (h : c.fld 0x18 1 ≠ 0) : actCtxCreate c s = finishCmd tag 0 n 0 t := by
  simp only [actCtxCreate, htag, hok, hfree, hmake]
  exact if_pos h

/-- A context of class 0 is there at once with every shard hot, else once they are loaded (R281). -/
theorem actCtxCreate_class0 (h : c.fld 0x18 1 = 0) {v : State} (hv : class0Shards (c.fld 0x1A 2) t = .ok v) : actCtxCreate c s =
    if v.allHot (c.fld 0x1A 2) then finishCmd tag 0 n 0 v else State.modCtx n (fun y => { y with createTag := some tag }) v := by
  simp only [actCtxCreate, htag, hok, hfree, hmake, hv]
  exact if_neg (not_not_intro h)

end

section
variable {id : Nat} (hid : c.fld 0x18 2 = id)
include hid

/-! ### CTX_DESTROY (R227, R231) -/

theorem actCtxDestroy_free (h : (s.ctx id).st = .free) : actCtxDestroy c s = finishCmd tag 0x45 0 0 s := by
  simp only [actCtxDestroy, htag, hid, h]

/-- With no run of the context, nothing is killed or settled first: it drains, its data references dropped. -/
theorem actCtxDestroy_drops (hfree : (s.ctx id).st ≠ .free) (hdrain : (s.ctx id).st ≠ .draining)
    (hruns : ∀ r ∈ s.sched.runs, r.ctxs.contains id = false) {v t : State} {x : Unit}
    (hv : State.modCtx id (fun x => { x with destroyed := true, destroyTags := [tag] }) (setCtxState id .draining s) = v)
    (hdrop : engTry (dropData id v) v = .ok (x, t)) : actCtxDestroy c s = t := by
  have hnone : ∀ q : RunRec → Bool, s.sched.runs.filter (fun r => r.ctxs.contains id && q r) = [] := fun q =>
    List.filter_eq_nil_iff.mpr fun r hr => by rw [hruns r hr]; exact Bool.false_ne_true
  subst htag hid hv
  unfold actCtxDestroy
  dsimp only
  split
  · next h => exact absurd h hfree
  · next h => exact absurd h hdrain
  · simp only [hnone, Bool.and_assoc, settleRunnable, List.flatMap_nil, List.filter_nil, List.foldl_nil, hdrop]

section
variable (hst : (s.ctx id).st = .idle ∨ (s.ctx id).st = .runnable)
include hst

/-! ### CTX_FORK (R233, R236) -/

/-- A fork that finds a free context and its blocks makes the child, with its parent's blocks shared. -/
theorem actCtxFork_forks {n blocks : Nat} (hfree : s.freeCtx = some n)
    (hblocks : (if (s.ctx id).cls = 0 then reserveBlocks (s.ctx id).nhg.toNat (s.ctx id).maxtok.toNat else 0) = blocks)
    (hroom : (s.ctx id).cls ≠ 0 ∨ s.canReserve (s.ctx id).pool.toNat blocks = true) {v t : State} {x : Unit}
    (hv : State.modCtx n (fun z => { childCtx id (s.ctx id) s.gctl.time with gen := z.gen, reserved := blocks })
      (reserve (s.ctx id).pool.toNat blocks s) = v)
    (hfork : engTry (forkInto id n v) v = .ok (x, t)) : actCtxFork c s = finishCmd tag 0 n 0 t := by
  have hmet : ((s.ctx id).cls = 0 && !s.canReserve (s.ctx id).pool.toNat blocks) = false := by
    rcases hroom with h | h
    · rw [decide_eq_false h, Bool.false_and]
    · rw [h, Bool.not_true, Bool.and_false]
  have hdone : engTry (forkInto id n v) s = .ok (x, t) := engTry_ok.mpr (engTry_ok.mp hfork)
  rcases hst with hst | hst <;>
    simp only [actCtxFork, htag, hid, hst, hfree, hblocks, hmet, hv, hdone] <;> rfl

/-! ### CTX_TRIM (R229, R238) -/

theorem actCtxTrim_above (h : (s.ctx id).tokens.toNat < c.fld 0x1C 4) : actCtxTrim c s = finishCmd tag 0x02 0 0 s := by
  rcases hst with hst | hst <;> simp [actCtxTrim, htag, hid, hst, h]

theorem actCtxTrim_trims (h : c.fld 0x1C 4 ≤ (s.ctx id).tokens.toNat) {t : State} {x : Unit}
    (ht : engTry (trimPages id (c.fld 0x1C 4) s) s = .ok (x, t)) :
    actCtxTrim c s = finishCmd tag 0 (c.fld 0x1C 4) 0 (State.modCtx id (setTokens (c.fld 0x1C 4)) t) := by
  have hle := Nat.not_lt.mpr h
  rcases hst with hst | hst <;> simp [actCtxTrim, htag, hid, hst, hle, ht]

end
end
end

/-! ### The end of draining (R227) -/

section
variable {s : State} {n : Nat}

theorem opDrained_waits (h : (s.ctx n).st ≠ .draining ∨ s.drained n = false) : opDrained n s = s :=
  if_pos (by rcases h with h | h <;> simp [h])

theorem opDrained_done (hst : (s.ctx n).st = .draining) (hd : s.drained n = true) : opDrained n s =
    if (s.ctx n).destroyed then endCtx n (forgetRuns s)
    else setCtxState n (if (forgetRuns s).runQueued n then .runnable else .idle) (forgetRuns s) := if_neg (by simp [hst, hd])

end

/-- Settles O23: a command that starts does what its action does, and each clause is the action's equation under its hypotheses. -/
theorem contextCommands : Obligations.ContextCommands := by
  unfold Obligations.ContextCommands
  intro s tag c hs u id
  have hcreate : ∀ {t : State}, CmdStarts s 0x20 tag c → actCtxCreate c u = t → Completes (.ctxCreate tag) s t :=
    fun h ht => startCmd_completes hs h ht
  have hdestroy : ∀ {t : State}, CmdStarts s 0x21 tag c → actCtxDestroy c u = t → Completes (.ctxDestroy tag) s t :=
    fun h ht => startCmd_completes hs h ht
  have hfork : ∀ {t : State}, CmdStarts s 0x22 tag c → actCtxFork c u = t → Completes (.ctxFork tag) s t :=
    fun h ht => startCmd_completes hs h ht
  have htrim : ∀ {t : State}, CmdStarts s 0x23 tag c → actCtxTrim c u = t → Completes (.ctxTrim tag) s t :=
    fun h ht => startCmd_completes hs h ht
  have hdrained : ∀ {n : Ctx} {t : State}, opDrained n s = t → Completes (.contextDrained n) s t :=
    fun ht => ht ▸ perform_runs s _ hs
  have htag : ∀ {op : Nat}, CmdStarts s op tag c → c.tag = tag := fun h => State.cmd_tag h.1
  refine ⟨fun n t h hok hfree hmake => ⟨fun hcls => hcreate h (actCtxCreate_soft (htag h) hok hfree hmake hcls), fun v hcls hv => ?_⟩,
    fun st h hst => hcreate h (actCtxCreate_refused (htag h) hst),
    fun x t h hfree hdrain hruns hdrop => hdestroy h (actCtxDestroy_drops (s := u) (htag h) rfl hfree hdrain hruns rfl hdrop),
    fun h hfree => hdestroy h (actCtxDestroy_free (s := u) (htag h) rfl hfree),
    fun n x t h hst hfree hroom hdone => hfork h (actCtxFork_forks (s := u) (htag h) rfl hst hfree rfl hroom rfl hdone),
    fun x t h hst => ⟨fun habove => htrim h (actCtxTrim_above (s := u) (htag h) rfl hst habove),
      fun hle ht => htrim h (actCtxTrim_trims (s := u) (htag h) rfl hst hle ht)⟩,
    fun n => ⟨fun hwait => hdrained (opDrained_waits hwait), fun hst hd hgone => hdrained ((opDrained_done hst hd).trans (if_pos hgone)),
      fun hst hd hlive => hdrained ((opDrained_done hst hd).trans (if_neg (by simp [hlive])))⟩⟩
  have hact := actCtxCreate_class0 (htag h) hok hfree hmake hcls hv
  exact ⟨fun hhot => hcreate h (hact.trans (if_pos hhot)), fun hcold => hcreate h (hact.trans (if_neg (by simp [hcold])))⟩

end Sys2Proof.Machine
end

section
/-! PROOFS. RUN, RUN_CHAIN, CANCEL, dispatch, completion, and the end of a load (R227, R278, R288, R289, R291, R404, R410, R411). -/

namespace Sys2Proof.Machine

/-! ### RUN and RUN_CHAIN (R288, R410) -/

/-- Only a COLD model is read again (R288). -/
theorem warmModel_notCold {s : State} {m : Nat} (h : (s.model m).st ≠ .cold) : warmModel m s = (none, s) := if_pos h

/-- What the packet of a RUN of at most eight contexts names (R410). -/
def Cmd.runNames (c : Cmd) : RunParams :=
  ⟨c.fld 0x1A 2, (List.range (c.fld 0x18 1)).map (fun i => c.fld (0x20 + 2 * i) 2), c.fld 0x38 8⟩

section
variable {s : State} {c : Cmd}

theorem runParams_short (h : c.fld 0x18 1 ≤ 8) : runParams c c.pkt s = (some c.runNames, s) := if_pos h

section
variable (h : c.fld 0x18 1 ≤ 8)
include h

/-- A run that passes its checks, its model in main memory, is queued. -/
theorem reachRun_queued (i : Nat) (hok : s.runStatus (s.sq c.sq).cls.toNat c.runNames = none)
    (hm : (s.model c.runNames.model).st ≠ .cold) : reachRun c c.pkt i s = (none, queueRun c.tag i c.runNames s) := by
  simp only [reachRun, runParams_short h, hok, warmModel_notCold hm]

theorem reachRun_refused (i : Nat) {st : Nat} (hst : s.runStatus (s.sq c.sq).cls.toNat c.runNames = some st) :
    reachRun c c.pkt i s = (some st, s) := by
  simp only [reachRun, runParams_short h, hst]

end

/-- A chain's first element, where it is sound, is reached as a RUN is. -/
theorem actRunChain_reached {d : List Byte} {v w : State} (hread : readNamed c (c.fld 0x20 8) 64 s = (some d, v))
    (hok : chainElemStatus c d = none) (hreach : reachRun c d 0 v = (none, w)) : actRunChain c s = w := by
  simp only [actRunChain, reachChain, Nat.mul_zero, Nat.add_zero, hread, hok, hreach]

section
variable {tag : Nat} (htag : c.tag = tag)
include htag

theorem actRun_queued (h : c.fld 0x18 1 ≤ 8) (hok : s.runStatus (s.sq c.sq).cls.toNat c.runNames = none)
    (hm : (s.model c.runNames.model).st = .warm ∨ (s.model c.runNames.model).st = .hot) : actRun c s = queueRun tag 0 c.runNames s := by
  have hmem : (s.model c.runNames.model).st ≠ .cold := by rcases hm with hm | hm <;> simp [hm]
  simp only [actRun, reachRun_queued h 0 hok hmem, htag]

theorem actRun_refused (h : c.fld 0x18 1 ≤ 8) {st : Nat} (hst : s.runStatus (s.sq c.sq).cls.toNat c.runNames = some st) :
    actRun c s = finishCmd tag st 0 0 s := by
  simp only [actRun, reachRun_refused h 0 hst, htag]

/-! ### CANCEL (R411) -/

theorem actCancel_gone (h : s.cancelTarget (c.fld 0x18 1) (c.fld 0x1A 2) = none) : actCancel c s = finishCmd tag 0x4C 0 0 s := by
  simp only [actCancel, htag, h]

/-- A command in flight is cancelled: its runs are killed first, and CANCEL's entry follows its own. -/
theorem actCancel_cancels {d : Cmd} (h : s.cancelTarget (c.fld 0x18 1) (c.fld 0x1A 2) = some d) {rs : List RunRec}
    (hrs : s.sched.runs.filter (fun r => r.cmd = some d.tag) = rs) :
    actCancel c s = State.modCmd tag (fun x => { x with after := some d.tag }) (finishCmd tag 0 0 0 (cancelCmd d
      (settleRunnable (rs.flatMap (fun r => r.ctxs)) (rs.foldl (fun t r => killRun 0x4A r.num t) s)))) := by
  simp only [actCancel, htag, h, hrs]

end
end

/-! ### Dispatch (R278, R291) -/

section
variable {s : State}

theorem noPlace_nil : noPlace [] s = s := by
  unfold noPlace
  split <;> rfl

theorem opRunDispatch_off (h : s.interpRuns = false) : opRunDispatch s = s := if_pos (by rw [h]; rfl)

section
variable (h : s.interpRuns = true)
include h

theorem opRunDispatch_placed {t : State} {rest : List RunRec}
    (hp : firstPlaced (restartLoads s).tryOrder (restartLoads s) = (some t, rest)) : opRunDispatch s = t := by
  simp only [opRunDispatch, h, hp]
  rfl

/-- With no run to try, the loads are all that was done. -/
theorem opRunDispatch_idle (hp : (restartLoads s).tryOrder = []) : opRunDispatch s = restartLoads s := by
  simp only [opRunDispatch, h, hp, firstPlaced, noPlace_nil, Bool.not_true, Bool.false_eq_true, if_false]

end

/-! ### Completion (R404, R410) -/

theorem RunRec.isOver {r : RunRec} (h : r.st = .ended ∨ r.fault ≠ none) : (!(r.st = .ended || r.fault.isSome)) = false := by
  rcases h with h | h
  · rw [decide_eq_true h]; rfl
  · rw [Option.isSome_iff_ne_none.mpr h, Bool.or_true]; rfl

section
variable {n : Nat} {r : RunRec} (hr : s.run n = some r)
include hr

theorem opRunComplete_running (hst : r.st ≠ .ended) (hf : r.fault = none) : opRunComplete n s = s := by
  simp [opRunComplete, hr, hst, hf]

section
variable (hend : r.st = .ended ∨ r.fault ≠ none) (hown : (abortRun n s).runOwns n = false)
include hend hown

/-- A command's run that has ended or met a fault, and holds no slot any more, is finished. -/
theorem opRunComplete_command {tag : Nat} (hpipe : r.pipe = none) (hcmd : r.cmd = some tag) :
    opRunComplete n s = finishRun r tag (abortRun n s) := by
  simp only [opRunComplete, hr, RunRec.isOver hend, hown, hpipe, hcmd, Bool.false_eq_true, if_false]

/-- A frame's run stays in the list, with no Frond and no context. -/
theorem opRunComplete_frame {pf : Nat × Word32} (hpipe : r.pipe = some pf) : opRunComplete n s =
    settleCtxs r.ctxs (State.modRun n (fun x => { x with st := .ended, onFp := [], ctxs := [] }) (abortRun n s)) := by
  simp only [opRunComplete, hr, RunRec.isOver hend, hown, hpipe, Bool.false_eq_true, if_false]

end
end

/-! ### The end of a load (R281, R289) -/

theorem opShardLoadDone_ended {f k m sh : Nat} (howner : ((s.frond f).slot k).owner = .load m sh)
    (hst : ((s.frond f).slot k).st = .idle) : opShardLoadDone f k s =
    finishCreates m (refreshModel m (State.modSlot f k (fun y => { y with owner := .none })
      (State.modFp f (fun y => { y with res := y.res.map (fun r =>
        if r.model = m && r.shard = sh then { r with loaded := true } else r) }) s))) := by
  simp only [opShardLoadDone, howner, hst]
  rfl

end

/-- Settles O24: a command that starts does what its action does, an event what its operation does, each by the equation of the branch its
hypotheses name. -/
theorem runCommands : Obligations.RunCommands := by
  unfold Obligations.RunCommands
  intro s hs
  have hrun : ∀ {tag : Nat} {c : Cmd} {t : State}, CmdStarts s 0x30 tag c → actRun c (takeCmd c s) = t → Completes (.run tag) s t :=
    fun h ht => startCmd_completes hs h ht
  have hchain : ∀ {tag : Nat} {c : Cmd} {t : State}, CmdStarts s 0x31 tag c → actRunChain c (takeCmd c s) = t →
      Completes (.runChain tag) s t := fun h ht => startCmd_completes hs h ht
  have hcancel : ∀ {tag : Nat} {c : Cmd} {t : State}, CmdStarts s 0x32 tag c → actCancel c (takeCmd c s) = t →
      Completes (.cancel tag) s t := fun h ht => startCmd_completes hs h ht
  have hdispatch : ∀ {t : State}, opRunDispatch s = t → Completes .runDispatch s t := fun ht => ht ▸ perform_runs s opRunDispatch hs
  have hcomplete : ∀ {n : Nat} {t : State}, opRunComplete n s = t → Completes (.runComplete n) s t :=
    fun ht => ht ▸ perform_runs s (opRunComplete _) hs
  have htag : ∀ {op tag : Nat} {c : Cmd}, CmdStarts s op tag c → c.tag = tag := fun h => State.cmd_tag h.1
  exact ⟨fun tag c h hshort => ⟨fun hok hm => hrun h (actRun_queued (s := takeCmd c s) (htag h) hshort hok hm),
      fun st hst => hrun h (actRun_refused (s := takeCmd c s) (htag h) hshort hst)⟩,
    fun tag c d v w h hread hok hreach => hchain h (actRunChain_reached hread hok hreach),
    fun tag c h hgone => hcancel h (actCancel_gone (htag h) hgone),
    fun tag c d h hfound => hcancel h (actCancel_cancels (htag h) hfound rfl),
    fun hoff => hdispatch (opRunDispatch_off hoff), fun t rest hon hp => hdispatch (opRunDispatch_placed hon hp),
    fun hon hp => hdispatch (opRunDispatch_idle hon hp),
    fun n r tag hr hpipe hcmd => ⟨fun hst hf => hcomplete (opRunComplete_running hr hst hf),
      fun hend hown => hcomplete (opRunComplete_command hr hend hown hpipe hcmd)⟩,
    fun n r pf hr hpipe hend hown => hcomplete (opRunComplete_frame hr hend hown hpipe),
    fun fp k m sh hfab howner hst => by
      rw [← opShardLoadDone_ended howner hst]
      exact performFab_runs s (opShardLoadDone fp k) fp hfab⟩

end Sys2Proof.Machine
end

section
/-! PROOFS. MODEL_REGISTER, MODEL_WARM, MODEL_EVICT and MODEL_RETIRE (R282, R283, R286, R288). -/

namespace Sys2Proof.Machine

section
variable {s v w x : State} {c : Cmd} {tag : Nat} {d : List Byte} (htag : c.tag = tag)

/-! ### MODEL_REGISTER (R283, R286, R288) -/

section
include htag

theorem actModelRegister_noId (h : s.modelIdFor (c.fld 0x18 2) = none) : actModelRegister c s = finishCmd tag 0x21 0 0 s := by
  simp only [actModelRegister, htag, h]

section
variable {id : Nat} (hid : s.modelIdFor (c.fld 0x18 2) = some id) (hread : readImage 28 (c.fld 0x20 8) (c.fld 0x1C 4) s = (some d, v))
  (hheader : imgHeaderOk d = true)
include hid hread hheader

theorem actModelRegister_unsigned (h : v.modelSigned v.sec.image d = false) : actModelRegister c s = finishCmd tag 0x41 0 0 v := by
  simp only [actModelRegister, htag, hid, hread, hheader, h, Bool.not_true, Bool.not_false, Bool.false_eq_true, if_false, if_true]

/-- A signed image that keeps the rules and has its sync counters and its memory is registered. -/
theorem actModelRegister_placed (hsigned : v.modelSigned v.sec.image d = true) (hrules : imgRulesOk d = true) {sync : Nat}
    (hsync : findPlace v.syncUsed 1024 1 (field d 0x0E 2) v = (some sync, w))
    (hcopy : warmCopy id (imgRecord (c.fld 0x20 8) sync d) d w = (none, x)) : actModelRegister c s = finishCmd tag 0 id 0 x := by
  simp only [actModelRegister, htag, hid, hread, hheader, hsigned, hrules, hsync, hcopy, Bool.not_true, Bool.false_eq_true, if_false]

end
end

/-! ### MODEL_WARM (R288) -/

section
variable {m : Nat} (hcold : (s.model m).st = .cold) (hread : readImage 28 (s.model m).src (s.model m).length s = (some d, v))
include hcold hread

theorem warmModel_altered (h : shake256 d 32 ≠ (s.model m).digest) : warmModel m s = (some 0x42, v) := by
  simp only [warmModel, hcold, hread, h, ne_eq, not_true, not_false_eq_true, if_false, if_true]

theorem warmModel_intact (h : shake256 d 32 = (s.model m).digest) : warmModel m s = warmCopy m (s.model m) d v := by
  simp only [warmModel, hcold, hread, h, ne_eq, not_true, if_false]

end

section
variable {m : Nat} (hm : c.fld 0x18 2 = m)
include htag hm

theorem actModelWarm_free (h : (s.model m).st = .free) : actModelWarm c s = finishCmd tag 0x40 0 0 s := by
  subst htag hm
  exact if_pos h

/-- A registered model is warmed where it has to be; the status is what that answers. -/
theorem actModelWarm_registered (h : (s.model m).st ≠ .free) {st : Option Nat} (hwarm : warmModel m s = (st, x)) :
    actModelWarm c s = finishCmd tag (st.getD 0) m 0 x := by
  simp only [actModelWarm, htag, hm, h, hwarm, if_false]

/-! ### MODEL_EVICT (R288) -/

theorem actModelEvict_free (h : (s.model m).st = .free) : actModelEvict c s = finishCmd tag 0x40 0 0 s := by
  simp only [actModelEvict, htag, hm, h]

/-- A model in memory leaves it, with its shards, unless one is pinned. -/
theorem actModelEvict_inMemory (h : (s.model m).st = .warm ∨ (s.model m).st = .hot) : actModelEvict c s =
    if s.pinned m then finishCmd tag 0x43 0 0 s
    else finishCmd tag 0 m 0 (State.modModel m (fun x => { x with st := .cold, base := 0, placed := [] }) (releaseModel m s)) := by
  rcases h with h | h <;> simp only [actModelEvict, htag, hm, h]

/-! ### MODEL_RETIRE (R288) -/

/-- A registered model is forgotten, unless a context names it. -/
theorem actModelRetire_registered (h : (s.model m).st ≠ .free) : actModelRetire c s =
    if s.modelInUse m then finishCmd tag 0x44 0 0 s else finishCmd tag 0 m 0 (State.modModel m (fun _ => {}) (releaseModel m s)) := by
  subst htag hm
  exact if_neg h

end
end

/-- Settles O22: a command that starts does what its action does, and each clause is the action's equation under its hypotheses. -/
theorem modelCommands : Obligations.ModelCommands := by
  unfold Obligations.ModelCommands
  intro s tag c hs u m
  have hregister : ∀ {t : State}, CmdStarts s 0x10 tag c → actModelRegister c u = t → Completes (.modelRegister tag) s t :=
    fun h ht => startCmd_completes hs h ht
  have hwarm : ∀ {t : State}, CmdStarts s 0x11 tag c → actModelWarm c u = t → Completes (.modelWarm tag) s t :=
    fun h ht => startCmd_completes hs h ht
  have hevict : ∀ {t : State}, CmdStarts s 0x12 tag c → actModelEvict c u = t → Completes (.modelEvict tag) s t :=
    fun h ht => startCmd_completes hs h ht
  have hretire : ∀ {t : State}, CmdStarts s 0x13 tag c → actModelRetire c u = t → Completes (.modelRetire tag) s t :=
    fun h ht => startCmd_completes hs h ht
  have htag : ∀ {op : Nat}, CmdStarts s op tag c → c.tag = tag := fun h => State.cmd_tag h.1
  have hcold : ∀ {t : State}, (t.model m).st = .cold → (t.model m).st ≠ .free := fun h => by simp [h]
  have hmem : ∀ {t : State}, (t.model m).st = .warm ∨ (t.model m).st = .hot → (t.model m).st ≠ .free ∧ (t.model m).st ≠ .cold :=
    fun h => by rcases h with h | h <;> simp [h]
  exact ⟨fun h hid => hregister h (actModelRegister_noId (htag h) hid),
    fun id d v sync w x h hid hread hheader => ⟨fun hsig => hregister h (actModelRegister_unsigned (htag h) hid hread hheader hsig),
      fun hsig hrules hsync hcopy => hregister h (actModelRegister_placed (htag h) hid hread hheader hsig hrules hsync hcopy)⟩,
    fun h hfree => hwarm h (actModelWarm_free (s := u) (htag h) rfl hfree),
    fun h hst => hwarm h (actModelWarm_registered (s := u) (htag h) rfl (hmem hst).1 (warmModel_notCold (hmem hst).2)),
    fun d v x h hst hread => ⟨fun hdig =>
        hwarm h (actModelWarm_registered (s := u) (htag h) rfl (hcold hst) (warmModel_altered (s := u) hst hread hdig)),
      fun hdig hcopy =>
        hwarm h (actModelWarm_registered (s := u) (htag h) rfl (hcold hst) ((warmModel_intact (s := u) hst hread hdig).trans hcopy))⟩,
    fun h hfree => hevict h (actModelEvict_free (s := u) (htag h) rfl hfree),
    fun h hst => ⟨fun hpin => hevict h ((actModelEvict_inMemory (s := u) (htag h) rfl hst).trans (if_pos hpin)),
      fun hpin => hevict h ((actModelEvict_inMemory (s := u) (htag h) rfl hst).trans (if_neg (Bool.eq_false_iff.mp hpin)))⟩,
    fun h hst => ⟨fun huse => hretire h ((actModelRetire_registered (s := u) (htag h) rfl hst).trans (if_pos huse)),
      fun huse => hretire h ((actModelRetire_registered (s := u) (htag h) rfl hst).trans (if_neg (Bool.eq_false_iff.mp huse)))⟩⟩

end Sys2Proof.Machine
end

section
/-! PROOFS. The safe state's decision leaves the power block alone (R338, R339, R555). -/

namespace Sys2Proof.Machine

section
variable (s : State)

/-! ### Posts -/

theorem busWrite_pwr (init cls a : Nat) (d : List PByte) : (busWrite init cls a d s).2.pwr = s.pwr := by rw [busWrite_frame]

theorem attemptField_pwr (k : Nat) : (attemptField k s).2.pwr = s.pwr := by
  unfold attemptField
  split <;> rfl

theorem ownDescriptors_pwr (n : Nat) : (ownDescriptors n s).pwr = s.pwr := rfl

theorem firmwareDone_pwr (n : Nat) : (firmwareDone n s).pwr = s.pwr := rfl

theorem ownFault_pwr (code : BitVec 16) (n a k : Nat) : (ownFault code n a k s).pwr = s.pwr := by
  unfold ownFault
  rw [report_pwr]
  exact attemptField_pwr s k

theorem firmwareHalt_pwr (n a k : Nat) : (firmwareHalt n a k s).pwr = s.pwr := by
  unfold firmwareHalt
  rw [State.modDma_pwr, ownDescriptors_pwr, ownFault_pwr]

section
variable {α : Type} {act : State → Option α × State} (hact : ∀ t, (act t).2.pwr = t.pwr)
include hact

theorem dmaAttempts_pwr (n k : Nat) : (dmaAttempts n act k s).2.pwr = s.pwr := by
  induction k generalizing s with
  | zero => rfl
  | succ k ih =>
    unfold dmaAttempts
    dsimp only
    split
    · exact hact s
    · rw [ih, State.modDma_pwr, hact]

theorem firmwareAccess_pwr (n a : Nat) : (firmwareAccess n a act s).2.pwr = s.pwr := by
  unfold firmwareAccess
  dsimp only
  split
  · exact dmaAttempts_pwr s hact n _
  · rw [firmwareHalt_pwr, dmaAttempts_pwr s hact]

end

theorem sendMsix_pwr (v : Nat) : (sendMsix v s).pwr = s.pwr := by
  unfold sendMsix
  dsimp only
  split
  · rfl
  · split <;> rfl

theorem postEntry_pwr (q : Nat) (e : List Byte) (noirq : Bool) : (postEntry q e noirq s).2.pwr = s.pwr := by
  unfold postEntry
  extract_lets c a r
  have haccess : r.2.pwr = s.pwr := by
    unfold r
    exact firmwareAccess_pwr s (fun t => busWrite_pwr t _ _ _ _) 31 a
  have hdone : (State.modCq q CqRec.advance (firmwareDone 31 r.2)).pwr = s.pwr := by rw [State.modCq_pwr, firmwareDone_pwr, haccess]
  split
  · dsimp only
    split
    · rw [sendMsix_pwr, hdone]
    · exact hdone
  · exact haccess

theorem postEvent_pwr (code : Nat) (p : Option Nat) (k : Option Word32) (d : List Byte) : (postEvent code p k d s).pwr = s.pwr := by
  unfold postEvent
  split
  · rfl
  split
  · rfl
  extract_lets flags e c t c' r
  split
  · rfl
  · have hpost : r.2.pwr = s.pwr := postEntry_pwr t 64 _ false
    split <;> exact hpost

/-! ### Authority and Moss's submissions (R319, R336, R381) -/

theorem withdrawObj_pwr (m o : Nat) : (withdrawObj m o s).pwr = s.pwr := by
  unfold withdrawObj
  split <;> rfl

theorem withdrawChannel_pwr (b : Bool) (c : Nat) : (withdrawChannel b c s).pwr = s.pwr := by
  unfold withdrawChannel
  dsimp only
  split
  · split
    · rfl
    · exact withdrawObj_pwr s _ _
  · split
    · rfl
    · exact withdrawObj_pwr s _ _

theorem withdrawPipe_pwr (p : Nat) (b : Bool) : (withdrawPipe p b s).pwr = s.pwr :=
  foldl_keeps State.pwr (fun t c => withdrawChannel b c t) (fun t c => withdrawChannel_pwr t b c) _ s

theorem setAuthority_pwr (p : Nat) (k : Word32) : (setAuthority p false k s).pwr = s.pwr := by
  rw [setAuthority_false]
  split
  · rfl
  · rw [withdrawPipe_pwr, cede, postEvent_pwr]
    rfl

theorem mossWrite_pwr (c : Nat) (d : List Byte) (p : Nat) : (mossWrite c d p s).pwr = s.pwr := by
  have habort (m o : Nat) : (abortObj m o s).pwr = s.pwr := by
    unfold abortObj
    split <;> rfl
  unfold mossWrite
  dsimp only
  split <;> exact habort _ _

theorem mossSubmit_pwr (p : Nat) : (mossSubmit p s).pwr = s.pwr := by
  unfold mossSubmit
  split
  · rfl
  · exact foldl_keeps State.pwr (fun t (e : Nat × List Byte) => mossWrite e.1 e.2 p t) (fun t e => mossWrite_pwr t e.1 e.2 p) _ _

theorem mossTakes_pwr (c0 : List Nat) : (mossTakes c0 s).pwr = s.pwr := by
  unfold mossTakes
  rw [foldl_keeps State.pwr _ (fun t p => State.modC0_pwr t p _), foldl_keeps State.pwr _ (fun t p => mossSubmit_pwr t p)]
  exact foldl_keeps State.pwr _ (fun t p => setAuthority_pwr t p _) _ s

/-! ### The decision -/

theorem safeReset_pwr : (safeReset s).pwr = s.pwr := by
  unfold safeReset
  dsimp only
  split <;> rfl

theorem safeDecide_pwr : (safeDecide s).pwr = s.pwr := by
  cases h : s.island.restarting with
  | true => rw [safeDecide_again s h]; rfl
  | false =>
    rw [safeDecide_first s h, safeReset_pwr]
    exact mossTakes_pwr _ _

/-- Every decision is counted, in a restart too. -/
theorem safeDecide_safeCount : (safeDecide s).island.safeCount = satInc s.island.safeCount := by
  cases h : s.island.restarting with
  | true => rw [safeDecide_again s h]; rfl
  | false => exact (safeDecide_entersSafe s h).safeCount

/-- A decision drops no record under way. -/
theorem safeDecide_inFlight : s.thal.inFlight <+: (safeDecide s).thal.inFlight := by
  cases h : s.island.restarting with
  | true => rw [safeDecide_again s h]; exact List.prefix_append ..
  | false => exact (List.prefix_append ..).trans (safeDecide_entersSafe s h).noted

end

end Sys2Proof.Machine
end

section
/-! PROOFS. SET_PLEVEL, the rail and the PLLs (R302, R555, R556, R557). -/

namespace Sys2Proof.Machine

/-! ### SET_PLEVEL (R302) -/

theorem actSetPlevel_belowFloor {s : State} {c : Cmd} {tag : Nat} (htag : c.tag = tag) (hfloor : s.sched.c0Floor.toNat < c.fld 0x19 1)
    (hc0 : s.class0Pipes ≠ []) : actSetPlevel c s = finishCmd tag 0x62 0 0 s := by
  subst htag
  exact if_pos (by simp [hfloor, hc0])

/-! ### Power faults (R338, R343, R571) -/

section
variable (s : State) (code : BitVec 16) (q level : Nat)

theorem reportPwr_pwr : (reportPwr code q level s).pwr = s.pwr := rfl

theorem reportPwr_record : ∃ f : FaultRec, f.code = code ∧ (reportPwr code q level s).thal.inFlight = s.thal.inFlight ++ [f] :=
  ⟨_, rfl, rfl⟩

theorem safePwr_pwr : (safePwr code q level s).pwr = s.pwr := safeDecide_pwr _

theorem safePwr_safeCount : (safePwr code q level s).island.safeCount = satInc s.island.safeCount := safeDecide_safeCount _

/-- A power fault's own record stands before those of the safe state it causes. -/
theorem safePwr_record : ∃ (f : FaultRec) (l : List FaultRec), f.code = code ∧ f.safe = true ∧
    (safePwr code q level s).thal.inFlight = s.thal.inFlight ++ f :: l := by
  obtain ⟨l, hl⟩ := safeDecide_inFlight
    (report { code := code, safe := true, detail := BitVec.ofNat 64 (q + place 7 8 + place level 12) } s)
  exact ⟨_, l, rfl, rfl, hl.symm.trans (List.append_assoc ..)⟩

end

/-! ### The rail (R555) -/

section
variable {s : State}

theorem opPmicDone_failed (h : s.pwr.pmicFailed = true) (ack : Bool) : opPmicDone ack s = s := if_pos h

theorem opPmicDone_answers (h : s.pwr.pmicFailed = false) (ack : Bool) : opPmicDone ack s = pmicAnswer ack s := if_neg (by simp [h])

theorem opPmicRetry_idle (h : s.pwr.pmicFailed = false) (ack : Bool) : opPmicRetry ack s = s := if_pos (by simp [h])

/-- A retry sends the write again before it is answered. -/
theorem opPmicRetry_answers (h : s.pwr.pmicFailed = true) (ack : Bool) : opPmicRetry ack s =
    pmicAnswer ack (emit (.pmbus s.pwr.addr.toNat s.pwr.exp.toNat (levelMv s.pwr.railWanted)) s) := if_neg (by simp [h])

theorem pmicAnswer_none (h : s.pwr.step = none) (ack : Bool) : pmicAnswer ack s = s := by
  simp only [pmicAnswer, h]

section
variable {q l : Nat} (h : s.pwr.step = some (.rail q l))
include h

theorem pmicAnswer_acknowledged : pmicAnswer true s =
    { s with pwr := { s.pwr with rail := s.pwr.railWanted, pmicFailed := false, step := some (.settle q l s.safNow) } } := by
  simp only [pmicAnswer, h, if_true]

theorem pmicAnswer_refused : pmicAnswer false s =
    reportPwr 0x0806 q s.pwr.railWanted { s with pwr := { s.pwr with pmicFailed := true } } := by
  simp only [pmicAnswer, h, Bool.false_eq_true, if_false]

end

theorem opSettle_step {q l since : Nat} (h : s.pwr.step = some (.settle q l since)) :
    opSettle s = if since + s.pwr.settleNs ≤ s.safNow then startLock q l s else s := by
  simp only [opSettle, h]

theorem opSettle_none (h : s.pwr.step = none) : opSettle s = s := by
  simp only [opSettle, h]

/-! ### The PLLs (R557) -/

section
variable {q : Nat}

theorem opPllLock_ignored {b : Bool} (h : b = (s.quad q).pll ∨ (s.quad q).clockStopped = true) : opPllLock q b s = s :=
  if_pos (by simpa using h)

section
variable (hclk : (s.quad q).clockStopped = false)
include hclk

theorem opPllLock_noStep (h : s.pwr.step = none) :
    opPllLock q (!(s.quad q).pll) s = State.modQuad q (fun r => { r with stbyLock := true }) s := by
  simp [opPllLock, hclk, h]

theorem opPllLock_change {l : Nat} (h : s.pwr.step = some (.lock q l)) : opPllLock q (!(s.quad q).pll) s = switchLevel q l s := by
  simp [opPllLock, hclk, h]

theorem opPllLost_handsOver (h : (s.quad q).stbyLock = true) : opPllLost q s =
    reportPwr 0x0801 q (s.quad q).level.toNat (State.modQuad q (fun r => { r with pll := !r.pll, stbyLock := false }) s) := by
  simp [opPllLost, hclk, h]

/-- Without a locked standby the quadrant's clock stops, and with it a change of level that waited for its lock; then the safe state. -/
theorem opPllLost_stops (h : (s.quad q).stbyLock = false) : ∃ u : State, opPllLost q s = safePwr 0x0802 q (s.quad q).level.toNat u ∧
    (u.quad q).clockStopped = true ∧ u.thal = s.thal ∧ u.island = s.island := by
  have hstopped : ((State.modQuad q (fun r => { r with clockStopped := true }) s).quad q).clockStopped = true := by rw [State.modQuad_quad]
  unfold opPllLost
  dsimp only
  rw [if_neg (by simp [hclk]), if_neg (by simp [h])]
  refine ⟨_, rfl, ?_⟩
  split
  · split <;> exact ⟨hstopped, rfl, rfl⟩
  · exact ⟨hstopped, rfl, rfl⟩

end

theorem opPllLost_stopped (h : (s.quad q).clockStopped = true) : opPllLost q s = s := if_pos h

theorem opPllRetry_fails (b : Bool) : opPllRetry q b false s = s := rfl

theorem opPllRetry_drives (b : Bool) (h : (s.quad q).clockStopped = true) : opPllRetry q b true s =
    advanceLevels (State.modQuad q (fun r => { r with clockStopped := false, pll := b, stbyLock := false }) s) := if_pos h

end

/-! ### The obligation -/

theorem setPlevel_clauses (hs : Runs s) (tag : Nat) (c : Cmd) (h : CmdStarts s 0x51 tag c) :
    (s.sched.c0Floor.toNat < c.fld 0x19 1 → s.class0Pipes ≠ [] → Completes (.setPlevel tag) s (finishCmd tag 0x62 0 0 (takeCmd c s))) ∧
    (c.fld 0x19 1 ≤ s.sched.c0Floor.toNat → Completes (.setPlevel tag) s (actSetPlevel c (takeCmd c s))) :=
  ⟨fun hfloor hc0 => startCmd_completes hs h (actSetPlevel_belowFloor (s := takeCmd c s) (State.cmd_tag h.1) hfloor hc0),
    fun _ => startCmd_completes hs h rfl⟩

section
variable (hs : RunsSaf s)
include hs

theorem exec_pmicWriteDone (ack : Bool) : exec (.pmicWriteDone ack) s = .next (keepLatch s (opPmicDone ack s)) := performSaf_runs s _ hs

theorem exec_pmicRetry (ack : Bool) : exec (.pmicRetry ack) s = .next (keepLatch s (opPmicRetry ack s)) := performSaf_runs s _ hs

theorem exec_pmicSettleExpiry : exec .pmicSettleExpiry s = .next (keepLatch s (opSettle s)) := performSaf_runs s _ hs

theorem railWrite_clauses (q l : Nat) (h : s.pwr.step = some (.rail q l)) :
    (s.pwr.pmicFailed = false → Completes (.pmicWriteDone true) s
      { s with pwr := { s.pwr with rail := s.pwr.railWanted, pmicFailed := false, step := some (.settle q l s.safNow) } }) ∧
    (s.pwr.pmicFailed = false → ∃ t r, exec (.pmicWriteDone false) s = .next t ∧ t.pwr.pmicFailed = true ∧ t.pwr.rail = s.pwr.rail ∧
      r.code = 0x0806 ∧ t.thal.inFlight = s.thal.inFlight ++ [r]) ∧
    (s.pwr.pmicFailed = true → ∃ t, exec (.pmicRetry true) s = .next t ∧ t.pwr.rail = s.pwr.railWanted ∧
      t.pwr.step = some (.settle q l s.safNow) ∧ t.out = s.out ++ [.pmbus s.pwr.addr.toNat s.pwr.exp.toNat (levelMv s.pwr.railWanted)]) := by
  refine ⟨fun hok => ?_, fun hok => ?_, fun hfail => ⟨_, exec_pmicRetry hs true, ?_⟩⟩
  · rw [Completes, exec_pmicWriteDone hs, opPmicDone_answers hok, pmicAnswer_acknowledged h]
  · obtain ⟨f, hcode, hflight⟩ := reportPwr_record { s with pwr := { s.pwr with pmicFailed := true } } 0x0806 q s.pwr.railWanted
    refine ⟨_, f, exec_pmicWriteDone hs false, ?_⟩
    rw [keepLatch_pwr, keepLatch_thal, opPmicDone_answers hok, pmicAnswer_refused h, reportPwr_pwr]
    exact ⟨rfl, rfl, hcode, hflight⟩
  · rw [keepLatch_pwr, keepLatch_out, opPmicRetry_answers hfail, pmicAnswer_acknowledged (s := emit _ s) h]
    exact ⟨rfl, rfl, rfl⟩

end

section
variable (hs : Runs s) (q : Quad)
include hs

theorem exec_pllLock (b : Bool) : exec (.pllLock q b) s = .next (keepLatch s (opPllLock q b s)) := perform_runs s _ hs

theorem exec_pllLockLost : exec (.pllLockLost q) s = .next (keepLatch s (opPllLost q s)) := perform_runs s _ hs

theorem exec_pllRelockRetry (b ok : Bool) : exec (.pllRelockRetry q b ok) s = .next (keepLatch s (opPllRetry q b ok s)) :=
  perform_runs s _ hs

theorem pllLockLost_clauses (hclk : (s.quad q).clockStopped = false) :
    ((s.quad q).stbyLock = true → ∃ t f, exec (.pllLockLost q) s = .next t ∧ (t.quad q).pll = !(s.quad q).pll ∧
      (t.quad q).stbyLock = false ∧ f.code = 0x0801 ∧ t.thal.inFlight = s.thal.inFlight ++ [f]) ∧
    ((s.quad q).stbyLock = false → ∃ t f l, exec (.pllLockLost q) s = .next t ∧ (t.quad q).clockStopped = true ∧
      t.island.safeCount = satInc s.island.safeCount ∧ f.code = 0x0802 ∧ f.safe = true ∧ t.thal.inFlight = s.thal.inFlight ++ f :: l) := by
  constructor <;> intro hlock
  · obtain ⟨f, hcode, hflight⟩ := reportPwr_record (State.modQuad q (fun r => { r with pll := !r.pll, stbyLock := false }) s) 0x0801 q
      (s.quad q).level.toNat
    refine ⟨_, f, exec_pllLockLost hs q, ?_⟩
    rw [keepLatch_quad, keepLatch_thal, opPllLost_handsOver hclk hlock, State.quad_congr _ (reportPwr_pwr ..), State.modQuad_quad]
    exact ⟨rfl, rfl, hcode, hflight⟩
  · obtain ⟨u, hu, hstopped, hthal, hisland⟩ := opPllLost_stops hclk hlock
    obtain ⟨f, l, hcode, hsafe, hflight⟩ := safePwr_record u 0x0802 q (s.quad q).level.toNat
    refine ⟨_, f, l, exec_pllLockLost hs q, ?_, ?_, hcode, hsafe, ?_⟩
    · rw [keepLatch_quad, hu, State.quad_congr u (safePwr_pwr ..), hstopped]
    · rw [keepLatch_safeCount, hu, safePwr_safeCount, hisland]
    · rw [keepLatch_thal, hu, hflight, hthal]

end
end

/-- Settles O4: the rail by the answer to the write under way, the PLLs by whether the quadrant has its clock and a locked standby. -/
theorem performanceLevels : Obligations.PerformanceLevels := by
  unfold Obligations.PerformanceLevels
  refine ⟨fun s tag c hs h => setPlevel_clauses hs tag c h, fun s hs => ?_, fun s q hs => ?_⟩
  · have hdone : ∀ {a : Bool} {t : State}, opPmicDone a s = t → Completes (.pmicWriteDone a) s t := fun ht => ht ▸ exec_pmicWriteDone hs _
    have hretry : ∀ {a : Bool} {t : State}, opPmicRetry a s = t → Completes (.pmicRetry a) s t := fun ht => ht ▸ exec_pmicRetry hs _
    have hsettle : ∀ {t : State}, opSettle s = t → Completes .pmicSettleExpiry s t := fun ht => ht ▸ exec_pmicSettleExpiry hs
    refine ⟨fun h a => hdone (opPmicDone_failed h a), fun h a => hretry (opPmicRetry_idle h a), railWrite_clauses hs,
      fun q l since h => ⟨fun hdue => hsettle ((opSettle_step h).trans (if_pos hdue)),
        fun hearly => hsettle ((opSettle_step h).trans (if_neg (Nat.not_le.mpr hearly)))⟩,
      fun h => ⟨hsettle (opSettle_none h), fun a => hdone ?_⟩⟩
    cases hfail : s.pwr.pmicFailed with
    | true => exact opPmicDone_failed hfail a
    | false => exact (opPmicDone_answers hfail a).trans (pmicAnswer_none h a)
  · have hlock : ∀ {b : Bool} {t : State}, opPllLock q b s = t → Completes (.pllLock q b) s t := fun ht => ht ▸ exec_pllLock hs q _
    have hlost : ∀ {t : State}, opPllLost q s = t → Completes (.pllLockLost q) s t := fun ht => ht ▸ exec_pllLockLost hs q
    have hretry : ∀ {b ok : Bool} {t : State}, opPllRetry q b ok s = t → Completes (.pllRelockRetry q b ok) s t :=
      fun ht => ht ▸ exec_pllRelockRetry hs q _ _
    exact ⟨fun b h => hlock (opPllLock_ignored h), fun hclk h => hlock (opPllLock_noStep hclk h),
      fun l hclk h => hlock (opPllLock_change hclk h), fun h => hlost (opPllLost_stopped h),
      fun hclk => (pllLockLost_clauses hs q hclk).1, fun hclk => (pllLockLost_clauses hs q hclk).2,
      fun b => hretry (opPllRetry_fails b), fun b h => hretry (opPllRetry_drives b h)⟩

end Sys2Proof.Machine
end

section
/-! PROOFS. The gate in front of every command, and the fail-silent latch over a step (R342, R356, R563, R619, R620). -/

namespace Sys2Proof.Machine

/-! ### The gate (R563, R619, R620) -/

/-- The reset pins' events, which act on a device that is held. -/
def resetPin : Instr → Bool
  | .porstNRelease _ _ _ => true | .sysrstNRelease _ _ _ => true | .porstNAssert => true | .sysrstNAssert => true | _ => false

/-- The samples of PEER_FAULT_N, a pin of the board. -/
def peerSample : Instr → Bool
  | .peerFaultNHigh => true | .peerFaultNLow => true | _ => false

/-- An operation behind a gate that is shut while a reset pin holds the device. -/
def Gated (s : State) (r : Host.Outcome State Fault Refusal) : Prop :=
  ∃ off f, r = performUnless off f s ∧ (s.held = true → off = true)

section
variable {s : State} {f : State → State}

theorem performUnless_gated {off : Bool} (h : s.held = true → off = true) : Gated s (performUnless off f s) := ⟨off, f, rfl, h⟩

theorem perform_gated : Gated s (perform f s) := performUnless_gated fun h => by simp [h]
theorem performReg_gated : Gated s (performReg f s) := perform_gated
theorem performBar_gated : Gated s (performBar f s) := performReg_gated
theorem performBlk_gated : Gated s (performBlk f s) := performReg_gated
theorem performSaf_gated : Gated s (performSaf f s) := performUnless_gated fun h => by simp [h]
theorem performFab_gated (k : Nat) : Gated s (performFab k f s) := performUnless_gated fun h => by simp [h]
theorem performAon_gated : Gated s (performAon f s) := performUnless_gated id

theorem performCan_gated (m : Nat) : Gated s (performCan m f s) := by
  unfold performCan
  split
  · exact performUnless_gated fun h => by simp [h]
  · exact performSaf_gated

theorem performCanReg_gated (m : Nat) : Gated s (performCanReg m f s) := performCan_gated m

/-- The test of a term's form lets a well-formed term through. -/
theorem ite_gated {ok : Bool} {r q : Host.Outcome State Fault Refusal} (hok : ok = true) (h : Gated s r) : Gated s (if ok then r else q) := by
  rwa [if_pos hok]

theorem performWf_gated {ok : Bool} (hok : ok = true) : Gated s (performWf ok f s) := ite_gated hok perform_gated
theorem performWfSaf_gated {ok : Bool} (hok : ok = true) : Gated s (performWfSaf ok f s) := ite_gated hok performSaf_gated
theorem performWfFab_gated {ok : Bool} (hok : ok = true) (k : Nat) : Gated s (performWfFab ok k f s) := ite_gated hok (performFab_gated k)

theorem execRegisterWrite_gated {init : Initiator} {off : Nat} {w : AccessWidth} {v : Word64}
    (hwf : (Instr.registerWrite init off w v).wf = true) : Gated s (execRegisterWrite init off w v s) := by
  unfold execRegisterWrite
  split
  · exact performWfSaf_gated hwf
  · exact performWf_gated hwf

end

/-- Every command but the pins' events stands behind its domain's gate; what no alternative names acts where the memory does. -/
theorem exec_gated {c : Instr} (s : State) (hwf : c.wf = true) (hpin : resetPin c = false) (hpeer : peerSample c = false) :
    Gated s (exec c s) := by
  cases c with
  | porstNRelease | sysrstNRelease | porstNAssert | sysrstNAssert => exact nomatch hpin
  | peerFaultNHigh | peerFaultNLow => exact nomatch hpeer
  | canIntegrationDone | canRecoveryDone | canBusError | canSubmit | canArbitration | canTxDone | canReferenceSend | canSyncTimeout
  | canTtMissed =>
    exact performCan_gated _
  | canLeaveInit | canEnterInit | borec | txreq | txabort | canRxGet | canRxcfgWrite => exact performCanReg_gated _
  | vehMotionRise | wakeNLow | wakeTimerExpiry | sleepExitComplete => exact performAon_gated
  | memoryTrainingDone | fabricSelfTestDone | csiLongPacket | udpIngestPayload | nocTransaction | peerCommandFrame | checkComplete
  | safeRestart | mossRunEnd | rocePacket | bar2Access | dmaBusError | memRead | memWrite | scrubStep | rowSpareDone
  | migrationBlockCopy | droopDetect | twinImageReceived =>
    exact performWf_gated hwf
  | matmul | convtap | attn => exact performWfFab_gated hwf _
  | heartbeatReceive => exact performWfSaf_gated hwf
  | registerWrite => exact execRegisterWrite_gated hwf
  | canFrameReceive => exact ite_gated hwf (performCan_gated _)
  | imuTransfer => exact ite_gated hwf performSaf_gated
  | fwFlashWriteDone | lockstep | clkloss | heartbeat | heartbeatService | vddSafUndervoltage | faultRecord | twinLinkUp | twinLaneLoss
  | twinTrainRetry | heartbeatSend | heartbeatLoss | digestResend | digestReceive | digwaitExpiry | takeoverWaitExpiry | peerKill
  | pmicWriteDone | pmicRetry | pmicSettleExpiry | domainClockLoss | sleepEntryComplete | domainClockReturn | twinImageRequest
  | vddSafRestored =>
    exact performSaf_gated
  | golden | goldenResult | descriptorFetch | descriptorComplete | spanTimerExpiry | vec | vecPload | pool | argmax | loadm | storem
  | move | cbload | wait | signal | optstep | kvappend | sorus | bankpwr | bankFenceResolve | bankFenceAbandon | bankTransitionDone
  | storeCorrectionWriteback | fillRaise | shardLoadDone | kvPageResolve | sorusWalk | kvUnpin | kvAppendCommit | epochInvalidationDone =>
    exact performFab_gated _
  | padHoldRelease init v => exact performSaf_gated (f := fun t => wakeEvent 1 (opPadRelease init.toNat v.toNat t))
  | pushLenDoorbell | unlock => exact performReg_gated
  | ethPortEnable | ethTxSend | ethGateCommit | qpSqDoorbell | qpRqDoorbell | qpCqDoorbell | qpLoadContext | migrateRequest =>
    exact performBar_gated
  | fclkEnable | fclkDisable | fclkPeriodWrite | hostSubmit | roiWindowWrite | roiCommit | slotGo | slotAbort | frndEpochWrite
  | frndFill | handleEntryWrite | kvpoolEnable | kvpoolDisable | sqTailDoorbell | cqHeadDoorbell | evqHeadDoorbell | sqEnable
  | sqDisable | cqEnable | cqDisable | dmaGo | dmaAbort | dmaResume =>
    exact performBlk_gated
  | _ => exact perform_gated

theorem exec_held {c : Instr} {s : State} (h : s.held = true) (hwf : c.wf = true) (hpin : resetPin c = false) (hpeer : peerSample c = false) :
    exec c s = .next s := by
  obtain ⟨off, f, hrun, hoff⟩ := exec_gated s hwf hpin hpeer
  rw [hrun, performUnless_off s f off (hoff h)]

/-- A term that is not well-formed gives no next state. -/
theorem wf_of_exec_next {c : Instr} {s t : State} (h : exec c s = .next t) : c.wf = true := by
  cases hwf : c.wf with
  | true => rfl
  | false => rw [(exec_answers c s).2 hwf] at h; exact nomatch h

/-- A next state is the one found, or an operation's under the latch, unless the command is a reset pin's event. -/
theorem exec_latched {c : Instr} {s t : State} (hpin : resetPin c = false) (h : exec c s = .next t) : t = s ∨ ∃ u, t = keepLatch s u := by
  have hunless : ∀ {off f}, exec c s = performUnless off f s → t = s ∨ ∃ u, t = keepLatch s u := fun hrun =>
    (performUnless_next s _ _ t (hrun ▸ h)).imp_right fun ht => ⟨_, ht⟩
  cases hpeer : peerSample c with
  | false =>
    obtain ⟨off, f, hrun, -⟩ := exec_gated s (wf_of_exec_next h) hpin hpeer
    exact hunless hrun
  | true =>
    cases c with
    | peerFaultNHigh | peerFaultNLow => exact hunless (off := false) rfl
    | _ => exact nomatch hpeer

/-! ### The latch over a step (R342) -/

/-- The latch, the governor's mode and FAULT_N. -/
def State.latch (s : State) : Bool × GovMode × Bool := (s.island.silent, s.island.mode, s.pins.faultN)

/-- The latch's condition holds, and the latch is set in t where it is in s. -/
structure KeepsLatch (s t : State) : Prop where
  holds : LatchHolds t
  stays : s.island.silent = true → t.island.silent = true

theorem KeepsLatch.of_latch {s t : State} (hs : LatchHolds s) (h : t.latch = s.latch) : KeepsLatch s t := by
  obtain ⟨hsilent, hmode, hfault⟩ : t.island.silent = s.island.silent ∧ t.island.mode = s.island.mode ∧ t.pins.faultN = s.pins.faultN := by
    simpa [State.latch] using h
  refine ⟨fun ht => ?_, fun h => hsilent.trans h⟩
  rw [hmode, hfault]
  exact hs (hsilent ▸ ht)

theorem keepLatch_keepsLatch (s u : State) : KeepsLatch s (keepLatch s u) where
  holds := keepLatch_holds s u
  stays h := by rw [keepLatch_silent, h, Bool.true_or]

section
variable (s : State)

theorem tick_latch : (tick s).latch = s.latch := by rw [tick_frame]; rfl

/-- An image sets Moss ready and releases no FAULT_N (R36, R590). -/
theorem bootImage_latch (d : List Byte) : (bootImage d s).latch = s.latch := by
  unfold bootImage
  split
  · rfl
  · dsimp only
    split <;> rfl

theorem loadImage_latch : (loadImage s).latch = s.latch := by
  unfold loadImage
  dsimp only
  split
  · rfl
  split
  · rfl
  split
  · rfl
  split
  · rfl
  · exact bootImage_latch _ _

theorem startUp_latch (b r x : Bool) : (startUp b r x s).latch = s.latch := loadImage_latch (sampled b r x s)

theorem opPorstRelease_latch (b r x : Bool) : (opPorstRelease b r x s).latch = s.latch := by
  unfold opPorstRelease
  split
  · rfl
  · dsimp only
    split
    · exact startUp_latch _ b r x
    · rfl

theorem opSysrstRelease_latch (b r x : Bool) : (opSysrstRelease b r x s).latch = s.latch := by
  unfold opSysrstRelease
  split
  · rfl
  · dsimp only
    split
    · exact startUp_latch _ b r x
    · rfl

/-- SYSRST_N keeps the latch, and with it the mode SILENT; FAULT_N is low after it (R620). -/
theorem opSysrstAssert_keepsLatch (hs : LatchHolds s) : KeepsLatch s (opSysrstAssert s) := by
  unfold opSysrstAssert
  dsimp only
  split
  · exact .of_latch hs rfl
  split
  · exact .of_latch hs rfl
  · exact ⟨fun h => ⟨if_pos h, rfl⟩, id⟩

/-- PORST_N clears the latch where it falls, and does nothing where it is low (R342, R619). -/
theorem opPorstAssert_latchHolds (hs : LatchHolds s) : LatchHolds (opPorstAssert s) := by
  unfold opPorstAssert
  split
  · exact hs
  · exact nofun

end

/-- Every command but PORST_N_ASSERT keeps the latch. -/
theorem exec_keepsLatch {c : Instr} {s t : State} (hs : LatchHolds s) (hc : c ≠ .porstNAssert) (h : exec c s = .next t) : KeepsLatch s t := by
  cases hpin : resetPin c with
  | false =>
    obtain rfl | ⟨u, rfl⟩ := exec_latched hpin h
    · exact .of_latch hs rfl
    · exact keepLatch_keepsLatch s u
  | true =>
    cases c with
    | porstNRelease b r x => cases h; exact .of_latch hs (opPorstRelease_latch s b r x)
    | sysrstNRelease b r x => cases h; exact .of_latch hs (opSysrstRelease_latch s b r x)
    | sysrstNAssert => cases h; exact opSysrstAssert_keepsLatch s hs
    | porstNAssert => exact absurd rfl hc
    | _ => exact nomatch hpin

/-- Settles O56: the empty queue's tick leaves the latch, the mode and FAULT_N alone; the front command keeps the latch unless it is
PORST_N_ASSERT, after which none is set. -/
theorem latchKeptByStep : Obligations.LatchKeptByStep := by
  unfold Obligations.LatchKeptByStep
  intro s t hs h
  have kept : KeepsLatch s t → LatchHolds t ∧ (s.island.silent = true → s.pending.head? ≠ some .porstNAssert →
      t.island.silent = true ∧ t.island.mode = .silent ∧ t.pins.faultN = false) :=
    fun hk => ⟨hk.holds, fun hsilent _ => ⟨hk.stays hsilent, hk.holds (hk.stays hsilent)⟩⟩
  unfold step at h
  split at h
  · cases h
    exact kept (.of_latch hs (tick_latch s))
  · next c rest hq =>
    by_cases hc : c = .porstNAssert
    · subst hc
      cases h
      exact ⟨opPorstAssert_latchHolds { s with pending := rest } hs, fun _ hne => absurd (by rw [hq]; rfl) hne⟩
    · obtain ⟨holds, stays⟩ := exec_keepsLatch (s := { s with pending := rest }) hs hc h
      exact kept ⟨holds, stays⟩

end Sys2Proof.Machine
end

section
/-! PROOFS. What a device that is held or asleep in S4, and a block that does not answer, ignore (R340, R563, R566, R585, R619, R620). -/

namespace Sys2Proof.Machine

section
variable {s : State} {c : Instr}

/-! ### Writes of registers of a block that does not answer (R340, R585) -/

theorem exec_blkWrite (h : blkWrite c = true) : ∃ f, exec c s = performBlk f s := by
  cases c with
  | dmaGo | dmaAbort | dmaResume | fclkEnable | fclkDisable | fclkPeriodWrite | frndEpochWrite | frndFill | handleEntryWrite | hostSubmit
  | roiWindowWrite | roiCommit | kvpoolEnable | kvpoolDisable | sqTailDoorbell | cqHeadDoorbell | evqHeadDoorbell | sqEnable | sqDisable
  | cqEnable | cqDisable | slotGo | slotAbort => exact ⟨_, rfl⟩
  | _ => exact nomatch h

theorem exec_barWrite (h : barWrite c = true) : ∃ f, exec c s = performBar f s := by
  cases c with
  | ethPortEnable | ethGateCommit | ethTxSend | migrateRequest | qpSqDoorbell | qpRqDoorbell | qpCqDoorbell => exact ⟨_, rfl⟩
  | _ => exact nomatch h

theorem exec_canWrite {m : CanNo} (h : canWrite c = some m) : ∃ f, exec c s = performCanReg m f s := by
  cases c with
  | canLeaveInit | canEnterInit | borec | txreq | txabort | canRxGet | canRxcfgWrite => cases h; exact ⟨_, rfl⟩
  | _ => exact nomatch h

theorem performBar_down (f : State → State) (hs : Runs s) (hb : s.barUp = false) : performBar f s = .next (keepLatch s (wakeEvent 1 s)) := by
  rw [performBar, performReg_runs s _ hs, if_neg (by simp [hb])]

theorem performCanReg_down (f : State → State) {m : Nat} (hs : RunsCan s m) (hm : m < 6) (hb : s.blocksUp = false) :
    performCanReg m f s = .next (keepLatch s (wakeEvent 1 s)) := by
  rw [performCanReg, performCan_runs s _ m hs, if_pos hm, if_neg (by simp [hb])]

/-! ### S4 (R563) -/

theorem asleep_three (h : s.asleep 4 = true) : s.asleep 3 = true := by
  simp only [State.asleep, Bool.and_eq_true, decide_eq_true_eq] at h ⊢
  obtain ⟨hsteady, hdeep⟩ := h
  exact ⟨hsteady, by omega⟩

theorem fabOff_of_asleep (f : Nat) (h : s.asleep 4 = true) : s.fabOff f = true := by
  simp only [State.asleep, Bool.and_eq_true, decide_eq_true_eq] at h
  obtain ⟨hsteady, hdeep⟩ := h
  have hsleep : 1 ≤ s.pwr.sleep.toNat := by omega
  simp [State.fabOff, hsteady, hsleep]

variable (f : State → State)

theorem perform_asleep (h : s.asleep 4 = true) : perform f s = .next s := performUnless_off s f _ (by simp [asleep_three h])

theorem performSaf_asleep (h : s.asleep 4 = true) : performSaf f s = .next s := performUnless_off s f _ (by simp [h])

theorem performFab_asleep (k : Nat) (h : s.asleep 4 = true) : performFab k f s = .next s :=
  performUnless_off s f _ (by simp [fabOff_of_asleep k h])

theorem performWf_asleep {ok : Bool} (hok : ok = true) (h : s.asleep 4 = true) : performWf ok f s = .next s := by
  rw [performWf, if_pos hok, perform_asleep f h]

end

/-- Settles O57: each write by its block's gate, a held device by `exec_held`, S4 by the gates of the domains that are off in it. -/
theorem heldDeviceIgnoresCommands : Obligations.HeldDeviceIgnoresCommands := by
  unfold Obligations.HeldDeviceIgnoresCommands
  refine ⟨fun s c hs => ⟨fun hc hb => ?_, fun hc hb => ?_⟩, fun s c m hs hc hm hb => ?_,
    fun s c hheld hwf hpa hsa hpr hsr hhigh hlow => ?_, fun s _ h4 => ⟨fun p n => perform_asleep _ h4, performSaf_asleep _ h4,
      perform_asleep _ h4, fun q => performSaf_asleep _ h4, fun fp k => performFab_asleep _ fp.val h4, fun n => perform_asleep _ h4,
      fun x hx => performWf_asleep _ hx h4⟩⟩
  · obtain ⟨f, hf⟩ := exec_blkWrite (s := s) hc
    exact hf.trans (performBlk_down s f hs hb)
  · obtain ⟨f, hf⟩ := exec_barWrite (s := s) hc
    exact hf.trans (performBar_down f hs hb)
  · obtain ⟨f, hf⟩ := exec_canWrite (s := s) hc
    exact hf.trans (performCanReg_down f hs hm hb)
  · refine exec_held hheld hwf ?_ ?_
    · cases c with
      | porstNRelease b r x => exact absurd rfl (hpr b r x)
      | sysrstNRelease b r x => exact absurd rfl (hsr b r x)
      | porstNAssert => exact absurd rfl hpa
      | sysrstNAssert => exact absurd rfl hsa
      | _ => rfl
    · cases c with
      | peerFaultNHigh => exact absurd rfl hhigh
      | peerFaultNLow => exact absurd rfl hlow
      | _ => rfl

end Sys2Proof.Machine
end

section
/-! PROOFS. All that a post can change, and all that the fail-silent latch changes (R342, R381, R406, R417, R436, R521). -/

namespace Sys2Proof.Machine

/-- The state without what a post can change: the queues and DMA31, the stores an entry is written to, what is sent, the free values drawn
and the records under way. -/
def State.unposted (s : State) : State :=
  { s with fronds := [], cmdq := {}, dma := [], mem := {}, hostMem := [], out := [], freeCtr := 0, thal := { s.thal with inFlight := [] } }

section
variable (s : State)

/-! ### Posts through DMA31 (R405, R406, R417, R436) -/

theorem report_unposted (r : FaultRec) : (report r s).unposted = s.unposted := rfl
theorem draw_unposted (w : Nat) : (draw w s).2.unposted = s.unposted := rfl
theorem emit_unposted (e : Emit) : (emit e s).unposted = s.unposted := rfl
theorem putHost_unposted (a : Nat) (d : List Byte) : (putHost a d s).unposted = s.unposted := rfl
theorem modDma_unposted (n : Nat) (g : DmaRec → DmaRec) : (State.modDma n g s).unposted = s.unposted := rfl
theorem modCq_unposted (q : Nat) (g : CqRec → CqRec) : (State.modCq q g s).unposted = s.unposted := rfl
theorem stuck_unposted (l : List StuckPost) : State.unposted { s with cmdq := { s.cmdq with stuck := l } } = s.unposted := rfl

theorem busWrite_unposted (init cls a : Nat) (d : List PByte) : (busWrite init cls a d s).2.unposted = s.unposted := by
  rw [busWrite_frame]; rfl

theorem ownDescriptors_unposted (n : Nat) : (ownDescriptors n s).unposted = s.unposted := by
  unfold ownDescriptors
  rw [modDma_unposted, draw_unposted, draw_unposted]

theorem ownFault_unposted (code : BitVec 16) (n a k : Nat) : (ownFault code n a k s).unposted = s.unposted := by
  unfold ownFault attemptField
  dsimp only
  rw [report_unposted, draw_unposted]
  split
  · rfl
  · exact draw_unposted s 3

theorem firmwareDone_unposted (n : Nat) : (firmwareDone n s).unposted = s.unposted := by
  rw [firmwareDone, modDma_unposted, ownDescriptors_unposted]

theorem firmwareHalt_unposted (n a k : Nat) : (firmwareHalt n a k s).unposted = s.unposted := by
  rw [firmwareHalt, modDma_unposted, ownDescriptors_unposted, ownFault_unposted]

section
variable {α : Type} {act : State → Option α × State} (hact : ∀ t, (act t).2.unposted = t.unposted)
include hact

theorem dmaAttempts_unposted (n k : Nat) : (dmaAttempts n act k s).2.unposted = s.unposted := by
  induction k generalizing s with
  | zero => rfl
  | succ k ih =>
    unfold dmaAttempts
    dsimp only
    split
    · exact hact s
    · rw [ih, modDma_unposted, hact]

theorem firmwareAccess_unposted (n a : Nat) : (firmwareAccess n a act s).2.unposted = s.unposted := by
  unfold firmwareAccess
  dsimp only
  split
  · exact dmaAttempts_unposted s hact n _
  · rw [firmwareHalt_unposted, dmaAttempts_unposted s hact]

end

theorem sendMsix_unposted (v : Nat) : (sendMsix v s).unposted = s.unposted := by
  unfold sendMsix
  dsimp only
  split
  · rfl
  · split
    · rw [emit_unposted, putHost_unposted]
    · rfl

theorem postEntry_unposted (q : Nat) (e : List Byte) (noirq : Bool) : (postEntry q e noirq s).2.unposted = s.unposted := by
  unfold postEntry
  extract_lets c a r
  have haccess : r.2.unposted = s.unposted := by
    unfold r
    exact firmwareAccess_unposted s (fun t => busWrite_unposted t _ _ _ _) 31 a
  have hdone : (State.modCq q CqRec.advance (firmwareDone 31 r.2)).unposted = s.unposted := by
    rw [modCq_unposted, firmwareDone_unposted, haccess]
  split
  · dsimp only
    split
    · rw [sendMsix_unposted, hdone]
    · exact hdone
  · exact haccess

theorem postEvent_unposted (code : Nat) (p : Option Nat) (k : Option Word32) (d : List Byte) :
    (postEvent code p k d s).unposted = s.unposted := by
  unfold postEvent
  split
  · rfl
  split
  · rfl
  extract_lets flags e c t c' r
  split
  · rfl
  · have hpost : r.2.unposted = s.unposted := postEntry_unposted t 64 _ false
    split
    · exact hpost
    · rw [stuck_unposted, hpost]

theorem postEvent_island (code : Nat) (p : Option Nat) (k : Option Word32) (d : List Byte) : (postEvent code p k d s).island = s.island :=
  (congrArg State.island (postEvent_unposted s code p k d) :)

theorem postEvent_twin (code : Nat) (p : Option Nat) (k : Option Word32) (d : List Byte) : (postEvent code p k d s).twin = s.twin :=
  (congrArg State.twin (postEvent_unposted s code p k d) :)

theorem postEvent_flog (code : Nat) (p : Option Nat) (k : Option Word32) (d : List Byte) :
    (postEvent code p k d s).thal.flog = s.thal.flog ∧ (postEvent code p k d s).thal.flogWr = s.thal.flogWr :=
  have hthal := congrArg State.thal (postEvent_unposted s code p k d)
  ⟨(congrArg Thal.flog hthal :), (congrArg Thal.flogWr hthal :)⟩

/-! ### Withdrawal and the latch (R342, R381, R521) -/

/-- A withdrawal reaches the CAN controllers and the Ethernet streams. -/
theorem withdrawObj_frame (m o : Nat) : withdrawObj m o s = { s with can := (withdrawObj m o s).can } := by
  unfold withdrawObj
  split <;> rfl

theorem withdrawChannel_frame (b : Bool) (c : Nat) :
    withdrawChannel b c s = { s with can := (withdrawChannel b c s).can, eth := (withdrawChannel b c s).eth } := by
  unfold withdrawChannel
  dsimp only
  split
  · split
    · rfl
    · rw [withdrawObj_frame]
  · split
    · rfl
    · rw [withdrawObj_frame]

theorem withdrawAll_frame : withdrawAll s = { s with can := (withdrawAll s).can, eth := (withdrawAll s).eth } := by
  refine forUpTo_keeps (P := fun t : State => t = { s with can := t.can, eth := t.eth }) (fun c t ht => ?_) 16 rfl
  split
  · rw [withdrawChannel_frame, withdrawChannel_frame, ht]
  · exact ht

/-- The hardware's actions when the latch is set (R342). -/
theorem silence_frame : silence s = { s with
    pins := { s.pins with faultN := false }, island := { s.island with silent := true, mode := .silent },
    twin := { s.twin with armed := false }, can := (silence s).can, eth := (silence s).eth } := by
  unfold silence
  dsimp only
  rw [withdrawAll_frame]
  rfl

theorem fatal_island (g : Island → Island) : (fatal g s).island = g { s.island with silent := true, mode := .silent } := by
  unfold fatal
  rw [silence_frame]

theorem fatal_thal (g : Island → Island) : (fatal g s).thal = s.thal := by
  unfold fatal
  rw [silence_frame]

theorem keepLatch_inReset (t : State) : (keepLatch s t).island.inReset = t.island.inReset := by unfold keepLatch; split <;> rfl

/-- The latch releases no FAULT_N. -/
theorem keepLatch_faultN_low (t : State) (h : t.pins.faultN = false) : (keepLatch s t).pins.faultN = false := by
  unfold keepLatch
  split
  · rfl
  · exact h

/-- Under the latch the governor is SILENT and FAULT_N low, whatever else an operation did (R342). -/
theorem keepLatch_silenced {t : State} (h : t.island.silent = true) :
    (keepLatch s t).island = { t.island with mode := .silent } ∧ (keepLatch s t).pins.faultN = false := by
  rw [keepLatch_on s t (.inr h), ← h]
  exact ⟨rfl, rfl⟩

end

end Sys2Proof.Machine
end

section
/-! PROOFS. The detectors of a failed Thallus, its supply, and the fault collector (R341 to R344). -/

namespace Sys2Proof.Machine

/-! ### The detectors (R341, R342) -/

section
variable (s : State)

/-- A detector that fires sets the latch, with its cause in THAL_FATAL (R341, R342). -/
theorem fatal_latches {g : Island → Island} (hg : ∀ i, (g i).silent = i.silent) :
    (keepLatch s (fatal g s)).island = { g { s.island with silent := true, mode := .silent } with mode := .silent } ∧
      (keepLatch s (fatal g s)).pins.faultN = false := by
  obtain ⟨hisland, hfault⟩ := keepLatch_silenced s (t := fatal g s) (by rw [fatal_island, hg])
  exact ⟨by rw [hisland, fatal_island], hfault⟩

theorem opHeartbeat_due (h : s.island.lastService + 2000000 ≤ s.safNow) : opHeartbeat s = fatal (fun i => { i with fatalHeartbeat := true }) s :=
  if_pos h

theorem opHeartbeat_early (h : s.safNow < s.island.lastService + 2000000) : opHeartbeat s = s := if_neg (by omega)

/-- Reading a table's entries of some keys alone. -/
theorem tget_filter_key {α : Type} (d : α) (p : Nat → Bool) (l : Tab α) (i : Nat) :
    tget d (l.filter (fun e => p e.1)) i = if p i then tget d l i else d := by
  induction l with
  | nil => simp [tget]
  | cons e l ih =>
    obtain ⟨k, v⟩ := e
    by_cases hk : k = i
    · subst hk
      cases hp : p k <;> simp [hp, tget] at ih ⊢
      exact ih
    · cases hp : p k <;> simp [hp, tget, hk, ih]

/-- VDD_SAF below its range: of the CAN controllers those of the island are reset (R341). -/
theorem opUndervoltage_canc (m : Nat) : (opUndervoltage s).canc m = if m < 6 then s.canc m else {} := by
  have hkeys := tget_filter_key {} (fun k => decide (k < 6)) s.can m
  simp only [decide_eq_true_eq] at hkeys
  exact hkeys

end

/-- Settles O30: each detector by `fatal_latches`, the supply by what its loss resets. -/
theorem failSilentDetectors : Obligations.FailSilentDetectors := by
  unfold Obligations.FailSilentDetectors
  intro s hs
  have hrun : ∀ f : State → State, performSaf f s = .next (keepLatch s (f s)) := fun f => performSaf_runs s f hs
  refine ⟨⟨_, hrun opLockstep, ?_⟩, ⟨_, hrun opClkloss, ?_⟩, fun hdue => ⟨_, hrun opHeartbeat, ?_⟩, fun hearly => ?_, hrun opService,
    ⟨_, hrun opUndervoltage, ?_⟩, hrun opRestored⟩
  · obtain ⟨hisland, hfault⟩ := fatal_latches s (g := fun i => { i with fatalLockstep := true }) fun _ => rfl
    rw [opLockstep, hisland]
    exact ⟨rfl, rfl, rfl, hfault⟩
  · obtain ⟨hisland, hfault⟩ := fatal_latches s (g := fun i => { i with fatalClkloss := true }) fun _ => rfl
    rw [opClkloss, hisland]
    exact ⟨rfl, rfl, rfl, hfault⟩
  · obtain ⟨hisland, hfault⟩ := fatal_latches s (g := fun i => { i with fatalHeartbeat := true }) fun _ => rfl
    rw [opHeartbeat_due s hdue, hisland]
    exact ⟨rfl, rfl, rfl, hfault⟩
  · exact (hrun opHeartbeat).trans (by rw [opHeartbeat_early s hearly])
  · refine ⟨?_, ?_, ?_, ?_, fun m hm => ?_, ?_, ?_⟩
    · rw [keepLatch_inReset]; rfl
    · exact keepLatch_faultN_low s _ rfl
    · rw [keepLatch_silent]; exact Bool.or_self _
    · rw [keepLatch_thal]; rfl
    · rw [keepLatch_canc, opUndervoltage_canc, if_pos hm]
    · rw [keepLatch_canc, opUndervoltage_canc, if_neg (by decide)]
    · rw [keepLatch_canc, opUndervoltage_canc, if_neg (by decide)]

/-! ### The collector (R343, R344) -/

section
variable {s : State} {r : FaultRec} {rest : List FaultRec}

/-- The log with a record at FLOG_WR, out of transit (R343, R344). -/
def Thal.logged (r : FaultRec) (rest : List FaultRec) (x : Thal) : Thal :=
  { x with inFlight := rest, flog := tset { valid := false } x.flog (x.flogWr.toNat % 1024) { r with valid := true, lost := x.lostMark },
           flogWr := x.flogWr + 1, lostMark := false }

theorem opFaultRecord_none (full : Bool) (h : s.thal.inFlight = []) : opFaultRecord full s = s := by
  unfold opFaultRecord; rw [h]

theorem opFaultRecord_full (h : s.thal.inFlight = r :: rest) : opFaultRecord true s =
    { s with thal := { s.thal with inFlight := rest, flogLost := satInc s.thal.flogLost, lostMark := true } } := by
  unfold opFaultRecord; rw [h]; rfl

/-- A record in transit is logged, and posted where it carries DOUBT or SAFE. -/
theorem opFaultRecord_logs (h : s.thal.inFlight = r :: rest) : opFaultRecord false s =
    if r.doubt || r.safe then
      postEvent 4 (if r.pipe = 0xF then none else some r.pipe.toNat) (if r.noframe then none else some r.frame)
        ({ r with lost := s.thal.lostMark }.head) { s with thal := s.thal.logged r rest }
    else { s with thal := s.thal.logged r rest } := by
  unfold opFaultRecord; rw [h]; rfl

/-- The post leaves the log as the record found it. -/
theorem opFaultRecord_flog (h : s.thal.inFlight = r :: rest) : (opFaultRecord false s).thal.flog = (s.thal.logged r rest).flog ∧
    (opFaultRecord false s).thal.flogWr = s.thal.flogWr + 1 := by
  rw [opFaultRecord_logs h]
  split
  · exact postEvent_flog { s with thal := s.thal.logged r rest } _ _ _ _
  · exact ⟨rfl, rfl⟩

end

/-- Settles O31: the collector by whether a record is in transit, its queue is full, and the record is one that is posted. -/
theorem faultLog : Obligations.FaultLog := by
  unfold Obligations.FaultLog
  intro s hs
  have hrun : ∀ {full : Bool} {t : State}, opFaultRecord full s = t → Completes (.faultRecord full) s t :=
    fun ht => ht ▸ performSaf_runs s _ hs
  refine ⟨fun h full => hrun (opFaultRecord_none full h), fun r rest h => ⟨hrun (opFaultRecord_full h), fun hdoubt hsafe => hrun ?_, ?_⟩⟩
  · rw [opFaultRecord_logs h, if_neg (by simp [hdoubt, hsafe])]
    rfl
  · obtain ⟨hlog, hwr⟩ := opFaultRecord_flog h
    refine ⟨_, hrun rfl, ?_, ?_⟩
    · rw [keepLatch_thal, hwr]
    · rw [keepLatch_thal, hlog, Thal.logged, tget_tset_self]

end Sys2Proof.Machine
end

section
/-! PROOFS. Heartbeats of the twin link, takeover, PEER_FAULT_N and PEER_KILL (R342, R496, R498, R499, R501, R503, R504). -/

namespace Sys2Proof.Machine

section
variable {s : State}

/-- A role that is set stays (R501). -/
theorem setRole_set (h : s.twin.roleSet = true) : setRole s = s := if_pos (by simp [h])

/-! ### Heartbeats (R496, R498, R499) -/

theorem opBeat_sends (hlink : s.twin.link = .up) (hsilent : s.island.silent = false) (hreset : s.island.inReset = false) :
    opBeat s = emit (.twinHeartbeat s.twin.sendSeq s.heartbeatPayload) { s with twin := { s.twin with sendSeq := s.twin.sendSeq + 1 } } :=
  if_neg (by simp [hlink, hsilent, hreset])

theorem opBeat_mute (h : s.twin.link ≠ .up ∨ s.island.silent = true) : opBeat s = s := if_pos (by rcases h with h | h <;> simp [h])

variable {hb : PeerHeartbeat}

theorem opHeartbeatReceive_down (h : s.twin.link ≠ .up) : opHeartbeatReceive hb s = s := if_pos h

theorem opHeartbeatReceive_bad (hlink : s.twin.link = .up) (hcrc : hb.crcOk = false) :
    opHeartbeatReceive hb s = { s with twin := { s.twin with crcErr := satInc s.twin.crcErr } } := by
  rw [opHeartbeatReceive, if_neg (not_not.mpr hlink), if_pos (by simp [hcrc])]

theorem opHeartbeatReceive_good (hrole : s.twin.roleSet = true) (hlink : s.twin.link = .up) (hcrc : hb.crcOk = true) :
    opHeartbeatReceive hb s = { s with twin := { s.twin with
      hbRx := s.twin.hbRx + 1, peerAlive := true, peerMode := hb.mode, hbTime := s.safNow, hbRunMask := hb.runMask, hbFrames := hb.frames } } := by
  rw [opHeartbeatReceive, if_neg (not_not.mpr hlink), if_neg (by simp [hcrc])]
  exact setRole_set hrole

theorem opHeartbeatLoss_due (halive : s.twin.peerAlive = true) (hdue : s.twin.hbTime + 300000 ≤ s.safNow) :
    opHeartbeatLoss s = endWaits (reportTwin 0x0A03 0 { s with twin := { s.twin with peerAlive := false } }) := if_pos (by simp [halive, hdue])

theorem opHeartbeatLoss_early (h : s.twin.peerAlive = false ∨ s.safNow < s.twin.hbTime + 300000) : opHeartbeatLoss s = s :=
  if_neg (by rcases h with h | h <;> simp [h])

end

/-- Settles O13: sending and receiving by the link, the latch and the frame's CRC, the loss by the 300 us. -/
theorem twinHeartbeats : Obligations.TwinHeartbeats := by
  unfold Obligations.TwinHeartbeats
  intro s hs hrole
  have hsend : ∀ {t : State}, opBeat s = t → Completes .heartbeatSend s t := fun ht => ht ▸ performSaf_runs s _ hs
  have hloss : ∀ {t : State}, opHeartbeatLoss s = t → Completes .heartbeatLoss s t := fun ht => ht ▸ performSaf_runs s _ hs
  refine ⟨fun hlink hsilent hreset => hsend (opBeat_sends hlink hsilent hreset), fun h => hsend (opBeat_mute h), fun hb hwf => ?_,
    fun halive hdue => hloss (opHeartbeatLoss_due halive hdue), fun h => hloss (opHeartbeatLoss_early h)⟩
  have hreceive : ∀ {t : State}, opHeartbeatReceive hb s = t → Completes (.heartbeatReceive hb) s t :=
    fun ht => ht ▸ performWfSaf_runs s _ _ hwf hs
  exact ⟨fun hlink => hreceive (opHeartbeatReceive_down hlink), fun hlink hcrc => hreceive (opHeartbeatReceive_bad hlink hcrc),
    fun hlink hcrc => hreceive (opHeartbeatReceive_good hrole hlink hcrc)⟩

section
variable {s : State}

/-! ### The takeover (R503) -/

theorem takeover_island : (takeover s).island = { s.island with mode := .active } := postEvent_island ..

theorem takeover_twin : (takeover s).twin = { s.twin with killOut := true, armed := false, roleSet := true } := postEvent_twin ..

theorem takeover_pins : (takeover s).pins = s.pins := (setMode_posted _ .active 0).pins

/-- The takeover's record comes before whatever its event reports. -/
theorem takeover_record : ∃ r l, r.code = 0x0A07 ∧ (takeover s).thal.inFlight = s.thal.inFlight ++ r :: l := by
  obtain ⟨l, hl⟩ := (setMode_posted
    { reportTwin 0x0A07 0 s with twin := { (reportTwin 0x0A07 0 s).twin with killOut := true, armed := false, roleSet := true } } .active 0).inFlight
  exact ⟨stamped { code := 0x0A07, detail := 7 } s, l, rfl, by rw [takeover, ← hl]; exact List.append_assoc ..⟩

/-- A fit device is not latched, and the latch does not hold back its takeover. -/
theorem keepLatch_takeover (u : State) (hs : s.island.silent = false) (hu : u.island = s.island) : keepLatch s (takeover u) = takeover u :=
  keepLatch_off s _ hs (by rw [takeover_island, hu]; exact hs)

theorem fit_silent (h : s.fit = true) : s.island.silent = false := by
  simp only [State.fit, Bool.and_eq_true, Bool.not_eq_true'] at h
  obtain ⟨⟨-, hsilent⟩, -⟩ := h
  exact hsilent

theorem opTakeoverWait_due (hfit : s.fit = true) (hmode : s.island.mode = .standby) (harmed : s.twin.armed = false)
    (hlow : s.pins.peerFaultN = false) (hdue : max s.twin.readyAt s.twin.lowSince + 400000000 ≤ s.safNow) :
    opTakeoverWait s = takeover s := if_pos (by simp only [hfit, hmode, harmed, hlow, hdue]; rfl)

theorem opTakeoverWait_early (h : s.safNow < max s.twin.readyAt s.twin.lowSince + 400000000) : opTakeoverWait s = s :=
  if_neg (by simp only [Bool.and_eq_true, decide_eq_true_eq]; omega)

/-! ### PEER_FAULT_N (R503) -/

/-- A high sample taken, before it arms (R503). -/
def sampledHigh (s : State) : State :=
  { s with pins := { s.pins with peerFaultN := true }, twin := { s.twin with lowSamples := 0, refusedNoted := false } }

/-- A low sample taken, before it is judged (R503). -/
def sampledLow (s : State) : State :=
  { s with pins := { s.pins with peerFaultN := false },
           twin := { s.twin with lowSamples := s.twin.lowSamples + 1, lowSince := if s.pins.peerFaultN then s.safNow else s.twin.lowSince } }

theorem opPeerHigh_samples (hs : RunsSaf s) (hrole : s.twin.roleSet = true) : opPeerHigh s = evalArm (sampledHigh s) := by
  obtain ⟨hheld, hawake⟩ := hs
  have hgate : ¬ (s.held || s.asleep 4) = true := by simp [hheld, hawake]
  exact (if_neg hgate).trans (congrArg evalArm (setRole_set hrole))

/-- With no pipeline running no wait is there to end. -/
theorem endWaits_idle (h : s.runningPipes = []) : endWaits s = s := by
  rw [endWaits, State.class0Pipes, h]; rfl

theorem opPeerLow_samples (hs : RunsSaf s) (hrole : s.twin.roleSet = true) (hidle : s.runningPipes = []) :
    opPeerLow s = lowSample (sampledLow s) := by
  obtain ⟨hheld, hawake⟩ := hs
  have hgate : ¬ (s.held || s.asleep 4) = true := by simp [hheld, hawake]
  have hends : (if s.pins.peerFaultN then endWaits (sampledLow s) else sampledLow s) = sampledLow s := by
    rw [endWaits_idle (s := sampledLow s) hidle, ite_self]
  refine (if_neg hgate).trans (congrArg lowSample ?_)
  exact (congrArg setRole hends).trans (setRole_set hrole)

theorem evalArm_pins : (evalArm s).pins = s.pins := (evalArm_posted s).pins

theorem evalArm_twin : (evalArm s).twin = { s.twin with armed := (evalArm s).twin.armed } := by
  unfold evalArm
  split <;> rfl

theorem evalArm_arms (hfit : s.fit = true) (hmode : s.island.mode = .standby) (hhigh : s.pins.peerFaultN = true) :
    (evalArm s).twin.armed = true := by
  rw [evalArm, if_pos (by simp only [hfit, hmode, hhigh]; rfl)]

theorem lowSample_takesOver (hfit : s.fit = true) (hmode : s.island.mode = .standby) (harmed : s.twin.armed = true)
    (htwo : 2 ≤ s.twin.lowSamples) : lowSample s = takeover s := by
  rw [lowSample, if_neg (by simp [hmode]), if_neg (by simp [hfit]), if_pos (by simp [harmed, htwo])]

/-- A fit device does not act on one low sample alone. -/
theorem lowSample_one (hfit : s.fit = true) (hone : s.twin.lowSamples = 1) : lowSample s = s := by
  have hfit' : ¬ (!s.fit) = true := by simp [hfit]
  have hfew : ¬ (s.twin.armed && decide (2 ≤ s.twin.lowSamples)) = true := by simp [hone]
  rw [lowSample, if_neg hfit', if_neg hfew, ite_self]

/-- However a low sample is judged, the pins and the peer's heartbeats are as they were. -/
theorem lowSample_pins : (lowSample s).pins = s.pins ∧ (lowSample s).twin.peerAlive = s.twin.peerAlive := by
  unfold lowSample
  split
  · exact ⟨rfl, rfl⟩
  split
  · split <;> exact ⟨rfl, rfl⟩
  · split
    · exact ⟨takeover_pins, by rw [takeover_twin]⟩
    · exact ⟨rfl, rfl⟩

/-! ### PEER_KILL (R504) -/

theorem opPeerKill_own (h : s.twin.killOut = true) : opPeerKill s = s := if_pos (by simp [h])

/-- The peer's PEER_KILL silences the device as a detector would. -/
theorem opPeerKill_kills (hout : s.twin.killOut = false) (hkilled : s.twin.killed = false) :
    (opPeerKill s).island = { s.island with silent := true, mode := .silent } ∧ (opPeerKill s).twin.killed = true ∧
      (opPeerKill s).thal.inFlight = s.thal.inFlight ++ [stamped { code := 0x0A06, detail := 7 } s] := by
  rw [opPeerKill, if_neg (by simp [hout, hkilled]), silence_frame]
  exact ⟨rfl, rfl, rfl⟩

/-! ### The clauses of O15 -/

theorem keepLatch_peerFaultN (u : State) : (keepLatch s u).pins.peerFaultN = u.pins.peerFaultN := by unfold keepLatch; split <;> rfl

theorem peerFaultNHigh_arms (hs : RunsSaf s) (hrole : s.twin.roleSet = true) :
    ∃ t, exec .peerFaultNHigh s = .next t ∧ t.pins.peerFaultN = true ∧ t.twin.lowSamples = 0 ∧
      (s.fit = true → s.island.mode = .standby → t.twin.armed = true) := by
  refine ⟨keepLatch s (opPeerHigh s), rfl, ?_⟩
  rw [keepLatch_peerFaultN, keepLatch_twin, opPeerHigh_samples hs hrole]
  exact ⟨by rw [evalArm_pins]; rfl, by rw [evalArm_twin]; rfl, fun hfit hmode => evalArm_arms (s := sampledHigh s) hfit hmode rfl⟩

theorem takeover_clause {c : Instr} {u : State} (hc : exec c s = .next (keepLatch s (takeover u))) (hfit : s.fit = true)
    (hisland : u.island = s.island) (hthal : u.thal = s.thal) :
    ∃ t, exec c s = .next t ∧ t.island.mode = .active ∧ t.twin.killOut = true ∧ t.twin.armed = false ∧
      ∃ r l, r.code = 0x0A07 ∧ t.thal.inFlight = s.thal.inFlight ++ r :: l := by
  rw [keepLatch_takeover u (fit_silent hfit) hisland] at hc
  refine ⟨_, hc, ?_, ?_, ?_, ?_⟩
  · rw [takeover_island]
  · rw [takeover_twin]
  · rw [takeover_twin]
  · rw [← hthal]; exact takeover_record

end

/-- Settles O15: a sample of PEER_FAULT_N by what it leaves of the samples and how it is judged, each takeover by `takeover_clause`. -/
theorem twinTakeover : Obligations.TwinTakeover := by
  unfold Obligations.TwinTakeover
  intro s hs hrole hidle
  have hlow : exec .peerFaultNLow s = .next (keepLatch s (lowSample (sampledLow s))) := by
    rw [← opPeerLow_samples hs hrole hidle]; rfl
  have hwait : ∀ {t : State}, opTakeoverWait s = t → Completes .takeoverWaitExpiry s t := fun ht => ht ▸ performSaf_runs s _ hs
  have hkill : ∀ {t : State}, opPeerKill s = t → Completes .peerKill s t := fun ht => ht ▸ performSaf_runs s _ hs
  refine ⟨peerFaultNHigh_arms hs hrole, ⟨_, hlow, ?_⟩, fun hfit hmode harmed hone => ?_, fun hzero hfit => ⟨_, hlow, ?_⟩,
    fun hfit hmode harmed hpin hdue => ?_, fun h => hwait (opTakeoverWait_early h), fun hout hkilled => ?_,
    fun h => hkill (opPeerKill_own h)⟩
  · obtain ⟨hpins, halive⟩ := lowSample_pins (s := sampledLow s)
    rw [keepLatch_peerFaultN, keepLatch_twin, hpins, halive]
    exact ⟨rfl, rfl⟩
  · rw [lowSample_takesOver (s := sampledLow s) hfit hmode harmed (Nat.succ_le_succ hone)] at hlow
    exact takeover_clause hlow hfit rfl rfl
  · rw [lowSample_one (s := sampledLow s) hfit (congrArg (· + 1) hzero), keepLatch_off s (sampledLow s) (fit_silent hfit) (fit_silent hfit)]
    exact ⟨rfl, rfl⟩
  · obtain ⟨t, ht, hactive, hkillOut, -⟩ := takeover_clause (hwait (opTakeoverWait_due hfit hmode harmed hpin hdue)) hfit rfl rfl
    exact ⟨t, ht, hactive, hkillOut⟩
  · obtain ⟨hisland, hkilled', hflight⟩ := opPeerKill_kills hout hkilled
    have hsilent : (opPeerKill s).island.silent = true := by rw [hisland]
    obtain ⟨hquiet, hfault⟩ := keepLatch_silenced s hsilent
    refine ⟨_, stamped { code := 0x0A06, detail := 7 } s, hkill rfl, ?_⟩
    rw [hquiet, keepLatch_twin, keepLatch_thal]
    exact ⟨hkilled', hsilent, rfl, hfault, rfl, _, hflight, List.mem_singleton_self _⟩

end Sys2Proof.Machine
end

section
/-! PROOFS. Runs of Moss and its IMU (R335, R336, R337, R342, R359). -/

namespace Sys2Proof.Machine

section
variable {s : State} {p : Nat}

/-! ### The start of a run (R335, R339) -/

/-- What keeps a run of pipeline p from starting: Moss not ready, a run under way, a run due of a pipeline before it. -/
def State.mossHeld (s : State) (p : Nat) : Prop :=
  s.island.mossReady = false ∨ (∃ e ∈ s.thal.moss, e.2.runningFrame ≠ none) ∨ ∃ q < p, s.mossFrame q ≠ none

theorem mossHeld_iff : (!s.island.mossReady || s.thal.moss.any (fun e => e.2.runningFrame.isSome) ||
    (List.range p).any (fun q => (s.mossFrame q).isSome)) = true ↔ s.mossHeld p := by
  simp only [State.mossHeld, Bool.or_eq_true, Bool.not_eq_true', List.any_eq_true, List.mem_range, Option.isSome_iff_ne_none, or_assoc]

theorem opMossRunStart_held (h : s.mossHeld p) : opMossRunStart p s = s := if_pos (mossHeld_iff.mpr h)

theorem opMossRunStart_none (h : s.mossFrame p = none) : opMossRunStart p s = s := by
  rw [opMossRunStart, h, ite_self]

theorem opMossRunStart_begins {k : Word32} (hready : s.island.mossReady = true) (hfree : ∀ e ∈ s.thal.moss, e.2.runningFrame = none)
    (hfirst : ∀ q < p, s.mossFrame q = none) (hk : s.mossFrame p = some k) :
    opMossRunStart p s = mossBegin p k (if s.island.restarting then State.modMoss p feedBad s else readFeed p k s) := by
  have hgo : ¬ s.mossHeld p := by
    rintro (h | ⟨e, he, h⟩ | ⟨q, hq, h⟩)
    · exact absurd hready (by simp [h])
    · exact h (hfree e he)
    · exact h (hfirst q hq)
  rw [opMossRunStart, if_neg (mt mossHeld_iff.mp hgo), hk]

/-- The oldest open frame Moss has not run for, its PERCEIVE complete or closed (R335). -/
theorem mossFrame_open {l : Ledger} (hr : s.island.restarting = false) (hrun : (s.pipe p).running = true) (hcls : (s.pipe p).cls = 0)
    (hl : (s.openFrames p).find? (fun l => (s.moss p).doneFrame ≠ some l.frame &&
      (match (s.moss p).doneFrame with | some d => decide ((l.frame - d).toNat < 2 ^ 31) | none => true) &&
      (l.stageDone 2 || decide (l.tEdge.toNat + s.closeOf p 2 ≤ s.gctl.time.toNat))) = some l) : s.mossFrame p = some l.frame := by
  have hrest : ¬ s.island.restarting = true := by simp [hr]
  have hruns : ¬ (!((s.pipe p).running && (s.pipe p).cls = 0)) = true := by simp [hrun, hcls]
  exact (if_neg hrest).trans ((if_neg hruns).trans (congrArg (Option.map fun l : Ledger => l.frame) hl))

theorem mossFrame_restart (hr : s.island.restarting = true) (hc : s.island.c0Running.contains p = true)
    (hk : (s.moss p).doneFrame ≠ some (s.fclk (s.moss p).fclk).frame) : s.mossFrame p = some (s.fclk (s.moss p).fclk).frame := by
  unfold State.mossFrame
  dsimp only
  rw [if_pos hr, if_pos (by simp only [hc, hk, ne_eq, not_false_eq_true, decide_true, Bool.and_self])]

theorem mossBegin_runningFrame (k : Word32) : ((mossBegin p k s).moss p).runningFrame = some k := by
  change ((State.modMoss p (fun m => { m with runningFrame := some k, runStart := s.gctl.time, runAge := m.feedAge })
    { s with thal := { s.thal with mossStore := placeFeed (s.moss p).feed s.thal.mossStore } }).moss p).runningFrame = _
  rw [State.modMoss_moss]

/-! ### The end of a run (R336) -/

/-- Moss after its run for frame k: the payloads it gives and the envelope are that frame's (R336). -/
def MossRec.ended (own : List (Nat × List Byte)) (env : Option (List (Fin 16 × Fin 4 × Int × Int))) (k : Word32) (m : MossRec) : MossRec :=
  { m with runningFrame := none, doneFrame := some k, payloads := own, payloadFrame := some k, stopped := 0,
           envelope := env.map (fun e => (k, e.map (fun x => (x.1.val, x.2.1.val, x.2.2.1, x.2.2.2)))) }

/-- The payloads of the pipeline's own channels. -/
def State.ownPayloads (s : State) (p : Nat) (payloads : List (Fin 16 × List Byte)) : List (Nat × List Byte) :=
  (payloads.filter (fun x => (s.channelsOf p).contains x.1.val)).map (fun x => (x.1.val, x.2))

/-- The end of a run before any submission (R336). -/
def endRun (p : Nat) (payloads : List (Fin 16 × List Byte)) (env : Option (List (Fin 16 × Fin 4 × Int × Int))) (us : Nat) (k : Word32)
    (s : State) : State :=
  let t := State.modMoss p (MossRec.ended (s.ownPayloads p payloads) env k) s
  { t with thal := { t.thal with mossRunUs := BitVec.ofNat 16 us, mossStopped := 0 } }

variable {payloads : List (Fin 16 × List Byte)} {env : Option (List (Fin 16 × Fin 4 × Int × Int))} {us : Nat} {k : Word32}

theorem endRun_moss : (endRun p payloads env us k s).moss p = (s.moss p).ended (s.ownPayloads p payloads) env k :=
  State.modMoss_moss s p (MossRec.ended (s.ownPayloads p payloads) env k)

/-- Where no submission waits for the run's end, nothing is submitted at it. -/
theorem opMossRunEnd_ends (hk : (s.moss p).runningFrame = some k) (hdue : (s.moss p).submitDue = false)
    (hr : s.island.restarting = false) : opMossRunEnd p payloads env us s = endRun p payloads env us k s := by
  have hnow : ¬ (((endRun p payloads env us k s).moss p).submitDue || (endRun p payloads env us k s).island.restarting) = true := by
    rw [endRun_moss]
    simp only [MossRec.ended, hdue, Bool.false_or]
    exact Bool.eq_false_iff.mp hr
  unfold opMossRunEnd
  rw [hk]
  exact if_neg hnow

/-! ### A run that reaches 1 ms (R337) -/

/-- What a run leaves that Moss's submissions do not touch. -/
def State.runOutcome (s : State) (p : Nat) : Option Word32 × Option (Word32 × List (Nat × Nat × Int × Int)) × BitVec 16 :=
  ((s.moss p).runningFrame, (s.moss p).envelope, s.thal.mossRunUs)

theorem modMoss_runOutcome (q : Nat) {g : MossRec → MossRec} (hg : ∀ r, (g r).runningFrame = r.runningFrame ∧ (g r).envelope = r.envelope) :
    (State.modMoss q g s).runOutcome p = s.runOutcome p := by
  unfold State.runOutcome
  by_cases h : p = q
  · subst h
    rw [State.modMoss_moss, (hg _).1, (hg _).2]
    rfl
  · rw [State.modMoss_moss_ne _ _ _ _ h]
    rfl

theorem mossWrite_runOutcome (c : Nat) (d : List Byte) (q : Nat) : (mossWrite c d q s).runOutcome p = s.runOutcome p := by
  have habort (m o : Nat) : (abortObj m o s).runOutcome p = s.runOutcome p := by
    unfold abortObj
    split <;> rfl
  unfold mossWrite
  dsimp only
  split
  · exact (modMoss_runOutcome q (g := fun r => { r with dueChans := addNew r.dueChans c }) fun _ => ⟨rfl, rfl⟩).trans (habort _ _)
  · exact habort _ _

theorem mossSubmit_runOutcome (q : Nat) : (mossSubmit q s).runOutcome p = s.runOutcome p := by
  unfold mossSubmit
  split
  · exact modMoss_runOutcome q fun _ => ⟨rfl, rfl⟩
  · rw [foldl_keeps (fun t : State => t.runOutcome p) (fun t (e : Nat × List Byte) => mossWrite e.1 e.2 q t)
      (fun t e => mossWrite_runOutcome e.1 e.2 q)]
    exact modMoss_runOutcome q fun _ => ⟨rfl, rfl⟩

/-- Moss after its run for frame k was stopped (R337). -/
def MossRec.stoppedAt (k : Word32) (m : MossRec) : MossRec :=
  { m with runningFrame := none, doneFrame := some k, envelope := none, stopped := m.stopped + 1 }

/-- A run is stopped and recorded, before any submission (R337). -/
def stopRun (p : Nat) (k : Word32) (s : State) : State :=
  let t := State.modMoss p (MossRec.stoppedAt k) (reportFrame 0x0930 p k false 0 s)
  { t with thal := { t.thal with mossRunUs := 1000, mossStopped := BitVec.ofNat 2 (min 3 ((s.moss p).stopped + 1)) } }

/-- The payloads of the last run that gave any, where they are due (R337). -/
def submitOld (p : Nat) (s : State) : State :=
  if (s.moss p).submitDue || s.island.restarting then (if (s.moss p).payloadFrame.isSome then mossSubmit p s else s) else s

theorem opMossOverrun_early (hk : (s.moss p).runningFrame = some k) (h : s.gctl.time.toNat < (s.moss p).runStart.toNat + 1000000) :
    opMossOverrun p s = s := by
  unfold opMossOverrun
  dsimp only
  rw [hk]
  exact if_pos h

theorem opMossOverrun_stops (hk : (s.moss p).runningFrame = some k) (h : (s.moss p).runStart.toNat + 1000000 ≤ s.gctl.time.toNat) :
    opMossOverrun p s = if (s.moss p).stopped + 1 ≥ 2 then fatal (fun i => { i with fatalMoss := true }) (submitOld p (stopRun p k s))
      else submitOld p (stopRun p k s) := by
  unfold opMossOverrun
  dsimp only
  rw [hk]
  exact if_neg (by omega)

theorem submitOld_runOutcome : (submitOld p s).runOutcome p = s.runOutcome p := by
  unfold submitOld
  split
  · split
    · exact mossSubmit_runOutcome p
    · rfl
  · rfl

theorem submitOld_ceded : Ceded s (submitOld p s) :=
  Ceded.ite (Ceded.ite (mossSubmit_ceded s p) (Ceded.refl s)) (Ceded.refl s)

theorem stopRun_runOutcome : (stopRun p k s).runOutcome p = (none, none, 1000) := by
  have hmoss : (stopRun p k s).moss p = (s.moss p).stoppedAt k :=
    State.modMoss_moss (reportFrame 0x0930 p k false 0 s) p (MossRec.stoppedAt k)
  rw [State.runOutcome, hmoss]
  rfl

/-- The second stopped run in a row latches the device; the first does not touch the rest of what it leaves (R337). -/
theorem opMossOverrun_thal (hk : (s.moss p).runningFrame = some k) (h : (s.moss p).runStart.toNat + 1000000 ≤ s.gctl.time.toNat) :
    (opMossOverrun p s).thal = (submitOld p (stopRun p k s)).thal := by
  rw [opMossOverrun_stops hk h]
  split
  · exact fatal_thal _ _
  · rfl

theorem opMossOverrun_latches (hk : (s.moss p).runningFrame = some k) (h : (s.moss p).runStart.toNat + 1000000 ≤ s.gctl.time.toNat)
    (hstop : 1 ≤ (s.moss p).stopped) : (opMossOverrun p s).island.silent = true ∧ (opMossOverrun p s).island.fatalMoss = true := by
  rw [opMossOverrun_stops hk h, if_pos (by omega), fatal_island]
  exact ⟨rfl, rfl⟩

theorem opMossOverrun_outcome (hk : (s.moss p).runningFrame = some k) (h : (s.moss p).runStart.toNat + 1000000 ≤ s.gctl.time.toNat) :
    ((opMossOverrun p s).moss p).runningFrame = none ∧ ((opMossOverrun p s).moss p).envelope = none ∧
      (opMossOverrun p s).thal.mossRunUs = 1000 := by
  have hout : (submitOld p (stopRun p k s)).runOutcome p = (none, none, 1000) := submitOld_runOutcome.trans stopRun_runOutcome
  rw [State.moss, opMossOverrun_thal hk h]
  simpa [State.runOutcome, State.moss] using hout

/-- The stopped run's record comes before whatever the submission reports. -/
theorem opMossOverrun_record (hk : (s.moss p).runningFrame = some k) (h : (s.moss p).runStart.toNat + 1000000 ≤ s.gctl.time.toNat) :
    ∃ r l, r.code = 0x0930 ∧ (opMossOverrun p s).thal.inFlight = s.thal.inFlight ++ r :: l := by
  obtain ⟨l, hl⟩ := (submitOld_ceded (p := p) (s := stopRun p k s)).inFlight
  refine ⟨stamped (withPipe s p k { code := 0x0930 }) s, l, rfl, ?_⟩
  rw [opMossOverrun_thal hk h, ← hl]
  exact List.append_assoc ..

end

section
variable {s : State} {p : Pipe}

@[simp] theorem keepLatch_moss (s t : State) (q : Nat) : (keepLatch s t).moss q = t.moss q := State.moss_congr _ (keepLatch_thal s t) q

theorem keepLatch_fatalMoss (s t : State) : (keepLatch s t).island.fatalMoss = t.island.fatalMoss := by unfold keepLatch; split <;> rfl

theorem mossRunEnd_clause (hs : Runs s) {payloads : List (Fin 16 × List Byte)} {env : Option (List (Fin 16 × Fin 4 × Int × Int))} {us : Nat}
    {k : Word32} (hwf : (Instr.mossRunEnd p payloads env us).wf = true) (hk : (s.moss p).runningFrame = some k)
    (hdue : (s.moss p).submitDue = false) (hr : s.island.restarting = false) :
    ∃ t, exec (.mossRunEnd p payloads env us) s = .next t ∧ (t.moss p).runningFrame = none ∧ (t.moss p).doneFrame = some k ∧
      (t.moss p).payloadFrame = some k ∧ (t.moss p).stopped = 0 ∧ t.thal.mossRunUs = BitVec.ofNat 16 us ∧ t.can = s.can ∧
      (t.moss p).payloads = (payloads.filter (fun x => (s.channelsOf p).contains x.1.val)).map (fun x => (x.1.val, x.2)) := by
  refine ⟨_, performWf_runs s (opMossRunEnd p payloads env us) _ hwf hs, ?_⟩
  rw [opMossRunEnd_ends hk hdue hr, keepLatch_moss, keepLatch_thal, keepLatch_can, endRun_moss]
  exact ⟨rfl, rfl, rfl, rfl, rfl, rfl, rfl⟩

theorem mossOverrun_clause (hs : Runs s) {k : Word32} (hk : (s.moss p).runningFrame = some k)
    (h : (s.moss p).runStart.toNat + 1000000 ≤ s.gctl.time.toNat) :
    ∃ t r, exec (.mossOverrun p) s = .next t ∧ r.code = 0x0930 ∧ (∃ l, t.thal.inFlight = s.thal.inFlight ++ r :: l) ∧
      (t.moss p).runningFrame = none ∧ (t.moss p).envelope = none ∧ t.thal.mossRunUs = 1000 ∧
      (1 ≤ (s.moss p).stopped → t.island.silent = true ∧ t.island.fatalMoss = true) := by
  obtain ⟨r, l, hcode, hflight⟩ := opMossOverrun_record hk h
  obtain ⟨hrunning, henvelope, hus⟩ := opMossOverrun_outcome hk h
  refine ⟨_, r, perform_runs s (opMossOverrun p) hs, hcode, ⟨l, ?_⟩, ?_, ?_, ?_, fun hstop => ?_⟩
  · rw [keepLatch_thal, hflight]
  · rw [keepLatch_moss, hrunning]
  · rw [keepLatch_moss, henvelope]
  · rw [keepLatch_thal, hus]
  · obtain ⟨hsilent, hcause⟩ := opMossOverrun_latches hk h hstop
    exact ⟨by rw [keepLatch_silent, hsilent, Bool.or_true], by rw [keepLatch_fatalMoss, hcause]⟩

end

/-- Settles O32: a run's start by `mossFrame`, its end by `endRun`, the run that reaches 1 ms by `stopRun` and the submission after it. -/
theorem mossRuns : Obligations.MossRuns := by
  unfold Obligations.MossRuns
  intro s p
  have hstart : ∀ {t : State}, Runs s → opMossRunStart p s = t → Completes (.mossRunStart p) s t := fun hs ht => ht ▸ perform_runs s _ hs
  have himu : ∀ {ok sample}, RunsSaf s → (Instr.imuTransfer ok sample).wf = true →
      exec (.imuTransfer ok sample) s = .next (keepLatch s (opImu ok sample s)) :=
    fun hs hwf => (if_pos hwf).trans (performSaf_runs s _ hs)
  refine ⟨fun hs h => hstart hs ?_, fun hs l hready hfree hfirst hr hrun hcls hl => ⟨hstart hs ?_, mossBegin_runningFrame _⟩,
    fun hs hready hfree hfirst hr hc hk => hstart hs ?_, fun hs payloads env us k hwf => mossRunEnd_clause hs hwf,
    fun hs k => mossOverrun_clause hs, fun hs k hk h => ?_, fun hs sample hwf => himu hs hwf, fun hs sample hwf => ?_⟩
  · rcases h with h | h | h | h
    · exact opMossRunStart_held (.inl h)
    · exact opMossRunStart_held (.inr (.inl h))
    · exact opMossRunStart_held (.inr (.inr h))
    · exact opMossRunStart_none h
  · rw [opMossRunStart_begins hready hfree hfirst (mossFrame_open hr hrun hcls hl), if_neg (by simp [hr])]
  · rw [opMossRunStart_begins hready hfree hfirst (mossFrame_restart hr hc hk), if_pos hr]
  · exact (perform_runs s (opMossOverrun p) hs).trans (by rw [opMossOverrun_early hk h])
  · refine ⟨_, stamped { code := 0x0932 } s, himu hs hwf, rfl, ?_⟩
    rw [keepLatch_thal]
    exact ⟨rfl, rfl⟩

end Sys2Proof.Machine
end

section
/-! PROOFS. Golden requests, sequences and results (R325 to R329). -/

namespace Sys2Proof.Machine

section
variable {s : State} {f : Nat}

theorem keepLatch_fp (s t : State) (j : Nat) : (keepLatch s t).fp j = t.fp j := State.fp_congr _ (keepLatch_sched s t) j

/-! ### Sequences and results (R326, R328, R329) -/

theorem opGolden_starts (hreq : (s.frond f).golden.clockReq = true ∨ (s.frond f).golden.checkReqs ≠ [])
    (hrun : (s.frond f).golden.running = false) (hgap : s.goldenGap f = true) (hepoch : (s.frond f).epochBusy = false) :
    opGolden f s = State.modGolden f (fun g => { g with
      running := true, startedAt := s.gctl.time, epochAt := (s.frond f).epoch, answersClock := g.clockReq, clockReq := false,
      answers := g.checkReqs, checkReqs := [], forced := false }) s := by
  have hpending : (s.frond f).golden.pending = true := by simpa [GoldenRec.pending] using hreq
  exact if_pos (by simp only [hpending, hrun, hgap, hepoch]; rfl)

theorem opGoldenResult_idle (pass : Bool) (h : (s.frond f).golden.running = false) : opGoldenResult f pass s = s := if_pos (by simp [h])

/-- The running sequence has ended, before its result is acted on (R328). -/
def goldenEnded (f : Nat) (s : State) : State :=
  State.modGolden f (fun g => { g with running := false, answersClock := false, answers := [], lastDone := some s.gctl.time }) s

theorem opGoldenResult_ends (pass : Bool) (h : (s.frond f).golden.running = true) :
    opGoldenResult f pass s = if pass then goldenPass f (goldenEnded f s) else goldenFail f (goldenEnded f s) := if_neg (by simp [h])

theorem goldenEnded_golden : ((goldenEnded f s).frond f).golden =
    { (s.frond f).golden with running := false, answersClock := false, answers := [], lastDone := some s.gctl.time } := by
  rw [goldenEnded, State.modGolden, State.modFrond_frond]

/-- A pass verifies a spare (R329). -/
theorem goldenPass_spare (hfl : (s.fp f).replaceFl = none) (hst : (s.fp f).st = .spareUnverified) :
    goldenPass f s = State.modFp f (fun x => { x with st := .spare }) (State.modGolden f (fun g => { g with unverified := false }) s) := by
  unfold goldenPass
  dsimp only
  have hfl' : ((State.modGolden f (fun g => { g with unverified := false }) s).fp f).replaceFl = none := hfl
  rw [hfl']
  exact if_pos hst

/-- A fail is recorded, and counted (R328). -/
def goldenFailed (f : Nat) (s : State) : State :=
  let t := reportFrond f { code := 0x0118 } s
  { t with thal := { t.thal with goldenFails := satInc t.thal.goldenFails } }

/-- A mapped Frond that failed is to be retired at the next boundary, any other is retired at once (R329). -/
def FpRec.failedGolden (x : FpRec) : FpRec := if x.st = .mapped then { x with retireMark := true } else { x with st := .retired }

/-- An update of a Frond's place matters only at what the place holds. -/
theorem State.modFp_congr {g h : FpRec → FpRec} (e : g (s.fp f) = h (s.fp f)) : State.modFp f g s = State.modFp f h s := by
  rw [State.modFp, State.modFp, e]

/-- With no frame open a fail is recorded and counted, and falls on the Frond alone (R328, R329). -/
theorem goldenFail_unused (hidle : s.runningPipes = []) (hfl : (s.fp f).replaceFl = none) :
    goldenFail f s = State.modFp f FpRec.failedGolden (goldenFailed f s) := by
  unfold goldenFail
  rw [hidle]
  dsimp only
  split
  · next fl hsome => exact nomatch hsome.symm.trans hfl
  · split
    · next hmapped => exact State.modFp_congr (if_pos hmapped).symm
    · next hspare => exact State.modFp_congr (if_neg hspare).symm

theorem goldenFailed_golden : ((goldenFailed f s).frond f).golden = (s.frond f).golden := by
  change ((reportFrond f { code := 0x0118 } s).frond f).golden = _
  rw [reportFrond_frond]

/-! ### The deadline and the clock's edge (R325, R327, R328) -/

/-- A loop whose step i maps entry i and leaves the others maps every entry once. -/
theorem forUpTo_entry {σ α : Type} {g : Nat → σ → σ} (get : σ → Nat → α) (u : α → α) (hself : ∀ i t, get (g i t) i = u (get t i))
    (hother : ∀ i j t, j ≠ i → get (g i t) j = get t j) (n : Nat) (t : σ) (j : Nat) :
    get (forUpTo n g t) j = if j < n then u (get t j) else get t j := by
  induction n with
  | zero => rfl
  | succ n ih =>
    have hlast : forUpTo (n + 1) g t = g n (forUpTo n g t) := by simp [forUpTo, List.range_succ]
    rw [hlast]
    by_cases hj : j = n
    · subst hj
      rw [hself, ih, if_neg (lt_irrefl j), if_pos (Nat.lt_succ_self j)]
    · rw [hother n j _ hj, ih]
      simp only [Nat.lt_succ_iff_lt_or_eq, hj, or_false]

theorem modGolden_golden_ne {g : GoldenRec → GoldenRec} {j : Nat} (h : j ≠ f) :
    ((State.modGolden f g s).frond j).golden = (s.frond j).golden := by
  rw [State.modGolden, State.modFrond_frond_ne _ _ _ _ h]

theorem modGolden_golden (g : GoldenRec → GoldenRec) : ((State.modGolden f g s).frond f).golden = g (s.frond f).golden := by
  rw [State.modGolden, State.modFrond_frond]

/-- A pending clock request is forced. -/
def GoldenRec.force (g : GoldenRec) : GoldenRec := { g with forced := g.forced || g.clockReq }

theorem GoldenRec.force_idle {g : GoldenRec} (h : g.clockReq = false) : g.force = g := by
  have hforced : (g.forced || g.clockReq) = g.forced := by rw [h, Bool.or_false]
  rw [GoldenRec.force, hforced]

theorem GoldenRec.force_requested {g : GoldenRec} (h : g.clockReq = true) : g.force = { g with forced := true } := by
  have hforced : (g.forced || g.clockReq) = true := by rw [h, Bool.or_true]
  rw [GoldenRec.force, hforced]

theorem forceStep_golden (i : Nat) :
    (((if (s.frond i).golden.clockReq then State.modGolden i (fun g => { g with forced := true }) s else s).frond i).golden =
      (s.frond i).golden.force) := by
  cases hreq : (s.frond i).golden.clockReq with
  | true =>
    rw [if_pos rfl, modGolden_golden, GoldenRec.force_requested hreq]
  | false =>
    rw [if_neg Bool.false_ne_true, GoldenRec.force_idle hreq]

theorem opGoldenDeadline_early (h : 10 * (s.gctl.time.toNat - s.thal.goldenEdge.toNat) < s.goldenPer * 9) : opGoldenDeadline s = s :=
  if_neg (by omega)

/-- At 90 % of the period every pending clock request is forced (R327). -/
theorem opGoldenDeadline_forces (h : s.goldenPer * 9 ≤ 10 * (s.gctl.time.toNat - s.thal.goldenEdge.toNat)) (hf : f < 144) :
    ((opGoldenDeadline s).frond f).golden = (s.frond f).golden.force := by
  rw [opGoldenDeadline, if_pos h]
  refine (forUpTo_entry (fun t j => (t.frond j).golden) GoldenRec.force (fun i t => forceStep_golden i) (fun i j t hj => ?_) 144 s f).trans
    (if_pos hf)
  split
  · exact modGolden_golden_ne hj
  · rfl

/-- The edge asks Frond f for a sequence where it takes requests (R325). -/
def requestFrond (f : Nat) (s : State) : State :=
  if s.goldenEligible f then State.modGolden f (fun g => { g with clockReq := true }) s else s

/-- Frond f answers the edge's request where it takes requests. -/
def State.asked (s : State) (f : Nat) : Prop := s.goldenEligible f = true → (s.frond f).golden.clockReq = true

theorem requestFrond_asked (i : Nat) : (requestFrond i s).asked i := by
  unfold requestFrond
  split
  · intro _
    rw [modGolden_golden]
  · next hno => exact fun hyes => absurd hyes hno

/-- A request of one Frond takes back no other's. -/
theorem requestFrond_keeps (i j : Nat) (h : s.asked j) : (requestFrond i s).asked j := by
  unfold requestFrond
  split
  · intro he
    by_cases hji : j = i
    · rw [hji, modGolden_golden]
    · rw [modGolden_golden_ne hji]
      exact h he
  · exact h

/-- The period that ended is judged, and its frame boundary passes (R293, R328). -/
def endPeriod (e0 e1 : Nat) (s : State) : State :=
  frameBoundary (forUpTo 144 (fun f t =>
    let g := (t.frond f).golden
    if t.goldenEligible f && (g.clockReq || (g.running && g.answersClock)) then unverifiedFrond f e0 e1 t else t) s)

theorem requests_asked (hf : f < 144) : (forUpTo 144 requestFrond s).asked f :=
  forUpTo_each (Q := fun j t => State.asked t j) (fun i _ => requestFrond_asked i) (fun i j _ hj => requestFrond_keeps i j hj) 144 s f hf

theorem opGoldenEdge_early (h : s.goldenDue = none) : opGoldenEdge s = s := by
  unfold opGoldenEdge
  rw [h]

/-- An edge that is due judges the period and asks every eligible Frond (R325). -/
theorem opGoldenEdge_due {e : Word64} (h : s.goldenDue = some e) :
    ∃ u : State, (∀ f < 144, u.asked f) ∧ opGoldenEdge s = { u with thal := { u.thal with goldenEdge := e } } := by
  have hstep : requestFrond = fun f t => if t.goldenEligible f then State.modGolden f (fun g => { g with clockReq := true }) t else t := rfl
  refine ⟨forUpTo 144 requestFrond (endPeriod s.thal.goldenEdge.toNat e.toNat s), fun f hf => requests_asked hf, ?_⟩
  unfold opGoldenEdge
  rw [h, hstep, endPeriod]

end

section
variable {s : State} {fp : Frond}

/-! ### The clauses of O36 -/

theorem goldenResult_pass (hs : RunsFab s fp) (hrun : (s.frond fp).golden.running = true) (hfl : (s.fp fp).replaceFl = none)
    (hst : (s.fp fp).st = .spareUnverified) :
    ∃ t, exec (.goldenResult fp true) s = .next t ∧ (t.fp fp).st = .spare ∧ (t.frond fp).golden.running = false ∧
      (t.frond fp).golden.unverified = false ∧ (t.frond fp).golden.lastDone = some s.gctl.time := by
  have hop : opGoldenResult fp true s = goldenPass fp (goldenEnded fp s) := opGoldenResult_ends true hrun
  refine ⟨_, performFab_runs s _ fp hs, ?_⟩
  rw [keepLatch_fp, keepLatch_frond, hop, goldenPass_spare (s := goldenEnded fp s) hfl hst, State.modFp_fp,
    State.frond_congr _ (State.modFp_fronds ..), modGolden_golden, goldenEnded_golden]
  exact ⟨rfl, rfl, rfl, rfl⟩

theorem goldenResult_fail (hs : RunsFab s fp) (hrun : (s.frond fp).golden.running = true) (hfl : (s.fp fp).replaceFl = none)
    (hidle : s.runningPipes = []) :
    ∃ t r, exec (.goldenResult fp false) s = .next t ∧ r.code = 0x0118 ∧ t.thal.inFlight = s.thal.inFlight ++ [r] ∧
      t.thal.goldenFails = satInc s.thal.goldenFails ∧ (t.frond fp).golden.running = false ∧
      ((s.fp fp).st = .mapped → (t.fp fp).retireMark = true ∧ (t.fp fp).st = .mapped) ∧
      ((s.fp fp).st ≠ .mapped → (t.fp fp).st = .retired) := by
  obtain ⟨r, hcode, hflight⟩ := reportFrond_code (f := fp) (s := goldenEnded fp s) { code := 0x0118 }
  have hop : opGoldenResult fp false s = goldenFail fp (goldenEnded fp s) := opGoldenResult_ends false hrun
  refine ⟨_, r, performFab_runs s _ fp hs, hcode, ?_⟩
  have hgolden : ((goldenFailed fp (goldenEnded fp s)).frond fp).golden.running = false := by
    rw [goldenFailed_golden, goldenEnded_golden]
  have hplace : (goldenFailed fp (goldenEnded fp s)).fp fp = s.fp fp := rfl
  rw [keepLatch_thal, keepLatch_frond, keepLatch_fp, hop, goldenFail_unused (s := goldenEnded fp s) hidle hfl, State.modFp_fp, hplace]
  refine ⟨hflight, rfl, hgolden, fun hmapped => ?_, fun hspare => ?_⟩
  · rw [FpRec.failedGolden, if_pos hmapped]
    exact ⟨rfl, hmapped⟩
  · rw [FpRec.failedGolden, if_neg hspare]

theorem goldenClockEdge_asks (hs : Runs s) {e : Word64} (h : s.goldenDue = some e) :
    ∃ t, exec .goldenClockEdge s = .next t ∧ t.thal.goldenEdge = e ∧
      ∀ f : Frond, t.goldenEligible f = true → (t.frond f).golden.clockReq = true := by
  obtain ⟨u, hasked, hop⟩ := opGoldenEdge_due h
  refine ⟨_, perform_runs s opGoldenEdge hs, ?_⟩
  rw [hop]
  refine ⟨by rw [keepLatch_thal], fun f he => ?_⟩
  rw [keepLatch_frond]
  exact hasked f f.isLt (by rwa [State.goldenEligible, keepLatch_fp, keepLatch_quad] at he)

end

/-- Settles O36: a sequence's start and end by the Frond's own record, the deadline by `opGoldenDeadline_forces`, the edge by its last loop. -/
theorem goldenSequences : Obligations.GoldenSequences := by
  unfold Obligations.GoldenSequences
  intro s fp
  have hdeadline : ∀ {t : State}, Runs s → opGoldenDeadline s = t → exec .goldenDeadline s = .next (keepLatch s t) :=
    fun hs ht => ht ▸ perform_runs s _ hs
  refine ⟨fun hs hreq hrun hgap hepoch => ?_, fun hs pass hrun => ?_, fun hs hrun hfl hst => goldenResult_pass hs hrun hfl hst,
    fun hs hrun hfl hidle => goldenResult_fail hs hrun hfl hidle, fun hs hdue => ⟨_, hdeadline hs rfl, fun f => ?_⟩,
    fun hs h => hdeadline hs (opGoldenDeadline_early h), fun hs h => ?_, fun hs e h => goldenClockEdge_asks hs h⟩
  · exact (performFab_runs s (opGolden fp) fp hs).trans (by rw [opGolden_starts hreq hrun hgap hepoch])
  · exact (performFab_runs s (opGoldenResult fp pass) fp hs).trans (by rw [opGoldenResult_idle pass hrun])
  · rw [keepLatch_frond, opGoldenDeadline_forces hdue f.isLt]
    rfl
  · exact (perform_runs s opGoldenEdge hs).trans (by rw [opGoldenEdge_early h])

end Sys2Proof.Machine
end

section
/-! PROOFS. Requests, submission, arbitration, reception and the time services of a CAN controller (R374 to R386). -/

namespace Sys2Proof.Machine

/-- A loop of which one step alone does anything is that step. -/
theorem forUpTo_only {σ : Type} {g : Nat → σ → σ} {i : Nat} (hother : ∀ j t, j ≠ i → g j t = t) (n : Nat) (t : σ) :
    forUpTo n g t = if i < n then g i t else t := by
  induction n with
  | zero => rfl
  | succ n ih =>
    have hlast : forUpTo (n + 1) g t = g n (forUpTo n g t) := by simp [forUpTo, List.range_succ]
    rw [hlast, ih]
    by_cases hn : n = i
    · subst hn
      rw [if_neg (lt_irrefl n), if_pos (Nat.lt_succ_self n)]
    · have hlt : i < n + 1 ↔ i < n := by omega
      rw [hother n _ hn, if_congr hlt rfl rfl]

section
variable {s : State} {m o : Nat}

theorem State.modObj_canc (g : ObjRec → ObjRec) : (State.modObj m o g s).canc m = (s.canc m).modObj o g := State.modCan_canc s m _

/-! ### Writes of a controller's registers (R340, R387, R566, R585) -/

theorem wakeEvent_canc (b : Nat) : (wakeEvent b s).canc m = s.canc m := State.canc_congr _ (wakeEvent_can s b) m

theorem performCanReg_up (f : State → State) (hs : RunsCan s m) (hup : m < 6 → s.blocksUp = true) :
    performCanReg m f s = .next (keepLatch s (if m < 6 then wakeEvent 1 (f s) else f s)) := by
  rw [performCanReg, performCan_runs s _ m hs]
  split
  · next hm => rw [if_pos (hup hm)]
  · rfl

/-- What a write leaves of its controller: its operation's effect, or nothing where the block does not answer. -/
theorem performCanReg_canc (f : State → State) (hs : RunsCan s m) :
    ∃ t, performCanReg m f s = .next t ∧ t.canc m = if m < 6 → s.blocksUp = true then (f s).canc m else s.canc m := by
  by_cases hup : m < 6 → s.blocksUp = true
  · refine ⟨_, performCanReg_up f hs hup, ?_⟩
    rw [if_pos hup, keepLatch_canc]
    split
    · rw [wakeEvent_canc]
    · rfl
  · obtain ⟨hm, hdown⟩ := Classical.not_imp.mp hup
    refine ⟨_, performCanReg_down f hs hm (Bool.eq_false_iff.mpr hdown), ?_⟩
    rw [if_neg hup, keepLatch_canc, wakeEvent_canc]

/-! ### Words of objects and the RX ring (R375, R377, R393, R395) -/

/-- A word with one bit names one object. -/
theorem overObjs_bit {word i : Nat} (f : Nat → State → State) (hi : i < 32) (hrx : (s.canc m).isRx (32 * word + i) = false) :
    overObjs m word (BitVec.ofNat 32 (2 ^ i)) f s = f (32 * word + i) s := by
  have hbit : ∀ j, (BitVec.ofNat 32 (2 ^ i)).getLsbD j = (decide (j < 32) && decide (i = j)) := fun j => by
    rw [BitVec.getLsbD_ofNat, Nat.testBit_two_pow]
  refine (forUpTo_only (i := i) (fun j t hj => if_neg ?_) 32 s).trans ((if_pos hi).trans (if_pos ?_))
  · rw [hbit, decide_eq_false (Ne.symm hj)]
    simp
  · rw [hbit, hrx]
    simp [hi]

theorem overObjs_zero (word : Nat) (f : Nat → State → State) : overObjs m word 0 f s = s :=
  List.foldl_fixed' (fun j => if_neg (by simp)) _

theorem opCanRxGet_within {v : Word32} (h : (v - (s.canc m).rxGet).toNat ≤ ((s.canc m).rxPut - (s.canc m).rxGet).toNat) :
    ((opCanRxGet m v s).canc m).rxGet = v := by
  rw [opCanRxGet, State.modCan_canc, if_pos h]

theorem opCanRxGet_beyond {v : Word32} (h : ((s.canc m).rxPut - (s.canc m).rxGet).toNat < (v - (s.canc m).rxGet).toNat) :
    (opCanRxGet m v s).canc m = s.canc m := by
  rw [opCanRxGet, State.modCan_canc, if_neg (by omega)]

theorem opCanRxcfg_init {v : Word32} (hst : (s.canc m).st = .init) (hfit : bits v.toNat 6 0 + bits v.toNat 15 8 ≤ 128) :
    ((opCanRxcfg m v s).canc m).rxFirst.toNat = bits v.toNat 6 0 ∧ ((opCanRxcfg m v s).canc m).rxCount.toNat = bits v.toNat 15 8 ∧
      ((opCanRxcfg m v s).canc m).rxPut = 0 ∧ ((opCanRxcfg m v s).canc m).rxGet = 0 := by
  rw [opCanRxcfg, State.modCan_canc, if_pos (by simp [hst, hfit])]
  exact ⟨Nat.mod_eq_of_lt (Nat.mod_lt _ (by decide)), Nat.mod_eq_of_lt (Nat.mod_lt _ (by decide)), rfl, rfl⟩

theorem opCanRxcfg_started (v : Word32) (hst : (s.canc m).st ≠ .init) : (opCanRxcfg m v s).canc m = s.canc m := by
  rw [opCanRxcfg, State.modCan_canc, if_neg (by simp [hst])]

/-! ### Submission and arbitration (R353, R378, R379, R384) -/

theorem opCanSubmit_waits (h : ((s.canc m).obj o).st ≠ .held ∨ (s.canc m).onLine = false ∨ s.canQuiet m = true ∨
    (s.canc m).timeOk ((s.canc m).obj o) s.gctl.time.toNat = false) : opCanSubmit m o s = s :=
  if_pos (by rcases h with h | h | h | h <;> simp [h])

/-- The object of a request that has been judged. -/
def ObjRec.judged (st : ObjState) (x : ObjRec) : ObjRec := { x with st := st, markDue := none }

/-- No channel's output and not time-triggered: only the identifier guard stands between the object and the bus (R353, R378). -/
theorem opCanSubmit_judges (hst : ((s.canc m).obj o).st = .held) (hline : (s.canc m).onLine = true) (hquiet : s.canQuiet m = false)
    (htt : ((s.canc m).obj o).tt = false) (hout : s.canOutput m o = none) :
    opCanSubmit m o s = (s.guarded false (((s.canc m).obj o).id.toNat % 2 ^ 30)).elim (State.modObj m o (ObjRec.judged .pending) s)
      (fun c => reportGuard c m o (State.modObj m o (ObjRec.judged .rejected) s)) := by
  unfold opCanSubmit
  simp only [hst, hline, hquiet, htt, hout, CanRec.timeOk]
  cases s.guarded false (((s.canc m).obj o).id.toNat % 2 ^ 30) <;> rfl

theorem opCanArbitration_none (h : leastKey (s.canc m).offers = none) : opCanArbitration m s = s := by
  unfold opCanArbitration
  dsimp only
  rw [h, ite_self]

theorem emit_canc (e : Emit) : (emit e s).canc m = s.canc m := rfl

/-- Frame o is on the bus from time t (R379). -/
def CanRec.starts (o : Nat) (t : Word64) (r : CanRec) : CanRec :=
  { r with onBus := some o, onBusAt := t, busBusy := false, refPending := r.refPending && o ≠ 128 }

/-- The controller has put frame o on the bus; the object's mark has been met (R379, R385). -/
def canStart (m o : Nat) (s : State) : State :=
  State.modObj m o (fun x => { x with markDue := none }) (State.modCan m (CanRec.starts o s.gctl.time) s)

theorem canStart_canc : (canStart m o s).canc m = ((s.canc m).starts o s.gctl.time).modObj o (fun x => { x with markDue := none }) := by
  rw [canStart, State.modObj_canc, State.modCan_canc]

/-- The offer with the least key goes on the bus, and out of the TXD pad that is not held (R379, R570). -/
theorem opCanArbitration_starts {k : Nat} (hline : (s.canc m).onLine = true) (hquiet : s.canQuiet m = false) (hbus : (s.canc m).onBus = none)
    (hinit : (s.canc m).initPending = false) (hleast : leastKey (s.canc m).offers = some (k, o)) (ho : o < 128) (hpad : s.txdHeld m = false) :
    opCanArbitration m s =
      emit (.canFrame m (some o) (((s.canc m).obj o).toFrame ((s.canc m).st = .passive))) (canStart m o s) := by
  have hown : o ≠ 128 := by omega
  unfold opCanArbitration
  dsimp only
  rw [if_neg (by simp [hline, hquiet, hbus, hinit]), hleast]
  dsimp only
  rw [if_neg (by simpa [State.txdHeld] using hpad), if_neg hown, if_neg hown]
  rfl

/-! ### The ends of a frame (R372, R374, R377) -/

/-- Counters up to 127 keep an active controller active. -/
theorem canConfine_active (hst : (s.canc m).st = .active) (htec : (s.canc m).tec.toNat ≤ 127) (hrec : (s.canc m).rec_.toNat ≤ 127) :
    canConfine m s = s := by
  unfold canConfine
  dsimp only
  rw [if_neg (by simp [CanRec.onLine, hst]), if_neg (by omega), if_neg (by simp [htec, hrec]), if_neg (by simp [hst])]

/-- With no INIT pending the end of a frame says at most that the bus is idle. -/
theorem canIdle_canc (h : (s.canc m).initPending = false) : ∃ b, (canIdle m s).canc m = { s.canc m with busBusy := b } := by
  unfold canIdle
  dsimp only
  split
  · exact ⟨_, rfl⟩
  · rw [if_neg (by simp [h]), State.modCan_canc]
    exact ⟨_, rfl⟩

theorem opCanTxDone_none (ok : Bool) (h : (s.canc m).onBus = none) : opCanTxDone m ok s = s := by
  unfold opCanTxDone
  dsimp only
  rw [h]

/-- An object that is no channel's output has no payload waiting for it (R636). -/
theorem writeDue_free (hout : s.canOutput m o = none) (hmoss : s.mossOutput m o = none) : writeDue m o s = s := by
  unfold writeDue
  rw [hout, hmoss]

/-- The bus is free of the controller's frame, which was acknowledged (R372; log 16). -/
abbrev CanRec.released (r : CanRec) : CanRec :=
  { r with onBus := none, abortOnBus := false, tec := r.tec - (if r.tec = 0 then 0 else 1) }

theorem CanRec.released_tec (r : CanRec) : r.released.tec.toNat = r.tec.toNat - 1 := by
  change (r.tec - (if r.tec = 0 then 0 else 1)).toNat = _
  split
  · next h => simp [h]
  · next h => bv_omega

/-- A passed frame has been sent (R374, R377). -/
def ObjRec.sentAt (t : Word64) (x : ObjRec) : ObjRec := if x.st = .pending then { x with st := .sent, time := t } else x

/-- The controller's frame o has been sent. -/
def canSent (m o : Nat) (s : State) : State := State.modObj m o (ObjRec.sentAt (s.canc m).onBusAt) (State.modCan m CanRec.released s)

theorem canSent_canc : (canSent m o s).canc m = (s.canc m).released.modObj o (ObjRec.sentAt (s.canc m).onBusAt) := by
  rw [canSent, State.modObj_canc, State.modCan_canc]

theorem opCanTxDone_sends (hbus : (s.canc m).onBus = some o) (ho : o < 128) (hst : ((s.canc m).obj o).st = .pending)
    (hout : s.canOutput m o = none) (hmoss : s.mossOutput m o = none) (hactive : (s.canc m).st = .active)
    (htec : (s.canc m).tec.toNat ≤ 127) (hrec : (s.canc m).rec_.toNat ≤ 127) :
    opCanTxDone m true s = canIdle m (canSent m o s) := by
  have hcalm : canConfine m (State.modCan m CanRec.released s) = State.modCan m CanRec.released s := by
    have htec' := (s.canc m).released_tec
    apply canConfine_active <;> rw [State.modCan_canc]
    · exact hactive
    · omega
    · exact hrec
  have hown : o ≠ 128 := by omega
  have hsent : (((canSent m o s).canc m).obj o).st = .sent := by
    rw [canSent_canc, CanRec.modObj_obj]
    exact congrArg ObjRec.st (if_pos hst)
  unfold opCanTxDone
  simp only [hbus, Bool.not_true, Bool.false_eq_true, if_false, if_true]
  rw [hcalm, if_neg hown]
  change canIdle m (if o = 128 || (((canSent m o s).canc m).obj o).st = .pending then canSent m o s else writeDue m o (canSent m o s)) = _
  rw [if_neg (by simp [hown, hsent]), writeDue_free (s := canSent m o s) hout hmoss]

/-! ### Reception (R374, R375, R382) -/

/-- A received frame as its object holds it (R374). -/
def ObjRec.received (f : CanFrame) (sof : Word64) (x : ObjRec) : ObjRec :=
  { x with
    id := BitVec.ofNat 32 (f.id.toNat + place (b2n f.ide) 29 + place (b2n f.rtr) 30), dlc := f.dlc,
    flags := BitVec.ofNat 6 (b2n f.fdf + place (b2n f.brs) 1 + place (b2n f.esi) 2), time := sof, data := bytesTab f.data }

/-- The ring takes a frame, or counts it lost (R375). -/
def CanRec.stored (f : CanFrame) (sof : Word64) (r : CanRec) : CanRec :=
  if (r.rxPut - r.rxGet).toNat = r.rxCount.toNat then { r with rxLost := satInc r.rxLost, rxDropped := true }
  else { r.modObj (r.rxFirst.toNat + r.rxPut.toNat % r.rxCount.toNat) (ObjRec.received f sof) with rxPut := r.rxPut + 1 }

variable {f : CanFrame}

theorem canFault_canc (code : BitVec 16) (x : Option Nat) : (canFault code m x s).canc m = s.canc m := rfl

theorem canStore_canc (sof : Word64) : (canStore m f sof s).canc m = (s.canc m).stored f sof := by
  unfold canStore CanRec.stored
  dsimp only
  split
  · split
    · exact State.modCan_canc ..
    · exact (canFault_canc ..).trans (State.modCan_canc ..)
  · exact State.modCan_canc ..

/-- Storing a frame reads and writes nothing of the counters, the bus and the time services. -/
theorem CanRec.stored_rec (sof : Word64) (r : CanRec) (v : Byte) : { r with rec_ := v }.stored f sof = { r.stored f sof with rec_ := v } := by
  unfold CanRec.stored
  dsimp only
  split <;> rfl

theorem CanRec.stored_initPending (sof : Word64) (r : CanRec) : (r.stored f sof).initPending = r.initPending := by
  unfold CanRec.stored; split <;> rfl

theorem CanRec.stored_isReference (sof : Word64) (r : CanRec) : (r.stored f sof).isReference f = r.isReference f := by
  unfold CanRec.stored; split <;> rfl

theorem canReference_other (sof : Word64) (h : (s.canc m).isReference f = false) : canReference m f sof s = s :=
  if_pos (by simp [h])

theorem recReceived_canc (h : (s.canc m).rec_.toNat ≤ 127) : ∃ v : Byte, v.toNat ≤ 127 ∧ (recReceived m s).canc m = { s.canc m with rec_ := v } := by
  unfold recReceived
  dsimp only
  split
  · exact ⟨_, h, rfl⟩
  · rw [if_neg (by omega), State.modCan_canc]
    refine ⟨_, ?_, rfl⟩
    split
    · next h0 => simp [h0]
    · next h0 => bv_omega

theorem opCanReceive_offLine (age : Word32) (h : (s.canc m).onLine = false) : opCanReceive m f age s = s := if_pos (by simp [h])

/-- Moss takes its own copy of a frame of the island's controllers (R335). -/
def mossCopy (m : Nat) (f : CanFrame) (s : State) : State :=
  if 6 ≤ m then State.modCan m (fun r => { r with mossFrames := r.mossFrames ++ [f] }) s else s

theorem mossCopy_canc : ∃ l, (mossCopy m f s).canc m = { s.canc m with mossFrames := l } := by
  unfold mossCopy
  split
  · exact ⟨_, State.modCan_canc ..⟩
  · exact ⟨_, rfl⟩

theorem opCanReceive_onLine (age : Word32) (h : (s.canc m).onLine = true) : opCanReceive m f age s =
    canIdle m (canReference m f (s.gctl.time - age.setWidth 64)
      (mossCopy m f (canStore m f (s.gctl.time - age.setWidth 64) (canConfine m (recReceived m s))))) := if_neg (by simp [h])

/-- A frame that is no reference message: beside the ring, only REC, Moss's copies and the bus's state move. -/
theorem opCanReceive_canc (age : Word32) (hactive : (s.canc m).st = .active) (htec : (s.canc m).tec.toNat ≤ 127)
    (hrec : (s.canc m).rec_.toNat ≤ 127) (hinit : (s.canc m).initPending = false) (hother : (s.canc m).isReference f = false) :
    ∃ v l b, (opCanReceive m f age s).canc m =
      { (s.canc m).stored f (s.gctl.time - age.setWidth 64) with rec_ := v, mossFrames := l, busBusy := b } := by
  obtain ⟨v, hv, hcounted⟩ := recReceived_canc hrec
  have hcalm : canConfine m (recReceived m s) = recReceived m s := by
    apply canConfine_active <;> rw [hcounted]
    · exact hactive
    · exact htec
    · exact hv
  rw [opCanReceive_onLine age (by simp [CanRec.onLine, hactive]), hcalm]
  obtain ⟨l, hcopied⟩ := mossCopy_canc (m := m) (f := f) (s := canStore m f (s.gctl.time - age.setWidth 64) (recReceived m s))
  rw [canStore_canc, hcounted, CanRec.stored_rec] at hcopied
  have hnone : ∀ sof, canReference m f sof (mossCopy m f _) = _ := fun sof => canReference_other sof (by
    rw [hcopied]
    exact (CanRec.stored_isReference ..).trans hother)
  obtain ⟨b, hidle⟩ := canIdle_canc (by
    rw [hcopied]
    exact (CanRec.stored_initPending ..).trans hinit)
  exact ⟨v, l, b, by rw [hnone, hidle, hcopied]⟩

/-! ### The time services (R382 to R386) -/

theorem opCanReferenceSend_other (h : (s.canc m).role ≠ 2) : opCanReferenceSend m s = s :=
  if_neg (by rw [decide_eq_false h]; simp)

theorem opCanReferenceSend_due {t : Word64} (hrole : (s.canc m).role = 2) (hline : (s.canc m).onLine = true) (hquiet : s.canQuiet m = false)
    (hbus : (s.canc m).onBus = none) (htref : (s.canc m).tRef = some t)
    (hdue : t.toNat + (s.canc m).ttCycle.toNat ≤ s.gctl.time.toNat) :
    opCanReferenceSend m s = State.modCan m (fun r => { r with refPending := true }) s :=
  if_pos (by simp [hrole, hline, hquiet, hbus, htref, hdue])

theorem opCanSyncTimeout_unsynced (h : (s.canc m).sync = false) : opCanSyncTimeout m s = s := if_neg (by simp [h])

/-- A CAN fault is one record with its code (R388). -/
theorem canFault_record (code : BitVec 16) (x : Option Nat) (s : State) :
    ∃ f : FaultRec, f.code = code ∧ (canFault code m x s).thal.inFlight = s.thal.inFlight ++ [f] := ⟨stamped _ s, rfl, rfl⟩

/-- The controller's time falls out of step (R384). -/
def canSyncLost (m : Nat) (s : State) : State := State.modCan m (fun r => { r with sync := false, cycles := 0 }) (canUnsync m s)

theorem opCanSyncTimeout_late {t : Word64} (hsync : (s.canc m).sync = true) (htref : (s.canc m).tRef = some t)
    (hlate : t.toNat + (s.canc m).ttTimeout.toNat < s.gctl.time.toNat) :
    opCanSyncTimeout m s = canFault 0x0505 m none (canSyncLost m s) := if_pos (by simp [hsync, htref, hlate])

theorem canUnsync_undisciplined (h : (s.canc m).disc = false) : canUnsync m s = s := if_neg (by simp [CanRec.disciplines, h])

theorem canUnsync_frees (hsync : (s.canc m).sync = true) (hdisc : (s.canc m).disciplines = true) (hsource : s.gctl.timeSource = .can) :
    canUnsync m s = timeFree s := if_pos (by simp [hsync, hdisc, hsource])

theorem opCanTtMissed_other (h : ((s.canc m).obj o).st ≠ .pending) : opCanTtMissed m o s = s := if_neg (by simp [h])

theorem opCanTtMissed_late {d : Word64} (hst : ((s.canc m).obj o).st = .pending) (hbus : (s.canc m).onBus ≠ some o)
    (hwin : (s.canc m).ttWin ≠ 0) (hdue : ((s.canc m).obj o).markDue = some d)
    (hlate : d.toNat + (s.canc m).ttWin.toNat ≤ s.gctl.time.toNat) :
    opCanTtMissed m o s = canFault 0x0504 m (some o) (State.modObj m o (fun x => { x with st := .missed }) s) :=
  if_pos (by rw [decide_eq_true hwin]; simp [hst, hbus, hdue, hlate])

end

/-! ### The clauses of O27 -/

section
variable {s : State} {m : CanNo} (hs : RunsCan s m)
include hs

theorem canArbitration_clause {k o : Nat} (hline : (s.canc m).onLine = true) (hquiet : s.canQuiet m = false) (hbus : (s.canc m).onBus = none)
    (hinit : (s.canc m).initPending = false) (hleast : leastKey (s.canc m).offers = some (k, o)) (ho : o < 128) (hpad : s.txdHeld m = false) :
    ∃ t, exec (.canArbitration m) s = .next t ∧ (t.canc m).onBus = some o ∧ (t.canc m).onBusAt = s.gctl.time ∧
      t.out = s.out ++ [.canFrame m (some o) (((s.canc m).obj o).toFrame ((s.canc m).st = .passive))] := by
  refine ⟨_, performCan_runs s (opCanArbitration m) m hs, ?_⟩
  rw [keepLatch_canc, keepLatch_out, opCanArbitration_starts hline hquiet hbus hinit hleast ho hpad,
    emit_canc, canStart_canc]
  exact ⟨rfl, rfl, rfl⟩

theorem canTxDone_clause {o : ObjNo} (hbus : (s.canc m).onBus = some o.val) (hst : ((s.canc m).obj o).st = .pending)
    (hinit : (s.canc m).initPending = false) (hout : s.canOutput m o = none) (hmoss : s.mossOutput m o = none)
    (hactive : (s.canc m).st = .active) (htec : (s.canc m).tec.toNat ≤ 127) (hrec : (s.canc m).rec_.toNat ≤ 127) :
    ∃ t, exec (.canTxDone m true) s = .next t ∧ ((t.canc m).obj o).st = .sent ∧ ((t.canc m).obj o).time = (s.canc m).onBusAt ∧
      (t.canc m).onBus = none ∧ (t.canc m).tec.toNat = (s.canc m).tec.toNat - 1 := by
  have hsent := canSent_canc (s := s) (m := m) (o := o)
  obtain ⟨b, hidle⟩ := canIdle_canc (s := canSent m o s) (m := m) (by rw [hsent]; exact hinit)
  have hobj : ((s.canc m).released.modObj o (ObjRec.sentAt (s.canc m).onBusAt)).obj o =
      { (s.canc m).obj o with st := .sent, time := (s.canc m).onBusAt } := (CanRec.modObj_obj ..).trans (if_pos hst)
  refine ⟨_, performCan_runs s (opCanTxDone m true) m hs, ?_⟩
  rw [keepLatch_canc, opCanTxDone_sends hbus o.isLt hst hout hmoss hactive htec hrec, hidle, hsent]
  exact ⟨congrArg ObjRec.st hobj, congrArg ObjRec.time hobj, rfl, (s.canc m).released_tec⟩

/-- What a received frame leaves of its controller, wake event or not (R375, R566). -/
theorem canFrameReceive_canc {f : CanFrame} (age : Word32) (hwf : f.wf = true) :
    ∃ t, exec (.canFrameReceive m f age) s = .next t ∧ t.canc m = (opCanReceive m f age s).canc m := by
  refine ⟨_, (if_pos hwf).trans (performCan_runs s (opCanFrame m f age) m hs), ?_⟩
  rw [keepLatch_canc, opCanFrame]
  split
  · exact wakeEvent_canc _
  · rfl

theorem canFrameReceive_stored {f : CanFrame} (age : Word32) (hwf : f.wf = true) (hactive : (s.canc m).st = .active)
    (htec : (s.canc m).tec.toNat ≤ 127) (hrec : (s.canc m).rec_.toNat ≤ 127) (hinit : (s.canc m).initPending = false)
    (hother : (s.canc m).isReference f = false) :
    ∃ t v l b, exec (.canFrameReceive m f age) s = .next t ∧
      t.canc m = { (s.canc m).stored f (s.gctl.time - age.setWidth 64) with rec_ := v, mossFrames := l, busBusy := b } := by
  obtain ⟨t, ht, hcanc⟩ := canFrameReceive_canc hs age hwf
  obtain ⟨v, l, b, hreceived⟩ := opCanReceive_canc age hactive htec hrec hinit hother
  exact ⟨t, v, l, b, ht, hcanc.trans hreceived⟩

theorem canSyncTimeout_clause {x : Word64} (hsync : (s.canc m).sync = true) (hdisc : (s.canc m).disc = false) (htref : (s.canc m).tRef = some x)
    (hlate : x.toNat + (s.canc m).ttTimeout.toNat < s.gctl.time.toNat) :
    ∃ t f, exec (.canSyncTimeout m) s = .next t ∧ (t.canc m).sync = false ∧ (t.canc m).tRef = (s.canc m).tRef ∧ f.code = 0x0505 ∧
      t.thal.inFlight = s.thal.inFlight ++ [f] := by
  obtain ⟨f, hcode, hflight⟩ := canFault_record (m := m) 0x0505 none (canSyncLost m s)
  refine ⟨_, f, performCan_runs s (opCanSyncTimeout m) m hs, ?_⟩
  rw [keepLatch_canc, keepLatch_thal, opCanSyncTimeout_late hsync htref hlate, hflight, canFault_canc, canSyncLost,
    canUnsync_undisciplined hdisc, State.modCan_canc]
  exact ⟨rfl, rfl, hcode, rfl⟩

theorem canSyncTimeout_frees {x : Word64} (hsync : (s.canc m).sync = true) (hdisc : (s.canc m).disciplines = true)
    (hsource : s.gctl.timeSource = .can) (htref : (s.canc m).tRef = some x)
    (hlate : x.toNat + (s.canc m).ttTimeout.toNat < s.gctl.time.toNat) :
    ∃ t, exec (.canSyncTimeout m) s = .next t ∧ t.gctl.locked = false ∧ t.gctl.timeSource = .freeRunning := by
  refine ⟨_, performCan_runs s (opCanSyncTimeout m) m hs, ?_⟩
  rw [keepLatch_gctl, opCanSyncTimeout_late hsync htref hlate, canSyncLost, canUnsync_frees hsync hdisc hsource]
  exact ⟨rfl, rfl⟩

theorem canTtMissed_clause {o : ObjNo} {d : Word64} (hst : ((s.canc m).obj o).st = .pending) (hbus : (s.canc m).onBus ≠ some o.val)
    (hwin : (s.canc m).ttWin ≠ 0) (hdue : ((s.canc m).obj o).markDue = some d)
    (hlate : d.toNat + (s.canc m).ttWin.toNat ≤ s.gctl.time.toNat) :
    ∃ t f, exec (.canTtMissed m o) s = .next t ∧ ((t.canc m).obj o).st = .missed ∧ f.code = 0x0504 ∧
      t.thal.inFlight = s.thal.inFlight ++ [f] := by
  obtain ⟨f, hcode, hflight⟩ := canFault_record (m := m) 0x0504 (some o.val) (State.modObj m o (fun x => { x with st := .missed }) s)
  refine ⟨_, f, performCan_runs s (opCanTtMissed m o) m hs, ?_, hcode, ?_⟩
  · rw [keepLatch_canc, opCanTtMissed_late hst hbus hwin hdue hlate, canFault_canc, State.modObj_canc, CanRec.modObj_obj]
  · rw [keepLatch_thal, opCanTtMissed_late hst hbus hwin hdue hlate, hflight]
    rfl

end

/-- Settles O27: writes by `performCanReg_canc`, submission by the identifier guard, reception by the ring, the time services by their instants. -/
theorem canMessages : Obligations.CanMessages := by
  unfold Obligations.CanMessages
  intro s m hs
  dsimp only
  have hevent : ∀ {f : State → State} {t : State}, f s = t → performCan m f s = .next (keepLatch s t) := fun ht => ht ▸ performCan_runs s _ m hs
  have hwrite : ∀ {f : State → State} {t : State}, CanUp s m → f s = t →
      performCanReg m f s = .next (keepLatch s (if m.val < 6 then wakeEvent 1 t else t)) := fun hup ht => ht ▸ performCanReg_up _ hs hup
  refine ⟨fun w i x hx hrx hup => ?_, fun hup w => ⟨hwrite hup (overObjs_zero ..), hwrite hup (overObjs_zero ..)⟩, fun hup v hv => ?_,
    fun v hv => ?_, fun hup v hst hfit => ?_, fun v hst => ?_, fun o => ⟨fun h => hevent (opCanSubmit_waits h), fun hst hline hquiet htt hout =>
      ⟨fun hfree => hevent ?_, fun c hguard => hevent ?_⟩⟩,
    fun hline hquiet hbus hinit => ⟨fun hnone => hevent (opCanArbitration_none hnone), fun k o => canArbitration_clause hs hline hquiet hbus hinit⟩,
    fun ok hbus => hevent (opCanTxDone_none ok hbus), fun o => canTxDone_clause hs, fun f age hwf => ⟨fun hoff => ?_,
      fun hactive htec hrec hinit hother hfull => ?_, fun hactive htec hrec hinit hother hroom => ?_⟩,
    fun hrole => hevent (opCanReferenceSend_other hrole), fun hrole hline hquiet hbus ⟨t, htref, hdue⟩ =>
      hevent (opCanReferenceSend_due hrole hline hquiet hbus htref hdue),
    fun hsync => hevent (opCanSyncTimeout_unsynced hsync), fun x => canSyncTimeout_clause hs, fun x => canSyncTimeout_frees hs,
    fun o hst => hevent (opCanTtMissed_other hst), fun o d => canTtMissed_clause hs⟩
  · subst hx
    exact ⟨hwrite hup (overObjs_bit _ i.isLt hrx), hwrite hup (overObjs_bit _ i.isLt hrx)⟩
  · obtain ⟨t, ht, hcanc⟩ := performCanReg_canc (opCanRxGet m v) hs
    exact ⟨t, ht, by rw [hcanc, if_pos hup, opCanRxGet_within hv]⟩
  · obtain ⟨t, ht, hcanc⟩ := performCanReg_canc (opCanRxGet m v) hs
    exact ⟨t, ht, by rw [hcanc, opCanRxGet_beyond hv, ite_self]⟩
  · obtain ⟨t, ht, hcanc⟩ := performCanReg_canc (opCanRxcfg m v) hs
    rw [if_pos hup] at hcanc
    exact ⟨t, ht, hcanc ▸ opCanRxcfg_init hst hfit⟩
  · obtain ⟨t, ht, hcanc⟩ := performCanReg_canc (opCanRxcfg m v) hs
    exact ⟨t, ht, by rw [hcanc, opCanRxcfg_started v hst, ite_self]⟩
  · rw [opCanSubmit_judges hst hline hquiet htt hout, hfree]
    rfl
  · rw [opCanSubmit_judges hst hline hquiet htt hout, hguard]
    rfl
  · refine (if_pos hwf).trans (hevent ?_)
    rw [opCanFrame, opCanReceive_offLine age hoff]
  · obtain ⟨t, v, l, b, ht, hcanc⟩ := canFrameReceive_stored hs age hwf hactive htec hrec hinit hother
    rw [CanRec.stored, if_pos hfull] at hcanc
    exact ⟨t, ht, by rw [hcanc], by rw [hcanc]⟩
  · obtain ⟨t, v, l, b, ht, hcanc⟩ := canFrameReceive_stored hs age hwf hactive htec hrec hinit hother
    rw [CanRec.stored, if_neg hroom] at hcanc
    have hobj := CanRec.modObj_obj (s.canc m) ((s.canc m).rxFirst.toNat + (s.canc m).rxPut.toNat % (s.canc m).rxCount.toNat)
      (ObjRec.received f (s.gctl.time - age.setWidth 64))
    refine ⟨t, ht, by rw [hcanc], ?_⟩
    rw [hcanc]
    exact ⟨congrArg ObjRec.dlc hobj, congrArg ObjRec.data hobj, congrArg ObjRec.time hobj⟩

end Sys2Proof.Machine
end

section
/-! PROOFS. Which commands start and how a check ends one; NOP, IDENTIFY, GET_STATUS and EVENT_ARM (R399 to R404, R408, R409, R414, R415, R417). -/

namespace Sys2Proof.Machine

section
variable {s : State} {c : Cmd} {tag op : Nat}

/-! ### A command taken from its queue (R402, R403) -/

/-- A command as it is in flight once it has been taken (R403). -/
def Cmd.taken (c : Cmd) : Cmd := { c with stage := .started }

theorem State.modCmd_cmd (h : s.cmd tag = some c) {g : Cmd → Cmd} (hg : ∀ x : Cmd, (g x).tag = x.tag) :
    (State.modCmd tag g s).cmd tag = some (g c) := by
  have hsame : (fun x : Cmd => decide (x.tag = tag)) ∘ (fun x => if x.tag = tag then g x else x) = fun x => decide (x.tag = tag) := by
    funext x
    by_cases hx : x.tag = tag <;> simp [hx, hg]
  change List.find? _ (List.map _ s.cmdq.cmds) = _
  rw [List.find?_map, hsame, show s.cmdq.cmds.find? _ = some c from h, Option.map_some, if_pos (State.cmd_tag h)]

theorem takeCmd_cmd (h : s.cmd tag = some c) : (takeCmd c s).cmd tag = some c.taken := by
  rw [takeCmd, State.cmd_tag h]
  exact State.modCmd_cmd h (fun _ => rfl)

/-! ### The checks of R400 -/

/-- A packet a check refuses ends with a status other than success. -/
theorem checkPacket_pos {st : Nat} (h : s.checkPacket c = some st) : st ≠ 0 := by
  rintro rfl
  unfold State.checkPacket at h
  split_ifs at h <;> simp at h

theorem startCmd_gone (h : s.cmd tag = none) (act : Cmd → State → State) : startCmd op tag act s = s := by
  simp only [startCmd, h]

theorem startCmd_notYet (h : s.cmd tag = some c) (hno : c.op ≠ op ∨ s.startable c = false) (act : Cmd → State → State) :
    startCmd op tag act s = s := by
  have hbar : (!(c.op = op && s.startable c)) = true := by
    rcases hno with hno | hno <;> simp [hno]
  simp only [startCmd, h, hbar, if_true]

theorem startCmd_refused {st : Nat} (h : s.cmd tag = some c) (hop : c.op = op) (hstart : s.startable c = true)
    (hcheck : s.checkPacket c = some st) (act : Cmd → State → State) :
    startCmd op tag act s =
      State.modCmd tag (fun c => { c with stage := .done (BitVec.ofNat 8 st) 0 0, boxed := false }) (takeCmd c s) := by
  simp only [startCmd, h, hop, hstart, hcheck, decide_true, Bool.and_self, Bool.not_true, Bool.false_eq_true, if_false]
  exact finishData_refused _ tag st [] 0 0 c.taken (takeCmd_cmd h) rfl (checkPacket_pos hcheck)

end

/-- Settles O20: each of the opcodes starts through the one gate, whose three ways out are the three clauses. -/
theorem commandsAreJudged : Obligations.CommandsAreJudged := by
  unfold Obligations.CommandsAreJudged
  intro s tag motion bad i op hs hmem
  have hgate : ∃ act, exec i s = perform (startCmd op tag act) s := by
    simp only [List.mem_cons, Prod.mk.injEq, List.not_mem_nil, or_false] at hmem
    obtain ⟨rfl, rfl⟩ | ⟨rfl, rfl⟩ | ⟨rfl, rfl⟩ | ⟨rfl, rfl⟩ | ⟨rfl, rfl⟩ | ⟨rfl, rfl⟩ | ⟨rfl, rfl⟩ | ⟨rfl, rfl⟩ | ⟨rfl, rfl⟩ |
      ⟨rfl, rfl⟩ | ⟨rfl, rfl⟩ | ⟨rfl, rfl⟩ | ⟨rfl, rfl⟩ | ⟨rfl, rfl⟩ | ⟨rfl, rfl⟩ | ⟨rfl, rfl⟩ | ⟨rfl, rfl⟩ | ⟨rfl, rfl⟩ |
      ⟨rfl, rfl⟩ | ⟨rfl, rfl⟩ | ⟨rfl, rfl⟩ | ⟨rfl, rfl⟩ | ⟨rfl, rfl⟩ | ⟨rfl, rfl⟩ := hmem
    all_goals exact ⟨_, rfl⟩
  obtain ⟨act, hexec⟩ := hgate
  have hends : ∀ {t : State}, startCmd op tag act s = t → Completes i s t := fun ht => by rw [Completes, hexec, perform_runs s _ hs, ht]
  exact ⟨fun hgone => hends (startCmd_gone hgone act), fun c hcmd hno => hends (startCmd_notYet hcmd hno act),
    fun c st hcmd hop hstart hcheck => hends (startCmd_refused hcmd hop hstart hcheck act)⟩

end Sys2Proof.Machine
end

section
/-! PROOFS. NOP, IDENTIFY, GET_STATUS and EVENT_ARM, and where a command's result goes (R404, R408, R409, R414, R415, R417). -/

namespace Sys2Proof.Machine

section
variable {s t : State} {c : Cmd} {tag : Nat}

/-! ### Result data of a successful command (R404, R414, R415) -/

theorem finishData_written {d : List PByte} {ok : Bool} (r0 r1 : Nat) (h : s.cmd tag = some c) (he : c.ended = false) (hm : c.mbox = false)
    (hw : writeResult c d s = (ok, t)) :
    finishData tag 0 d r0 r1 s = State.modCmd tag (fun x => { x with
      stage := .done (if ok then 0 else 0x28) (if ok then BitVec.ofNat 64 r0 else 0) (BitVec.ofNat 64 r1), boxed := false }) t := by
  unfold finishData
  rw [h]
  cases ok <;> simp [he, hm, hw]

theorem finishData_boxed (d : List PByte) (r0 r1 : Nat) (h : s.cmd tag = some c) (he : c.ended = false) (hm : c.mbox = true) :
    finishData tag 0 d r0 r1 s = State.modCmd tag (fun x => { x with
      stage := .done 0 (BitVec.ofNat 64 r0) (BitVec.ofNat 64 r1), boxed := true })
      (writeMbox c 0 (plain d) (BitVec.ofNat 64 r0) (BitVec.ofNat 64 r1) s) := by
  unfold finishData
  rw [h]
  simp [he, hm]

/-- A mailbox written holds what was written, result data that fits it whole, and SEQ is even again (R415). -/
theorem writeMbox_result {d : List Byte} (hd : d.length ≤ 4032) (st : Byte) (r0 r1 : Word64) :
    let m := (writeMbox c st d r0 r1 s).mbox c.mbx
    m.seq = (s.mbox c.mbx).seq + 2 ∧ m.status = st ∧ m.length = BitVec.ofNat 32 d.length ∧ treadN 0 m.data 0 d.length = d := by
  rw [writeMbox, State.modMbox_mbox, List.take_of_length_le hd]
  exact ⟨rfl, rfl, rfl, treadN_twriteN ..⟩

theorem keepLatch_mbox (n : Nat) : (keepLatch s t).mbox n = t.mbox n := State.mbox_congr _ (keepLatch_cmdq s t) n

/-! ### The status record (R409) -/

theorem statusRecord_length : s.statusRecord.length = 64 := by
  simp [State.statusRecord, List.length_flatMap]

/-- The command's own start is not in the status it reads. -/
theorem takeCmd_statusRecord : (takeCmd c s).statusRecord = s.statusRecord := by
  have hcount : (takeCmd c s).cmdq.cmds.length = s.cmdq.cmds.length := List.length_map ..
  unfold State.statusRecord
  rw [hcount]
  rfl

/-! ### The actions -/

section
variable (h : s.cmd tag = some c)
include h

theorem actIdentify_device (hkind : c.fld 0x18 1 = 0) :
    actIdentify c (takeCmd c s) = finishData tag 0 (clean s.deviceRecord) 0 0 (takeCmd c s) :=
  (if_pos hkind).trans (by rw [State.cmd_tag h]; rfl)

section
variable (hkind : c.fld 0x18 1 ≠ 0)
include hkind

theorem actIdentify_freeModel (hst : (s.model (c.fld 0x1A 2)).st = .free) :
    actIdentify c (takeCmd c s) = finishCmd tag 0x40 0 0 (takeCmd c s) :=
  (if_neg hkind).trans ((if_pos hst).trans (by rw [State.cmd_tag h]))

theorem actIdentify_model (hst : (s.model (c.fld 0x1A 2)).st ≠ .free) :
    actIdentify c (takeCmd c s) = finishData tag 0 (clean (s.modelRecord (c.fld 0x1A 2))) 0 0 (takeCmd c s) :=
  (if_neg hkind).trans ((if_neg hst).trans (by rw [State.cmd_tag h]; rfl))

end

theorem actGetStatus_taken : actGetStatus c (takeCmd c s) = finishData tag 0 (clean s.statusRecord) 0 0 (takeCmd c s) := by
  rw [actGetStatus, takeCmd_statusRecord, State.cmd_tag h]

end
end

/-- GET_STATUS into a mailbox: its fields and the whole record, and SEQ two on (R415). -/
theorem getStatus_boxed {s : State} {tag : Nat} {c : Cmd} (hs : Runs s) (h : CmdStarts s 0x03 tag c) (hm : c.mbox = true) :
    ∃ u, exec (.getStatus tag) s = .next u ∧ (u.mbox c.mbx).seq = (s.mbox c.mbx).seq + 2 ∧ (u.mbox c.mbx).status = 0 ∧
      (u.mbox c.mbx).length = 64 ∧ treadN 0 (u.mbox c.mbx).data 0 64 = s.statusRecord ∧ u.mem = s.mem := by
  have hends := finishData_boxed (clean s.statusRecord) 0 0 (takeCmd_cmd h.1) rfl hm
  rw [plain_clean, ← actGetStatus_taken h.1] at hends
  obtain ⟨hseq, hst, hlen, hdata⟩ := writeMbox_result (s := takeCmd c s) (c := c.taken) (d := s.statusRecord)
    (by rw [statusRecord_length]; decide) 0 (BitVec.ofNat 64 0) (BitVec.ofNat 64 0)
  rw [statusRecord_length] at hlen hdata
  refine ⟨_, startCmd_completes hs h hends, ?_⟩
  rw [keepLatch_mbox, keepLatch_mem]
  exact ⟨hseq, hst, hlen, hdata, rfl⟩

/-- Settles O21: each action is one end of its command, and the end is decided by where the result data goes. -/
theorem informationCommands : Obligations.InformationCommands := by
  unfold Obligations.InformationCommands
  intro s t tag c hs
  dsimp only
  have hnop : ∀ {t : State}, CmdStarts s 0x01 tag c → actNop c (takeCmd c s) = t → Completes (.nop tag) s t :=
    fun h ht => startCmd_completes hs h ht
  have hidentify : ∀ {t : State}, CmdStarts s 0x02 tag c → actIdentify c (takeCmd c s) = t → Completes (.identify tag) s t :=
    fun h ht => startCmd_completes hs h ht
  have hstatus : ∀ {t : State}, CmdStarts s 0x03 tag c → actGetStatus c (takeCmd c s) = t → Completes (.getStatus tag) s t :=
    fun h ht => startCmd_completes hs h ht
  have harm : ∀ {t : State}, CmdStarts s 0x70 tag c → actEventArm c (takeCmd c s) = t → Completes (.eventArm tag) s t :=
    fun h ht => startCmd_completes hs h ht
  refine ⟨fun h hm => hnop h ?_, fun h hkind hm => ⟨fun hw => hidentify h ?_, fun hw => hidentify h ?_⟩,
    fun h hkind hst => hidentify h ?_, fun h hkind hst hm hw => hidentify h ?_, fun h hm hw => hstatus h ?_,
    fun h hm => getStatus_boxed hs h hm, fun h hm => harm h ?_⟩
  · rw [actNop, State.cmd_tag h.1]
    exact finishCmd_done _ tag 0 0 c.taken (takeCmd_cmd h.1) rfl hm
  · exact (actIdentify_device h.1 hkind).trans (finishData_written 0 0 (takeCmd_cmd h.1) rfl hm hw)
  · exact (actIdentify_device h.1 hkind).trans (finishData_written 0 0 (takeCmd_cmd h.1) rfl hm hw)
  · exact (actIdentify_freeModel h.1 hkind hst).trans
      (finishData_refused _ tag 0x40 [] 0 0 c.taken (takeCmd_cmd h.1) rfl (by decide))
  · exact (actIdentify_model h.1 hkind hst).trans (finishData_written 0 0 (takeCmd_cmd h.1) rfl hm hw)
  · exact (actGetStatus_taken h.1).trans (finishData_written 0 0 (takeCmd_cmd h.1) rfl hm hw)
  · rw [actEventArm, State.cmd_tag h.1]
    exact finishCmd_done _ tag _ 0 c.taken (takeCmd_cmd h.1) rfl hm

end Sys2Proof.Machine
end

section
/-! PROOFS. Enabling, disabling and ringing the queues (R401, R406, R417, R424, R427). -/

namespace Sys2Proof.Machine

/-! ### The EN bit of a configuration word (R401) -/

theorem bit_toNat {w : Nat} (x : BitVec w) (i : Nat) : bit x.toNat i = x.getLsbD i := by
  rw [← BitVec.testBit_toNat, Nat.testBit_eq_decide_div_mod_eq, bit]

theorem bit_enable (cfg : Word32) : bit (cfg ||| 1).toNat 0 = true := by rw [bit_toNat]; simp

theorem bit_disable (cfg : Word32) : bit (cfg &&& 0xFFFFFFFE).toNat 0 = false := by rw [bit_toNat]; simp

section
variable {s : State} {n cfg v : Nat}

theorem State.modSq_congr {g k : SqRec → SqRec} (h : g (s.sq n) = k (s.sq n)) : State.modSq n g s = State.modSq n k s := by
  rw [State.modSq, h, State.modSq]

theorem State.modCq_congr {g k : CqRec → CqRec} (h : g (s.cq n) = k (s.cq n)) : State.modCq n g s = State.modCq n k s := by
  rw [State.modCq, h, State.modCq]

/-! ### Configuration (R401, R424, R427) -/

theorem opSqCfg_enabled (h : (s.sq n).en = true) : opSqCfg n cfg s = State.modSq n (fun q => { q with en := bit cfg 0 }) s :=
  State.modSq_congr (if_pos h)

theorem opSqCfg_starts (h : (s.sq n).en = false) (hb : bit cfg 0 = true) (hsize : sizeOk cfg = true) :
    opSqCfg n cfg s = State.modSq n (fun q =>
      { q.config cfg with en := true, head := 0, tail := 0, fetcherr := false, peerIn := [] }) s :=
  State.modSq_congr (by simp only [SqRec.writeCfg, h, hb, hsize, Bool.and_self, Bool.false_eq_true, if_false, if_true])

theorem opSqCfg_badSize (h : (s.sq n).en = false) (hsize : sizeOk cfg = false) :
    opSqCfg n cfg s = State.modSq n (fun q => q.config cfg) s :=
  State.modSq_congr (by simp only [SqRec.writeCfg, h, hsize, Bool.and_false, Bool.false_eq_true, if_false])

theorem opCqCfg_enabled (h : (s.cq n).en = true) :
    opCqCfg n cfg s = State.modCq n (fun x => { x with en := bit cfg 0 || s.cqNamed n }) s := State.modCq_congr (if_pos h)

theorem opCqCfg_starts (h : (s.cq n).en = false) (hb : bit cfg 0 = true) (hsize : sizeOk cfg = true) :
    opCqCfg n cfg s = State.modCq n (fun x => { x.config cfg with en := true, tail := 0, head := 0, phase := true }) s :=
  State.modCq_congr (by simp only [h, hb, hsize, Bool.and_self, Bool.false_eq_true, if_false, if_true])

theorem opCqCfg_badSize (h : (s.cq n).en = false) (hsize : sizeOk cfg = false) :
    opCqCfg n cfg s = State.modCq n (fun x => x.config cfg) s :=
  State.modCq_congr (by simp only [h, hsize, Bool.and_false, Bool.false_eq_true, if_false])

/-! ### Doorbells (R406, R417) -/

section
variable (hen : (s.sq n).en = true) (hsrc : (s.sq n).source = false)
include hen hsrc

theorem opSqDoorbell_inside (h : bits v 11 0 < (s.sq n).entries) :
    opSqDoorbell n v s = State.modSq n (fun q => { q with tail := BitVec.ofNat 12 (bits v 11 0) }) s :=
  (if_neg (by simp [hen, hsrc])).trans (if_neg (Nat.not_le.mpr h))

theorem opSqDoorbell_outside (h : (s.sq n).entries ≤ bits v 11 0) :
    opSqDoorbell n v s = State.modSq n (fun q => { q with dberr := true }) s :=
  (if_neg (by simp [hen, hsrc])).trans (if_pos h)

end

section
variable (hen : (s.cq n).en = true)
include hen

theorem opCqDoorbell_reaches (h : (s.cq n).reaches (bits v 11 0) = true) :
    opCqDoorbell n v s = State.modCq n (fun q => { q with head := BitVec.ofNat 12 (bits v 11 0) }) s :=
  (if_neg (by simp [hen])).trans (if_pos h)

theorem opCqDoorbell_beyond (h : (s.cq n).reaches (bits v 11 0) = false) :
    opCqDoorbell n v s = State.modCq n (fun q => { q with dberr := true }) s :=
  (if_neg (by simp [hen])).trans (if_neg (by simp [h]))

end
end

/-- Settles O18: every clause is one case of what a configuration write or a doorbell does to its queue. -/
theorem commandQueues : Obligations.CommandQueues := by
  unfold Obligations.CommandQueues
  intro s hs hup
  dsimp only
  have hwrite : ∀ {f : State → State} {t : State}, f s = t → performBlk f s = .next (keepLatch s (wakeEvent 1 t)) :=
    fun ht => ht ▸ performBlk_runs s _ hs hup
  refine ⟨fun n cfg hen => ⟨fun hsize => hwrite (opSqCfg_starts hen (bit_enable cfg) hsize), fun hsize => hwrite (opSqCfg_badSize hen hsize)⟩,
    fun n cfg hen => ⟨hwrite ?_, hwrite ?_⟩,
    fun q cfg hen => ⟨fun hsize => hwrite (opCqCfg_starts hen (bit_enable cfg) hsize), fun hsize => hwrite (opCqCfg_badSize hen hsize)⟩,
    fun q cfg hen => ⟨fun hnamed => hwrite ?_, fun hnamed => hwrite ?_⟩,
    fun n v hen hsrc => ⟨fun h => hwrite (opSqDoorbell_inside hen hsrc h), fun h => hwrite (opSqDoorbell_outside hen hsrc h)⟩,
    fun n v hen => ⟨fun h => hwrite (opCqDoorbell_reaches hen h), fun h => hwrite (opCqDoorbell_beyond hen h)⟩,
    fun v hen => ⟨fun h => hwrite (opCqDoorbell_reaches hen h), fun h => hwrite (opCqDoorbell_beyond hen h)⟩⟩
  · rw [opSqCfg_enabled hen, bit_disable]
  · rw [opSqCfg_enabled hen, bit_enable]
  · rw [opCqCfg_enabled hen, hnamed, Bool.or_true]
  · rw [opCqCfg_enabled hen, hnamed, bit_disable, Bool.or_false]

end Sys2Proof.Machine
end

section
/-! PROOFS. Fetching commands, posting completions and command frames of a peer (R402 to R406, R411, R419, R420, R436). -/

namespace Sys2Proof.Machine

section
variable {s t u : State} {n : Nat}

/-! ### Firmware channels (R436, R450) -/

theorem firmwareAccess_first {α : Type} {a : Nat} {act : State → Option α × State} {x : α} (h : act s = (some x, t)) :
    firmwareAccess n a act s = (some x, t) := by
  have hfirst : dmaAttempts n act ((s.dmac n).retries + 1) s = (some x, t) := by
    simp only [dmaAttempts, h, Option.isSome_some, if_true]
  simp only [firmwareAccess, hfirst, Option.isSome_some, if_true]

/-! ### Fetching (R402, R403, R406) -/

/-- Commands of the table are none of them refused for their opcode. -/
theorem refuseUnknown_known (h : ∀ c ∈ s.cmdq.cmds, knownOp c.op = true) : refuseUnknown s = s :=
  List.foldlRecOn (motive := fun t => t = s) _ _ rfl fun t ht c hc => by rw [h c hc]; exact ht

theorem opCommandFetch_off (h : s.fetchRuns = false) : opCommandFetch s = s := if_pos (by rw [h]; rfl)

section
variable (hon : s.fetchRuns = true) (hknown : ∀ c ∈ s.cmdq.cmds, knownOp c.op = true)
include hon hknown

theorem opCommandFetch_full (h : 1024 ≤ s.cmdq.cmds.length) : opCommandFetch s = s := by
  simp only [opCommandFetch, hon, refuseUnknown_known hknown, ite_self, h, Bool.not_true, Bool.false_eq_true, if_true]

section
variable (hroom : s.cmdq.cmds.length < 1024)
include hroom

theorem opCommandFetch_idle (h : s.nextQueue = none) : opCommandFetch s = s := by
  simp only [opCommandFetch, hon, refuseUnknown_known hknown, ite_self, Nat.not_le.mpr hroom, h, Bool.not_true, Bool.false_eq_true]

theorem opCommandFetch_fetches (h : s.nextQueue = some n) : opCommandFetch s = fetchEntry n s := by
  simp only [opCommandFetch, hon, refuseUnknown_known hknown, ite_self, Nat.not_le.mpr hroom, h, Bool.not_true, Bool.false_eq_true, if_false]

end
end

section
variable {b : List PByte}
  (hread : readAll 0x9F (s.sq n).cls.toNat ((s.sq n).base.toNat + 64 * (s.sq n).head.toNat) 64 s = (some b, t))
include hread

theorem fetchEntry_good (h : poisoned b = false) : fetchEntry n s = acceptPacket n (plain b) (firmwareDone 30 t) := by
  simp only [fetchEntry, firmwareAccess_first (n := 30) (act := readAll (dmaInit 30) _ _ 64) hread, h, Bool.false_eq_true, if_false]

theorem fetchEntry_poisoned (h : poisoned b = true) : ((fetchEntry n s).sq n).fetcherr = true := by
  simp only [fetchEntry, firmwareAccess_first (n := 30) (act := readAll (dmaInit 30) _ _ 64) hread, h, if_true, State.modSq_sq]

end

theorem acceptPacket_head (pkt : List Byte) :
    ((acceptPacket n pkt s).sq n).head = BitVec.ofNat 12 (((s.sq n).head.toNat + 1) % (s.sq n).entries) :=
  congrArg SqRec.head (State.modSq_sq ..)

/-! ### Posting (R404 to R406, R436) -/

theorem sendMsix_keeps (v : Nat) :
    (sendMsix v s).cmdq.cmds = s.cmdq.cmds ∧ (∀ q, (sendMsix v s).cq q = s.cq q) ∧ (sendMsix v s).mem = s.mem := by
  unfold sendMsix
  dsimp only
  split
  · exact ⟨rfl, fun _ => rfl, rfl⟩
  · split <;> exact ⟨rfl, fun _ => rfl, rfl⟩

/-- An entry whose write is acknowledged at once moves TAIL on, whether or not its vector is sent. -/
theorem postEntry_acked {q : Nat} {e : List Byte} (noirq : Bool)
    (hw : busWrite 0x9F (s.dmac 31).cls.toNat ((s.cq q).base.toNat + 32 * (s.cq q).tail.toNat) (clean e) s = (true, u)) :
    ∃ t, postEntry q e noirq s = (true, t) ∧ t.cmdq.cmds = s.cmdq.cmds ∧ t.cq q = (u.cq q).advance ∧ t.mem = u.mem := by
  have hcmds : u.cmdq.cmds = s.cmdq.cmds := by
    have hframe := busWrite_frame s 0x9F (s.dmac 31).cls.toNat ((s.cq q).base.toNat + 32 * (s.cq q).tail.toNat) (clean e)
    rw [hw] at hframe
    exact congrArg (fun t => t.cmdq.cmds) hframe
  have hcq : (State.modCq q CqRec.advance (firmwareDone 31 u)).cq q = (u.cq q).advance := State.modCq_cq ..
  have hmem : (State.modCq q CqRec.advance (firmwareDone 31 u)).mem = u.mem := State.modCq_mem ..
  have haccess := firmwareAccess_first (s := s) (n := 31) (a := (s.cq q).base.toNat + 32 * (s.cq q).tail.toNat) (x := ()) (t := u)
    (act := fun t => let w := busWrite (dmaInit 31) (t.dmac 31).cls.toNat ((s.cq q).base.toNat + 32 * (s.cq q).tail.toNat) (clean e) t
      (if w.1 then some () else none, w.2)) (by rw [show dmaInit 31 = 0x9F from rfl, hw]; rfl)
  obtain ⟨hmcmds, hmcq, hmmem⟩ := sendMsix_keeps (s := State.modCq q CqRec.advance (firmwareDone 31 u)) (s.cq q).vector.toNat
  simp only [postEntry, haccess, Option.isSome_some, if_true]
  refine ⟨_, rfl, ?_⟩
  split
  · exact ⟨hmcmds.trans hcmds, (hmcq q).trans hcq, hmmem.trans hmem⟩
  · exact ⟨hcmds, hcq, hmem⟩

/-- An entry posted for no peer: its command leaves flight (R404). -/
theorem commandPosted_own {c : Cmd} (e : List Byte) (h : s.cmd c.tag = some c) (hreply : c.reply = none) :
    commandPosted c.tag e s = { s with cmdq := { s.cmdq with cmds := s.cmdq.cmds.filter (fun x => x.tag ≠ c.tag) } } := by
  simp only [commandPosted, h, hreply]

theorem opCompletionPost_off (q : Nat) (h : (s.fetchRuns && s.cqOpen q) = false) : opCompletionPost q s = s :=
  if_pos (by rw [h]; rfl)

theorem opCompletionPost_posts {q : Nat} {c : Cmd} (hon : s.fetchRuns = true) (hknown : ∀ c ∈ s.cmdq.cmds, knownOp c.op = true)
    (hopen : s.cqOpen q = true)
    (hfind : s.cmdq.cmds.find? (fun c => s.postable c && (s.sq c.sq).cq.toNat = q) = some c) :
    opCompletionPost q s = postCompletion c s := by
  simp only [opCompletionPost, hon, hopen, refuseUnknown_known hknown, ite_self, Bool.and_self, Bool.not_true, Bool.false_eq_true,
    if_false, hfind]

theorem opPostingRepeat_off (h : s.fetchRuns = false) : opPostingRepeat s = s := if_pos (by rw [h]; rfl)

theorem opPostingRepeat_one {x : StuckPost} (hon : s.fetchRuns = true) (h : s.cmdq.stuck = [x]) :
    opPostingRepeat s = repeatPost x { s with cmdq := { s.cmdq with stuck := [] } } := by
  simp only [opPostingRepeat, hon, h, Bool.not_true, Bool.false_eq_true, if_false, List.foldl_cons, List.foldl_nil]

/-- The oldest ended command of an open queue, owed to no peer, its entry acknowledged: it leaves flight and TAIL has moved (R404, R405). -/
theorem opCompletionPost_acked {q : Nat} {c : Cmd} {st : Byte} {r0 r1 : Word64} (hon : s.fetchRuns = true)
    (hknown : ∀ c ∈ s.cmdq.cmds, knownOp c.op = true) (hopen : s.cqOpen q = true)
    (hfind : s.cmdq.cmds.find? (fun c => s.postable c && (s.sq c.sq).cq.toNat = q) = some c)
    (hdone : c.stage = .done st r0 r1) (hreply : c.reply = none) (hcmd : s.cmd c.tag = some c)
    (hw : busWrite 0x9F (s.dmac 31).cls.toNat ((s.cq q).base.toNat + 32 * (s.cq q).tail.toNat)
      (clean (withPhase 6 (s.cq q).phase (completionEntry c st r0 r1 (s.sq c.sq).head.toNat s.gctl.time))) s = (true, u)) :
    c ∉ (opCompletionPost q s).cmdq.cmds ∧ (opCompletionPost q s).cq q = (u.cq q).advance ∧ (opCompletionPost q s).mem = u.mem := by
  have hchosen := List.find?_some hfind
  have hq : (s.sq c.sq).cq.toNat = q := of_decide_eq_true (Bool.and_eq_true_iff.mp hchosen).2
  obtain ⟨t, hpost, hcmds, hcq, hmem⟩ := postEntry_acked c.noirq hw
  have hcmd' : t.cmd c.tag = some c := by rw [State.cmd, hcmds]; exact hcmd
  have hend : opCompletionPost q s = { t with cmdq := { t.cmdq with cmds := t.cmdq.cmds.filter (fun x => x.tag ≠ c.tag) } } := by
    rw [opCompletionPost_posts hon hknown hopen hfind]
    simp only [postCompletion, hdone, hq, hpost, if_true]
    exact commandPosted_own _ hcmd' hreply
  rw [hend]
  exact ⟨fun hin => of_decide_eq_true (List.mem_filter.mp hin).2 rfl, hcq, hmem⟩

/-! ### Command frames of a peer (R419, R420) -/

section
variable {d : List Byte} {src : PeerAddr}

theorem opPeerFrame_deaf (h : (s.port n).link ≠ .up ∨ s.eth.cmdPort = 0) : opPeerFrame n d src s = s := if_pos (by simpa using h)

section
variable (hlink : (s.port n).link = .up) (hport : s.eth.cmdPort ≠ 0)
include hlink hport

theorem peerFrame_heard : ¬(decide ((s.port n).link ≠ .up) || decide (s.eth.cmdPort = 0)) = true := by
  simpa [hlink] using hport

theorem opPeerFrame_tooLong (h : (s.port n).maxFrame.toNat < udpFrame src.ipv6 d.length) :
    opPeerFrame n d src s = State.modPort n (fun r => { r with rxBad := satInc r.rxBad }) s :=
  (if_neg (peerFrame_heard hlink hport)).trans (receiveLen_tooLong hlink h)

section
variable (hfits : udpFrame src.ipv6 d.length ≤ (s.port n).maxFrame.toNat)
include hfits

theorem opPeerFrame_dropped (h : (peerFrameOk d && s.peerQueueOk n d) = false) :
    opPeerFrame n d src s = { countRx n s with cmdq := { s.cmdq with peerDrop := satInc s.cmdq.peerDrop } } :=
  (if_neg (peerFrame_heard hlink hport)).trans ((receiveLen_up hlink hfits).trans
    (if_pos (by rw [show (countRx n s).peerQueueOk n d = s.peerQueueOk n d from rfl, h]; rfl)))

theorem opPeerFrame_enters (hok : peerFrameOk d = true) (hq : s.peerQueueOk n d = true)
    (hfw : s.fwMmio (0xB1 + n) true 0x110000 4 = true) :
    opPeerFrame n d src s = forUpTo (field d 6 1) (fun i t =>
      enterPacket n (field d 0x0C 1) src (BitVec.ofNat 32 (field d 8 4)) (slice d (16 + 64 * i) 64) t) (countRx n s) := by
  have hq' : (countRx n s).peerQueueOk n d = true := hq
  have hfw' : (countRx n s).fwMmio (0xB1 + n) true 0x110000 4 = true := hfw
  refine (if_neg (peerFrame_heard hlink hport)).trans ((receiveLen_up hlink hfits).trans ?_)
  rw [hok, hq', hfw']
  rfl

end
end
end
end

/-- Settles O19: what a fetch, a posting, its repeat and a peer's frame do, each by the equation of the case its clause names. -/
theorem fetchAndPost : Obligations.FetchAndPost := by
  unfold Obligations.FetchAndPost
  intro s hs
  dsimp only
  have hfetch : ∀ {t : State}, opCommandFetch s = t → Completes .commandFetch s t := fun ht => ht ▸ perform_runs s opCommandFetch hs
  have hrepeat : ∀ {t : State}, opPostingRepeat s = t → Completes .postingRepeat s t := fun ht => ht ▸ perform_runs s opPostingRepeat hs
  have hpost : ∀ {q : CqNo} {t : State}, opCompletionPost q s = t → Completes (.completionPost q) s t :=
    fun ht => ht ▸ perform_runs s (opCompletionPost _) hs
  have hpeer : ∀ {n : EthPort} {d : List Byte} {src : PeerAddr} {t : State}, (Instr.peerCommandFrame n d src).wf = true →
      opPeerFrame n d src s = t → Completes (.peerCommandFrame n d src) s t := fun hwf ht => ht ▸ performWf_runs s _ _ hwf hs
  refine ⟨fun hoff => ⟨hfetch (opCommandFetch_off hoff), hrepeat (opPostingRepeat_off hoff),
      fun q => hpost (opCompletionPost_off _ (by simp [hoff]))⟩,
    fun hon hknown => ⟨fun hfull => hfetch (opCommandFetch_full hon hknown hfull),
      fun hroom hnone => hfetch (opCommandFetch_idle hon hknown hroom hnone),
      fun hroom n b t hnext hread => ⟨fun hgood => ⟨hfetch ?_, ?_⟩, fun hbad => ?_⟩⟩,
    fun q c st r0 r1 u hon hknown hopen hfind hdone hreply hcmd hw => ?_, fun q hon hshut => hpost (opCompletionPost_off _ (by simp [hshut])),
    fun x hon hstuck => hrepeat (opPostingRepeat_one hon hstuck), fun n d src hwf => ⟨fun hdeaf => hpeer hwf (opPeerFrame_deaf hdeaf),
      fun hlink hport hlong => hpeer hwf (opPeerFrame_tooLong hlink hport hlong), fun hfits => ⟨fun hlink hport hbad => ?_,
        fun hlink hport hok hq hfw => hpeer hwf (opPeerFrame_enters hlink hport hfits hok hq hfw)⟩⟩⟩
  · exact (opCommandFetch_fetches hon hknown hroom hnext).trans (fetchEntry_good hread hgood)
  · exact acceptPacket_head (s := firmwareDone 30 t) (plain b)
  · refine ⟨_, hfetch (opCommandFetch_fetches hon hknown hroom hnext), ?_⟩
    rw [keepLatch_sq]
    exact fetchEntry_poisoned hread hbad
  · refine ⟨_, hpost rfl, ?_⟩
    rw [keepLatch_cmdq, keepLatch_cq, keepLatch_mem]
    exact opCompletionPost_acked hon hknown hopen hfind hdone hreply hcmd hw
  · refine ⟨_, hpeer hwf (opPeerFrame_dropped hlink hport hfits hbad), ?_⟩
    rw [keepLatch_cmdq]
    exact ⟨rfl, rfl⟩

end Sys2Proof.Machine
end

section
/-! PROOFS. What the symbol decoder answers for its three syndromes, and for one to four symbols in error (R471). -/

namespace Sys2Proof.Machine

/-- A power of alpha that takes s0 to s1 is found, and below the order of alpha it is the only one. -/
theorem rsLocate_of_gfPow {s0 s1 : Byte} {l n : Nat} (hs0 : s0 ≠ 0) (hl : gfMul s0 (gfPow l) = s1) (hn : l < n) (hlen : n ≤ 255) :
    rsLocate s0 s1 n = some l := by
  rw [gfMul_gfPow] at hl
  exact rsLocate_some hl (fun m hm => hl ▸ iterate_gfDouble_ne hs0 hm (by omega)) hn

/-- Syndromes that fit one symbol in error at a power l inside the word. -/
theorem rsOutcome_fits {n l : Nat} {s0 s1 s2 : Byte} (h0 : s0 ≠ 0) (h1 : s1 ≠ 0) (h2 : s2 ≠ 0) (hsq : gfMul s1 s1 = gfMul s0 s2)
    (hl : gfMul s0 (gfPow l) = s1) (hn : l < n) (hlen : n ≤ 255) : rsOutcome n s0 s1 s2 = .corrected (n - 1 - l) s0 := by
  rw [rsOutcome, if_neg (fun h => h0 h.1), if_pos ⟨h0, h1, h2, hsq⟩, rsLocate_of_gfPow h0 hl hn hlen]

/-- Syndromes that are not all 0 and fit no single symbol of the word. -/
theorem rsOutcome_unfit {n : Nat} {s0 s1 s2 : Byte} (hbad : ¬(s0 = 0 ∧ s1 = 0 ∧ s2 = 0))
    (hunfit : ¬(s0 ≠ 0 ∧ s1 ≠ 0 ∧ s2 ≠ 0 ∧ gfMul s1 s1 = gfMul s0 s2 ∧ ∃ l, l < n ∧ gfMul s0 (gfPow l) = s1)) :
    rsOutcome n s0 s1 s2 = .uncorrectable := by
  rw [rsOutcome, if_neg hbad]
  split
  · next hfit =>
    obtain ⟨h0, h1, h2, hsq⟩ := hfit
    have hnone : rsLocate s0 s1 n = none :=
      rsLocate_none fun m hm hloc => hunfit ⟨h0, h1, h2, hsq, m, hm, (gfMul_gfPow s0 m).trans hloc⟩
    rw [hnone]
  · rfl

/-- The code word of the generator, 01 07 0E 08, seen from the word of zeros with its last symbol missing: taken for one error (R470). -/
theorem miscorrected_three :
    rsDecode (applyErrs (rsEncode [0]) [(0, 0x01), (1, 0x07), (2, 0x0E)]) = .corrected 3 0x08 ∧
      rsCorrected (applyErrs (rsEncode [0]) [(0, 0x01), (1, 0x07), (2, 0x0E)]) ≠ rsEncode [0] := by decide +kernel

/-- The code word of the generator seen from the word of zeros: its four symbols leave no syndrome (R470). -/
theorem unseen_four :
    rsDecode (applyErrs (rsEncode [0]) [(0, 0x01), (1, 0x07), (2, 0x0E), (3, 0x08)]) = .good ∧
      applyErrs (rsEncode [0]) [(0, 0x01), (1, 0x07), (2, 0x0E), (3, 0x08)] ≠ rsEncode [0] := by decide +kernel


/-- Settles O59: the decoder's answer is a function of the syndromes, which for one and two errors are those of a code of distance 4;
the generator itself shows that three and four errors can pass. -/
theorem symbolCode : Obligations.SymbolCode := by
  unfold Obligations.SymbolCode
  intro syn
  refine ⟨fun w h0 h1 h2 => ?_, fun w l hlen hl h0 h1 h2 hsq hloc => ?_, fun w hbad hunfit => rsOutcome_unfit hbad hunfit,
    fun u hu => ⟨rsDecode_codeword (isCodeword_rsEncode u), fun i e hi he => ⟨?_, ?_⟩, fun i j e f hij hj he hf => ?_⟩,
    ⟨[0], [(0, 0x01), (1, 0x07), (2, 0x0E)], rfl, by decide, by decide, _, _, miscorrected_three⟩,
    ⟨[0], [(0, 0x01), (1, 0x07), (2, 0x0E), (3, 0x08)], rfl, by decide, by decide, unseen_four⟩⟩
  · exact if_pos ⟨h0, h1, h2⟩
  · exact rsOutcome_fits h0 h1 h2 hsq hloc hl (by omega)
  · exact rsDecode_one (isCodeword_rsEncode u) (by simp; omega) (by simpa using hi) he
  · exact rsCorrected_one (isCodeword_rsEncode u) (by simp; omega) (by simpa using hi) he
  · exact rsDecode_two (isCodeword_rsEncode u) (by simp; omega) hij.ne (by simp; omega) (by simpa using hj) he hf

end Sys2Proof.Machine
end

section
/-! PROOFS. The twin link: training, the loss of lanes, and the retry of a DOWN link (R494, R495, R515, R558, R570). -/

namespace Sys2Proof.Machine

section
variable {s : State}

/-! ### Training (R494, R495) -/

theorem opTwinUp_idle (spared : BitVec 3) (h : s.twin.link ≠ .training ∨ s.twinTrains = false) : opTwinUp spared s = s :=
  if_pos (by simpa using h)

/-- A link that trains comes up with the lane already replaced, or with the one named; a role that is set stays. -/
theorem opTwinUp_trains (spared : BitVec 3) (hrole : s.twin.roleSet = true) (hlink : s.twin.link = .training) (htrains : s.twinTrains = true) :
    opTwinUp spared s = linkTrained (if s.twin.spared = 7 then spared else s.twin.spared) s :=
  (if_neg (by simp [hlink, htrains])).trans (setRole_set hrole)

theorem opTwinRetry_fails (spared : BitVec 3) : opTwinRetry false spared s = s := if_neg (by simp)

theorem opTwinRetry_trains (spared : BitVec 3) (hrole : s.twin.roleSet = true) (hlink : s.twin.link = .down) (htrains : s.twinTrains = true) :
    opTwinRetry true spared s = linkTrained spared s :=
  (if_pos (by simp [hlink, htrains])).trans (setRole_set hrole)

theorem linkTrained_whole {spared : BitVec 3} (h : 4 ≤ spared.toNat) :
    linkTrained spared s = { s with twin := { s.twin with link := .up, spared := 7, lostLanes := 0 } } := by
  simp only [linkTrained, if_neg (Nat.not_lt.mpr h)]

theorem linkTrained_spared {spared : BitVec 3} (h : spared.toNat < 4) :
    linkTrained spared s = { s with twin := { s.twin with
      link := .up, spared := spared, lostLanes := BitVec.ofNat 5 (2 ^ spared.toNat) } } := by
  simp only [linkTrained, if_pos h]

/-! ### Lane loss (R495) -/

/-- The lanes among those that lose lock that had not lost it before, in ascending order. -/
def freshLanes (lanes lost : BitVec 5) : List Nat := (List.range 5).filter (fun i => lanes.getLsbD i && !lost.getLsbD i)

theorem freshLanes_none (l : Fin 5) : freshLanes (BitVec.ofNat 5 (2 ^ l.val)) 0 = [l.val] := by
  revert l; decide +kernel

theorem freshLanes_other {l m : Fin 5} (h : l ≠ m) : freshLanes (BitVec.ofNat 5 (2 ^ l.val)) (BitVec.ofNat 5 (2 ^ m.val)) = [l.val] := by
  revert l m; decide +kernel

theorem lane_ne_zero (m : Fin 5) : BitVec.ofNat 5 (2 ^ m.val) ≠ 0 := by revert m; decide

section
variable (hlink : s.twin.link = .up)
include hlink

/-- The first lane that an UP link loses: among 0 to 3 it is replaced and the link retrains, lane 4 is only noted. -/
theorem opLaneLoss_first (l : Fin 5) (hlost : s.twin.lostLanes = 0) :
    opLaneLoss (BitVec.ofNat 5 (2 ^ l.val)) s =
      if l.val < 4 then reportTwin 0x0A04 l { s with twin := { s.twin with
        lostLanes := BitVec.ofNat 5 (2 ^ l.val), link := .training, spared := BitVec.ofNat 3 l } }
      else { s with twin := { s.twin with lostLanes := BitVec.ofNat 5 (2 ^ l.val) } } := by
  have hfresh := freshLanes_none l
  unfold freshLanes at hfresh
  unfold opLaneLoss
  simp only [hlink, hlost, hfresh]
  simp

/-- A second lane takes the link DOWN. -/
theorem opLaneLoss_second {l m : Fin 5} (hlost : s.twin.lostLanes = BitVec.ofNat 5 (2 ^ m.val)) (hne : l ≠ m) :
    opLaneLoss (BitVec.ofNat 5 (2 ^ l.val)) s =
      reportTwin 0x0A05 l { s with twin := { s.twin with link := .down, spared := 7, lostLanes := 0 } } := by
  have hfresh := freshLanes_other hne
  have hbefore := lane_ne_zero m
  unfold freshLanes at hfresh
  unfold opLaneLoss
  simp only [hlink, hlost, hfresh]
  rw [if_neg (by simp), if_pos (by simpa using hbefore)]
  rfl

end
end

/-- Settles O12: a link trained has one equation for each lane replaced or none, and a lane's loss one for the first and one for the second. -/
theorem twinLink : Obligations.TwinLink := by
  unfold Obligations.TwinLink
  intro s spared hs hrole
  have hup : ∀ {t : State}, opTwinUp spared s = t → Completes (.twinLinkUp spared) s t := fun ht => ht ▸ performSaf_runs s _ hs
  have hretry : ∀ {ok : Bool} {t : State}, opTwinRetry ok spared s = t → Completes (.twinTrainRetry ok spared) s t :=
    fun ht => ht ▸ performSaf_runs s _ hs
  have hloss : ∀ {lanes : BitVec 5} {t : State}, opLaneLoss lanes s = t → Completes (.twinLaneLoss lanes) s t :=
    fun ht => ht ▸ performSaf_runs s _ hs
  refine ⟨fun h => hup (opTwinUp_idle spared h), fun hlink htrains h7 hnone => hup ?_, fun hlink htrains h7 hlane => hup ?_,
    fun hlink htrains hlane => hup ?_,
    fun hlink htrains hnone => hretry ((opTwinRetry_trains spared hrole hlink htrains).trans (linkTrained_whole hnone)),
    hretry (opTwinRetry_fails spared), fun l hlink hlost hl => hloss ((opLaneLoss_first hlink l hlost).trans (if_pos hl)),
    fun hlink hlost => hloss (opLaneLoss_first hlink 4 hlost), fun l m hlink hlost hne => hloss (opLaneLoss_second hlink hlost hne)⟩
  · rw [opTwinUp_trains spared hrole hlink htrains, if_pos h7, linkTrained_whole hnone]
  · rw [opTwinUp_trains spared hrole hlink htrains, if_pos h7, linkTrained_spared hlane]
  · have h7 : s.twin.spared ≠ 7 := fun h => by rw [h] at hlane; exact absurd hlane (by decide)
    rw [opTwinUp_trains spared hrole hlink htrains, if_neg h7, linkTrained_spared hlane]

end Sys2Proof.Machine
end

section
/-! PROOFS. Digests of a pipeline's command region, and the wait for the peer's (R496, R505, R506, R510). -/

namespace Sys2Proof.Machine

section
variable {s t : State} {p : Nat}

/-! ### A digest made (R505) -/

/-- The device's digest of a frame: over the frame, the pipeline and the region's bytes (R505). -/
def twinDigestOf (p : Nat) (l : Ledger) (b : List PByte) : List Byte := shake256 (toLe 4 l.frame.toNat ++ toLe 1 p ++ plain b) 32

section
variable {l : Ledger} {d : Option (List PByte)} (hrun : (s.pipe p).running = true) (hcls : (s.pipe p).cls = 0)
  (hlen : (s.twinPipe p).digLen ≠ 0) (hframe : s.digestFrame p = some l)
  (hread : readAll 0xD0 0 (s.twinPipe p).digBase.toNat (s.twinPipe p).digLen.toNat s = (d, t))
include hrun hcls hlen hframe hread

/-- A region read whole and unpoisoned: its digest is kept and sent, and the frames are judged. -/
theorem opDigestCompute_sound {b : List PByte} (hd : d = some b) (hb : poisoned b = false) :
    opDigestCompute p s = judgeTwin p (sendDigest p l (twinDigestOf p l b)
      (State.modTwinPipe p (fun x => { x with local_ := (l.frame, twinDigestOf p l b) :: x.local_, resendDue := true }) t)) := by
  subst hd
  simp only [opDigestCompute, hrun, hcls, hlen, hframe, hread, hb]
  rfl

/-- A region that cannot be read, or is poisoned: the frame can have no digest of this device. -/
theorem opDigestCompute_unsound (hd : d = none ∨ ∃ b, d = some b ∧ poisoned b = true) :
    opDigestCompute p s = judgeTwin p (State.modTwinPipe p (fun x => { x with localFailed := l.frame :: x.localFailed }) t) := by
  rcases hd with rfl | ⟨b, rfl, hb⟩
  · simp only [opDigestCompute, hrun, hcls, hlen, hframe, hread]
    rfl
  · simp only [opDigestCompute, hrun, hcls, hlen, hframe, hread, hb]
    rfl

end

/-! ### The second copy (R505) -/

theorem opDigestResend_due {own : Word32 × List Byte} {rest : List (Word32 × List Byte)} (h : (s.twinPipe p).local_ = own :: rest)
    (hdue : (s.twinPipe p).resendDue = true) :
    opDigestResend p s = sendDigest p (s.ledgerAt p own.1) own.2 (State.modTwinPipe p (fun x => { x with resendDue := false }) s) := by
  simp only [opDigestResend, h, hdue]
  rfl

theorem opDigestResend_sent (hdue : (s.twinPipe p).resendDue = false) : opDigestResend p s = s := by
  unfold opDigestResend
  dsimp only
  split
  · rfl
  · exact if_pos (by simp [hdue])

/-! ### The peer's digest (R496, R506) -/

section
variable (frame : Word32) (age cor : Byte) (dg : BitVec 256)

theorem opDigestReceive_down (good : Bool) (h : s.twin.link ≠ .up) : opDigestReceive p frame age cor dg good s = s := if_pos h

section
variable (hlink : s.twin.link = .up)
include hlink

theorem opDigestReceive_bad :
    opDigestReceive p frame age cor dg false s = { s with twin := { s.twin with crcErr := satInc s.twin.crcErr } } :=
  (if_neg (by simp [hlink])).trans (if_pos rfl)

theorem opDigestReceive_good : opDigestReceive p frame age cor dg true s =
    if s.digestLate p frame then s
    else judgeTwin p (State.modTwinPipe p (fun x => { x with held := x.held ++ [(frame, age, cor, toLe 32 dg.toNat)] }) s) :=
  (if_neg (by simp [hlink])).trans (if_neg (by simp))

end
end

/-! ### The wait (R506, R510) -/

theorem opDigwait_none (h : s.digwaitOver p = []) : opDigwait p s = s := if_pos (by simp [h])

theorem opDigwait_over (h : s.digwaitOver p ≠ []) : opDigwait p s = endWait p (s.digwaitOver p) s := if_neg (by simpa using h)

end

/-- Settles O14: one equation for each way a digest can be made, sent again, received or waited for. -/
theorem twinDigests : Obligations.TwinDigests := by
  unfold Obligations.TwinDigests
  intro s p
  have hcompute : ∀ {t : State}, Runs s → opDigestCompute p s = t → Completes (.digestComputeDone p) s t :=
    fun hs ht => ht ▸ perform_runs s _ hs
  have hresend : ∀ {t : State}, RunsSaf s → opDigestResend p s = t → Completes (.digestResend p) s t :=
    fun hs ht => ht ▸ performSaf_runs s _ hs
  have hreceive : ∀ {frame age cor dg good} {t : State}, RunsSaf s → opDigestReceive p frame age cor dg good s = t →
      Completes (.digestReceive p frame age cor dg good) s t := fun hs ht => ht ▸ performSaf_runs s _ hs
  have hwait : ∀ {t : State}, RunsSaf s → opDigwait p s = t → Completes (.digwaitExpiry p) s t := fun hs ht => ht ▸ performSaf_runs s _ hs
  refine ⟨fun hs l d t hrun hcls hlen hframe hread =>
      ⟨fun b hd hb => hcompute hs (opDigestCompute_sound hrun hcls hlen hframe hread hd hb),
        fun hd => hcompute hs (opDigestCompute_unsound hrun hcls hlen hframe hread hd)⟩,
    fun hs own rest h hdue => hresend hs (opDigestResend_due h hdue), fun hs hdue => hresend hs (opDigestResend_sent hdue),
    fun hs frame age cor dg => ⟨fun h => hreceive hs (opDigestReceive_down frame age cor dg true h),
      fun hlink => hreceive hs (opDigestReceive_bad frame age cor dg hlink),
      fun hlink hlate => hreceive hs ((opDigestReceive_good frame age cor dg hlink).trans (if_pos hlate)),
      fun hlink hlate => hreceive hs ((opDigestReceive_good frame age cor dg hlink).trans (if_neg (by simp [hlate])))⟩,
    fun hs ls hls => ?_⟩
  have hover : s.digwaitOver p = ls := hls.symm
  exact ⟨fun hne => hwait hs (hover ▸ opDigwait_over (hover ▸ hne)), fun hnil => hwait hs (opDigwait_none (hover.trans hnil))⟩

end Sys2Proof.Machine
end

section
/-! PROOFS. What posts, withdrawals, doubts and the safe state's decision leave alone of the memory controllers (R339, R417, R468, R477, R483). -/

namespace Sys2Proof.Machine

/-- The memory controllers' channels and groups, but for what any access changes: the mark of a retraining and the count of class-0 lines. -/
def State.controllers (s : State) : (Nat → PchRec) × (Nat → GroupRec) :=
  (fun p => { s.pch p with retrained := false }, fun g => { s.group g with c0Now := 0 })

section
variable {s t : State}

theorem State.controllers_congr (h : t.mem = s.mem) : t.controllers = s.controllers := by
  unfold State.controllers State.pch State.group
  rw [h]

theorem State.controllers_pch (h : t.controllers = s.controllers) (p : Nat) : (t.pch p).st = (s.pch p).st :=
  congrArg (fun c : (Nat → PchRec) × (Nat → GroupRec) => (c.1 p).st) h

theorem State.controllers_group (h : t.controllers = s.controllers) (g : Nat) :
    (t.group g).migTo = (s.group g).migTo ∧ (t.group g).clockLost = (s.group g).clockLost :=
  ⟨congrArg (fun c : (Nat → PchRec) × (Nat → GroupRec) => (c.2 g).migTo) h,
    congrArg (fun c : (Nat → PchRec) × (Nat → GroupRec) => (c.2 g).clockLost) h⟩

end

section
variable (s : State)

theorem modPch_controllers (p : Nat) (u : PchRec → PchRec) (hu : ∀ r, { u r with retrained := false } = { r with retrained := false }) :
    (State.modPch p u s).controllers = s.controllers := by
  refine Prod.ext (funext fun q => ?_) rfl
  change { (State.modPch p u s).pch q with retrained := false } = { s.pch q with retrained := false }
  by_cases h : q = p
  · rw [h, State.modPch_pch, hu]
  · rw [State.modPch_pch_ne _ _ _ _ h]

theorem modGroup_controllers (g : Nat) (u : GroupRec → GroupRec) (hu : ∀ r, { u r with c0Now := 0 } = { r with c0Now := 0 }) :
    (State.modGroup g u s).controllers = s.controllers := by
  refine Prod.ext rfl (funext fun j => ?_)
  change { (State.modGroup g u s).group j with c0Now := 0 } = { s.group j with c0Now := 0 }
  by_cases h : j = g
  · rw [h, State.modGroup_group, hu]
  · rw [State.modGroup_group_ne _ _ _ _ h]

/-! ### Writes on the bus (R26, R475, R483) -/

theorem transferOk_controllers (a : Nat) : (transferOk a s).controllers = s.controllers := by
  unfold transferOk
  split
  · exact modPch_controllers s _ _ fun _ => rfl
  · rfl

theorem useTokens_controllers (init cls a n : Nat) : (useTokens init cls a n s).controllers = s.controllers := by
  unfold useTokens
  split
  · refine foldl_keeps State.controllers (fun t i => State.modGroup (lchOf (i * 64) / 32) (fun g => { g with c0Now := g.c0Now + 1 }) t)
      (fun t i => ?_) _ s
    exact modGroup_controllers t _ _ fun _ => rfl
  · rfl

theorem writeLine_controllers (a : Nat) (d : List PByte) (i : Nat) : (writeLine a d i s).controllers = s.controllers :=
  transferOk_controllers s (i * 64)

theorem memWrite_controllers (a : Nat) (d : List PByte) : (memWrite a d s).controllers = s.controllers :=
  foldl_keeps State.controllers (fun t i => writeLine a d i t) (fun t i => writeLine_controllers t a d i) _ s

theorem busWrite_controllers (init cls a : Nat) (d : List PByte) : (busWrite init cls a d s).2.controllers = s.controllers := by
  unfold busWrite
  split
  · rfl
  split
  · rfl
  · split
    · rfl
    · split
      · rfl
      · exact (memWrite_controllers _ a d).trans (useTokens_controllers ..)
  · split
    · rfl
    · unfold frondInWrite; split <;> rfl
  · split
    · rfl
    · unfold outboundWrite; split
      · rfl
      · split <;> rfl
  · split
    · rfl
    · split <;> rfl

/-! ### Posts through DMA31 (R405, R406, R417, R436) -/

theorem attemptField_mem (k : Nat) : (attemptField k s).2.mem = s.mem := by
  unfold attemptField
  split <;> rfl

theorem ownFault_mem (code : BitVec 16) (n a k : Nat) : (ownFault code n a k s).mem = s.mem := attemptField_mem s k

theorem ownDescriptors_mem (n : Nat) : (ownDescriptors n s).mem = s.mem := rfl

theorem firmwareDone_mem (n : Nat) : (firmwareDone n s).mem = s.mem := rfl

theorem firmwareHalt_mem (n a k : Nat) : (firmwareHalt n a k s).mem = s.mem := by
  rw [firmwareHalt, State.modDma_mem, ownDescriptors_mem, ownFault_mem]

theorem sendMsix_mem (v : Nat) : (sendMsix v s).mem = s.mem := by
  unfold sendMsix
  dsimp only
  split
  · rfl
  · split <;> rfl

section
variable {α : Type} {act : State → Option α × State} (hact : ∀ t, (act t).2.controllers = t.controllers)
include hact

theorem dmaAttempts_controllers (n k : Nat) : (dmaAttempts n act k s).2.controllers = s.controllers := by
  induction k generalizing s with
  | zero => rfl
  | succ k ih =>
    unfold dmaAttempts
    dsimp only
    split
    · exact hact s
    · rw [ih, State.controllers_congr (State.modDma_mem ..), hact]

theorem firmwareAccess_controllers (n a : Nat) : (firmwareAccess n a act s).2.controllers = s.controllers := by
  unfold firmwareAccess
  dsimp only
  split
  · exact dmaAttempts_controllers s hact n _
  · exact (State.controllers_congr (firmwareHalt_mem ..)).trans (dmaAttempts_controllers s hact n _)

end

theorem postEntry_controllers (q : Nat) (e : List Byte) (noirq : Bool) : (postEntry q e noirq s).2.controllers = s.controllers := by
  unfold postEntry
  extract_lets c a r
  have haccess : r.2.controllers = s.controllers := by
    unfold r
    exact firmwareAccess_controllers s (fun t => busWrite_controllers t _ _ _ _) 31 a
  have hdone : (State.modCq q CqRec.advance (firmwareDone 31 r.2)).controllers = s.controllers := by
    rw [State.controllers_congr ((State.modCq_mem ..).trans (firmwareDone_mem ..)), haccess]
  split
  · dsimp only
    split
    · rw [State.controllers_congr (sendMsix_mem ..), hdone]
    · exact hdone
  · exact haccess

theorem postEvent_controllers (code : Nat) (p : Option Nat) (k : Option Word32) (d : List Byte) :
    (postEvent code p k d s).controllers = s.controllers := by
  unfold postEvent
  split
  · rfl
  split
  · rfl
  extract_lets flags e c t c' r
  split
  · rfl
  · have hpost : r.2.controllers = s.controllers := (postEntry_controllers t 64 _ false).trans (State.controllers_congr rfl)
    split
    · exact hpost
    · refine (State.controllers_congr ?_).trans hpost
      rfl

/-! ### Authority, Moss's submissions and the decision (R319, R336, R338, R339) -/

theorem withdrawPipe_mem (p : Nat) (b : Bool) : (withdrawPipe p b s).mem = s.mem :=
  foldl_keeps State.mem (fun t c => withdrawChannel b c t) (fun t c => by rw [withdrawChannel_frame]) _ s

theorem setAuthority_controllers (p : Nat) (k : Word32) : (setAuthority p false k s).controllers = s.controllers := by
  rw [setAuthority_false]
  split
  · rfl
  · exact (State.controllers_congr (withdrawPipe_mem ..)).trans (postEvent_controllers ..)

theorem abortObj_mem (m o : Nat) : (abortObj m o s).mem = s.mem := by
  unfold abortObj
  split <;> rfl

theorem mossWrite_mem (c : Nat) (d : List Byte) (p : Nat) : (mossWrite c d p s).mem = s.mem := by
  unfold mossWrite
  dsimp only
  split <;> exact abortObj_mem ..

theorem mossSubmit_mem (p : Nat) : (mossSubmit p s).mem = s.mem := by
  unfold mossSubmit
  split
  · rfl
  · exact foldl_keeps State.mem (fun t (e : Nat × List Byte) => mossWrite e.1 e.2 p t) (fun t e => mossWrite_mem t e.1 e.2 p) _ _

theorem mossTakes_controllers (c0 : List Nat) : (mossTakes c0 s).controllers = s.controllers := by
  unfold mossTakes
  rw [foldl_keeps State.controllers (fun t p => State.modC0 p (fun c => { c with openVoid := { c.openVoid with safe := true } }) t)
      (fun _ _ => rfl),
    foldl_keeps State.controllers _ (fun t p => State.controllers_congr (mossSubmit_mem t p))]
  exact foldl_keeps State.controllers _ (fun t p => setAuthority_controllers t p _) _ s

theorem safeReset_mem : (safeReset s).mem = s.mem := by
  unfold safeReset
  dsimp only
  split <;> rfl

theorem safeDecide_controllers : (safeDecide s).controllers = s.controllers := by
  cases h : s.island.restarting with
  | true => rw [safeDecide_again s h]; rfl
  | false =>
    rw [safeDecide_first s h]
    exact (State.controllers_congr (safeReset_mem _)).trans (mossTakes_controllers ..)

end
/-! ### One record (R343) -/

theorem report_record (r : FaultRec) (s : State) :
    ∃ f : FaultRec, f.code = r.code ∧ (report r s).thal.inFlight = s.thal.inFlight ++ [f] :=
  ⟨{ r with time := s.gctl.time }, rfl, rfl⟩

end Sys2Proof.Machine
end

section
/-! PROOFS. The clocks of the other domains, thermal forcing and lifting, and droop (R558, R559, R560). -/

namespace Sys2Proof.Machine

/-! ### Loss of a domain's clock (R558) -/

/-- The domain is noted as lost. -/
def noteClockLost (d : ClockDomain) (s : State) : State := { s with pwr := { s.pwr with lostDomains := s.pwr.lostDomains ++ [d] } }

section
variable {s : State} {d : ClockDomain}

theorem opClockLoss_ignored (h : silentDomain d = true ∨ s.pwr.lostDomains.contains d = true) : opClockLoss d s = s :=
  if_pos (by simpa using h)

theorem opClockLoss_answered (hd : silentDomain d = false) (h : s.pwr.lostDomains.contains d = false) :
    opClockLoss d s = clockResponse d (noteClockLost d s) := if_neg (by simpa [hd] using h)

theorem exec_domainClockLoss (hs : RunsSaf s) (d : ClockDomain) : exec (.domainClockLoss d) s = .next (keepLatch s (opClockLoss d s)) :=
  performSaf_runs s _ hs

theorem safeDomain_response (hd : d ∈ [ClockDomain.noc, .loop, .prep]) :
    silentDomain d = false ∧ ∀ t, clockResponse d t = safePwr 0x0807 0 0 t := by
  simp only [List.mem_cons, List.not_mem_nil, or_false] at hd
  rcases hd with rfl | rfl | rfl <;> exact ⟨rfl, fun _ => rfl⟩

/-- NOC, LOOP and PREP: 0x0807 and the safe state. -/
theorem clockLoss_safeDomain (hs : RunsSaf s) (h : s.pwr.lostDomains.contains d = false) (hd : d ∈ [ClockDomain.noc, .loop, .prep]) :
    ∃ t f l, exec (.domainClockLoss d) s = .next t ∧ t.island.safeCount = satInc s.island.safeCount ∧ f.code = 0x0807 ∧ f.safe = true ∧
      t.thal.inFlight = s.thal.inFlight ++ f :: l := by
  obtain ⟨hloud, hresponse⟩ := safeDomain_response hd
  obtain ⟨f, l, hcode, hsafe, hflight⟩ := safePwr_record (noteClockLost d s) 0x0807 0 0
  refine ⟨_, f, l, exec_domainClockLoss hs d, ?_, hcode, hsafe, ?_⟩
  · rw [keepLatch_safeCount, opClockLoss_answered hloud h, hresponse, safePwr_safeCount]
    rfl
  · rw [keepLatch_thal, opClockLoss_answered hloud h, hresponse, hflight]
    rfl

theorem safePwr_group (s : State) (code : BitVec 16) (q level g : Nat) : ((safePwr code q level s).group g).clockLost = (s.group g).clockLost :=
  (State.controllers_group ((safeDecide_controllers _).trans (State.controllers_congr rfl)) g).2

/-- A memory group: it stands still, with 0x0808 and the safe state. -/
theorem clockLoss_group (hs : RunsSaf s) (g : Group) (h : s.pwr.lostDomains.contains (.mcg g) = false) :
    ∃ t f l, exec (.domainClockLoss (.mcg g)) s = .next t ∧ (t.group g).clockLost = true ∧ f.code = 0x0808 ∧ f.safe = true ∧
      t.thal.inFlight = s.thal.inFlight ++ f :: l := by
  obtain ⟨f, l, hcode, hsafe, hflight⟩ :=
    safePwr_record (State.modGroup g (fun r => { r with clockLost := true }) (noteClockLost (.mcg g) s)) 0x0808 g 0
  refine ⟨_, f, l, exec_domainClockLoss hs (.mcg g), ?_, hcode, hsafe, ?_⟩
  · rw [keepLatch_group, opClockLoss_answered rfl h, clockResponse, safePwr_group, State.modGroup_group]
  · rw [keepLatch_thal, opClockLoss_answered rfl h, clockResponse, hflight]
    rfl

/-! ### CAN0 to CAN5 stop (R372, R558) -/

theorem canUnsync_frame (m : Nat) (s : State) : canUnsync m s = { s with gctl := (canUnsync m s).gctl } := by
  unfold canUnsync
  split <;> rfl

theorem canStop_frame (m : Nat) (s : State) : canStop m s = { s with gctl := (canStop m s).gctl, can := (canStop m s).can } := by
  unfold canStop
  dsimp only
  rw [canUnsync_frame]
  rfl

theorem canStop_st (m : Nat) (s : State) : ((canStop m s).canc m).st = .init := by
  unfold canStop
  dsimp only
  rw [State.modCan_canc]

theorem canStop_canc_ne {m j : Nat} (s : State) (h : j ≠ m) : (canStop m s).canc j = s.canc j := by
  unfold canStop
  dsimp only
  rw [State.modCan_canc_ne _ _ _ _ h, canUnsync_frame]
  rfl

theorem canStop_keeps_init (m j : Nat) (s : State) (h : (s.canc j).st = .init) : ((canStop m s).canc j).st = .init := by
  by_cases hj : j = m
  · rw [hj, canStop_st]
  · rw [canStop_canc_ne s hj, h]

theorem canStop_all_init (s : State) (m : Nat) (hm : m < 6) : ((forUpTo 6 (fun i t => canStop i t) s).canc m).st = .init :=
  forUpTo_each (Q := fun j (t : State) => (t.canc j).st = .init) canStop_st canStop_keeps_init 6 s m hm

theorem forUpTo_canStop_keeps (n : Nat) (s : State) :
    (forUpTo n (fun m t => canStop m t) s).pwr = s.pwr ∧ (forUpTo n (fun m t => canStop m t) s).thal = s.thal :=
  ⟨foldl_keeps State.pwr (fun t m => canStop m t) (fun t m => by rw [canStop_frame]) _ s,
    foldl_keeps State.thal (fun t m => canStop m t) (fun t m => by rw [canStop_frame]) _ s⟩

theorem reportPwr_can (s : State) (code : BitVec 16) (q level : Nat) : (reportPwr code q level s).can = s.can := rfl

theorem clockLoss_can (hs : RunsSaf s) (h : s.pwr.lostDomains.contains .can = false) : ∃ t f, exec (.domainClockLoss .can) s = .next t ∧
    (∀ m, m < 6 → (t.canc m).st = .init) ∧ t.pwr.lostDomains = s.pwr.lostDomains ++ [.can] ∧ f.code = 0x0809 ∧
      t.thal.inFlight = s.thal.inFlight ++ [f] := by
  obtain ⟨f, hcode, hflight⟩ := reportPwr_record (forUpTo 6 (fun m t => canStop m t) (noteClockLost .can s)) 0x0809 0 0
  obtain ⟨hpwr, hthal⟩ := forUpTo_canStop_keeps 6 (noteClockLost .can s)
  refine ⟨_, f, exec_domainClockLoss hs .can, fun m hm => ?_, ?_, hcode, ?_⟩
  · rw [keepLatch_canc, opClockLoss_answered rfl h, clockResponse, State.canc_congr _ (reportPwr_can ..), canStop_all_init _ m hm]
  · rw [keepLatch_pwr, opClockLoss_answered rfl h, clockResponse, reportPwr_pwr, hpwr]
    rfl
  · rw [keepLatch_thal, opClockLoss_answered rfl h, clockResponse, hflight, hthal]
    rfl

/-! ### The timebase and the island (R342, R558) -/

theorem clockLoss_time (hs : RunsSaf s) (h : s.pwr.lostDomains.contains .time = false) : ∃ t f, exec (.domainClockLoss .time) s = .next t ∧
    t.gctl.locked = false ∧ f.code = 0x080A ∧ t.thal.inFlight = s.thal.inFlight ++ [f] := by
  obtain ⟨f, hcode, hflight⟩ :=
    reportPwr_record { noteClockLost .time s with gctl := { (noteClockLost .time s).gctl with locked := false } } 0x080A 0 0
  refine ⟨_, f, exec_domainClockLoss hs .time, ?_, hcode, ?_⟩
  · rw [keepLatch_gctl, opClockLoss_answered rfl h]
    rfl
  · rw [keepLatch_thal, opClockLoss_answered rfl h, clockResponse, hflight]
    rfl

theorem clockLoss_saf (hs : RunsSaf s) (h : s.pwr.lostDomains.contains .saf = false) : ∃ t, exec (.domainClockLoss .saf) s = .next t ∧
    t.island.silent = true ∧ t.island.fatalClkloss = true ∧ t.pins.faultN = false := by
  have hloss := exec_domainClockLoss hs .saf
  rw [opClockLoss_answered rfl h, clockResponse] at hloss
  have hisland := fatal_island (noteClockLost .saf s) (fun i => { i with fatalClkloss := true })
  obtain ⟨hkept, hfault⟩ := keepLatch_silenced s (t := fatal (fun i => { i with fatalClkloss := true }) (noteClockLost .saf s))
    (by rw [hisland])
  refine ⟨_, hloss, ?_, ?_, hfault⟩ <;> rw [hkept, hisland]

/-! ### A clock that returns (R558) -/

/-- The domain is no longer noted as lost. -/
def noteClockBack (d : ClockDomain) (s : State) : State :=
  { s with pwr := { s.pwr with lostDomains := s.pwr.lostDomains.filter (fun x => x ≠ d) } }

theorem opClockReturn_kept (h : s.pwr.lostDomains.contains d = false) : opClockReturn d s = s := if_pos (by simpa using h)

theorem opClockReturn_other (h : s.pwr.lostDomains.contains d = true) (hd : ∀ g, d ≠ .mcg g) : opClockReturn d s = noteClockBack d s := by
  unfold opClockReturn
  rw [if_neg (by simpa using h)]
  dsimp only
  split
  · next g => exact absurd rfl (hd g)
  · rfl

theorem opClockReturn_group {g : Group} (h : s.pwr.lostDomains.contains (.mcg g) = true) :
    opClockReturn (.mcg g) s = groupResumes g (noteClockBack (.mcg g) s) := if_neg (by simpa using h)

theorem serveHeld_none {g : Nat} (h : (s.group g).held = []) : serveHeld g s = State.modGroup g (fun r => { r with held := [] }) s := by
  rw [serveHeld, h]
  rfl

/-- A group with nothing waiting runs again, and that is all. -/
theorem groupResumes_idle {g : Nat} (h : (s.group g).held = []) : groupResumes g s =
    State.modGroup g (fun r => { r with held := [] }) (State.modGroup g (fun r => { r with clockLost := false }) s) :=
  serveHeld_none (by rw [State.modGroup_group]; exact h)

theorem noteClockBack_lost : (noteClockBack d s).pwr.lostDomains.contains d = false := by simp [noteClockBack]

end

/-! ### Thermal forcing (R559) -/

section
variable {s : State} {q : Nat} {temp : BitVec 16}

/-- A sensor's reading changes TJ and the time it has been cool, of its quadrant. -/
theorem takeTemp_quad : (takeTemp q temp s).quad q = { s.quad q with
    temp := temp, coolSince := if temp.toInt < 8 * ((s.pwr.throttle.toNat : Int) - s.pwr.hyst.toNat) then
      (if (s.quad q).coolSince.isSome then (s.quad q).coolSince else some s.gctl.time) else none } := by
  rw [takeTemp, State.modQuad_quad]
  by_cases h : temp.toInt < 8 * ((s.pwr.throttle.toNat : Int) - s.pwr.hyst.toNat) <;> simp [h]

theorem opThermForce_eq : opThermForce q temp s =
    if temp.toInt < 8 * (s.pwr.throttle.toNat : Int) || decide (3 ≤ (s.quad q).want) then takeTemp q temp s
    else advanceLevels (reportPwr 0x0805 q ((s.quad q).want + 1)
      (State.modQuad q (fun x => { x with thermCap := (s.quad q).want + 1 }) (takeTemp q temp s))) := by
  have hwant : ((takeTemp q temp s).quad q).want = (s.quad q).want := by rw [takeTemp_quad]; rfl
  unfold opThermForce
  dsimp only
  rw [hwant]
  rfl

theorem opThermLift_warm (h : 8 * ((s.pwr.throttle.toNat : Int) - s.pwr.hyst.toNat) ≤ temp.toInt ∨ (s.quad q).thermCap = 0) :
    opThermLift q temp s = takeTemp q temp s := by
  unfold opThermLift
  dsimp only
  split
  · rfl
  · next since hsince =>
    rw [takeTemp_quad] at hsince ⊢
    rcases h with hwarm | hcap
    · simp [Int.not_lt.mpr hwarm] at hsince
    · exact if_pos (by simp [hcap])

/-- Cool for 10 ms: the forcing is lifted a level, and what the quadrant runs at follows. -/
theorem opThermLift_lifts {since : Word64} (hcool : temp.toInt < 8 * ((s.pwr.throttle.toNat : Int) - s.pwr.hyst.toNat))
    (hsince : (s.quad q).coolSince = some since) (hcap : (s.quad q).thermCap ≠ 0) (hdue : since.toNat + 10000000 ≤ s.gctl.time.toNat) :
    opThermLift q temp s = advanceLevels (State.modQuad q (fun x => { x with
      thermCap := if (s.quad q).thermCap - 1 ≤ (s.quad q).target.toNat then 0 else (s.quad q).thermCap - 1, coolSince := some s.gctl.time })
      (takeTemp q temp s)) := by
  have hsame : (takeTemp q temp s).quad q = { s.quad q with temp := temp, coolSince := some since } := by
    rw [takeTemp_quad, if_pos hcool, hsince]; rfl
  have htime : (takeTemp q temp s).gctl = s.gctl := rfl
  unfold opThermLift
  dsimp only
  rw [hsame, htime]
  exact if_neg (by simpa [hcap] using hdue)

/-! ### Droop (R560, R561) -/

theorem opDroop_ignored {n : Nat} (h : (s.quad q).powered = false ∨ (s.quad q).clockStopped = true) : opDroop q n s = s :=
  if_pos (by simpa using h)

theorem droopOver_quad (p j : Nat) : (droopOver p q s).quad j = s.quad j := by
  unfold droopOver
  dsimp only
  split
  · rfl
  · split
    · rfl
    · rw [State.quad_congr _ (postEvent_pwr ..)]
      rfl

theorem opDroop_quad {n : Nat} (hpower : (s.quad q).powered = true) (hclk : (s.quad q).clockStopped = false) :
    (opDroop q n s).quad q = { s.quad q with stretching := true, stretch := (s.quad q).stretch + BitVec.ofNat 32 n } := by
  unfold opDroop
  rw [if_neg (by simp [hpower, hclk])]
  exact (foldl_keeps (fun t : State => t.quad q) (fun t p => droopOver p q t) (fun t p => droopOver_quad p q) _ _).trans
    (State.modQuad_quad ..)

end

/-! ### The obligation -/

theorem domainClock_clauses (s : State) (d : ClockDomain) (hs : RunsSaf s) :
    (silentDomain d = true ∨ s.pwr.lostDomains.contains d = true → Completes (.domainClockLoss d) s s) ∧
    (s.pwr.lostDomains.contains d = false → Completes (.domainClockReturn d) s s) ∧
    (s.pwr.lostDomains.contains d = true → (∀ g, d ≠ .mcg g) → Completes (.domainClockReturn d) s (noteClockBack d s)) ∧
    (∀ g, s.pwr.lostDomains.contains d = true → d = .mcg g → (s.group g).held = [] → ∃ t, exec (.domainClockReturn d) s = .next t ∧
      (t.group g).clockLost = false ∧ t.pwr.lostDomains.contains d = false) := by
  have hreturn : ∀ {t : State}, opClockReturn d s = t → Completes (.domainClockReturn d) s t := fun ht => ht ▸ performSaf_runs s _ hs
  refine ⟨fun h => (exec_domainClockLoss hs d).trans (by rw [opClockLoss_ignored h]), fun h => hreturn (opClockReturn_kept h),
    fun h hd => hreturn (opClockReturn_other h hd), fun g h hd hheld => ?_⟩
  subst hd
  refine ⟨_, hreturn ((opClockReturn_group h).trans (groupResumes_idle hheld)), ?_, ?_⟩
  · rw [keepLatch_group, State.modGroup_group, State.modGroup_group]
  · rw [keepLatch_pwr, State.modGroup_pwr, State.modGroup_pwr]
    exact noteClockBack_lost

theorem thermal_clauses (s : State) (q : Quad) (hs : Runs s) (temp : BitVec 16) :
    (temp.toInt < 8 * (s.pwr.throttle.toNat : Int) ∨ 3 ≤ (s.quad q).want → Completes (.thermalForceStep q temp) s (takeTemp q temp s)) ∧
    (8 * (s.pwr.throttle.toNat : Int) ≤ temp.toInt → (s.quad q).want < 3 → ∃ f, f.code = 0x0805 ∧
      Completes (.thermalForceStep q temp) s (advanceLevels (report f (State.modQuad q (fun x =>
        { x with thermCap := (s.quad q).want + 1 }) (takeTemp q temp s))))) := by
  have hforce : ∀ {t : State}, opThermForce q temp s = t → Completes (.thermalForceStep q temp) s t := fun ht => ht ▸ perform_runs s _ hs
  refine ⟨fun h => hforce (opThermForce_eq.trans (if_pos (by simpa using h))), fun hhot hwant => ?_⟩
  have heq := opThermForce_eq (s := s) (q := q) (temp := temp)
  rw [if_neg (by simpa using ⟨hhot, hwant⟩)] at heq
  exact ⟨_, rfl, hforce heq⟩

/-- Settles O5: a lost clock by its domain, the forcing by the reading and the levels, droop by whether the quadrant runs. -/
theorem clocksThermalDroop : Obligations.ClocksThermalDroop := by
  unfold Obligations.ClocksThermalDroop
  refine ⟨fun s d hs => ?_, fun s q hs => ?_⟩
  · obtain ⟨hignored, hkept, hother, hgroup⟩ := domainClock_clauses s d hs
    refine ⟨hignored, hkept, fun h hd => clockLoss_safeDomain hs h hd, fun h hd => ?_, fun h hd => ?_, fun g h hd => ?_, fun h hd => ?_,
      hother, hgroup⟩ <;> subst hd
    · exact clockLoss_can hs h
    · exact clockLoss_time hs h
    · exact clockLoss_group hs g h
    · exact clockLoss_saf hs h
  · have hlift : ∀ {temp : BitVec 16} {t : State}, opThermLift q temp s = t → Completes (.thermalLiftStep q temp) s t :=
      fun ht => ht ▸ perform_runs s _ hs
    have hdroop : ∀ {n : Nat} {t : State}, n < 2 ^ 32 → opDroop q n s = t → Completes (.droopDetect q n) s t :=
      fun hn ht => ht ▸ performWf_runs s _ _ (decide_eq_true hn) hs
    refine ⟨fun temp => ⟨(thermal_clauses s q hs temp).1, (thermal_clauses s q hs temp).2, fun h => hlift (opThermLift_warm h),
        fun t hcool hsince hcap hdue => hlift (opThermLift_lifts hcool hsince hcap hdue)⟩,
      fun n hn => ⟨fun h => hdroop hn (opDroop_ignored h), fun hpower hclk => ⟨_, hdroop hn rfl, ?_⟩⟩, perform_runs s _ hs⟩
    rw [keepLatch_quad, opDroop_quad hpower hclk]
    exact ⟨rfl, rfl⟩

end Sys2Proof.Machine
end

section
/-! PROOFS. Firmware writes, fuses, attestation and the unlock (R594, R595, R597, R599, R600, R602, R603). -/

namespace Sys2Proof.Machine

/-! ### Lengths of little-endian fields, digests and signatures (R7, FIPS 202, RFC 8032) -/

@[simp] theorem slice_length (l : List Byte) (o n : Nat) : (slice l o n).length = n := by
  simp only [slice, List.length_append, List.length_take, List.length_replicate]
  omega

theorem leNat_lt (l : List Byte) : leNat l < 256 ^ l.length := by
  induction l with
  | nil => exact Nat.one_pos
  | cons b l ih =>
    have hb := b.isLt
    rw [leNat, List.length_cons, Nat.pow_succ']
    omega

theorem field_lt (l : List Byte) (o n : Nat) : field l o n < 256 ^ n := by
  have h := leNat_lt (slice l o n)
  rwa [slice_length] at h

theorem rateBytes_length (a : Sheets) : (rateBytes a).length = shakeRate := by
  simp [rateBytes, shakeRate, List.length_flatMap]

theorem squeezeAll_length (n : Nat) (a : Sheets) : (squeezeAll n a).length = n * shakeRate := by
  induction n generalizing a with
  | zero => simp [squeezeAll]
  | succ n ih => rw [squeezeAll, List.length_append, rateBytes_length, ih, Nat.succ_mul, Nat.add_comm]

@[simp] theorem shake256_length (m : List Byte) (n : Nat) : (shake256 m n).length = n := by
  have hblocks : n ≤ cdiv n shakeRate * shakeRate := by
    simp only [cdiv, shakeRate]
    omega
  rw [shake256, List.length_take, squeezeAll_length, Nat.min_eq_left hblocks]

@[simp] theorem edEncode_length (p : EdPoint) : (edEncode p).length = 57 := toLe_length ..

@[simp] theorem edPublic_length (priv : List Byte) : (edPublic priv).length = 57 := edEncode_length _

@[simp] theorem edSign_length (priv msg : List Byte) : (edSign priv msg).length = 114 := by
  rw [edSign, List.length_append, edEncode_length, toLe_length]

section
variable {s : State}

theorem reportBody_length {nonce : List Byte} (h : nonce.length = 32) : (s.reportBody nonce).length = 208 := by
  unfold State.reportBody
  simp [h]

theorem attestation_length {nonce : List Byte} (h : nonce.length = 32) : (s.attestation nonce).length = 528 := by
  simp only [State.attestation, List.length_append, reportBody_length h, edPublic_length, edSign_length, List.length_replicate]
  split <;> simp

/-! ### The end of a command leaves the security unit alone -/

theorem finishCmd_sec (tag st r0 r1 : Nat) : (finishCmd tag st r0 r1 s).sec = s.sec := by
  rw [finishCmd, finishData_frame]

/-! ### FW_WRITE (R594, R595) -/

section
variable {c : Cmd} {tag : Nat} (htag : c.tag = tag)
include htag

theorem actFwWrite_busy (h : s.sec.flashWrite = .inProgress) : actFwWrite c s = finishCmd tag 0x25 0 0 s := htag ▸ if_pos h

section
variable {d : Option (List Byte)} {t : State} (hidle : s.sec.flashWrite ≠ .inProgress)
  (hread : readImage 29 (c.fld 0x20 8) (c.fld 0x18 4) s = (d, t))
include hidle hread

theorem actFwWrite_unread (h : d = none) : actFwWrite c s = finishCmd tag 0x28 0 0 t := by
  rw [actFwWrite, if_neg hidle, hread, h, htag]

variable {b : List Byte} (hd : d = some b)
include hd

theorem actFwWrite_failed {x : Nat × Nat} (h : t.withCurrentFuses.checkImage b = some x) :
    actFwWrite c s = finishCmd tag (if x.1 = 0x0B05 then 0x65 else 0x66) 0 0 t := by
  simp only [actFwWrite, if_neg hidle, hread, hd, h, htag, fwStatus]

theorem actFwWrite_begins (h : t.withCurrentFuses.checkImage b = none) : actFwWrite c s =
    { t with sec := { t.sec with flashWrite := .inProgress, flashImage := b, flashCmd := some tag } } := by
  simp only [actFwWrite, if_neg hidle, hread, hd, h, htag]

end
end

/-! ### FW_FLASH_WRITE_DONE (R594, R595, R608) -/

theorem opFlashDone_idle {ok : Bool} (h : s.sec.flashWrite ≠ .inProgress) : opFlashDone ok s = s := if_pos h

/-- The flash after the write: the image where it read back, spoiled where it did not. -/
theorem opFlashDone_sec {ok : Bool} (h : s.sec.flashWrite = .inProgress) : (opFlashDone ok s).sec =
    { s.sec with flashWrite := if ok then .written else .failed, flashImage := [], flashCmd := none, flashSpoiled := !ok,
                 flash := if ok then s.sec.flashImage else [],
                 flashRb := if ok then BitVec.ofNat 8 (field s.sec.flashImage 0x10 1) else 0xFF } := by
  rw [opFlashDone, if_neg (not_not_intro h)]
  dsimp only
  split
  · split
    · split
      · rw [finishCmd_sec]
      · rfl
    · rfl
  · rfl

/-! ### FUSE_PROGRAM (R597, R599, R600) -/

theorem fuseBits_le (w data : Nat) : fuseBits w data ≤ data := by
  unfold fuseBits
  split
  · exact Nat.and_le_left
  · exact Nat.le_refl _

/-- DATA of the packet fits a fuse word. -/
theorem fuseData_toNat (c : Cmd) (w : Nat) : (BitVec.ofNat 128 (fuseBits w (c.fld 0x20 16))).toNat = fuseBits w (c.fld 0x20 16) := by
  have hfield : c.fld 0x20 16 < 2 ^ 128 := field_lt c.pkt 0x20 16
  exact BitVec.toNat_ofNat _ _ |>.trans (Nat.mod_eq_of_lt (Nat.lt_of_le_of_lt (fuseBits_le _ _) hfield))

section
variable {c : Cmd} {bad : BitVec 128}

theorem actFuse_refused (h : s.fuseAllowed (c.fld 0x18 2) (fuseBits (c.fld 0x18 2) (c.fld 0x20 16)) = false) :
    actFuse bad c s = finishCmd c.tag 0x64 0 0 s := if_pos (by simp [h])

theorem actFuse_blows (h : s.fuseAllowed (c.fld 0x18 2) (fuseBits (c.fld 0x18 2) (c.fld 0x20 16)) = true) :
    (actFuse bad c s).sec = { s.sec with
      fuses := tset 0 s.sec.fuses (c.fld 0x18 2)
        (tget 0 s.sec.fuses (c.fld 0x18 2) ||| (BitVec.ofNat 128 (fuseBits (c.fld 0x18 2) (c.fld 0x20 16)) &&& ~~~bad)) } := by
  rw [actFuse]
  dsimp only
  rw [h, if_neg (by decide)]
  split
  · rw [finishCmd_sec]
  · rw [finishCmd_sec]; rfl

end

/-! ### Unlock (R603) -/

theorem opUnlock_refused (h : s.runningPipes ≠ [] ∨ edVerify s.sec.malsureKey s.unlockMessage s.unlockToken = false) :
    opUnlock s = reportCode 0x0B07 0xFF s := by
  refine if_pos ?_
  rcases h with h | h
  · simp [h]
  · rw [h]; simp

theorem opUnlock_good (h : s.runningPipes = []) (htoken : edVerify s.sec.malsureKey s.unlockMessage s.unlockToken = true) :
    (opUnlock s).sec.returned = true ∧ (opUnlock s).sec.fuses =
      let f := forUpTo 8 (fun i t => tset 0 t (0x102 + i) (BitVec.allOnes 128)) s.sec.fuses
      tset 0 f 0x100 (tget 0 f 0x100 ||| 0xF0) := by
  rw [opUnlock, htoken, h, if_neg (by decide)]
  exact ⟨rfl, rfl⟩

/-- The customer's digest words, all blown. -/
theorem blowDigests_blown (t : Tab (BitVec 128)) (i : Nat) (h : i < 8) :
    tget 0 (forUpTo 8 (fun i t => tset 0 t (0x102 + i) (BitVec.allOnes 128)) t) (0x102 + i) = BitVec.allOnes 128 := by
  refine forUpTo_each (Q := fun i (t : Tab (BitVec 128)) => tget 0 t (0x102 + i) = BitVec.allOnes 128) (fun i t => ?_) (fun i j t ht => ?_) 8 t i h
  · exact tget_tset_self ..
  · rw [tget_tset]
    split
    · rfl
    · exact ht

theorem blowDigests_cfg (t : Tab (BitVec 128)) :
    tget 0 (forUpTo 8 (fun i t => tset 0 t (0x102 + i) (BitVec.allOnes 128)) t) 0x100 = tget 0 t 0x100 :=
  foldl_keeps (fun t : Tab (BitVec 128) => tget 0 t 0x100) (fun t i => tset 0 t (0x102 + i) (BitVec.allOnes 128))
    (fun t i => tget_tset_ne _ _ _ _ _ (by omega)) _ _

end

/-! ### The obligation -/

section
variable {s : State} {tag : Nat} {c : Cmd} (hs : Runs s)
include hs

theorem fuse_clauses {bad : BitVec 128} (h : CmdStarts s 0x62 tag c) :
    let w := c.fld 0x18 2
    let data := BitVec.ofNat 128 (fuseBits w (c.fld 0x20 16))
    (s.fuseAllowed w data.toNat = false → ∃ t, exec (.fuseProgram tag bad) s = .next t ∧ t.sec = s.sec ∧
      t = keepLatch s (finishCmd tag 0x64 0 0 (takeCmd c s))) ∧
    (s.fuseAllowed w data.toNat = true → ∃ t, exec (.fuseProgram tag bad) s = .next t ∧
      tget 0 t.sec.fuses w = tget 0 s.sec.fuses w ||| (data &&& ~~~bad) ∧
      (∀ v, v ≠ w → tget 0 t.sec.fuses v = tget 0 s.sec.fuses v) ∧ t.sec.sensed = s.sec.sensed) := by
  have htag := State.cmd_tag h.1
  have hexec : ∀ {t : State}, actFuse bad c (takeCmd c s) = t → exec (.fuseProgram tag bad) s = .next (keepLatch s t) :=
    fun ht => startCmd_completes hs h ht
  have hsec : (takeCmd c s).sec = s.sec := rfl
  have hallowed : ∀ w d, (takeCmd c s).fuseAllowed w d = s.fuseAllowed w d := fun _ _ => rfl
  dsimp only
  rw [fuseData_toNat]
  refine ⟨fun hno => ⟨_, hexec ((actFuse_refused ((hallowed _ _).trans hno)).trans (htag ▸ rfl)), ?_, rfl⟩,
    fun hyes => ⟨_, hexec rfl, ?_⟩⟩
  · rw [keepLatch_sec, finishCmd_sec, hsec]
  · rw [keepLatch_sec, actFuse_blows ((hallowed _ _).trans hyes), hsec]
    exact ⟨tget_tset_self .., fun v hv => tget_tset_ne _ _ _ _ _ hv, rfl⟩

theorem unlock_clauses :
    (s.runningPipes ≠ [] ∨ edVerify s.sec.malsureKey s.unlockMessage s.unlockToken = false → ∃ t f, exec .unlock s = .next t ∧
      t.sec = s.sec ∧ f.code = 0x0B07 ∧ t.thal.inFlight = s.thal.inFlight ++ [f]) ∧
    (s.runningPipes = [] → edVerify s.sec.malsureKey s.unlockMessage s.unlockToken = true → ∃ t, exec .unlock s = .next t ∧
      t.sec.returned = true ∧ (∀ i : Fin 8, tget 0 t.sec.fuses (0x102 + i.val) = BitVec.allOnes 128) ∧
      tget 0 t.sec.fuses 0x100 = tget 0 s.sec.fuses 0x100 ||| 0xF0) := by
  have hexec : exec .unlock s = .next (keepLatch s (wakeEvent 1 (opUnlock s))) := performReg_runs s opUnlock hs
  refine ⟨fun h => ?_, fun hnone htoken => ⟨_, hexec, ?_⟩⟩
  · rw [opUnlock_refused h] at hexec
    obtain ⟨f, hcode, hflight⟩ := report_record { code := 0x0B07, detail := 0xFF } s
    exact ⟨_, f, hexec, by rw [keepLatch_sec, wakeEvent_sec]; rfl, hcode, by rw [keepLatch_thal, wakeEvent_thal]; exact hflight⟩
  · obtain ⟨hreturned, hfuses⟩ := opUnlock_good hnone htoken
    rw [keepLatch_sec, wakeEvent_sec, hfuses]
    refine ⟨hreturned, fun i => ?_, ?_⟩
    · rw [tget_tset_ne _ _ _ _ _ (by omega), blowDigests_blown _ _ i.isLt]
    · rw [tget_tset_self, blowDigests_cfg]

end

/-- Settles O3: each command by its checks, the flash write by whether it read back, the unlock by its token. -/
theorem fusesAndFlash : Obligations.FusesAndFlash := by
  unfold Obligations.FusesAndFlash
  refine ⟨fun s tag c hs => ⟨fun h => ?_, fun bad h => fuse_clauses hs h, fun h => ?_⟩, fun s ok hs => ?_, fun s hs => unlock_clauses hs⟩
  · have htag := State.cmd_tag h.1
    have hfw : ∀ {t : State}, actFwWrite c (takeCmd c s) = t → Completes (.fwWrite tag) s t := fun ht => startCmd_completes hs h ht
    exact ⟨fun hbusy => hfw (actFwWrite_busy (s := takeCmd c s) htag hbusy), fun hidle d t hread =>
      ⟨fun hd => hfw (actFwWrite_unread (s := takeCmd c s) htag hidle hread hd),
        fun b x hd hx => hfw (actFwWrite_failed (s := takeCmd c s) htag hidle hread hd hx),
        fun b hd hok => hfw (actFwWrite_begins (s := takeCmd c s) htag hidle hread hd hok)⟩⟩
  · refine ⟨startCmd_completes hs h ?_, attestation_length (slice_length ..)⟩
    rw [actAttest, State.cmd_tag h.1]
  · have hdone : exec (.fwFlashWriteDone ok) s = .next (keepLatch s (opFlashDone ok s)) := performSaf_runs s _ hs
    refine ⟨fun h => hdone.trans (by rw [opFlashDone_idle h]), fun h => ⟨_, hdone, ?_⟩⟩
    rw [keepLatch_sec, opFlashDone_sec h]
    exact ⟨rfl, rfl, rfl, rfl⟩

end Sys2Proof.Machine
end

section
/-! PROOFS. The DMA channels: GO, ABORT, RESUME, fetching, completing, errors and retries (R437, R440 to R443, R447 to R450, R456). -/

namespace Sys2Proof.Machine

section
variable {s : State} {n : Nat}

/-! ### GO, ABORT, RESUME (R442, R449, R456) -/

theorem opDmaGo_kept (h : (s.dmac n).st ≠ .idle ∨ (s.dmac n).owner = 1) : opDmaGo n s = s := if_pos (by simpa using h)

theorem opDmaGo_idle (h : (s.dmac n).st = .idle) (hown : (s.dmac n).owner ≠ 1) : opDmaGo n s = State.modDma n (fun c =>
    { c with st := .running, nextFetch := some c.base.toNat, cur := c.base, suppress := false, supFp := 0xFF }) s :=
  if_neg (by simpa [h] using hown)

theorem opDmaAbort_owned (h : (s.dmac n).owner = 1) : opDmaAbort n s = s := if_pos h

section
variable (hown : (s.dmac n).owner ≠ 1)
include hown

theorem opDmaAbort_idle (h : (s.dmac n).st = .idle) : opDmaAbort n s = s := by
  rw [opDmaAbort, if_neg hown, h]

theorem opDmaAbort_halted (h : (s.dmac n).st = .halted) :
    opDmaAbort n s = State.modDma n (fun c => { c with st := .idle, fault := 0 }) s := by
  rw [opDmaAbort, if_neg hown, h]

theorem opDmaAbort_running (h : (s.dmac n).st = .running) : opDmaAbort n s = stopChannel n (fun c => { c with st := .idle }) s := by
  rw [opDmaAbort, if_neg hown, h]

theorem opDmaResume_halted (h : (s.dmac n).st = .halted) : opDmaResume n s =
    if 28 ≤ n then State.modDma n (fun c => { c with st := .idle, fault := 0 }) s
    else State.modDma n (fun c => { c with st := .running, fault := 0, nextFetch := some c.cur.toNat }) (writeDmaStatus n (s.dmac n).cur.toNat 0 s) :=
  if_neg (by simpa [h] using hown)

end

theorem opDmaResume_kept (h : (s.dmac n).st ≠ .halted ∨ (s.dmac n).owner = 1) : opDmaResume n s = s := if_pos (by simpa using h)

/-- A register write that has nothing to do completes whether or not its block answers. -/
theorem performBlk_idle {f : State → State} (hs : Runs s) (hf : f s = s) : performBlk f s = .next (keepLatch s (wakeEvent 1 s)) := by
  cases hup : s.blocksUp with
  | true => rw [performBlk_runs s f hs hup, hf]
  | false => exact performBlk_down s f hs hup

/-! ### A read that answers with good data changes no channel (R474, R477) -/

theorem memTxRead_dma {init cls a m : Nat} (h : poisoned (memTxRead init cls a m s).1 = false) : (memTxRead init cls a m s).2.dma = s.dma := by
  unfold memTxRead at h ⊢
  dsimp only at h ⊢
  split at h
  · next hp => rw [h] at hp; exact absurd hp (by simp)
  · rw [if_neg (by assumption)]
    refine (foldl_keeps State.dma (fun t i => transferOk (i * 64) t) (fun t i => ?_) _ _).trans ?_
    · rw [transferOk_frame]
    · rw [useTokens_frame]

theorem frondTxRead_dma {init cls f off a m : Nat} {b : List PByte} {t : State} (h : frondTxRead init cls f off a m s = (some b, t))
    (hb : poisoned b = false) : t.dma = s.dma := by
  unfold frondTxRead at h
  dsimp only at h
  split at h
  · exact absurd (congrArg Prod.fst h) (by simp)
  · split at h
    · next hp =>
      rw [Option.some.inj (congrArg Prod.fst h), hb] at hp
      exact absurd hp (by simp)
    · exact (congrArg (fun r : Option (List PByte) × State => r.2.dma) h).symm

theorem outboundRead_dma (init w a m : Nat) : (outboundRead init w a m s).2.dma = s.dma := by
  unfold outboundRead
  split
  · rfl
  · split
    · rfl
    · unfold hostAnswer
      dsimp only
      split <;> rfl

theorem busRead_dma {init cls a m : Nat} {b : List PByte} {t : State} (h : busRead init cls a m s = (some b, t)) (hb : poisoned b = false) :
    t.dma = s.dma := by
  unfold busRead at h
  split at h
  · exact (congrArg (fun r : Option (List PByte) × State => r.2.dma) h).symm
  split at h
  · exact absurd (congrArg Prod.fst h) (by simp)
  · split at h
    · exact absurd (congrArg Prod.fst h) (by simp)
    · split at h
      · exact absurd (congrArg Prod.fst h) (by simp)
      · obtain ⟨hd, rfl⟩ := Prod.mk.injEq .. ▸ h
        exact memTxRead_dma (Option.some.inj hd ▸ hb)
  · split at h
    · exact absurd (congrArg Prod.fst h) (by simp)
    · exact frondTxRead_dma h hb
  · split at h
    · exact absurd (congrArg Prod.fst h) (by simp)
    · exact (congrArg (fun r : Option (List PByte) × State => r.2.dma) h).symm.trans (outboundRead_dma ..)
  · split at h
    · exact absurd (congrArg Prod.fst h) (by simp)
    · split at h <;> exact (congrArg (fun r : Option (List PByte) × State => r.2.dma) h).symm

/-! ### A channel that halts with nothing in flight (R437, R442, R452) -/

theorem dmaFault_first (code : BitVec 16) (n mode a : Nat) (s : State) :
    dmaFault code n mode a 0 s = report (faultAt code (dmaInit n) a (dmaDetail n mode 0)) s := rfl

/-- Where no pipeline waits for the channel, the end of its list gives it to none. -/
theorem giveChannel_unwanted (h : ∀ p, p < 8 → (s.pipe p).dmaWanted.contains n = false) : giveChannel n s = s := by
  unfold giveChannel forUpTo
  refine List.foldlRecOn (motive := fun t => t = s) _ _ rfl fun t ht p hp => ?_
  dsimp only
  rw [ht, h p (List.mem_range.mp hp), Bool.and_false, Bool.false_and, if_neg (by decide)]

theorem haltChannel_alone {code : BitVec 16} {a : Nat} (hflight : (s.dmac n).flight = [])
    (hw : ∀ p, p < 8 → (s.pipe p).dmaWanted.contains n = false) : haltChannel n code a s = State.modDma n (fun c =>
      { c with flight := [], nextFetch := none, attempts := 0, retryAddr := none, st := .halted, fault := code, cur := BitVec.ofNat 40 a }) s := by
  rw [haltChannel, stopChannel, hflight]
  exact giveChannel_unwanted hw

/-! ### Fetching (R441 to R443) -/

theorem opDmaFetch_none (h : (s.dmac n).nextFetch = none) : opDmaFetch n s = s := by
  rw [opDmaFetch, h]

section
variable {a : Nat} {b : List PByte} {t : State} (hnext : (s.dmac n).nextFetch = some a) (hst : (s.dmac n).st = .running)
  (hroom : (s.dmac n).flight.length < 2) (hruns : s.dmaRuns = true) (hin : a + 32 ≤ 0x1000000000)
  (hread : busRead (dmaInit n) (s.dmac n).cls.toNat a 32 s = (some b, t)) (hb : poisoned b = false)
include hnext hst hroom hruns hin hread hb

/-- A descriptor that was read, with room for it. -/
theorem opDmaFetch_read : opDmaFetch n s =
    if !(dmaDesc (plain b)).ok then
      (if (s.dmac n).flight ≠ [] then s else haltChannel n 0x0C04 a (dmaFault 0x0C04 n (dmaDesc (plain b)).mode a 0 t))
    else if (dmaDesc (plain b)).fence && (s.dmac n).flight ≠ [] then s
    else startDescriptor n a (plain b) t := by
  unfold opDmaFetch
  simp only [hnext, if_pos hin, State.dmaCls, hread, hb]
  exact if_neg (by simp [hst, hruns, hroom])

theorem opDmaFetch_starts (hok : (dmaDesc (plain b)).ok = true) (hfence : (dmaDesc (plain b)).fence = false ∨ (s.dmac n).flight = []) :
    opDmaFetch n s = startDescriptor n a (plain b) t := by
  rw [opDmaFetch_read hnext hst hroom hruns hin hread hb, hok, if_neg (by simp), if_neg (by rcases hfence with h | h <;> simp [h])]

theorem opDmaFetch_fenced (hok : (dmaDesc (plain b)).ok = true) (hfence : (dmaDesc (plain b)).fence = true) (hbusy : (s.dmac n).flight ≠ []) :
    opDmaFetch n s = s := by
  rw [opDmaFetch_read hnext hst hroom hruns hin hread hb, hok, if_neg (by simp), if_pos (by simp [hfence, hbusy])]

theorem opDmaFetch_malformed (hok : (dmaDesc (plain b)).ok = false) (halone : (s.dmac n).flight = []) :
    opDmaFetch n s = haltChannel n 0x0C04 a (dmaFault 0x0C04 n (dmaDesc (plain b)).mode a 0 t) := by
  rw [opDmaFetch_read hnext hst hroom hruns hin hread hb, hok, if_pos (by simp), if_neg (not_not_intro halone)]

/-- The halted channel, and the one record. -/
theorem opDmaFetch_halts (hok : (dmaDesc (plain b)).ok = false) (halone : (s.dmac n).flight = [])
    (hw : ∀ p, p < 8 → (t.pipe p).dmaWanted.contains n = false) :
    ∃ f : FaultRec, f.code = 0x0C04 ∧ (opDmaFetch n s).thal.inFlight = t.thal.inFlight ++ [f] ∧ ((opDmaFetch n s).dmac n).st = .halted ∧
      ((opDmaFetch n s).dmac n).fault = 0x0C04 ∧ ((opDmaFetch n s).dmac n).cur = BitVec.ofNat 40 a := by
  obtain ⟨f, hcode, hrecord⟩ := report_record (faultAt 0x0C04 (dmaInit n) a (dmaDetail n (dmaDesc (plain b)).mode 0)) t
  have hflight : (t.dmac n).flight = [] := by rw [State.dmac_congr _ (busRead_dma hread hb), halone]
  rw [opDmaFetch_malformed hnext hst hroom hruns hin hread hb hok halone, dmaFault_first,
    haltChannel_alone (s := report _ t) hflight hw]
  refine ⟨f, hcode, hrecord, ?_⟩
  rw [State.modDma_dmac]
  exact ⟨rfl, rfl, rfl⟩

end

/-! ### Completion, errors and retries (R443, R447 to R450) -/

theorem opDma_noFlight (h : (s.dmac n).flight = []) : opDmaComplete n s = s ∧ (∀ ok, opDmaRetry n ok s = s) ∧
    ∀ w a, opDmaBusError n w a s = s := by
  refine ⟨?_, fun ok => ?_, fun w a => ?_⟩
  · rw [opDmaComplete, h]
  · rw [opDmaRetry, h]
  · rw [opDmaBusError, h]

/-- An attempt that RETRY still allows is counted, and the access is to be tried again. -/
theorem failedAttempt_retries {a : Nat} {w : Bool} {f : DmaFlight} {x : DmaDesc} (h : (s.dmac n).attempts < (s.dmac n).retries) :
    failedAttempt n a w f x s = State.modDma n (fun c =>
      { c with retried := satInc c.retried, attempts := (s.dmac n).attempts + 1, retryAddr := some (a, w) }) s := by
  unfold failedAttempt
  dsimp only
  refine if_neg ?_
  rw [State.modDma_dmac]
  exact Nat.not_lt.mpr h

section
variable {f : DmaFlight} {rest : List DmaFlight} (hflight : (s.dmac n).flight = f :: rest) (hst : (s.dmac n).st = .running)
include hflight hst

section
variable (hfresh : (s.dmac n).retryAddr = none)
include hfresh

theorem opDmaComplete_moved {t : State} (h : moveAll n (dmaDesc f.desc) ((dmaDesc f.desc).lines * ((dmaDesc f.desc).len / 64 + 2)) s = (.done, t)) :
    opDmaComplete n s = completeDma n f (dmaDesc f.desc) t := by
  rw [opDmaComplete, hflight]
  refine (if_neg (by simp [hst, hfresh])).trans ?_
  dsimp only
  rw [h]
  rfl

theorem opDmaBusError_taken (w : Bool) (a : Nat) : opDmaBusError n w a s = dmaError n a w f (dmaDesc f.desc) s := by
  rw [opDmaBusError, hflight]
  exact if_neg (by simp [hst, hfresh])

end

section
variable {a : Nat} {w : Bool} (hretry : (s.dmac n).retryAddr = some (a, w))
include hretry

theorem opDmaRetry_failed : opDmaRetry n false s = failedAttempt n a w f (dmaDesc f.desc) s := by
  rw [opDmaRetry, hflight, hretry]
  exact (if_neg (by simp [hst])).trans (if_pos rfl)

theorem opDmaRetry_moved (h : (dmaDesc f.desc).lines ≤ f.line) :
    opDmaRetry n true s = State.modDma n (fun c => { c with attempts := 0, retryAddr := none }) s := by
  rw [opDmaRetry, hflight, hretry]
  exact (if_neg (by simp [hst])).trans ((if_neg (by simp)).trans (if_pos h))

end
end
end

/-! ### The obligation -/

section
variable {s : State} {n : DmaChan} (hs : Runs s)
include hs

theorem dmaRegister_clauses (hup : s.blocksUp = true) (hown : (s.dmac n).owner ≠ 1) :
    ((s.dmac n).st = .idle → CompletesReg (.dmaGo n) s (State.modDma n (fun c =>
      { c with st := .running, nextFetch := some c.base.toNat, cur := c.base, suppress := false, supFp := 0xFF }) s)) ∧
    ((s.dmac n).st ≠ .idle → CompletesReg (.dmaGo n) s s) ∧
    ((s.dmac n).st = .idle → CompletesReg (.dmaAbort n) s s) ∧
    ((s.dmac n).st = .halted → CompletesReg (.dmaAbort n) s (State.modDma n (fun c => { c with st := .idle, fault := 0 }) s)) ∧
    ((s.dmac n).st = .running → CompletesReg (.dmaAbort n) s (stopChannel n (fun c => { c with st := .idle }) s)) ∧
    ((s.dmac n).st ≠ .halted → CompletesReg (.dmaResume n) s s) ∧
    ((s.dmac n).st = .halted → 28 ≤ n.val → CompletesReg (.dmaResume n) s (State.modDma n (fun c => { c with st := .idle, fault := 0 }) s)) ∧
    ((s.dmac n).st = .halted → n.val < 28 → CompletesReg (.dmaResume n) s (State.modDma n (fun c =>
      { c with st := .running, fault := 0, nextFetch := some c.cur.toNat }) (writeDmaStatus n (s.dmac n).cur.toNat 0 s))) := by
  have hgo : ∀ {t : State}, opDmaGo n s = t → CompletesReg (.dmaGo n) s t := fun ht => ht ▸ performBlk_runs s _ hs hup
  have habort : ∀ {t : State}, opDmaAbort n s = t → CompletesReg (.dmaAbort n) s t := fun ht => ht ▸ performBlk_runs s _ hs hup
  have hresume : ∀ {t : State}, opDmaResume n s = t → CompletesReg (.dmaResume n) s t := fun ht => ht ▸ performBlk_runs s _ hs hup
  exact ⟨fun h => hgo (opDmaGo_idle h hown), fun h => hgo (opDmaGo_kept (.inl h)), fun h => habort (opDmaAbort_idle hown h),
    fun h => habort (opDmaAbort_halted hown h), fun h => habort (opDmaAbort_running hown h), fun h => hresume (opDmaResume_kept (.inl h)),
    fun h hn => hresume ((opDmaResume_halted hown h).trans (if_pos hn)),
    fun h hn => hresume ((opDmaResume_halted hown h).trans (if_neg (Nat.not_le.mpr hn)))⟩

/-- A channel PREP owns takes no register write. -/
theorem dmaOwned_clauses (h : (s.dmac n).owner = 1) :
    CompletesReg (.dmaGo n) s s ∧ CompletesReg (.dmaAbort n) s s ∧ CompletesReg (.dmaResume n) s s :=
  ⟨performBlk_idle hs (opDmaGo_kept (.inr h)), performBlk_idle hs (opDmaAbort_owned h), performBlk_idle hs (opDmaResume_kept (.inr h))⟩

end

/-- Settles O7: each register write by the channel's state, each event by what is in flight and what was read. -/
theorem dmaChannels : Obligations.DmaChannels := by
  unfold Obligations.DmaChannels
  intro s n hs
  have hfetch : ∀ {t : State}, opDmaFetch n s = t → Completes (.dmaDescriptorFetch n) s t := fun ht => ht ▸ perform_runs s _ hs
  have hcomplete : ∀ {t : State}, opDmaComplete n s = t → Completes (.dmaDescriptorComplete n) s t := fun ht => ht ▸ perform_runs s _ hs
  have hretry : ∀ {ok : Bool} {t : State}, opDmaRetry n ok s = t → Completes (.dmaRetry n ok) s t := fun ht => ht ▸ perform_runs s _ hs
  have herror : ∀ {w : Bool} {a : Addr} {t : State}, a < 2 ^ 40 → opDmaBusError n w a s = t → Completes (.dmaBusError n w a) s t :=
    fun ha ht => ht ▸ performWf_runs s _ _ (decide_eq_true ha) hs
  refine ⟨dmaRegister_clauses hs, dmaOwned_clauses hs, fun h => hfetch (opDmaFetch_none h), ?_, fun h => ?_, ?_, ?_⟩
  · intro a b t hnext hst hroom hruns hin hread hb
    refine ⟨fun hok hf => hfetch (opDmaFetch_starts hnext hst hroom hruns hin hread hb hok hf),
      fun hok hf hbusy => hfetch (opDmaFetch_fenced hnext hst hroom hruns hin hread hb hok hf hbusy),
      fun hok halone => hfetch (opDmaFetch_malformed hnext hst hroom hruns hin hread hb hok halone), fun hok halone hw => ?_⟩
    obtain ⟨f, hcode, hflight, hhalted, hfault, hcur⟩ :=
      opDmaFetch_halts hnext hst hroom hruns hin hread hb hok halone fun p hp => hw ⟨p, hp⟩
    refine ⟨_, f, hfetch rfl, ?_⟩
    rw [keepLatch_dmac, keepLatch_thal]
    exact ⟨hhalted, hfault, hcur, hcode, hflight⟩
  · obtain ⟨hnone, hnoRetry, hnoError⟩ := opDma_noFlight h
    exact ⟨hcomplete hnone, fun ok => hretry (hnoRetry ok), fun w a ha => herror ha (hnoError w a)⟩
  · intro f rest hflight hst hfresh
    refine ⟨fun t hmove => hcomplete (opDmaComplete_moved hflight hst hfresh hmove), fun w a ha => ?_⟩
    have htaken := opDmaBusError_taken hflight hst hfresh w a
    refine ⟨fun hdata => herror ha (htaken.trans (if_neg (by simp [controlClass, hdata]))), fun hctrl hroom => ?_⟩
    rw [dmaError, if_pos (by simp [controlClass, hctrl]), failedAttempt_retries hroom] at htaken
    refine ⟨_, herror ha htaken, ?_⟩
    rw [keepLatch_dmac, keepLatch_thal, State.modDma_dmac]
    exact ⟨hst, rfl, rfl, rfl⟩
  · intro f rest a w hflight hst haddr
    refine ⟨fun hroom => ⟨_, hretry ((opDmaRetry_failed hflight hst haddr).trans (failedAttempt_retries hroom)), ?_⟩,
      fun hmoved => hretry (opDmaRetry_moved hflight hst haddr hmoved)⟩
    rw [keepLatch_dmac, State.modDma_dmac]
    exact ⟨rfl, rfl⟩

end Sys2Proof.Machine
end

section
/-! PROOFS. RoCE queue pairs: doorbells, contexts, requests and packets (R524 to R528, R530, R550). -/

namespace Sys2Proof.Machine

/-! ### Entries of a table written twice (log 5) -/

section
variable {α : Type}

theorem tdel_tins (i : Nat) (v : α) (t : Tab α) : tdel i (tins i v t) = tdel i t := by
  induction t with
  | nil => simp [tins, tdel]
  | cons e t ih =>
    obtain ⟨k, w⟩ := e
    rw [tins]
    split
    · rw [tdel, if_pos rfl]
    · rw [tdel, ih, tdel]

theorem tdel_tdel (i : Nat) (t : Tab α) : tdel i (tdel i t) = tdel i t := by
  induction t with
  | nil => rfl
  | cons e t ih =>
    obtain ⟨k, w⟩ := e
    by_cases h : k = i <;> simp [tdel, h, ih]

theorem tdel_tset [DecidableEq α] (d : α) (t : Tab α) (i : Nat) (v : α) : tdel i (tset d t i v) = tdel i t := by
  unfold tset
  split
  · exact tdel_tdel i t
  · rw [tdel_tins, tdel_tdel]

/-- The last write of an entry stands. -/
theorem tset_tset [DecidableEq α] (d : α) (t : Tab α) (i : Nat) (v w : α) : tset d (tset d t i v) i w = tset d t i w := by
  rw [tset, tdel_tset, ← tset]

end

section
variable {s : State} {q : Nat}

theorem modQp_modQp (f g : QpRec → QpRec) : State.modQp q g (State.modQp q f s) = State.modQp q (fun r => g (f r)) s := by
  rw [State.modQp, State.modQp_qp]
  change { s with eth := { s.eth with qps := tset {} (tset {} s.eth.qps q (f (s.qp q))) q (g (f (s.qp q))) } } = _
  rw [tset_tset]
  rfl

theorem modQp_congr {f g : QpRec → QpRec} (h : f (s.qp q) = g (s.qp q)) : State.modQp q f s = State.modQp q g s := by
  rw [State.modQp, h, State.modQp]

/-! ### Doorbells (R550) -/

section
variable {i : Nat}

theorem opQpDoorbell_unloaded (kind : Nat) (h : (s.qp q).loaded = false) : opQpDoorbell kind q i s = s := if_pos (by simp [h])

section
variable (h : (s.qp q).loaded = true)
include h

theorem opQpDoorbell_sq : opQpDoorbell 0 q i s = if i < (s.qp q).sqSize then State.modQp q (fun r => { r with sqTail := i }) s else s :=
  if_neg (by simp [h])

theorem opQpDoorbell_rq : opQpDoorbell 1 q i s = if i < (s.qp q).rqSize then State.modQp q (fun r => { r with rqTail := i }) s else s :=
  if_neg (by simp [h])

theorem opQpDoorbell_cq : opQpDoorbell 2 q i s = if i < (s.qp q).cqSize then
    drainRoce q (s.qp q).cqWait.length (State.modQp q (fun r => { r with cqHead := i }) s) else s :=
  if_neg (by simp [h])

end
end

/-! ### Contexts (R525, R550) -/

theorem opQpLoad_disabled (h : s.eth.roceEn = false) : opQpLoad q s = s := if_pos (by simp [h])

theorem writeQpState_qp (code : Byte) : (writeQpState q code s).qp q = s.qp q := by
  refine State.qp_congr _ ?_ q
  rw [writeQpState, busWrite_frame]

/-- The queue pair is as its context says. -/
theorem opQpLoad_loaded {b : List PByte} {t : State} (hen : s.eth.roceEn = true)
    (hread : busRead (0xB1 + bits (tget 0 s.mem.bytes (s.qpcAddr q + 1)).toNat 1 0) 1 (s.qpcAddr q) 64 s = (some b, t))
    (hb : poisoned b = false) (hok : qpcOk (plain b) = true) : (opQpLoad q s).qp q =
      { loaded := true, st := .ready, ctx := plain b, sendPsn := BitVec.ofNat 24 (field (plain b) 0x38 3),
        expPsn := BitVec.ofNat 24 (field (plain b) 0x3C 3) } := by
  have hload : opQpLoad q s = writeQpState q 1 (State.modQp q (fun _ =>
      { loaded := true, st := .ready, ctx := plain b, sendPsn := BitVec.ofNat 24 (field (plain b) 0x38 3),
        expPsn := BitVec.ofNat 24 (field (plain b) 0x3C 3) }) t) := by
    unfold opQpLoad
    rw [if_neg (by simp [hen])]
    dsimp only
    rw [hread]
    exact if_neg (by simp [hb, hok])
  rw [hload, writeQpState_qp, State.modQp_qp]

/-- A packet number of a context fits its counter. -/
theorem psnField_toNat (d : List Byte) (o : Nat) : (BitVec.ofNat 24 (field d o 3)).toNat = field d o 3 :=
  Nat.mod_eq_of_lt (field_lt d o 3)

/-! ### Requests and timeouts (R524, R526, R527, R530) -/

theorem opRoceRequest_empty (h : (s.qp q).sqHead = (s.qp q).sqTail) : opRoceRequest q s = s := if_pos (by simp [h])

theorem opRoceRequest_starts {b : List PByte} {t : State} (hruns : s.roceRuns = true) (hload : (s.qp q).loaded = true)
    (hwaits : (s.qp q).sqHead ≠ (s.qp q).sqTail) (hlink : (s.port (s.qp q).port).link = .up)
    (hread : readAll (s.qp q).init 1 (field (s.qp q).ctx 0x20 8 + 64 * (s.qp q).sqHead) 64 s = (some b, t)) (hb : poisoned b = false) :
    opRoceRequest q s = startWr q (plain b) t := by
  unfold opRoceRequest
  dsimp only
  rw [if_neg (by simp [hruns, hload, hwaits, hlink]), hread]
  exact if_neg (by simp [hb])

theorem startWr_flushed {wr : List Byte} (h : (s.qp q).st = .error) :
    startWr q wr s = completeWr q 4 wr (State.modQp q (fun r => { r with sqHead := (r.sqHead + 1) % r.sqSize }) s) := if_pos h

/-- A well-formed request that waits for none before it takes the next packet numbers and is sent. -/
theorem startWr_sent {wr : List Byte} (hst : (s.qp q).st ≠ .error) (hok : wrOk wr = true) (hfree : (s.qp q).unacked = []) :
    let x : RoceReq := { wr := wr, psn := (s.qp q).sendPsn, pkts := pktCount (field wr 4 4) s.mtu }
    startWr q wr s = transmitWr q x (State.modQp q (fun r =>
      { r with sqHead := (r.sqHead + 1) % r.sqSize, unacked := [x], sendPsn := (s.qp q).sendPsn + BitVec.ofNat 24 x.pkts }) s) := by
  unfold startWr
  dsimp only
  rw [if_neg hst, if_neg (by simp [hok]), if_neg (by simp [hfree]), modQp_modQp, modQp_congr]
  rw [hfree]
  rfl

theorem opRoceTimeout_idle (h : (s.qp q).unacked = []) : opRoceTimeout q s = s := by
  rw [opRoceTimeout, h]

section
variable {x : RoceReq} {rest : List RoceReq} (hwaits : (s.qp q).unacked = x :: rest) (hst : (s.qp q).st = .ready) (hruns : s.roceRuns = true)
include hwaits hst hruns

theorem opRoceTimeout_eq : opRoceTimeout q s =
    if (s.qp q).retry ≤ (s.qp q).repeats then failWr q 1 x.wr (State.modQp q (fun r => { r with unacked := rest }) s)
    else (x :: rest).foldl (fun t y => if (t.qp q).st = .ready then transmitWr q y t else t) (State.modQp q QpRec.repeated s) := by
  rw [opRoceTimeout, hwaits]
  exact if_neg (by simp [hst, hruns])

theorem opRoceTimeout_fails (h : (s.qp q).retry ≤ (s.qp q).repeats) :
    opRoceTimeout q s = failWr q 1 x.wr (State.modQp q (fun r => { r with unacked := rest }) s) :=
  (opRoceTimeout_eq hwaits hst hruns).trans (if_pos h)

end

theorem QpRec.repeated_st (r : QpRec) : r.repeated.st = r.st := by
  unfold QpRec.repeated
  split <;> rfl

/-- The one request under way is sent again. -/
theorem opRoceTimeout_repeats {x : RoceReq} (hwaits : (s.qp q).unacked = [x]) (hst : (s.qp q).st = .ready) (hruns : s.roceRuns = true)
    (h : (s.qp q).repeats < (s.qp q).retry) : opRoceTimeout q s = transmitWr q x (State.modQp q QpRec.repeated s) := by
  rw [opRoceTimeout_eq hwaits hst hruns, if_neg (Nat.not_le.mpr h)]
  exact if_pos (by rw [State.modQp_qp, QpRec.repeated_st, hst])

/-! ### Packets (R519, R524, R528, R530) -/

section
variable {n : Nat} {p : RocePkt}

/-- A RoCE packet's frame fits the port. -/
theorem udpFrame_fits {m max : Nat} (h : m + 62 ≤ max) (h64 : 64 ≤ max) : udpFrame false (m + 16) ≤ max := by
  simp only [udpFrame]
  exact Nat.max_le.mpr ⟨h64, by simpa using h⟩

theorem opRocePacket_down (h : (s.port n).link ≠ .up) : opRocePacket n p s = s :=
  (if_neg (by simp [h])).trans (receive_down h)

section
variable (hup : (s.port n).link = .up) (hfits : udpFrame false (p.payload.length + 16) ≤ (s.port n).maxFrame.toNat)
include hup hfits

theorem opRocePacket_up : opRocePacket n p s = if s.eth.roceEn then qpPacket n p (countRx n s) else countRx n s :=
  receiveLen_up hup hfits

theorem opRocePacket_dropped (h : s.eth.roceEn = false ∨ 1024 ≤ p.qpn.toNat ∨ (s.qp p.qpn.toNat).loaded = false ∨
    (s.qp p.qpn.toNat).st ≠ .ready ∨ (s.qp p.qpn.toNat).port ≠ n) : opRocePacket n p s = countRx n s := by
  rw [opRocePacket_up hup hfits]
  rcases h with h | h
  · exact if_neg (by simp [h])
  · have hother : qpPacket n p (countRx n s) = countRx n s := by
      refine if_pos ?_
      change (decide (1024 ≤ p.qpn.toNat) || !(s.qp p.qpn.toNat).loaded || decide ((s.qp p.qpn.toNat).st ≠ .ready) ||
        decide ((s.qp p.qpn.toNat).port ≠ n)) = true
      simpa [or_assoc] using h
    rw [hother, ite_self]

section
variable (hen : s.eth.roceEn = true) (hq : p.qpn.toNat < 1024) (hload : (s.qp p.qpn.toNat).loaded = true)
  (hst : (s.qp p.qpn.toNat).st = .ready) (hport : (s.qp p.qpn.toNat).port = n)
include hen hq hload hst hport

theorem opRocePacket_taken : opRocePacket n p s =
    if p.opcode = 0x81 then State.modQp p.qpn.toNat (fun r => { r with rate := r.rate / 2 }) (countRx n s)
    else
      let t := if p.ecnMarked then emit (.cnp n (s.qp p.qpn.toNat).dest (s.qp p.qpn.toNat).dqpn)
        (State.modPort n (fun r => { r with txOk := satInc r.txOk }) (countRx n s)) else countRx n s
      if p.opcode.toNat = 0x11 then onAck p.qpn.toNat p t
      else if 0x0D ≤ p.opcode.toNat ∧ p.opcode.toNat ≤ 0x10 then onReadData p.qpn.toNat p t
      else requestPkt p.qpn.toNat p t := by
  rw [opRocePacket_up hup hfits, if_pos hen]
  refine if_neg ?_
  change ¬(decide (1024 ≤ p.qpn.toNat) || !(s.qp p.qpn.toNat).loaded || decide ((s.qp p.qpn.toNat).st ≠ .ready) ||
    decide ((s.qp p.qpn.toNat).port ≠ n)) = true
  simp [hload, hst, hport, hq]

theorem opRocePacket_cnp (h : p.opcode = 0x81) :
    opRocePacket n p s = State.modQp p.qpn.toNat (fun r => { r with rate := r.rate / 2 }) (countRx n s) :=
  (opRocePacket_taken hup hfits hen hq hload hst hport).trans (if_pos h)

/-- A request without a congestion mark. -/
theorem opRocePacket_request (h : p.opcode.toNat ≤ 0x0C) (hmark : p.ecnMarked = false) :
    opRocePacket n p s = requestPkt p.qpn.toNat p (countRx n s) := by
  have hnotCnp : p.opcode ≠ 0x81 := fun he => by rw [he] at h; exact absurd h (by decide)
  rw [opRocePacket_taken hup hfits hen hq hload hst hport, if_neg hnotCnp, hmark]
  exact (if_neg (by omega)).trans (if_neg (by omega))

end
end

theorem requestPkt_restarting (h : s.island.restarting = true) : requestPkt q p s = sendAck q p.psn synRnr s := if_pos h

/-- A one-packet WRITE in its place whose key does not grant the range. -/
theorem requestPkt_writeRefused (hrun : s.island.restarting = false) (hop : p.opcode = 0x0A) (hpsn : p.psn = (s.qp q).expPsn)
    (hw : (s.qp q).writeLeft = 0) (hr : (s.qp q).recvOffset = 0) (hkey : s.keyGrants p.rkey true p.va.toNat p.dmaLen.toNat = false) :
    requestPkt q p s = refuse q p synAccess (reportEth 0x0603 (s.qp q).port q s) := by
  have hinPlace : requestPkt q p s = onRequest q p s := by
    unfold requestPkt
    dsimp only
    rw [hrun, hpsn, BitVec.sub_self]
    rfl
  have hwrite : onRequest q p s = onWrite q p true true false s := by rw [onRequest, hop]; rfl
  rw [hinPlace, hwrite, onWrite]
  dsimp only
  rw [hw, hr, if_neg (by decide), if_pos rfl, keyed]
  exact if_pos (by simp [hkey])

theorem sendRoce_leaves (hlink : (s.port (s.qp q).port).link = .up) (hfree : s.guarded true 4791 = none) :
    sendRoce q p s = emit (.roce (s.qp q).port (s.qp q).dest p) (State.modPort (s.qp q).port (fun r => { r with txOk := satInc r.txOk }) s) := by
  rw [sendRoce]
  dsimp only
  rw [if_neg (not_not_intro hlink), hfree]

/-- A refusal whose NAK leaves. -/
theorem refuse_leaves {syn : Byte} (hlink : (s.port (s.qp q).port).link = .up) (hfree : s.guarded true 4791 = none) :
    refuse q p syn s = emit (.roce (s.qp q).port (s.qp q).dest { rocePkt 0x11 (s.qp q).dqpn p.psn with syndrome := syn })
      (State.modPort (s.qp q).port (fun r => { r with txOk := satInc r.txOk })
        (State.modQp q (fun r => { r with writeLeft := 0, recvOffset := 0 }) s)) := by
  have hqp := State.modQp_qp s q (fun r => { r with writeLeft := 0, recvOffset := 0 })
  have hleaves := sendRoce_leaves (s := State.modQp q (fun r => { r with writeLeft := 0, recvOffset := 0 }) s) (q := q)
    (p := { rocePkt 0x11 (s.qp q).dqpn p.psn with syndrome := syn }) (by rw [hqp]; exact hlink) hfree
  rw [refuse, sendAck]
  rw [hqp] at hleaves ⊢
  exact hleaves

/-- It takes nothing, records nothing, and sends the NAK. -/
theorem refuse_effects {syn : Byte} (hlink : (s.port (s.qp q).port).link = .up) (hfree : s.guarded true 4791 = none) :
    (refuse q p syn s).mem = s.mem ∧ (refuse q p syn s).fronds = s.fronds ∧ (refuse q p syn s).thal = s.thal ∧
    (refuse q p syn s).out =
      s.out ++ [.roce (s.qp q).port (s.qp q).dest { rocePkt 0x11 (s.qp q).dqpn p.psn with syndrome := syn }] := by
  rw [refuse_leaves hlink hfree]
  exact ⟨by simp, by simp, by simp, rfl⟩

theorem reportEth_record (code : BitVec 16) (n q : Nat) (s : State) :
    ∃ f : FaultRec, f.code = code ∧ (reportEth code n q s).thal.inFlight = s.thal.inFlight ++ [f] :=
  report_record { code := code, detail := BitVec.ofNat 64 (n + place q 16) } s

theorem reportEth_keeps (code : BitVec 16) (n q : Nat) (s : State) :
    (reportEth code n q s).mem = s.mem ∧ (reportEth code n q s).fronds = s.fronds ∧ (reportEth code n q s).eth = s.eth ∧
    (reportEth code n q s).out = s.out ∧ (reportEth code n q s).guarded true 4791 = s.guarded true 4791 := ⟨rfl, rfl, rfl, rfl, rfl⟩

end
end

/-! ### The obligation -/

section
variable {s : State} (hs : Runs s)
include hs

theorem qpDoorbell_clauses (q : Qpn) (i : BitVec 16) (hbar : s.barUp = true) :
    ((s.qp q).loaded = false →
      CompletesReg (.qpSqDoorbell q i) s s ∧ CompletesReg (.qpRqDoorbell q i) s s ∧ CompletesReg (.qpCqDoorbell q i) s s) ∧
    ((s.qp q).loaded = true → let k := bits i.toNat 12 0
      (k < (s.qp q).sqSize → CompletesReg (.qpSqDoorbell q i) s (State.modQp q (fun r => { r with sqTail := k }) s)) ∧
      ((s.qp q).sqSize ≤ k → CompletesReg (.qpSqDoorbell q i) s s) ∧
      (k < (s.qp q).rqSize → CompletesReg (.qpRqDoorbell q i) s (State.modQp q (fun r => { r with rqTail := k }) s)) ∧
      ((s.qp q).rqSize ≤ k → CompletesReg (.qpRqDoorbell q i) s s) ∧
      (k < (s.qp q).cqSize → (s.qp q).cqWait = [] → CompletesReg (.qpCqDoorbell q i) s (State.modQp q (fun r => { r with cqHead := k }) s)) ∧
      ((s.qp q).cqSize ≤ k → CompletesReg (.qpCqDoorbell q i) s s)) := by
  have hsq : ∀ {t : State}, opQpDoorbell 0 q (bits i.toNat 12 0) s = t → CompletesReg (.qpSqDoorbell q i) s t :=
    fun ht => ht ▸ performBar_runs s _ hs hbar
  have hrq : ∀ {t : State}, opQpDoorbell 1 q (bits i.toNat 12 0) s = t → CompletesReg (.qpRqDoorbell q i) s t :=
    fun ht => ht ▸ performBar_runs s _ hs hbar
  have hcq : ∀ {t : State}, opQpDoorbell 2 q (bits i.toNat 12 0) s = t → CompletesReg (.qpCqDoorbell q i) s t :=
    fun ht => ht ▸ performBar_runs s _ hs hbar
  refine ⟨fun h => ⟨hsq (opQpDoorbell_unloaded 0 h), hrq (opQpDoorbell_unloaded 1 h), hcq (opQpDoorbell_unloaded 2 h)⟩, fun h => ?_⟩
  refine ⟨fun hk => hsq ((opQpDoorbell_sq h).trans (if_pos hk)), fun hk => hsq ((opQpDoorbell_sq h).trans (if_neg (Nat.not_lt.mpr hk))),
    fun hk => hrq ((opQpDoorbell_rq h).trans (if_pos hk)), fun hk => hrq ((opQpDoorbell_rq h).trans (if_neg (Nat.not_lt.mpr hk))),
    fun hk hwait => hcq ((opQpDoorbell_cq h).trans ((if_pos hk).trans ?_)), fun hk => hcq ((opQpDoorbell_cq h).trans (if_neg (Nat.not_lt.mpr hk)))⟩
  rw [hwait]
  rfl

theorem qpLoad_idle (q : Qpn) (h : s.barUp = false ∨ s.eth.roceEn = false) : CompletesReg (.qpLoadContext q) s s := by
  cases hbar : s.barUp with
  | false => exact performBar_down _ hs hbar
  | true =>
    have hen : s.eth.roceEn = false := h.resolve_left (by simp [hbar])
    exact (performBar_runs s _ hs hbar).trans (by rw [opQpLoad_disabled hen])

theorem roceRequest_clauses (q : Qpn) : let r := s.qp q
    (r.sqHead = r.sqTail → Completes (.roceWorkRequest q) s s) ∧
    (∀ b t, s.roceRuns = true → r.loaded = true → r.sqHead ≠ r.sqTail → (s.port r.port).link = .up →
      readAll r.init 1 (field r.ctx 0x20 8 + 64 * r.sqHead) 64 s = (some b, t) → poisoned b = false → t.qp q = r →
      (r.st = .error → Completes (.roceWorkRequest q) s
        (completeWr q 4 (plain b) (State.modQp q (fun r => { r with sqHead := (r.sqHead + 1) % r.sqSize }) t))) ∧
      (r.st ≠ .error → wrOk (plain b) = true → r.unacked = [] →
        let x : RoceReq := { wr := plain b, psn := r.sendPsn, pkts := pktCount (field (plain b) 4 4) t.mtu }
        Completes (.roceWorkRequest q) s (transmitWr q x (State.modQp q (fun r =>
          { r with sqHead := (r.sqHead + 1) % r.sqSize, unacked := [x], sendPsn := r.sendPsn + BitVec.ofNat 24 x.pkts }) t)))) := by
  have hrequest : ∀ {t : State}, opRoceRequest q s = t → Completes (.roceWorkRequest q) s t := fun ht => ht ▸ perform_runs s _ hs
  refine ⟨fun h => hrequest (opRoceRequest_empty h), fun b t hruns hload hwaits hlink hread hb hqp => ?_⟩
  have hstarts := opRoceRequest_starts hruns hload hwaits hlink hread hb
  refine ⟨fun h => hrequest (hstarts.trans (startWr_flushed (hqp ▸ h))), fun hst hok hfree => hrequest (hstarts.trans ?_)⟩
  rw [startWr_sent (hqp ▸ hst) hok (hqp ▸ hfree), hqp]
  exact congrArg _ (modQp_congr (by rw [hqp]))

theorem roceTimeout_clauses (q : Qpn) : let r := s.qp q
    (r.unacked = [] → Completes (.roceAckTimeout q) s s) ∧
    (∀ x rest, r.unacked = x :: rest → r.st = .ready → s.roceRuns = true →
      r.retry ≤ (if r.rnr then r.rnrRetries else r.retries) →
      Completes (.roceAckTimeout q) s (failWr q 1 x.wr (State.modQp q (fun r => { r with unacked := rest }) s))) ∧
    (∀ x, r.unacked = [x] → r.st = .ready → s.roceRuns = true → r.rnr = true → r.rnrRetries < r.retry →
      Completes (.roceAckTimeout q) s
        (transmitWr q x (State.modQp q (fun r => { r with rnr := false, rnrRetries := r.rnrRetries + 1 }) s))) ∧
    (∀ x, r.unacked = [x] → r.st = .ready → s.roceRuns = true → r.rnr = false → r.retries < r.retry →
      Completes (.roceAckTimeout q) s (transmitWr q x (State.modQp q (fun r => { r with retries := r.retries + 1 }) s))) := by
  have htimeout : ∀ {t : State}, opRoceTimeout q s = t → Completes (.roceAckTimeout q) s t := fun ht => ht ▸ perform_runs s _ hs
  refine ⟨fun h => htimeout (opRoceTimeout_idle h), fun x rest hw hst hruns h => htimeout (opRoceTimeout_fails hw hst hruns h),
    fun x hw hst hruns hrnr h => htimeout ?_, fun x hw hst hruns hrnr h => htimeout ?_⟩
  · rw [opRoceTimeout_repeats hw hst hruns (by rwa [QpRec.repeats, if_pos hrnr])]
    exact congrArg _ (modQp_congr (if_pos hrnr))
  · rw [opRoceTimeout_repeats hw hst hruns (by rwa [QpRec.repeats, if_neg (by simp [hrnr])])]
    exact congrArg _ (modQp_congr (if_neg (by simp [hrnr])))

section
variable {n : EthPort} {p : RocePkt} (hlen : p.payload.length ≤ 4096)
  (hfits : udpFrame false (p.payload.length + 16) ≤ (s.port n).maxFrame.toNat) (hup : (s.port n).link = .up)
  (hen : s.eth.roceEn = true) (hq : p.qpn.toNat < 1024) (hload : (s.qp p.qpn.toNat).loaded = true)
  (hst : (s.qp p.qpn.toNat).st = .ready) (hport : (s.qp p.qpn.toNat).port = n)
include hlen hfits hup hen hq hload hst hport

/-- The record and the NAK of a WRITE whose key does not grant the range, and nothing written. -/
theorem rocePacket_refused (hop : p.opcode = 0x0A) (hmark : p.ecnMarked = false) (hrun : s.island.restarting = false)
    (hpsn : p.psn = (s.qp p.qpn.toNat).expPsn) (hw : (s.qp p.qpn.toNat).writeLeft = 0) (hr : (s.qp p.qpn.toNat).recvOffset = 0)
    (hkey : s.keyGrants p.rkey true p.va.toNat p.dmaLen.toNat = false) (hfree : s.guarded true 4791 = none) :
    ∃ t f, exec (.rocePacket n p) s = .next t ∧ t.mem = s.mem ∧ t.fronds = s.fronds ∧ f.code = 0x0603 ∧
      t.thal.inFlight = s.thal.inFlight ++ [f] ∧
      t.out = s.out ++ [.roce n (s.qp p.qpn.toNat).dest { rocePkt 0x11 (s.qp p.qpn.toNat).dqpn p.psn with syndrome := synAccess }] := by
  have hexec : exec (.rocePacket n p) s = .next (keepLatch s (opRocePacket n p s)) := performWf_runs s _ _ (decide_eq_true hlen) hs
  have hlink : ((countRx n s).port (s.qp p.qpn.toNat).port).link = .up := by rw [hport, countRx, State.modPort_port]; exact hup
  rw [opRocePacket_request hup hfits hen hq hload hst hport (by rw [hop]; decide) hmark,
    requestPkt_writeRefused (s := countRx n s) hrun hop hpsn hw hr hkey] at hexec
  obtain ⟨f, hcode, hrecord⟩ := reportEth_record 0x0603 ((countRx n s).qp p.qpn.toNat).port p.qpn.toNat (countRx n s)
  obtain ⟨hmem, hfronds, heth, hout, hguard⟩ := reportEth_keeps 0x0603 ((countRx n s).qp p.qpn.toNat).port p.qpn.toNat (countRx n s)
  generalize reportEth 0x0603 ((countRx n s).qp p.qpn.toNat).port p.qpn.toNat (countRx n s) = u at hexec hrecord hmem hfronds heth hout hguard
  have hqp : u.qp p.qpn.toNat = s.qp p.qpn.toNat := State.qp_congr _ heth _
  obtain ⟨hmem', hfronds', hthal', hout'⟩ := refuse_effects (s := u) (q := p.qpn.toNat) (p := p) (syn := synAccess)
    (by rw [hqp, State.port_congr _ heth]; exact hlink) (hguard.trans hfree)
  refine ⟨_, f, hexec, ?_, ?_, hcode, ?_, ?_⟩
  · rw [keepLatch_mem, hmem', hmem]; rfl
  · rw [keepLatch_fronds, hfronds', hfronds]; rfl
  · rw [keepLatch_thal, hthal', hrecord]; rfl
  · rw [keepLatch_out, hout', hout, hqp, hport]; rfl

end
end

/-- Settles O9: doorbells by ring and index, contexts and requests by what was read, packets by the queue pair they name. -/
theorem roceQueuePairs : Obligations.RoceQueuePairs := by
  unfold Obligations.RoceQueuePairs
  intro s hs
  refine ⟨fun q i => ⟨fun hbar => (qpDoorbell_clauses hs q i hbar).1, fun hbar => (qpDoorbell_clauses hs q i hbar).2⟩, qpLoad_idle hs,
    fun q b t hbar hen hread hb hok => ?_, fun q => ?_, fun n p hlen hroom hmin => ?_⟩
  · refine ⟨_, performBar_runs s _ hs hbar, ?_⟩
    have hqp : (wakeEvent 1 (opQpLoad q s)).qp q = (opQpLoad q s).qp q := State.qp_congr _ (wakeEvent_eth _ _) _
    rw [keepLatch_qp, hqp, opQpLoad_loaded hen hread hb hok]
    exact ⟨rfl, rfl, rfl, psnField_toNat .., psnField_toNat ..⟩
  · obtain ⟨hempty, hstarts⟩ := roceRequest_clauses hs q
    obtain ⟨hidle, hfails, hrnr, hagain⟩ := roceTimeout_clauses hs q
    exact ⟨hempty, hstarts, hidle, hfails, hrnr, hagain, perform_runs s _ hs⟩
  · have hpacket : ∀ {t : State}, opRocePacket n p s = t → Completes (.rocePacket n p) s t :=
      fun ht => ht ▸ performWf_runs s _ _ (decide_eq_true hlen) hs
    have hfits := udpFrame_fits hroom hmin
    refine ⟨fun h => hpacket (opRocePacket_down h), fun hup h => hpacket (opRocePacket_dropped hup hfits h),
      fun hup hen hq hload hst hport => ⟨fun h => hpacket (opRocePacket_cnp hup hfits hen hq hload hst hport h),
        fun h hmark hrun => hpacket ((opRocePacket_request hup hfits hen hq hload hst hport h hmark).trans (requestPkt_restarting hrun)),
        fun hop hmark hrun hpsn hw hr hkey hfree =>
          rocePacket_refused hs hlen hfits hup hen hq hload hst hport hop hmark hrun hpsn hw hr hkey hfree⟩⟩

end Sys2Proof.Machine
end

section
/-! PROOFS. What frames of the governor, authority, doubts and the end of a pipeline leave alone of the Ethernet ports (R516, R521, R636). -/

namespace Sys2Proof.Machine

/-- Each port's enable and the state of its link. -/
def State.links (s : State) : Nat → Bool × LinkState := fun n => ((s.port n).en, (s.port n).link)

section
variable (s : State)

theorem State.links_congr {t : State} (h : t.eth = s.eth) : t.links = s.links := funext fun n => by
  unfold State.links
  rw [State.port_congr _ h]

theorem modPort_links (n : Nat) (g : EthRec → EthRec) (hg : ∀ r, (g r).en = r.en ∧ (g r).link = r.link) :
    (State.modPort n g s).links = s.links := by
  refine funext fun m => ?_
  unfold State.links
  by_cases h : m = n
  · obtain ⟨hen, hlink⟩ := hg (s.port n)
    rw [h, State.modPort_port, hen, hlink]
  · rw [State.modPort_port_ne _ _ _ _ h]

theorem modTx_links (n i : Nat) (g : TxRec → TxRec) : (State.modTx n i g s).links = s.links := modPort_links s n _ fun _ => ⟨rfl, rfl⟩

/-! ### Authority, Moss's submissions and the decision (R319, R336, R338, R339) -/

theorem postEvent_eth (code : Nat) (p : Option Nat) (k : Option Word32) (d : List Byte) : (postEvent code p k d s).eth = s.eth :=
  (congrArg State.eth (postEvent_unposted s code p k d) :)

theorem withdrawObj_eth (m o : Nat) : (withdrawObj m o s).eth = s.eth := by rw [withdrawObj_frame]

theorem withdrawChannel_links (b : Bool) (c : Nat) : (withdrawChannel b c s).links = s.links := by
  unfold withdrawChannel
  dsimp only
  split
  · split
    · rfl
    · exact State.links_congr s (withdrawObj_eth ..)
  · split
    · exact modTx_links ..
    · exact State.links_congr s (withdrawObj_eth ..)

theorem withdrawPipe_links (p : Nat) (b : Bool) : (withdrawPipe p b s).links = s.links :=
  foldl_keeps State.links (fun t c => withdrawChannel b c t) (fun t c => withdrawChannel_links t b c) _ s

theorem setAuthority_links (p : Nat) (b : Bool) (k : Word32) : (setAuthority p b k s).links = s.links := by
  unfold setAuthority
  split
  · rfl
  · exact (withdrawPipe_links _ p _).trans (State.links_congr s (postEvent_eth ..))

theorem abortObj_eth (m o : Nat) : (abortObj m o s).eth = s.eth := by
  unfold abortObj
  split <;> rfl

theorem mossWrite_eth (c : Nat) (d : List Byte) (p : Nat) : (mossWrite c d p s).eth = s.eth := by
  unfold mossWrite
  dsimp only
  split <;> exact abortObj_eth ..

theorem mossSubmit_eth (p : Nat) : (mossSubmit p s).eth = s.eth := by
  unfold mossSubmit
  split
  · rfl
  · exact foldl_keeps State.eth (fun t (e : Nat × List Byte) => mossWrite e.1 e.2 p t) (fun t e => mossWrite_eth t e.1 e.2 p) _ _

theorem mossSubmitFor_eth (p : Nat) (k : Word32) : (mossSubmitFor p k s).eth = s.eth := by
  unfold mossSubmitFor
  split
  · exact mossSubmit_eth ..
  · rfl

theorem mossTakes_links (c0 : List Nat) : (mossTakes c0 s).links = s.links := by
  unfold mossTakes
  rw [foldl_keeps State.links (fun t p => State.modC0 p (fun c => { c with openVoid := { c.openVoid with safe := true } }) t) (fun _ _ => rfl),
    foldl_keeps State.links _ (fun t p => State.links_congr t (mossSubmit_eth t p))]
  exact foldl_keeps State.links _ (fun t p => setAuthority_links t p _ _) _ s

theorem safeReset_eth : (safeReset s).eth = s.eth := by
  unfold safeReset timeFree
  dsimp only
  split <;> rfl

theorem safeDecide_links : (safeDecide s).links = s.links := by
  cases h : s.island.restarting with
  | true => rw [safeDecide_again s h]; rfl
  | false =>
    rw [safeDecide_first s h]
    exact (State.links_congr _ (safeReset_eth _)).trans (mossTakes_links ..)

/-! ### Doubts and the decision instant (R317, R319, R320, R331) -/

theorem lateDoubt_links (p : Nat) (k : Word32) : (lateDoubt p k s).links = s.links := by
  unfold lateDoubt
  dsimp only
  split
  · exact (State.links_congr _ (mossSubmitFor_eth ..)).trans (setAuthority_links ..)
  · rfl

theorem doubt_links (p : Nat) (k : Word32) (vbit : Nat) (code : BitVec 16) : (doubt p k vbit code s).links = s.links := by
  unfold doubt
  split
  · rfl
  extract_lets a t second u v
  have hlate : v.links = s.links := by
    unfold v
    split
    · exact lateDoubt_links u p k
    · rfl
  split
  · rw [safeDecide_links, hlate]
  · exact hlate

theorem wdogLate_links (p stage : Nat) (l : Ledger) : (wdogLate p stage l s).links = s.links := by
  unfold wdogLate
  dsimp only
  split
  · rfl
  · exact doubt_links ..

theorem decide_links (p : Nat) (k : Word32) : (decide_ p k s).links = s.links := by
  unfold decide_
  split
  · rfl
  extract_lets inDoubt cleanN primary t u
  have hset : u.links = s.links := setAuthority_links t p primary k
  split
  · exact hset
  · rw [State.links_congr _ (mossSubmitFor_eth ..), hset]

theorem wdogJudge_links (p stage t : Nat) (l : Ledger) : (wdogJudge p stage t l s).links = s.links := by
  unfold wdogJudge
  extract_lets w u v
  split
  · rfl
  split
  · exact doubt_links ..
  split
  · rfl
  · split
    · rw [decide_links]; exact wdogLate_links ..
    · exact wdogLate_links ..

/-! ### The end of a frame and of a pipeline (R16, R332, R412, R437) -/

theorem markStage_links (p : Nat) (k : Word32) (stage : Nat) : (markStage p k stage s).links = s.links := wdogJudge_links ..

theorem refreshGolden_eth : (refreshGolden s).eth = s.eth := by
  unfold refreshGolden
  split <;> rfl

theorem finishCmd_eth (tag st r0 r1 : Nat) : (finishCmd tag st r0 r1 s).eth = s.eth := by rw [finishCmd, finishData_frame]

theorem endPipeline_eth (p : Nat) (last : Option Word32) : (endPipeline p last s).eth = s.eth := by
  unfold endPipeline
  extract_lets r t u v w runs x y z
  have hdma : u.eth = s.eth := by
    refine foldl_keeps State.eth (fun (t : State) n => if t.runningPipes.any (fun q => (t.pipe q).dmaTaken.contains n) then t
      else State.modDma n (fun c => { c with owner := 0 }) t) (fun t n => ?_) r.dmaTaken t
    split <;> rfl
  have hwdog : v.eth = u.eth :=
    foldl_keeps State.eth (fun t i => State.modWdog (wdogNo p i) (fun w => { w with armed := false }) t) (fun _ _ => rfl) _ u
  have hgolden : y.eth = s.eth := (refreshGolden_eth x).trans (hwdog.trans hdma)
  have hends : z.eth = y.eth := foldl_keeps State.eth _ (fun t tag => finishCmd_eth t tag 0 _ 0) _ y
  rw [postEvent_eth, hends, hgolden]

theorem completeFrame_eth (p : Nat) (k : Word32) (b : Bool) : (completeFrame p k b s).eth = s.eth := by
  unfold completeFrame
  extract_lets t runs u
  split
  · exact endPipeline_eth ..
  · rfl

theorem advanceEgress_links (p : Nat) (k : Word32) : (advanceEgress p k s).links = s.links := by
  unfold advanceEgress
  extract_lets t
  have hmark : t.links = s.links := by
    unfold t
    split
    · exact markStage_links ..
    · rfl
  split
  · rw [State.links_congr _ (completeFrame_eth ..), hmark]
  · exact hmark

/-! ### The governor (R300, R352, R353, R502) -/

theorem egressPassed_links (c : Nat) : (egressPassed c s).links = s.links := by
  unfold egressPassed
  dsimp only
  split
  · exact advanceEgress_links ..
  · rfl

theorem latencyRecord_eth (p : Nat) : (latencyRecord p s).eth = s.eth := by
  unfold latencyRecord
  split
  · rfl
  extract_lets l c lat b late v t
  split
  · rfl
  split
  · exact postEvent_eth ..
  · rfl

theorem govReject_links (c check fieldNo : Nat) (primary : Bool) : (govReject c check fieldNo primary s).links = s.links := by
  unfold govReject
  dsimp only
  split
  · exact doubt_links ..
  · rfl

theorem govSubmit_links (c : Nat) (primary : Bool) (ident : Nat) (d : List Byte) : (govSubmit c primary ident d s).2.links = s.links := by
  unfold govSubmit
  split
  · exact (egressPassed_links _ c).trans (State.links_congr _ (latencyRecord_eth ..))
  · exact egressPassed_links ..
  · exact govReject_links ..

/-! ### Transmit streams (R520, R521, R636) -/

theorem opEthSend_links (n i len : Nat) : (opEthSend n i len s).links = s.links := by
  unfold opEthSend
  extract_lets x set payload
  have hset (st : TxState) : (set st s).links = s.links := modTx_links ..
  split
  · rfl
  split
  · exact (govSubmit_links ..).trans (hset _)
  · split
    · exact hset _
    · exact hset _

theorem planWriteEth_links (c : Nat) (d : List Byte) (k : Word32) : (planWriteEth c d k s).links = s.links := by
  unfold planWriteEth
  dsimp only
  split
  · rfl
  · exact (opEthSend_links ..).trans (modTx_links ..)

theorem ethFreed_links (n i : Nat) : (ethFreed n i s).links = s.links := by
  unfold ethFreed
  split
  · rfl
  dsimp only
  split
  · exact planWriteEth_links ..
  · rfl

theorem dropQueued_links (n i : Nat) : (dropQueued n i s).links = s.links := by
  unfold dropQueued
  dsimp only
  split
  · exact (ethFreed_links ..).trans (modTx_links ..)
  · rfl

end
end Sys2Proof.Machine
end

section
/-! PROOFS. Ports, links, received frames and transmit streams (R516 to R521, R539, R542). -/

namespace Sys2Proof.Machine

section
variable {s : State} {n : Nat}

/-! ### Ports and streams written (log 5) -/

theorem modPort_modPort (f g : EthRec → EthRec) : State.modPort n g (State.modPort n f s) = State.modPort n (fun r => g (f r)) s := by
  rw [State.modPort, State.modPort_port]
  change { s with eth := { s.eth with ports := tset {} (tset {} s.eth.ports n (f (s.port n))) n (g (f (s.port n))) } } = _
  rw [tset_tset]
  rfl

@[simp] theorem modTx_txs (i : Nat) (g : TxRec → TxRec) : ((State.modTx n i g s).port n).txs i = g (((s.port n).txs i)) := by
  rw [State.modTx, State.modPort_port]
  exact tget_tset_self ..

theorem emit_port (e : Emit) (k : Nat) : (emit e s).port k = s.port k := rfl

theorem modTx_txOk (i : Nat) (g : TxRec → TxRec) : ((State.modTx n i g s).port n).txOk = (s.port n).txOk := by
  rw [State.modTx, State.modPort_port]

/-! ### Enabling and disabling (R516, R539) -/

section
variable {cfg : Word32}

theorem opEthCfg_enable (hoff : (s.port n).en = false) (hon : cfg.getLsbD 31 = true) : opEthCfg n cfg.toNat s = State.modPort n (fun r =>
    { r with maxFrame := BitVec.ofNat 14 (bits cfg.toNat 29 16), pfc := BitVec.ofNat 8 (bits cfg.toNat 15 8),
             fec := BitVec.ofNat 2 (bits cfg.toNat 3 2), rate := BitVec.ofNat 2 (bits cfg.toNat 1 0), en := true, link := .training }) s := by
  rw [opEthCfg, bit_toNat, hon, hoff]
  rfl

section
variable (hon : (s.port n).en = true)
include hon

theorem opEthCfg_kept (hcfg : cfg.getLsbD 31 = true) : opEthCfg n cfg.toNat s = s := by
  rw [opEthCfg, bit_toNat, hcfg, hon]
  rfl

theorem opEthCfg_disable (hcfg : cfg.getLsbD 31 = false) :
    opEthCfg n cfg.toNat s = linkLost n .down (State.modPort n (fun r => { r with en := false }) s) := by
  rw [opEthCfg, bit_toNat, hcfg, hon]
  rfl

end
end

theorem ofNat_bits_toNat (x hi lo : Nat) : (BitVec.ofNat (hi + 1 - lo) (bits x hi lo)).toNat = bits x hi lo :=
  Nat.mod_eq_of_lt (Nat.mod_lt _ (Nat.two_pow_pos _))

/-! ### Links (R516, R558, R570) -/

/-- The port's link has gone down, whatever was queued on it. -/
theorem linkLost_links (dest : LinkState) : (linkLost n dest s).links n = ((s.port n).en, dest) := by
  have hdown : (State.modPort n (fun r => { r with link := dest }) s).links n = ((s.port n).en, dest) := by
    rw [State.links, State.modPort_port]
  unfold linkLost
  split
  · exact hdown
  · exact (congrFun (foldl_keeps State.links (fun t i => dropQueued n i t) (fun t i => dropQueued_links t n i) _ _) n).trans hdown

theorem dropQueued_none {i : Nat} (h : ((s.port n).txs i).st ≠ .pending) : dropQueued n i s = s := if_neg h

/-- With no frame queued, a lost link is a record and a new training. -/
theorem linkLost_empty {dest : LinkState} (hup : (s.port n).link = .up) (h : ∀ i, i < 16 → ((s.port n).txs i).st ≠ .pending) :
    linkLost n dest s = reportEth 0x0601 n 0 (State.modPort n (fun r => { r with link := dest }) s) := by
  unfold linkLost forUpTo
  rw [if_neg (not_not_intro hup)]
  refine List.foldlRecOn (motive := fun t => t = reportEth 0x0601 n 0 (State.modPort n (fun r => { r with link := dest }) s)) _ _ rfl
    fun t ht i hi => ?_
  rw [ht]
  refine dropQueued_none ?_
  obtain ⟨-, -, heth, -, -⟩ := reportEth_keeps 0x0601 n 0 (State.modPort n (fun r => { r with link := dest }) s)
  rw [State.port_congr _ heth, State.modPort_port]
  exact h i (List.mem_range.mp hi)

section
variable {rate fec : BitVec 2}

theorem opLinkUp_trains (hl : (s.port n).link = .training) (hrate : rate ≠ 3) (hallowed : (s.port n).rate = 3 ∨ (s.port n).rate = rate)
    (hfec : fec = fecFor rate.toNat ((s.port n).fec = 1)) (hheld : s.pwr.holdSoc = false) (hclk : s.ethStopped n = false) :
    opLinkUp n rate fec s = State.modPort n (fun r => { r with link := .up, stRate := rate, stFec := fec }) s :=
  if_pos (by simpa [hl, hheld, hclk] using ⟨⟨hrate, hallowed⟩, hfec⟩)

theorem opLinkUp_kept (h : (s.port n).link ≠ .training ∨ rate = 3 ∨ s.pwr.holdSoc = true ∨ s.ethStopped n = true) :
    opLinkUp n rate fec s = s := by
  refine if_neg ?_
  rcases h with h | h | h | h <;> simp [h]

end

theorem opLinkDown_kept (h : (s.port n).link ≠ .up) : opLinkDown n s = s := if_neg h

/-! ### Received frames (R518, R519, R542) -/

theorem opRxDiscard_down {why : RxDiscard} (h : (s.port n).link ≠ .up) : opRxDiscard n why s = s := if_pos h

section
variable (hup : (s.port n).link = .up)
include hup

theorem opRxDiscard_bad {why : RxDiscard} (h : why ≠ .noClass) :
    opRxDiscard n why s = State.modPort n (fun r => { r with rxBad := satInc r.rxBad }) s := by
  cases why with
  | noClass => exact absurd rfl h
  | _ => exact if_neg (not_not_intro hup)

theorem opRxDiscard_other :
    opRxDiscard n .noClass s = State.modPort n (fun r => { r with rxOk := satInc r.rxOk, rxOther := satInc r.rxOther }) s := by
  rw [opRxDiscard, if_neg (not_not_intro hup)]
  exact (receive_up hup).trans (modPort_modPort _ _)

section
variable {v6 : Bool} {target sender : BitVec 128} {mac : BitVec 48}

theorem opArp_received : opArp n v6 target sender mac s =
    if target = (if v6 then (s.port n).ip6 else (s.port n).ip4.setWidth 128) &&
        (if v6 then (s.port n).ip6 else (s.port n).ip4.setWidth 128) ≠ 0 then
      emit (.arpReply n v6 target sender mac) (State.modPort n (fun r => { r with txOk := satInc r.txOk }) (countRx n s))
    else countOther n (countRx n s) := by
  unfold opArp
  exact receive_up hup

theorem opArp_answered (h : target = if v6 then (s.port n).ip6 else (s.port n).ip4.setWidth 128)
    (h0 : (if v6 then (s.port n).ip6 else (s.port n).ip4.setWidth 128) ≠ 0) : opArp n v6 target sender mac s =
      emit (.arpReply n v6 target sender mac) (State.modPort n (fun r => { r with txOk := satInc r.txOk }) (countRx n s)) :=
  (opArp_received hup).trans (if_pos (by simpa [h] using h0))

theorem opArp_other (h : target ≠ if v6 then (s.port n).ip6 else (s.port n).ip4.setWidth 128) :
    opArp n v6 target sender mac s = countOther n (countRx n s) :=
  (opArp_received hup).trans (if_neg (by simp only [decide_eq_false h, Bool.false_and]; decide))

end
end

/-! ### Transmit streams (R353, R520, R521) -/

section
variable {i : Nat}

theorem opEthSend_kept {len : Nat} (h : ((s.port n).txs i).st = .pending ∨ len = 0 ∨ 256 < len) : opEthSend n i len s = s :=
  if_pos (by simpa [or_assoc] using h)

section
variable {len : Nat} (hst : ((s.port n).txs i).st ≠ .pending) (h1 : 1 ≤ len) (h256 : len ≤ 256) (hout : s.ethOutput n i = none)
include hst h1 h256 hout

/-- SEND on a stream that is no channel's output, to a port no channel uses. -/
theorem opEthSend_queued (h : s.guarded true ((s.port n).txs i).dport = none) :
    opEthSend n i len s = State.modTx n i (fun x => { x with st := .pending, len := BitVec.ofNat 9 len }) s := by
  rw [opEthSend]
  dsimp only
  rw [if_neg (by simp [hst]; omega), hout, h]

theorem opEthSend_guarded {c : Nat} (h : s.guarded true ((s.port n).txs i).dport = some c) : opEthSend n i len s =
    reportGuard c (0x10 + n) i (State.modTx n i (fun x => { x with st := .rejected, len := BitVec.ofNat 9 len }) s) := by
  rw [opEthSend]
  dsimp only
  rw [if_neg (by simp [hst]; omega), hout, h]

end

theorem ethFreed_free (h : s.ethOutput n i = none) : ethFreed n i s = s := by
  rw [ethFreed, h]

theorem opEthTxDone_kept
    (h : ((s.port n).txs i).st ≠ .pending ∨ (s.port n).link ≠ .up ∨ (s.port n).gateOpen ((s.port n).txs i).prio = false) :
    opEthTxDone n i s = s := by
  refine if_pos ?_
  rcases h with h | h | h <;> simp [h]

/-- A queued frame leaves where its gate lets it. -/
theorem opEthTxDone_leaves (hst : ((s.port n).txs i).st = .pending) (hup : (s.port n).link = .up)
    (hgate : (s.port n).gateOpen ((s.port n).txs i).prio = true) (hout : s.ethOutput n i = none) : opEthTxDone n i s =
      emit (.ethFrame n ((s.port n).txs i).prio ((s.port n).txs i).header
        (treadN 0 ((s.port n).txs i).payload 0 ((s.port n).txs i).len.toNat))
        (State.modPort n (fun r => { r with txOk := satInc r.txOk }) (State.modTx n i (fun x => { x with st := .sent }) s)) := by
  rw [opEthTxDone]
  dsimp only
  rw [if_neg (by simp [hst, hup, hgate])]
  exact ethFreed_free hout

end
end

/-! ### The obligation -/

section
variable {s : State} {n : EthPort} (hs : Runs s)
include hs

theorem ethPortEnable_clauses (hbar : s.barUp = true) (cfg : Word32) :
    ((s.port n).en = false → cfg.getLsbD 31 = true → ∃ t, exec (.ethPortEnable n cfg) s = .next t ∧
      (t.port n).en = true ∧ (t.port n).link = .training ∧ (t.port n).maxFrame.toNat = bits cfg.toNat 29 16 ∧
      (t.port n).pfc.toNat = bits cfg.toNat 15 8 ∧ (t.port n).rate.toNat = bits cfg.toNat 1 0) ∧
    ((s.port n).en = true → cfg.getLsbD 31 = true → CompletesReg (.ethPortEnable n cfg) s s) ∧
    ((s.port n).en = true → cfg.getLsbD 31 = false → ∃ t, exec (.ethPortEnable n cfg) s = .next t ∧
      (t.port n).en = false ∧ (t.port n).link = .down) := by
  have hcfg : ∀ {t : State}, opEthCfg n cfg.toNat s = t → CompletesReg (.ethPortEnable n cfg) s t :=
    fun ht => ht ▸ performBar_runs s _ hs hbar
  have hport (t : State) : (keepLatch s (wakeEvent 1 t)).port n = t.port n := by
    rw [keepLatch_port, State.port_congr _ (wakeEvent_eth ..)]
  refine ⟨fun hoff hon => ⟨_, hcfg (opEthCfg_enable hoff hon), ?_⟩, fun hen hon => hcfg (opEthCfg_kept hen hon),
    fun hen hoff => ⟨_, hcfg (opEthCfg_disable hen hoff), ?_⟩⟩
  · rw [hport, State.modPort_port]
    exact ⟨rfl, rfl, ofNat_bits_toNat .., ofNat_bits_toNat .., ofNat_bits_toNat ..⟩
  · have hlinks := linkLost_links (s := State.modPort n (fun r => { r with en := false }) s) (n := n) .down
    rw [State.modPort_port] at hlinks
    rw [hport]
    exact Prod.mk.injEq .. ▸ hlinks

theorem ethLinkDown_clause (hup : (s.port n).link = .up) (h : ∀ i : TxStream, ((s.port n).txs i).st ≠ .pending) :
    ∃ t f, exec (.ethLinkDown n) s = .next t ∧ t.port n = { s.port n with link := .training } ∧ f.code = 0x0601 ∧
      t.thal.inFlight = s.thal.inFlight ++ [f] := by
  have hexec : exec (.ethLinkDown n) s = .next (keepLatch s (opLinkDown n s)) := perform_runs s _ hs
  rw [opLinkDown, if_pos hup, linkLost_empty hup fun i hi => h ⟨i, hi⟩] at hexec
  obtain ⟨f, hcode, hflight⟩ := reportEth_record 0x0601 n 0 (State.modPort n (fun r => { r with link := .training }) s)
  obtain ⟨-, -, heth, -, -⟩ := reportEth_keeps 0x0601 n 0 (State.modPort n (fun r => { r with link := .training }) s)
  refine ⟨_, f, hexec, ?_, hcode, ?_⟩
  · rw [keepLatch_port, State.port_congr _ heth, State.modPort_port]
  · rw [keepLatch_thal, hflight]; rfl

theorem arpRequest_clauses (hup : (s.port n).link = .up) (v6 : Bool) (target sender : BitVec 128) (mac : BitVec 48) :
    let own := if v6 then (s.port n).ip6 else (s.port n).ip4.setWidth 128
    (target = own → own ≠ 0 → ∃ t, exec (.arpRequest n v6 target sender mac) s = .next t ∧
      t.out = s.out ++ [.arpReply n v6 target sender mac] ∧ (t.port n).txOk = satInc (s.port n).txOk) ∧
    (target ≠ own → ∃ t, exec (.arpRequest n v6 target sender mac) s = .next t ∧ t.out = s.out ∧
      (t.port n).rxOther = satInc (s.port n).rxOther) := by
  have harp : ∀ {t : State}, opArp n v6 target sender mac s = t → Completes (.arpRequest n v6 target sender mac) s t :=
    fun ht => ht ▸ perform_runs s _ hs
  refine ⟨fun hown h0 => ⟨_, harp (opArp_answered hup hown h0), ?_, ?_⟩, fun hown => ⟨_, harp (opArp_other hup hown), ?_, ?_⟩⟩
  · rw [keepLatch_out]; rfl
  · rw [keepLatch_port, emit_port, State.modPort_port, countRx, State.modPort_port]
  · rw [keepLatch_out]; rfl
  · rw [keepLatch_port, countOther, State.modPort_port, countRx, State.modPort_port]

theorem ethTx_clauses (i : TxStream) : let x := (s.port n).txs i
    (x.st ≠ .pending ∨ (s.port n).link ≠ .up ∨ (s.port n).gateOpen x.prio = false → Completes (.ethTxDone n i) s s) ∧
    (x.st = .pending → (s.port n).link = .up → (s.port n).gateOpen x.prio = true → s.ethOutput n i = none →
      ∃ t, exec (.ethTxDone n i) s = .next t ∧ ((t.port n).txs i).st = .sent ∧ (t.port n).txOk = satInc (s.port n).txOk ∧
        t.out = s.out ++ [.ethFrame n x.prio x.header (treadN 0 x.payload 0 x.len.toNat)]) := by
  have hdone : ∀ {t : State}, opEthTxDone n i s = t → Completes (.ethTxDone n i) s t := fun ht => ht ▸ perform_runs s _ hs
  refine ⟨fun h => hdone (opEthTxDone_kept h), fun hst hup hgate hout => ⟨_, hdone (opEthTxDone_leaves hst hup hgate hout), ?_, ?_, ?_⟩⟩
  · rw [keepLatch_port, emit_port, State.modPort_port]
    exact congrArg TxRec.st (modTx_txs ..)
  · rw [keepLatch_port, emit_port, State.modPort_port]
    exact congrArg satInc (modTx_txOk ..)
  · rw [keepLatch_out]; rfl

end

/-- Settles O10: the port by its enable and link, a frame by the row it matches, a stream by its state, output and gate. -/
theorem ethernetPorts : Obligations.EthernetPorts := by
  unfold Obligations.EthernetPorts
  intro s n hs
  have hlinkUp : ∀ {rate fec : BitVec 2} {t : State}, opLinkUp n rate fec s = t → Completes (.ethLinkUp n rate fec) s t :=
    fun ht => ht ▸ perform_runs s _ hs
  have hdiscard : ∀ {why : RxDiscard} {t : State}, opRxDiscard n why s = t → Completes (.ethRxDiscard n why) s t :=
    fun ht => ht ▸ perform_runs s _ hs
  refine ⟨fun cfg hbar => (ethPortEnable_clauses hs hbar cfg).1, fun cfg hbar => (ethPortEnable_clauses hs hbar cfg).2.1,
    fun cfg hbar => (ethPortEnable_clauses hs hbar cfg).2.2, fun rate fec => ⟨?_, fun h => hlinkUp (opLinkUp_kept h)⟩,
    fun h => (perform_runs s _ hs).trans (by rw [opLinkDown_kept h]), ethLinkDown_clause hs, fun why h => hdiscard (opRxDiscard_down h),
    fun why hup h => hdiscard (opRxDiscard_bad hup h), fun hup => hdiscard (opRxDiscard_other hup),
    fun v6 target sender mac hup => arpRequest_clauses hs hup v6 target sender mac, fun i v => ?_⟩
  · exact fun hl hrate hallowed hfec hheld hclk => hlinkUp (opLinkUp_trains hl hrate hallowed hfec hheld hclk)
  · have hsend : ∀ {t : State}, s.barUp = true → opEthSend n i (bits v.toNat 8 0) s = t → CompletesReg (.ethTxSend n i v) s t :=
      fun hbar ht => ht ▸ performBar_runs s _ hs hbar
    obtain ⟨hkept, hleaves⟩ := ethTx_clauses hs (n := n) i
    refine ⟨fun hbar h => hsend hbar (opEthSend_kept h), fun hbar hst h1 h256 hout =>
      ⟨fun hg => hsend hbar (opEthSend_queued hst h1 h256 hout hg), fun c hg => hsend hbar (opEthSend_guarded hst h1 h256 hout hg)⟩,
      hkept, hleaves⟩

end Sys2Proof.Machine
end

section
/-! PROOFS. Accesses served while a group has no spare left: no channel of it that has failed is used again (R468, R477, R479 to R482). -/

namespace Sys2Proof.Machine

/-! ### Doubts put no channel to another use (R317, R320, R477) -/

/-- The controllers are as they were but for the marks any access changes, and no record under way is taken back. -/
structure ControllersKept (s t : State) : Prop where
  controllers : t.controllers = s.controllers
  inFlight : s.thal.inFlight <+: t.thal.inFlight

namespace ControllersKept

theorem refl (s : State) : ControllersKept s s := ⟨rfl, List.prefix_rfl⟩

theorem trans {s t u : State} (h : ControllersKept s t) (k : ControllersKept t u) : ControllersKept s u :=
  ⟨k.controllers.trans h.controllers, h.inFlight.trans k.inFlight⟩

theorem of_mem {s t : State} (h : t.mem = s.mem) (hf : s.thal.inFlight <+: t.thal.inFlight) : ControllersKept s t :=
  ⟨State.controllers_congr h, hf⟩

end ControllersKept

section
variable (s : State)

theorem report_kept (r : FaultRec) : ControllersKept s (report r s) := .of_mem rfl (List.prefix_append ..)

theorem setAuthority_kept (p : Nat) (k : Word32) : ControllersKept s (setAuthority p false k s) :=
  ⟨setAuthority_controllers s p k, (setAuthority_ceded s p k).inFlight⟩

theorem mossSubmitFor_kept (p : Nat) (k : Word32) : ControllersKept s (mossSubmitFor p k s) := by
  unfold mossSubmitFor
  split
  · exact .of_mem (mossSubmit_mem s p) (mossSubmit_ceded s p).inFlight
  · exact .of_mem rfl List.prefix_rfl

theorem safeDecide_kept : ControllersKept s (safeDecide s) := ⟨safeDecide_controllers s, safeDecide_inFlight s⟩

theorem lateDoubt_kept (p : Nat) (k : Word32) : ControllersKept s (lateDoubt p k s) := by
  unfold lateDoubt
  extract_lets a t
  have hclean : ControllersKept s t := .of_mem rfl List.prefix_rfl
  split
  · exact (hclean.trans (setAuthority_kept t p k)).trans (mossSubmitFor_kept _ p k)
  · exact hclean

theorem doubt_kept (p : Nat) (k : Word32) (vbit : Nat) (code : BitVec 16) : ControllersKept s (doubt p k vbit code s) := by
  unfold doubt
  split
  · exact .refl s
  extract_lets a t second u v
  have hlate : ControllersKept s v := by
    have hu : ControllersKept s u := .of_mem rfl List.prefix_rfl
    unfold v
    split
    · exact hu.trans (lateDoubt_kept u p k)
    · exact hu
  split
  · exact hlate.trans (safeDecide_kept v)
  · exact hlate

theorem class0Poison_kept (code : BitVec 16) : ControllersKept s (class0Poison code s) := by
  unfold class0Poison
  refine List.foldlRecOn (motive := fun t => ControllersKept s t) _ _ (.refl s) fun t ht p _ => ?_
  split
  · exact ht.trans (doubt_kept t p _ 5 code)
  · exact ht

end

/-! ### The states of the channels and the migrations' targets (R480, R492) -/

/-- The state of every physical channel, and the target of every group's migration. -/
def State.roles (s : State) : (Nat → ChanState) × (Nat → Byte) := (fun p => (s.pch p).st, fun g => (s.group g).migTo)

section
variable {s t : State}

theorem ControllersKept.roles (h : ControllersKept s t) : t.roles = s.roles :=
  Prod.ext (funext (State.controllers_pch h.controllers)) (funext fun g => (State.controllers_group h.controllers g).1)

theorem modPch_roles (s : State) (p : Nat) (u : PchRec → PchRec) (hu : ∀ r, (u r).st = r.st) : (State.modPch p u s).roles = s.roles := by
  refine Prod.ext (funext fun q => ?_) rfl
  change ((State.modPch p u s).pch q).st = (s.pch q).st
  by_cases h : q = p
  · rw [h, State.modPch_pch, hu]
  · rw [State.modPch_pch_ne _ _ _ _ h]

theorem modGroup_roles (s : State) (g : Nat) (u : GroupRec → GroupRec) (hu : ∀ r, (u r).migTo = r.migTo) :
    (State.modGroup g u s).roles = s.roles := by
  refine Prod.ext rfl (funext fun j => ?_)
  change ((State.modGroup g u s).group j).migTo = (s.group j).migTo
  by_cases h : j = g
  · rw [h, State.modGroup_group, hu]
  · rw [State.modGroup_group_ne _ _ _ _ h]

/-- A group without a spare: each SPARE channel of it is its migration's target. -/
theorem State.spareOf_none {g : Nat} :
    s.spareOf g = none ↔ ∀ i, i < 36 → (s.pch (36 * g + i)).st = .spare → (s.group g).migTo.toNat = 36 * g + i := by
  simp [State.spareOf, List.find?_eq_none]

theorem State.spareOf_roles (h : t.roles = s.roles) (g : Nat) : t.spareOf g = s.spareOf g := by
  have hst : ∀ q, (t.pch q).st = (s.pch q).st := congrFun (congrArg Prod.fst h)
  have hto : (t.group g).migTo = (s.group g).migTo := congrFun (congrArg Prod.snd h) g
  simp only [State.spareOf, hst, hto]

theorem State.lchServed_some {q l : Nat} (h : s.lchServed q = some l) : l / 32 = q / 36 ∧ s.mappedPch l = q := by
  have hmem := List.mem_of_find?_eq_some h
  have hfound := List.find?_some h
  simp only [List.mem_map, List.mem_range] at hmem
  obtain ⟨i, hi, rfl⟩ := hmem
  simp only [Bool.and_eq_true, decide_eq_true_eq] at hfound
  exact ⟨by omega, hfound.1⟩

end

/-! ### Steps that use no channel of a group without a spare -/

/-- No record under way is taken back; and where p's group has no spare left, it still has none and p is as it was. -/
structure Spareless (p : Nat) (s t : State) : Prop where
  inFlight : s.thal.inFlight <+: t.thal.inFlight
  kept : s.spareOf (p / 36) = none → (t.pch p).st = (s.pch p).st ∧ t.spareOf (p / 36) = none

section
variable {p : Nat}

namespace Spareless

theorem of_roles {s t : State} (h : t.roles = s.roles) (hf : s.thal.inFlight <+: t.thal.inFlight) : Spareless p s t :=
  ⟨hf, fun hnone => ⟨congrFun (congrArg Prod.fst h) p, (State.spareOf_roles h _).trans hnone⟩⟩

theorem of_kept {s t : State} (h : ControllersKept s t) : Spareless p s t := of_roles h.roles h.inFlight

theorem refl (s : State) : Spareless p s s := of_roles rfl List.prefix_rfl

theorem trans {s t u : State} (h : Spareless p s t) (k : Spareless p t u) : Spareless p s u :=
  ⟨h.inFlight.trans k.inFlight, fun hnone =>
    have ⟨hst, ht⟩ := h.kept hnone
    have ⟨hst', hu⟩ := k.kept ht
    ⟨hst'.trans hst, hu⟩⟩

end Spareless

section
variable (s : State)

/-! ### Upkeep: migrations and row sparing (R479, R480) -/

theorem chanFault_spareless (code : BitVec 16) (q cause : Nat) : Spareless p s (chanFault code q cause s) := .of_kept (report_kept s _)

theorem chanFault_mem (code : BitVec 16) (q cause : Nat) : (chanFault code q cause s).mem = s.mem := rfl

theorem startMigration_none (l cause : Nat) (h : s.spareOf (l / 32) = none) :
    startMigration l cause s = chanFault 0x0209 (s.mappedPch l) 0 s := by
  rw [startMigration, h]

/-- A migration to a spare: the group's record, the old channel's state, and 0x0207. -/
theorem startMigration_some (l cause : Nat) {sp : Nat} (h : s.spareOf (l / 32) = some sp) :
    startMigration l cause s = chanFault 0x0207 (s.mappedPch l) cause
      (State.modPch (s.mappedPch l) (fun r => { r with st := .migrating }) (State.modGroup (l / 32) (fun r => { r with
        migFrom := BitVec.ofNat 8 (s.mappedPch l), migTo := BitVec.ofNat 8 sp, migBlocks := 0, migLch := l, spares := r.spares - 1 }) s)) := by
  rw [startMigration, h]

theorem startMigration_pch_ne (l cause : Nat) {sp q : Nat} (h : s.spareOf (l / 32) = some sp) (hq : q ≠ s.mappedPch l) :
    (startMigration l cause s).pch q = s.pch q := by
  rw [startMigration_some s l cause h, State.pch_congr _ (chanFault_mem ..), State.modPch_pch_ne _ _ _ _ hq]
  rfl

theorem startMigration_group_ne (l cause : Nat) {sp g : Nat} (h : s.spareOf (l / 32) = some sp) (hg : g ≠ l / 32) :
    (startMigration l cause s).group g = s.group g := by
  rw [startMigration_some s l cause h, State.group_congr _ (chanFault_mem ..), State.modPch_group, State.modGroup_group_ne _ _ _ _ hg]

/-- A migration of a logical channel off one of its own group's channels. -/
theorem startMigration_spareless (l cause : Nat) (h : s.mappedPch l / 36 = l / 32) : Spareless p s (startMigration l cause s) := by
  cases hsp : s.spareOf (l / 32) with
  | none =>
    rw [startMigration_none s l cause hsp]
    exact chanFault_spareless s _ _ _
  | some sp =>
    refine ⟨(startMigration_tended s l cause).inFlight, fun hnone => ?_⟩
    have hother : p / 36 ≠ l / 32 := fun he => by rw [he, hsp] at hnone; exact absurd hnone (by simp)
    have hkept : ∀ q, q / 36 = p / 36 → (startMigration l cause s).pch q = s.pch q := fun q hq =>
      startMigration_pch_ne s l cause hsp fun he => hother (hq.symm.trans (he ▸ h))
    refine ⟨by rw [hkept p rfl], State.spareOf_none.mpr fun i hi hst => ?_⟩
    rw [startMigration_group_ne s l cause hsp hother]
    rw [hkept _ (by omega)] at hst
    exact State.spareOf_none.mp hnone i hi hst

theorem requestMigration_spareless (l cause : Nat) (h : s.mappedPch l / 36 = l / 32) : Spareless p s (requestMigration l cause s) := by
  unfold requestMigration
  dsimp only
  split
  · exact .refl s
  · split
    · exact .of_roles (modGroup_roles s _ _ fun _ => rfl) List.prefix_rfl
    · exact startMigration_spareless s l cause h

/-- A migration asked for on behalf of a physical channel. -/
def migrateServed (q cause : Nat) (s : State) : State :=
  match s.lchServed q with
  | some l => requestMigration l cause s
  | none => s

theorem migrateServed_spareless (q cause : Nat) : Spareless p s (migrateServed q cause s) := by
  unfold migrateServed
  split
  · next l hl =>
    obtain ⟨hgroup, hmap⟩ := State.lchServed_some hl
    exact requestMigration_spareless s l cause (by rw [hmap, hgroup])
  · exact .refl s

theorem requestRowSpare_spareless (q row : Nat) : Spareless p s (requestRowSpare q row s) := by
  unfold requestRowSpare
  dsimp only
  split
  · exact .refl s
  · split
    · exact (Spareless.of_kept (report_kept s _)).trans (migrateServed_spareless (reportCode 0x0206 (memDetail q row false 0) s) q 0)
    · exact .of_roles (modPch_roles s q _ fun _ => rfl) List.prefix_rfl

theorem noteUncorrectable_spareless (q row : Nat) : Spareless p s (noteUncorrectable q row s) := by
  have hcount : Spareless p s (State.modPch q (fun r => { r with uncorr := satInc r.uncorr }) s) :=
    .of_roles (modPch_roles s q _ fun _ => rfl) List.prefix_rfl
  exact hcount.trans (requestRowSpare_spareless _ q row)

theorem noteCorrection_spareless (q row : Nat) : Spareless p s (noteCorrection q row s) := by
  unfold noteCorrection
  extract_lets old t u
  have hcount : Spareless p s t := .of_roles (modPch_roles s q _ fun _ => rfl) List.prefix_rfl
  have hrow : Spareless p s u := by
    unfold u
    split
    · exact hcount.trans (requestRowSpare_spareless t q row)
    · exact hcount
  split
  · exact hrow.trans (migrateServed_spareless u q 1)
  · exact hrow

theorem lineEffects_spareless (i : Nat) (r : LineRead) (w : Bool) : Spareless p s (lineEffects i r w s) := by
  have hback (m : Bool) : Spareless p s (setLineMeta i m w (putMem (i * 64) r.data s)) := .of_roles rfl List.prefix_rfl
  unfold lineEffects
  dsimp only
  split
  · exact (hback true).trans (noteUncorrectable_spareless _ _ _)
  · split
    · exact (hback r.poison).trans (noteCorrection_spareless _ _ _)
    · exact .refl s

/-! ### Accesses (R474, R475, R481, R558) -/

theorem transferOk_roles (a : Nat) : (transferOk a s).roles = s.roles := by
  unfold transferOk
  split
  · exact modPch_roles s _ _ fun _ => rfl
  · rfl

theorem linkTransfer_spareless (i : Nat) (link : List LinkErr) : Spareless p s (linkTransfer i link s) := by
  have hcount : (countRepeats i link s).roles = s.roles := by
    unfold countRepeats
    split
    · rfl
    · exact modPch_roles s _ _ fun _ => rfl
  refine .of_roles ((transferOk_roles _ _).trans hcount) ?_
  rw [linkTransfer_thal]

theorem useTokens_spareless (init cls a n : Nat) : Spareless p s (useTokens init cls a n s) := by
  refine .of_kept ⟨useTokens_controllers s init cls a n, ?_⟩
  rw [useTokens_frame]

theorem emit_spareless (e : Emit) : Spareless p s (emit e s) := .of_roles rfl List.prefix_rfl

/-- A record of an access, and the doubt a class-0 one casts. -/
theorem memFault_spareless (code code' : BitVec 16) (init a : Nat) (d w c0 : Bool) :
    Spareless p s (if c0 then class0Poison code' (memFault code init a d w s) else memFault code init a d w s) := by
  have hfault : Spareless p s (memFault code init a d w s) := .of_kept (report_kept s _)
  split
  · exact hfault.trans (.of_kept (class0Poison_kept _ _))
  · exact hfault

theorem opMemRead_spareless (init cls a : Nat) (errs : List SymErr) (link : List LinkErr) : Spareless p s (opMemRead init cls a errs link s) := by
  unfold opMemRead
  extract_lets i c0 t lost u r v w
  have ht : Spareless p s t := useTokens_spareless s init cls a 64
  have hw : Spareless p s w :=
    ((ht.trans (linkTransfer_spareless t i link)).trans (lineEffects_spareless u i r r.wss)).trans (emit_spareless v _)
  have hpoison (x : State) (code : BitVec 16) (d : Bool) : Spareless p x (class0Poison code (memFault code init a d false x)) :=
    memFault_spareless x code code init a d false true
  split
  · have hlost : Spareless p s lost := ht.trans (emit_spareless t _)
    split
    · exact hlost.trans (hpoison lost _ _)
    · exact hlost
  split
  · exact hw.trans (memFault_spareless w 0x0201 0x0201 init a c0 false c0)
  · split
    · exact hw.trans (hpoison w _ _)
    · exact hw

theorem opMemWrite_spareless (init cls a : Nat) (d : List Byte) (poison : Bool) (errs : List SymErr) (link : List LinkErr) :
    Spareless p s (opMemWrite init cls a d poison errs link s) := by
  unfold opMemWrite
  extract_lets i t u r v w
  have ht : Spareless p s t := useTokens_spareless s init cls a d.length
  split
  · exact ht.trans (emit_spareless t _)
  · have hu : Spareless p s u := ht.trans (linkTransfer_spareless t i link)
    have hw : Spareless p s w := by
      have hv : Spareless p s v := hu.trans (lineEffects_spareless u i r r.wss)
      unfold w
      split
      · exact hu
      · split
        · exact hv.trans (memFault_spareless v 0x0201 0 init a false false false)
        · exact hv
    refine hw.trans (.of_kept ⟨memWrite_controllers w a _, ?_⟩)
    rw [memWrite_frame]

theorem memServe_spareless (x : MemWait) : Spareless p s (memServe x s) := by
  unfold memServe memAccess
  split
  · exact .of_roles (modGroup_roles s _ _ fun _ => rfl) List.prefix_rfl
  · split
    · exact opMemRead_spareless ..
    · exact opMemWrite_spareless ..

/-- Whatever waits at a group. -/
theorem serveHeld_spareless (g : Nat) : Spareless p s (serveHeld g s) := by
  unfold serveHeld
  refine List.foldlRecOn (motive := fun t => Spareless p s t) _ _ ?_ fun t ht x _ => ht.trans (memServe_spareless t x)
  exact .of_roles (modGroup_roles s g _ fun _ => rfl) List.prefix_rfl

end
end
end Sys2Proof.Machine
end

section
/-! PROOFS. The memory controllers' maintenance: retraining, sparing, scrubbing, migration, token periods (R468, R478 to R483, R487, R558). -/

namespace Sys2Proof.Machine

section
variable {s : State}

/-! ### A channel that fails (R468, R481, R482) -/

/-- The channel has failed, and its record is under way. -/
def failNoted (p : Nat) (code : BitVec 16) (s : State) : State :=
  chanFault code p 0 (State.modPch p (fun r => { r with st := .failed, retrained := false, sparing := [] }) s)

section
variable {p : Nat} {code : BitVec 16}

theorem chanFault_record (code : BitVec 16) (q cause : Nat) (s : State) :
    ∃ f : FaultRec, f.code = code ∧ (chanFault code q cause s).thal.inFlight = s.thal.inFlight ++ [f] :=
  report_record { code := code, detail := BitVec.ofNat 64 (memDetail q 0 false cause) } s

theorem failNoted_pch : ((failNoted p code s).pch p).st = .failed := by
  rw [failNoted, State.pch_congr _ (chanFault_mem ..), State.modPch_pch]

theorem wipeChannel_pch (l from_ q : Nat) (s : State) : (wipeChannel l from_ s).pch q = s.pch q := by
  rw [wipeChannel, State.modChmap_pch]
  rfl

theorem replaceBy_pch_ne (l sp from_ : Nat) {q : Nat} (h : q ≠ sp) (s : State) : (replaceBy l sp from_ s).pch q = s.pch q := by
  rw [replaceBy, wipeChannel_pch, State.modChmap_pch, State.modPch_pch_ne _ _ _ _ h]

/-- A group that migrates nothing names no physical channel. -/
theorem noSource_ne (hp : p < 144) : ¬ (0xFF : Byte).toNat = p := by
  change ¬ 255 = p
  omega

section
variable (hp : p < 144) (hm : (s.group (p / 36)).migFrom = 0xFF)
include hm

/-- No migration's target or source fails here. -/
theorem failChannel_unserved (h : s.lchServed p = none) : failChannel p code s = if (s.pch p).st = .spare then
    State.modGroup (p / 36) (fun r => { r with spares := r.spares - 1 }) (failNoted p code s) else failNoted p code s := by
  unfold failChannel
  dsimp only
  rw [hm, h]
  rfl

include hp

theorem failChannel_replaced {l sp : Nat} (h : s.lchServed p = some l) (hsp : (failNoted p code s).spareOf (p / 36) = some sp) :
    failChannel p code s =
      State.modGroup (p / 36) (fun r => { r with spares := r.spares - 1 }) (replaceBy l sp 0 (failNoted p code s)) := by
  rw [failNoted] at hsp
  unfold failChannel
  dsimp only
  rw [hm, h, if_neg (by simp), hsp]
  exact if_neg (noSource_ne hp)

theorem failChannel_lost {l : Nat} (h : s.lchServed p = some l) (hsp : (failNoted p code s).spareOf (p / 36) = none) :
    failChannel p code s =
      serveHeld (p / 36) (State.modChmap l (fun m => { m with lost := true }) (chanFault 0x0209 p 0 (failNoted p code s))) := by
  rw [failNoted] at hsp
  unfold failChannel
  dsimp only
  rw [hm, h, if_neg (by simp), hsp]
  exact if_neg (noSource_ne hp)

/-- The failed channel stays failed, whatever takes its place, and its record is the first. -/
theorem failChannel_fails : ∃ x l, x.code = code ∧ (failChannel p code s).thal.inFlight = s.thal.inFlight ++ x :: l ∧
    ((failChannel p code s).pch p).st = .failed := by
  obtain ⟨x, hcode, hflight⟩ := chanFault_record code p 0
    (State.modPch p (fun r => { r with st := .failed, retrained := false, sparing := [] }) s)
  have hfailed := failNoted_pch (s := s) (p := p) (code := code)
  suffices h : (failNoted p code s).thal.inFlight <+: (failChannel p code s).thal.inFlight ∧ ((failChannel p code s).pch p).st = .failed by
    obtain ⟨⟨l, hl⟩, hst⟩ := h
    refine ⟨x, l, hcode, ?_, hst⟩
    rw [← hl, failNoted, hflight]
    simp
  cases hserved : s.lchServed p with
  | none =>
    rw [failChannel_unserved hm hserved]
    split
    · exact ⟨List.prefix_rfl, hfailed⟩
    · exact ⟨List.prefix_rfl, hfailed⟩
  | some l =>
    cases hsp : (failNoted p code s).spareOf (p / 36) with
    | some sp =>
      have hspare : ((failNoted p code s).pch sp).st = .spare := by
        have hfound := List.find?_some hsp
        simp only [Bool.and_eq_true, decide_eq_true_eq] at hfound
        exact hfound.1
      have hne : p ≠ sp := fun he => by rw [← he, hfailed] at hspare; exact absurd hspare (by decide)
      rw [failChannel_replaced hp hm hserved hsp, State.modGroup_pch, replaceBy_pch_ne l sp 0 hne, hfailed]
      exact ⟨List.prefix_rfl, rfl⟩
    | none =>
      have hlost : Spareless p (failNoted p code s)
          (State.modChmap l (fun m => { m with lost := true }) (chanFault 0x0209 p 0 (failNoted p code s))) :=
        .of_roles rfl (List.prefix_append ..)
      have hall := hlost.trans (serveHeld_spareless _ (p / 36))
      rw [failChannel_lost hp hm hserved hsp]
      exact ⟨hall.inFlight, (hall.kept hsp).1.trans hfailed⟩

end
end

/-! ### Retraining (R467, R468) -/

section
variable {p : Nat} {ok : Bool}

/-- The channel with the three repeats of a failed transfer counted. -/
def repeatsCounted (p : Nat) (s : State) : State := State.modPch p (fun r => { r with replay := satAdd r.replay 3 }) s

theorem repeatsCounted_pch : (repeatsCounted p s).pch p = { s.pch p with replay := satAdd (s.pch p).replay 3 } := State.modPch_pch ..

section
variable (hst : (s.pch p).st ≠ .failed)
include hst

/-- A failed transfer of a channel still in use: it has been retrained already, or is now. -/
theorem opRetrain_eq : opRetrain p ok s = if (s.pch p).retrained then failChannel p 0x0204 (repeatsCounted p s)
    else if ok then State.modPch p (fun r => { r with retrained := true }) (chanFault 0x0203 p 0 (repeatsCounted p s))
    else failChannel p 0x0204 (chanFault 0x0203 p 0 (repeatsCounted p s)) := by
  have hpch := repeatsCounted_pch (s := s) (p := p)
  have hst' : ((repeatsCounted p s).pch p).st ≠ .failed := by rwa [hpch]
  have hretrained : ((repeatsCounted p s).pch p).retrained = (s.pch p).retrained := by rw [hpch]
  rw [← hretrained]
  exact if_neg hst'

theorem opRetrain_again (h : (s.pch p).retrained = true) : opRetrain p ok s = failChannel p 0x0204 (repeatsCounted p s) :=
  (opRetrain_eq hst).trans (if_pos h)

theorem opRetrain_first (h : (s.pch p).retrained = false) : opRetrain p ok s =
    if ok then State.modPch p (fun r => { r with retrained := true }) (chanFault 0x0203 p 0 (repeatsCounted p s))
    else failChannel p 0x0204 (chanFault 0x0203 p 0 (repeatsCounted p s)) :=
  (opRetrain_eq hst).trans (if_neg (by simp [h]))

end
end

/-! ### Scrubbing (R478, R487) -/

/-- The scrub position and the passes made. -/
def State.scrubPos (s : State) : BitVec 23 × BitVec 9 := (s.mem.line, s.mem.passes)

section
variable (s : State)

theorem startMigration_scrubPos (l cause : Nat) : (startMigration l cause s).scrubPos = s.scrubPos := by
  cases h : s.spareOf (l / 32) with
  | none => rw [startMigration_none s l cause h]; rfl
  | some sp => rw [startMigration_some s l cause h]; rfl

theorem requestMigration_scrubPos (l cause : Nat) : (requestMigration l cause s).scrubPos = s.scrubPos := by
  unfold requestMigration
  dsimp only
  split
  · rfl
  · split
    · rfl
    · exact startMigration_scrubPos ..

theorem requestRowSpare_scrubPos (q row : Nat) : (requestRowSpare q row s).scrubPos = s.scrubPos := by
  unfold requestRowSpare
  dsimp only
  split
  · rfl
  · split
    · split
      · exact requestMigration_scrubPos ..
      · rfl
    · rfl

theorem noteUncorrectable_scrubPos (q row : Nat) : (noteUncorrectable q row s).scrubPos = s.scrubPos := requestRowSpare_scrubPos ..

theorem noteCorrection_scrubPos (q row : Nat) : (noteCorrection q row s).scrubPos = s.scrubPos := by
  unfold noteCorrection
  extract_lets old t u
  have hrow : u.scrubPos = s.scrubPos := by
    unfold u
    split
    · exact requestRowSpare_scrubPos t q row
    · rfl
  split
  · split
    · rw [requestMigration_scrubPos, hrow]
    · exact hrow
  · exact hrow

theorem lineEffects_scrubPos (i : Nat) (r : LineRead) (w : Bool) : (lineEffects i r w s).scrubPos = s.scrubPos := by
  unfold lineEffects
  dsimp only
  split
  · exact noteUncorrectable_scrubPos ..
  · split
    · exact noteCorrection_scrubPos ..
    · rfl

theorem transferOk_scrubPos (a : Nat) : (transferOk a s).scrubPos = s.scrubPos := by
  rw [transferOk_frame]
  rfl

theorem scrubLine_scrubPos (l : Nat) (errs : List SymErr) : (scrubLine l errs s).scrubPos = s.scrubPos := by
  unfold scrubLine
  extract_lets a i t r u
  have ht : t.scrubPos = s.scrubPos := transferOk_scrubPos s a
  split
  · rfl
  split
  · rw [lineEffects_scrubPos]
    exact ht
  split
  · exact ht
  · have hu : u.scrubPos = s.scrubPos := (lineEffects_scrubPos t i r false).trans ht
    split
    · exact hu
    · exact hu

theorem endPass_scrubPos : (endPass s).scrubPos = (s.mem.line, s.mem.passes + 1) :=
  foldl_keeps State.scrubPos (fun t p => State.modPch p (fun r => { r with rowTable := [], passCorr := 0 }) t) (fun _ _ => rfl) _ _

/-- The position moves on, and a pass is counted as it wraps. -/
theorem advanceScrub_scrubPos :
    (advanceScrub s).scrubPos = (s.mem.line + 1, if s.mem.line = 0x7FFFFF then s.mem.passes + 1 else s.mem.passes) := by
  have hline : BitVec.ofNat 23 (s.mem.line.toNat + 1) = s.mem.line + 1 := by bv_omega
  have hwrap : s.mem.line.toNat + 1 = 2 ^ 23 ↔ s.mem.line = 0x7FFFFF := by bv_omega
  unfold advanceScrub
  dsimp only
  rw [hline]
  split
  · next h => rw [endPass_scrubPos, if_pos (hwrap.mp h)]
  · next h => rw [if_neg (mt hwrap.mpr h)]; rfl

end

theorem opScrub_off {errs : List (LogChan × List SymErr)} (h : s.mem.scrubPeriod = 0 ∨ s.gctl.bootStage ≠ 4 ∨ s.mem.selfRefresh = true) :
    opScrub errs s = s := by
  refine if_pos ?_
  rcases h with h | h | h
  · simp [h]
  · have hstage : s.gctl.bootStage.toNat ≠ 4 := fun he => h (BitVec.eq_of_toNat_eq he)
    simp [hstage]
  · simp [h]

theorem opScrub_scrubPos {errs : List (LogChan × List SymErr)} (hperiod : s.mem.scrubPeriod ≠ 0) (hstage : s.gctl.bootStage = 4)
    (hawake : s.mem.selfRefresh = false) : (opScrub errs s).scrubPos =
      (s.mem.line + 1, if s.mem.line = 0x7FFFFF then s.mem.passes + 1 else s.mem.passes) := by
  have hruns : opScrub errs s = advanceScrub (forUpTo 128 (fun l t => scrubLine l (errsOf errs l) t) s) := by
    have hnonzero : s.mem.scrubPeriod.toNat ≠ 0 := fun he => hperiod (BitVec.eq_of_toNat_eq he)
    exact if_neg (by simp [hnonzero, hstage, hawake])
  have hpos : (forUpTo 128 (fun l t => scrubLine l (errsOf errs l) t) s).scrubPos = s.scrubPos :=
    foldl_keeps State.scrubPos (fun t l => scrubLine l (errsOf errs l) t) (fun t l => scrubLine_scrubPos t l _) _ s
  obtain ⟨hline, hpasses⟩ := Prod.mk.injEq .. ▸ hpos
  rw [hruns, advanceScrub_scrubPos, hline, hpasses]

/-! ### Row spares (R479, R492) -/

theorem copyLine_keeps (i : Nat) (errs : List SymErr) (s : State) :
    (copyLine i errs s).thal = s.thal ∧ (copyLine i errs s).mem.pchs = s.mem.pchs := by
  unfold copyLine
  dsimp only
  split <;> exact ⟨rfl, rfl⟩

theorem copyLine_bytes_out (i : Nat) (errs : List SymErr) (s : State) {b : Nat} (h : b < i * 64 ∨ i * 64 + 64 ≤ b) :
    tget 0 (copyLine i errs s).mem.bytes b = tget 0 s.mem.bytes b := by
  unfold copyLine
  dsimp only
  split
  · exact tget_putMem_out s _ b _ (by rwa [decodeLine_data_length])
  · rfl

/-- The bytes of line j of a row lie in that row of the channel. -/
theorem rowLine_of_in {l row j b : Nat} (hl : l < 128) (hj : j < 16) (hlo : addrOf l (row * 1024 + j * 64) / 64 * 64 ≤ b)
    (hhi : b < addrOf l (row * 1024 + j * 64) / 64 * 64 + 64) : lchOf b = l ∧ rowOf b = row := by
  simp only [addrOf] at hlo hhi
  simp only [lchOf, rowOf, chanOff, bits]
  omega

section
variable {l row : Nat} {errs : List (Fin 16 × List SymErr)}

theorem copyRow_keeps (s : State) : (copyRow l row errs s).thal = s.thal ∧ (copyRow l row errs s).mem.pchs = s.mem.pchs := by
  refine ⟨foldl_keeps State.thal _ (fun t j => (copyLine_keeps _ _ t).1) _ s, ?_⟩
  exact foldl_keeps (fun t : State => t.mem.pchs) _ (fun t j => (copyLine_keeps _ _ t).2) _ s

theorem copyRow_bytes_out (s : State) (hl : l < 128) {b : Nat} (h : lchOf b ≠ l ∨ rowOf b ≠ row) :
    tget 0 (copyRow l row errs s).mem.bytes b = tget 0 s.mem.bytes b := by
  unfold copyRow forUpTo
  refine List.foldlRecOn (motive := fun t : State => tget 0 t.mem.bytes b = tget 0 s.mem.bytes b) _ _ rfl fun t ht j hj => ?_
  refine (copyLine_bytes_out _ _ t ?_).trans ht
  by_contra hin
  rw [not_or, Nat.not_lt, Nat.not_le] at hin
  obtain ⟨hlch, hrow⟩ := rowLine_of_in hl (List.mem_range.mp hj) hin.1 hin.2
  exact h.elim (fun hne => hne hlch) fun hne => hne hrow

end

/-- The row's lines, copied where the channel serves a logical one. -/
def rowCopied (p row : Nat) (errs : List (Fin 16 × List SymErr)) (s : State) : State :=
  match s.lchServed p with
  | some l => copyRow l row errs (transferOk (addrOf l (row * 1024)) s)
  | none => s

/-- The row mapped to its spare. -/
def rowMapped (p row : Nat) : State → State := State.modPch p (fun r =>
  { r with sparing := r.sparing.filter (fun x => x ≠ row), sparedRows := addNew r.sparedRows row, sprows := r.sprows + 1,
           rowTable := r.rowTable.filter (fun x => x.1 ≠ row) })

section
variable {p row : Nat} {errs : List (Fin 16 × List SymErr)}

theorem rowCopied_keeps (s : State) : (rowCopied p row errs s).thal = s.thal ∧
    ∀ q, ((rowCopied p row errs s).pch q).sprows = (s.pch q).sprows := by
  unfold rowCopied
  split
  · next l _ =>
    obtain ⟨hthal, hpchs⟩ := copyRow_keeps (l := l) (row := row) (errs := errs) (transferOk (addrOf l (row * 1024)) s)
    refine ⟨hthal.trans (by rw [transferOk_frame]), fun q => ?_⟩
    have hpch : (copyRow l row errs (transferOk (addrOf l (row * 1024)) s)).pch q = (transferOk (addrOf l (row * 1024)) s).pch q := by
      rw [State.pch, hpchs, ← State.pch]
    rw [hpch, transferOk_pch]
    split <;> rfl
  · exact ⟨rfl, fun _ => rfl⟩

theorem rowCopied_bytes_out (s : State) (hp : p < 144) {b : Nat} (h : s.lchServed p ≠ some (lchOf b) ∨ rowOf b ≠ row) :
    tget 0 (rowCopied p row errs s).mem.bytes b = tget 0 s.mem.bytes b := by
  unfold rowCopied
  split
  · next l hl =>
    obtain ⟨hgroup, -⟩ := State.lchServed_some hl
    refine (copyRow_bytes_out _ (by omega) ?_).trans (by rw [transferOk_bytes])
    exact h.imp_left fun hne he => hne (he ▸ hl)
  · rfl

theorem opRowSpared_idle (h : (s.pch p).sparing.contains row = false) : opRowSpared p row errs s = s := if_neg (by rw [h]; decide)

theorem opRowSpared_done (h : (s.pch p).sparing.contains row = true) : opRowSpared p row errs s =
    serveHeld (p / 36) (reportCode 0x0205 (memDetail p row false 0) (rowMapped p row (rowCopied p row errs s))) := if_pos h

theorem mem_addNew {α : Type} [DecidableEq α] (l : List α) (x : α) : x ∈ addNew l x := by
  unfold addNew
  split <;> simp [*]

theorem rowMapped_pch (s : State) : row ∈ ((rowMapped p row s).pch p).sparedRows ∧ row ∉ ((rowMapped p row s).pch p).sparing ∧
    ((rowMapped p row s).pch p).sprows = (s.pch p).sprows + 1 := by
  rw [rowMapped, State.modPch_pch]
  exact ⟨mem_addNew _ _, by simp, rfl⟩

end

/-! ### Migration (R480, R482, R488) -/

theorem State.spareOf_range {g sp : Nat} (h : s.spareOf g = some sp) : sp < 36 * g + 36 := by
  have hmem := List.mem_of_find?_eq_some h
  simp only [List.mem_map, List.mem_range] at hmem
  obtain ⟨i, hi, rfl⟩ := hmem
  omega

theorem requestMigration_starts {l cause : Nat} (hlost : (s.chmap l).lost = false) (hidle : (s.group (l / 32)).migFrom = 0xFF)
    (hwait : (s.group (l / 32)).waiting = []) : requestMigration l cause s = startMigration l cause s := by
  unfold requestMigration
  dsimp only
  rw [hlost, hidle, hwait]
  rfl

/-- The group's migration, the old channel's state and the record of one that has started. -/
theorem startMigration_started {l cause sp : Nat} (h : s.spareOf (l / 32) = some sp) :
    (startMigration l cause s).group (l / 32) = { s.group (l / 32) with
      migFrom := BitVec.ofNat 8 (s.mappedPch l), migTo := BitVec.ofNat 8 sp, migBlocks := 0, migLch := l,
      spares := (s.group (l / 32)).spares - 1 } ∧
    ((startMigration l cause s).pch (s.mappedPch l)).st = .migrating ∧
    ∃ f : FaultRec, f.code = 0x0207 ∧ (startMigration l cause s).thal.inFlight = s.thal.inFlight ++ [f] := by
  rw [startMigration_some s l cause h, State.group_congr _ (chanFault_mem ..), State.pch_congr _ (chanFault_mem ..), State.modPch_group,
    State.modGroup_group, State.modPch_pch]
  exact ⟨rfl, rfl, chanFault_record ..⟩

section
variable {g : Nat} {errs : List (Fin 4 × List SymErr)}

theorem opBlockCopy_idle (h : (s.group g).migFrom = 0xFF ∨ s.mem.selfRefresh = true) : opBlockCopy g errs s = s :=
  if_pos (by simpa using h)

/-- The migration has reached its end: the map points to the spare, and the old channel retires. -/
def migrationEnded (g : Nat) (r : GroupRec) (s : State) : State :=
  State.modGroup g (fun r => { r with migFrom := 0xFF, migTo := 0xFF, migBlocks := 0 })
    (State.modPch r.migFrom.toNat (fun x => { x with st := .retired }) (State.modPch r.migTo.toNat (fun x => { x with st := .active })
      (State.modChmap r.migLch (fun m => { m with pch := some r.migTo }) s)))

section
variable (hmig : (s.group g).migFrom ≠ 0xFF) (hawake : s.mem.selfRefresh = false)
include hmig hawake

theorem opBlockCopy_eq : opBlockCopy g errs s = if (s.group g).migBlocks + 1 < chanBlocks then
      State.modGroup g (fun r => { r with migBlocks := r.migBlocks + 1 }) (copyBlock (s.group g) errs s)
    else startWaiting g 33 (chanFault 0x0208 (s.group g).migFrom.toNat 0 (migrationEnded g (s.group g) (copyBlock (s.group g) errs s))) :=
  if_neg (by simp only [hmig, hawake]; decide)

end

/-- Lines that arrive whole are copied as they are. -/
theorem copyBlock_whole (r : GroupRec) (s : State) :
    copyBlock r [] s = forUpTo 4 (fun j t => transferOk (addrOf r.migLch (r.migBlocks * 256 + j * 64)) t) s := by
  unfold copyBlock
  refine congrArg (fun f => forUpTo 4 f s) (funext fun j => funext fun t => ?_)
  simp only [List.find?_nil, decodeLine_intact, lineEffects_intact]
  exact if_neg Bool.false_ne_true

theorem copyBlock_whole_keeps (r : GroupRec) (s : State) :
    (copyBlock r [] s).thal = s.thal ∧ ∀ g, (copyBlock r [] s).group g = s.group g := by
  rw [copyBlock_whole]
  refine ⟨foldl_keeps State.thal _ (fun t j => ?_) _ s, fun g => foldl_keeps (fun t : State => t.group g) _ (fun t j => ?_) _ s⟩
  · dsimp only
    rw [transferOk_frame]
  · dsimp only
    rw [transferOk_frame]
    rfl

theorem startWaiting_none {n : Nat} (h : (s.group g).waiting = []) : startWaiting g n s = s := by
  cases n with
  | zero => rfl
  | succ n => rw [startWaiting, h]

theorem migrationEnded_group (r : GroupRec) (s : State) :
    (migrationEnded g r s).group g = { s.group g with migFrom := 0xFF, migTo := 0xFF, migBlocks := 0 } := by
  rw [migrationEnded, State.modGroup_group, State.modPch_group, State.modPch_group, State.modChmap_group]

theorem migrationEnded_channels {r : GroupRec} (hne : r.migFrom ≠ r.migTo) (s : State) :
    ((migrationEnded g r s).chmap r.migLch).pch = some r.migTo ∧ ((migrationEnded g r s).pch r.migTo.toNat).st = .active ∧
    ((migrationEnded g r s).pch r.migFrom.toNat).st = .retired := by
  have hne' : r.migTo.toNat ≠ r.migFrom.toNat := fun he => hne (BitVec.eq_of_toNat_eq he.symm)
  rw [migrationEnded, State.modGroup_chmap, State.modPch_chmap, State.modPch_chmap, State.modChmap_chmap, State.modGroup_pch, State.modGroup_pch,
    State.modPch_pch, State.modPch_pch_ne _ _ _ _ hne', State.modPch_pch]
  exact ⟨rfl, rfl, rfl⟩

/-- The last block of a migration whose group has no other request. -/
theorem opBlockCopy_last (hmig : (s.group g).migFrom ≠ 0xFF) (hawake : s.mem.selfRefresh = false)
    (hlast : chanBlocks ≤ (s.group g).migBlocks + 1) (hwait : (s.group g).waiting = []) : opBlockCopy g [] s =
      chanFault 0x0208 (s.group g).migFrom.toNat 0 (migrationEnded g (s.group g) (copyBlock (s.group g) [] s)) := by
  rw [opBlockCopy_eq hmig hawake, if_neg (Nat.not_lt.mpr hlast)]
  refine startWaiting_none ?_
  rw [State.group_congr _ (chanFault_mem ..), migrationEnded_group, (copyBlock_whole_keeps _ s).2, hwait]

end

/-! ### A stopped clock's waiting accesses, and token periods (R299, R300, R483, R558) -/

section
variable {g : Nat}

theorem opClockWait_idle (h : (s.group g).clockLost = false ∨ (s.group g).held = []) : opClockWait g s = s := by
  refine if_pos ?_
  rcases h with h | h <;> simp [h]

theorem opClockWait_expires (hlost : (s.group g).clockLost = true) (hheld : (s.group g).held ≠ []) : opClockWait g s =
    (s.group g).held.foldl (fun t x => emit (.readReply (BitVec.ofNat 8 x.init) none false) t)
      (State.modGroup g (fun r => { r with held := [] }) s) := by
  unfold opClockWait
  rw [if_pos hlost]
  exact if_neg hheld

/-- Replies sent one after another. -/
theorem foldl_emit {α : Type} (e : α → Emit) (l : List α) (s : State) :
    (l.foldl (fun t x => emit (e x) t) s).out = s.out ++ l.map e ∧ (l.foldl (fun t x => emit (e x) t) s).mem = s.mem := by
  refine ⟨?_, foldl_keeps State.mem (fun t x => emit (e x) t) (fun _ _ => rfl) l s⟩
  induction l generalizing s with
  | nil => simp
  | cons x l ih =>
    rw [List.foldl_cons, ih, List.map_cons, ← List.singleton_append, ← List.append_assoc]
    rfl

theorem opTokenPeriod_mem : (opTokenPeriod g s).mem = (State.modGroup g (fun r => { r with
    c0Used := BitVec.ofNat 16 (min r.c0Now 65535), c0Resv := BitVec.ofNat 16 (5390 * s.sched.c0Pct.toNat / 100), c0Now := 0 }) s).mem := by
  unfold opTokenPeriod
  dsimp only
  split
  · exact foldl_keeps State.mem (fun t p => State.modC0 p (fun c => { c with openVoid := { c.openVoid with fit := true } }) t) (fun _ _ => rfl) _ _
  · rfl

theorem opTokenPeriod_group : (opTokenPeriod g s).group g = { s.group g with
    c0Used := BitVec.ofNat 16 (min (s.group g).c0Now 65535), c0Resv := BitVec.ofNat 16 (5390 * s.sched.c0Pct.toNat / 100), c0Now := 0 } := by
  rw [State.group_congr _ opTokenPeriod_mem, State.modGroup_group]

end
end

/-! ### The obligation -/

section
variable {s : State} (hs : Runs s)
include hs

theorem retrain_clauses (p : PhysChan) (hst : (s.pch p).st ≠ .failed) :
    ((s.pch p).retrained = false → ∃ t r, exec (.memChannelRetrain p true) s = .next t ∧ (t.pch p).retrained = true ∧
      (t.pch p).replay = satAdd (s.pch p).replay 3 ∧ r.code = 0x0203 ∧ t.thal.inFlight = s.thal.inFlight ++ [r]) ∧
    ((s.pch p).retrained = false → (s.group (p.val / 36)).migFrom = 0xFF → ∃ t r x l, exec (.memChannelRetrain p false) s = .next t ∧
      (t.pch p).st = .failed ∧ r.code = 0x0203 ∧ x.code = 0x0204 ∧ t.thal.inFlight = s.thal.inFlight ++ r :: x :: l) ∧
    ((s.pch p).retrained = true → (s.group (p.val / 36)).migFrom = 0xFF → ∀ ok, ∃ t x l, exec (.memChannelRetrain p ok) s = .next t ∧
      (t.pch p).st = .failed ∧ x.code = 0x0204 ∧ t.thal.inFlight = s.thal.inFlight ++ x :: l) := by
  have hretrain : ∀ {ok : Bool} {t : State}, opRetrain p ok s = t → Completes (.memChannelRetrain p ok) s t :=
    fun ht => ht ▸ perform_runs s _ hs
  obtain ⟨r, hcode, hflight⟩ := chanFault_record 0x0203 p 0 (repeatsCounted p s)
  refine ⟨fun h => ?_, fun h hm => ?_, fun h hm ok => ?_⟩
  · refine ⟨_, r, hretrain (opRetrain_first hst h), ?_, ?_, hcode, ?_⟩
    · rw [keepLatch_pch, if_pos rfl, State.modPch_pch]
    · rw [keepLatch_pch, if_pos rfl, State.modPch_pch, State.pch_congr _ (chanFault_mem ..), repeatsCounted_pch]
    · rw [keepLatch_thal]; exact hflight
  · obtain ⟨x, l, hx, hfails, hfailed⟩ := failChannel_fails (s := chanFault 0x0203 p 0 (repeatsCounted p s)) (code := 0x0204) p.isLt hm
    refine ⟨_, r, x, l, hretrain (opRetrain_first hst h), ?_, hcode, hx, ?_⟩
    · rw [keepLatch_pch]; exact hfailed
    · rw [keepLatch_thal, if_neg (by decide), hfails, hflight]
      exact List.append_assoc ..
  · obtain ⟨x, l, hx, hfails, hfailed⟩ := failChannel_fails (s := repeatsCounted p s) (code := 0x0204) p.isLt hm
    refine ⟨_, x, l, hretrain (opRetrain_again hst h), ?_, hx, ?_⟩
    · rw [keepLatch_pch]; exact hfailed
    · rw [keepLatch_thal]; exact hfails

theorem rowSpared_clauses (p : PhysChan) (x : RowCopy) (hwf : (Instr.rowSpareDone p x).wf = true) :
    ((s.pch p).sparing.contains x.row = false → Completes (.rowSpareDone p x) s s) ∧
    ((s.pch p).sparing.contains x.row = true → ∃ u r, Completes (.rowSpareDone p x) s (serveHeld (p.val / 36) u) ∧
      x.row ∈ (u.pch p).sparedRows ∧ x.row ∉ (u.pch p).sparing ∧ (u.pch p).sprows = (s.pch p).sprows + 1 ∧ r.code = 0x0205 ∧
      u.thal.inFlight = s.thal.inFlight ++ [r] ∧
      ∀ b, s.lchServed p ≠ some (lchOf b) ∨ rowOf b ≠ x.row → tget 0 u.mem.bytes b = tget 0 s.mem.bytes b) := by
  have hdone : ∀ {t : State}, opRowSpared p x.row x.errs s = t → Completes (.rowSpareDone p x) s t := fun ht => ht ▸ performWf_runs s _ _ hwf hs
  refine ⟨fun h => hdone (opRowSpared_idle h), fun h => ?_⟩
  obtain ⟨hthal, hsprows⟩ := rowCopied_keeps (p := p) (row := x.row) (errs := x.errs) s
  obtain ⟨hspared, hsparing, hcount⟩ := rowMapped_pch (p := p) (row := x.row) (rowCopied p x.row x.errs s)
  obtain ⟨r, hcode, hflight⟩ := report_record { code := 0x0205, detail := BitVec.ofNat 64 (memDetail p x.row false 0) }
    (rowMapped p x.row (rowCopied p x.row x.errs s))
  refine ⟨_, r, hdone (opRowSpared_done h), hspared, hsparing, hcount.trans (by rw [hsprows]), hcode, ?_, fun b hb => ?_⟩
  · refine hflight.trans ?_
    rw [← hthal]
    rfl
  · exact rowCopied_bytes_out s p.isLt hb

theorem migrate_clauses (hbar : s.barUp = true) (v : Word32) :
    (v.getLsbD 7 = false → CompletesReg (.migrateRequest v) s s) ∧
    (v.getLsbD 7 = true → let l := bits v.toNat 6 0
      let g := l / 32
      (s.chmap l).lost = false → (s.group g).migFrom = 0xFF → (s.group g).waiting = [] →
      (s.spareOf g = none → ∃ t r, exec (.migrateRequest v) s = .next t ∧ t.mem = s.mem ∧ r.code = 0x0209 ∧
        t.thal.inFlight = s.thal.inFlight ++ [r]) ∧
      (∀ sp, s.spareOf g = some sp → ∃ t r, exec (.migrateRequest v) s = .next t ∧ (t.group g).migTo.toNat = sp ∧
        (t.group g).migFrom = BitVec.ofNat 8 (s.mappedPch l) ∧ (t.group g).migBlocks = 0 ∧ (t.pch (s.mappedPch l)).st = .migrating ∧
        r.code = 0x0207 ∧ t.thal.inFlight = s.thal.inFlight ++ [r])) := by
  have hmigrate : ∀ {t : State}, opMigrate v s = t → CompletesReg (.migrateRequest v) s t := fun ht => ht ▸ performBar_runs s _ hs hbar
  refine ⟨fun h => hmigrate (if_neg (by rw [h]; decide)), fun h => ?_⟩
  intro l g hlost hidle hwait
  have hstarts : opMigrate v s = startMigration l 2 s := (if_pos h).trans (requestMigration_starts hlost hidle hwait)
  refine ⟨fun hnone => ?_, fun sp hsp => ?_⟩
  · obtain ⟨r, hcode, hflight⟩ := chanFault_record 0x0209 (s.mappedPch l) 0 s
    refine ⟨_, r, hmigrate (hstarts.trans (startMigration_none s l 2 hnone)), ?_, hcode, ?_⟩
    · rw [keepLatch_mem, wakeEvent_mem, chanFault_mem]
    · rw [keepLatch_thal, wakeEvent_thal, hflight]
  · obtain ⟨hgroup, hold, r, hcode, hflight⟩ := startMigration_started (cause := 2) hsp
    have hl : l < 128 := Nat.mod_lt _ (by decide)
    have hsp256 : sp < 2 ^ 8 := by
      have hrange := State.spareOf_range hsp
      omega
    have hmem : (keepLatch s (wakeEvent 1 (startMigration l 2 s))).mem = (startMigration l 2 s).mem := by rw [keepLatch_mem, wakeEvent_mem]
    refine ⟨_, r, hmigrate hstarts, ?_, ?_, ?_, ?_, hcode, ?_⟩
    · rw [State.group_congr _ hmem, hgroup]
      exact Nat.mod_eq_of_lt hsp256
    · rw [State.group_congr _ hmem, hgroup]
    · rw [State.group_congr _ hmem, hgroup]
    · rw [State.pch_congr _ hmem, hold]
    · rw [keepLatch_thal, wakeEvent_thal, hflight]

/-- The last block of a migration, of lines that arrive whole. -/
theorem blockCopy_last (g : Group) (hmig : (s.group g).migFrom ≠ 0xFF) (hawake : s.mem.selfRefresh = false)
    (hlast : chanBlocks ≤ (s.group g).migBlocks + 1) (hwait : (s.group g).waiting = []) (hne : (s.group g).migFrom ≠ (s.group g).migTo) :
    ∃ t f, exec (.migrationBlockCopy ⟨g, []⟩) s = .next t ∧ (t.chmap (s.group g).migLch).pch = some (s.group g).migTo ∧
      (t.pch (s.group g).migTo.toNat).st = .active ∧ (t.pch (s.group g).migFrom.toNat).st = .retired ∧ (t.group g).migFrom = 0xFF ∧
      f.code = 0x0208 ∧ t.thal.inFlight = s.thal.inFlight ++ [f] := by
  have hexec : exec (.migrationBlockCopy ⟨g, []⟩) s = .next (keepLatch s (opBlockCopy g [] s)) := performWf_runs s _ _ rfl hs
  rw [opBlockCopy_last hmig hawake hlast hwait] at hexec
  obtain ⟨hthal, -⟩ := copyBlock_whole_keeps (s.group g) s
  generalize copyBlock (s.group g) [] s = u at hexec hthal
  generalize s.group g = r at hexec hne ⊢
  obtain ⟨f, hcode, hflight⟩ := chanFault_record 0x0208 r.migFrom.toNat 0 (migrationEnded g r u)
  obtain ⟨hmap, hto, hfrom⟩ := migrationEnded_channels (g := g) hne u
  have hmem := (keepLatch_mem s (chanFault 0x0208 r.migFrom.toNat 0 (migrationEnded g r u))).trans (chanFault_mem ..)
  refine ⟨_, f, hexec, ?_, ?_, ?_, ?_, hcode, ?_⟩
  · rw [State.chmap_congr _ hmem, hmap]
  · rw [State.pch_congr _ hmem, hto]
  · rw [State.pch_congr _ hmem, hfrom]
  · rw [State.group_congr _ hmem, migrationEnded_group]
  · rw [keepLatch_thal, hflight, ← hthal]
    rfl

theorem blockCopy_clauses (x : GroupCopy) (hwf : (Instr.migrationBlockCopy x).wf = true) : let g := x.group
    let r := s.group g
    (r.migFrom = 0xFF ∨ s.mem.selfRefresh = true → Completes (.migrationBlockCopy x) s s) ∧
    (r.migFrom ≠ 0xFF → s.mem.selfRefresh = false → r.migBlocks + 1 < chanBlocks →
      Completes (.migrationBlockCopy x) s (State.modGroup g (fun r => { r with migBlocks := r.migBlocks + 1 }) (copyBlock r x.errs s))) ∧
    (r.migFrom ≠ 0xFF → s.mem.selfRefresh = false → chanBlocks ≤ r.migBlocks + 1 → r.waiting = [] → r.migFrom ≠ r.migTo → x.errs = [] →
      ∃ t f, exec (.migrationBlockCopy x) s = .next t ∧ (t.chmap r.migLch).pch = some r.migTo ∧ (t.pch r.migTo.toNat).st = .active ∧
        (t.pch r.migFrom.toNat).st = .retired ∧ (t.group g).migFrom = 0xFF ∧ f.code = 0x0208 ∧ t.thal.inFlight = s.thal.inFlight ++ [f]) := by
  obtain ⟨g, errs⟩ := x
  have hcopy : ∀ {t : State}, opBlockCopy g errs s = t → Completes (.migrationBlockCopy ⟨g, errs⟩) s t :=
    fun ht => ht ▸ performWf_runs s _ _ hwf hs
  refine ⟨fun h => hcopy (opBlockCopy_idle h), fun hmig hawake hmore => hcopy ((opBlockCopy_eq hmig hawake).trans (if_pos hmore)),
    fun hmig hawake hlast hwait hne herrs => ?_⟩
  cases herrs
  exact blockCopy_last hs g hmig hawake hlast hwait hne

theorem group_clauses (g : Group) : let r := s.group g
    (r.clockLost = false ∨ r.held = [] → Completes (.mcgClockWaitExpiry g) s s) ∧
    (r.clockLost = true → r.held ≠ [] → ∃ t, exec (.mcgClockWaitExpiry g) s = .next t ∧ (t.group g).held = [] ∧
      t.out = s.out ++ r.held.map (fun x => .readReply (BitVec.ofNat 8 x.init) none false)) ∧
    (∃ t, exec (.tokenPeriod g) s = .next t ∧ (t.group g).c0Now = 0 ∧ (t.group g).c0Used.toNat = min r.c0Now 65535 ∧
      (t.group g).c0Resv = BitVec.ofNat 16 (5390 * s.sched.c0Pct.toNat / 100)) := by
  have hwait : ∀ {t : State}, opClockWait g s = t → Completes (.mcgClockWaitExpiry g) s t := fun ht => ht ▸ perform_runs s _ hs
  have htoken : exec (.tokenPeriod g) s = .next (keepLatch s (opTokenPeriod g s)) := perform_runs s _ hs
  refine ⟨fun h => hwait (opClockWait_idle h), fun hlost hheld => ⟨_, hwait (opClockWait_expires hlost hheld), ?_⟩, _, htoken, ?_⟩
  · obtain ⟨hout, hmem⟩ := foldl_emit (fun x : MemWait => .readReply (BitVec.ofNat 8 x.init) none false) (s.group g).held
      (State.modGroup g (fun r => { r with held := [] }) s)
    rw [keepLatch_group, State.group_congr _ hmem, State.modGroup_group, keepLatch_out, hout]
    exact ⟨rfl, rfl⟩
  · rw [keepLatch_group, opTokenPeriod_group]
    exact ⟨rfl, Nat.mod_eq_of_lt (by omega), rfl⟩

end

/-- Settles O17: a channel by whether its transfer had been retrained, a step of each upkeep by the position it has reached. -/
theorem memoryMaintenance : Obligations.MemoryMaintenance := by
  unfold Obligations.MemoryMaintenance
  intro s hs
  refine ⟨fun p hst => retrain_clauses hs p hst, fun l => ⟨perform_runs s _ hs, fun hheld => ⟨_, perform_runs s _ hs, ?_⟩⟩,
    fun errs hwf => ?_, fun p x hwf => rowSpared_clauses hs p x hwf, fun hbar v => migrate_clauses hs hbar v,
    fun x hwf => blockCopy_clauses hs x hwf, fun g => group_clauses hs g⟩
  · have hnone : ((State.modChmap l (fun m => { m with filling := false }) s).group (l.val / 32)).held = [] := hheld
    rw [keepLatch_chmap, opFillDone, serveHeld_none hnone, State.modGroup_chmap, State.modChmap_chmap]
  · have hscrub : exec (.scrubStep errs) s = .next (keepLatch s (opScrub errs s)) := performWf_runs s _ _ hwf hs
    refine ⟨fun h => hscrub.trans (by rw [opScrub_off h]), fun hperiod hstage hawake => ⟨_, hscrub, ?_⟩⟩
    rw [keepLatch_mem]
    exact Prod.mk.injEq .. ▸ opScrub_scrubPos hperiod hstage hawake

end Sys2Proof.Machine
end
